-- ==== Sys2Proof/Word.lean ====
section
/-!
DEFINITION. The word types of the Kildom K9 (R7, R8, R41, R62, R94) and the type of sparse tables.
-/

namespace Sys2Proof

/-- A 64-bit word: an s register, a queue entry, a control register, a memory-structure word. -/
abbrev Word := BitVec 64

/-- One lane of a v register or one accumulator element (R94, R115). -/
abbrev Lane := BitVec 32

/-- A byte of any address space (R8). -/
abbrev Byte := BitVec 8

/-- An instruction word (R41). -/
abbrev IWord := BitVec 96

/-- A rank: class in [31:24], ordinal in [23:0] (R133). -/
abbrev Rank := BitVec 32

/-- A sparse table: keys strictly rising; an unlisted key reads as the table's default. Plain data. -/
abbrev Tab (α : Type) := List (Nat × α)

/-- A memory: address and byte, an unlisted address reading as the memory's default byte. -/
abbrev Mem := Tab Byte

end Sys2Proof
end

