-- ==== Sys2Proof/Machine/Table.lean ====
section
/-!
DEFINITION. Sparse tables in canonical form: reading, writing, and runs of bytes in memories (R8, R103).
-/

namespace Sys2Proof

/-- The value at a key; `d` where the table lists none. -/
def tget {α : Type} (d : α) (k : Nat) : Tab α → α
  | [] => d
  | (k', v) :: t => if k' = k then v else tget d k t

/-- The table without a key. -/
def tdel {α : Type} (k : Nat) : Tab α → Tab α
  | [] => []
  | (k', v) :: t => if k' = k then tdel k t else (k', v) :: tdel k t

/-- The table with a value at a key, in rising key order; the default value is not listed. -/
def tset {α : Type} [DecidableEq α] (d : α) (k : Nat) (v : α) : Tab α → Tab α
  | [] => if v = d then [] else [(k, v)]
  | (k', v') :: t =>
    if k < k' then (if v = d then tdel k ((k', v') :: t) else (k, v) :: (k', v') :: t)
    else if k' = k then (if v = d then tdel k t else (k, v) :: t)
    else (k', v') :: tset d k v t

/-- Keys strictly rising from `lo`, and no entry equal to the default. -/
def tabOk {α : Type} [DecidableEq α] (d : α) : Nat → Tab α → Bool
  | _, [] => true
  | lo, (k, v) :: t => decide (lo ≤ k) && !decide (v = d) && tabOk d (k + 1) t

/-- The canonical form of a memory whose unlisted bytes read 0. -/
def Memory.wf (m : Mem) : Bool := tabOk 0 0 m

/-- One byte. -/
def mget (a : Nat) (m : Mem) : Byte := tget 0 a m

/-- n bytes from an address. -/
def mread (a : Nat) : Nat → Mem → List Byte
  | 0, _ => []
  | n + 1, m => mget a m :: mread (a + 1) n m

/-- Bytes stored from an address. -/
def mwrite (a : Nat) : List Byte → Mem → Mem
  | [], m => m
  | b :: bs, m => mwrite (a + 1) bs (tset 0 a b m)

/-- Single bytes stored, in order. -/
def mput : List (Nat × Byte) → Mem → Mem
  | [], m => m
  | (a, b) :: r, m => mput r (tset 0 a b m)

/-- Consecutive addresses paired with bytes. -/
def cellsAt (a : Nat) : List Byte → List (Nat × Byte)
  | [] => []
  | b :: bs => (a, b) :: cellsAt (a + 1) bs

/-- The little-endian number of a list of bytes, the first byte lowest (R8). -/
def leNat : List Byte → Nat
  | [] => 0
  | b :: bs => b.toNat + 256 * leNat bs

/-- The n bytes of a number, lowest first (R8). -/
def leBytes : Nat → Nat → List Byte
  | 0, _ => []
  | n + 1, v => BitVec.ofNat 8 v :: leBytes n (v / 256)

/-- The 64-bit word at an address (R8). -/
def mword (a : Nat) (m : Mem) : Word := BitVec.ofNat 64 (leNat (mread a 8 m))

/-- The i-th element of a list, or a default. -/
def nth {α : Type} (d : α) (l : List α) (i : Nat) : α := l.getD i d

/-- The list with its i-th element replaced; unchanged where there is none. -/
def setNth {α : Type} : List α → Nat → α → List α
  | [], _, _ => []
  | _ :: t, 0, v => v :: t
  | x :: t, i + 1, v => x :: setNth t i v

/-- The list without its i-th element. -/
def dropNth {α : Type} : List α → Nat → List α
  | [], _ => []
  | _ :: t, 0 => t
  | x :: t, i + 1 => x :: dropNth t i

/-- The position of the first element that a test accepts. -/
def findIdx {α : Type} (p : α → Bool) : List α → Option Nat
  | [] => none
  | x :: t => if p x then some 0 else (findIdx p t).map (· + 1)

/-- 0, 1, …, n − 1. -/
def upTo : Nat → List Nat
  | 0 => []
  | n + 1 => upTo n ++ [n]

/-- The n numbers from a on. -/
def from_ (a : Nat) : Nat → List Nat
  | 0 => []
  | n + 1 => a :: from_ (a + 1) n

end Sys2Proof
end

