-- ==== Sys2Proof/Syntax.lean ====
section
/-!
DEFINITION. The syntax of the Kildom K9: the operand fields of an instruction word (R41 to R50), the operands of
the events, and Instr, with one constructor per row of the opcode table.
-/

namespace Sys2Proof

/-- The streams of R65 and HINT.STREAM of R41. -/
inductive Stream where | S | V | E
  deriving DecidableEq, Repr

/-- TYPE codes of R48, in code order. -/
inductive Ty where
  | i8 | i16 | i32 | i64 | n8 | n16 | n32 | n64 | f16 | bf16 | f32 | f64 | sb4 | sb6 | sb9 | t4
  deriving DecidableEq, Repr

/-- RND codes of R48. -/
inductive Rnd where | rne | rtz | rdn | rup | dyn
  deriving DecidableEq, Repr

/-- SCOPE codes of R48, in code order. -/
inductive Scope where | none | slot | core | oct | clu | die | mod | dom
  deriving DecidableEq, Repr

/-- ORD codes of R48. -/
inductive Ord where | rlx | acq | rel | acqrel
  deriving DecidableEq, Repr

/-- Register files of R46 (kind 0b00); q stands only under the queue kind. -/
inductive File where | s | v | m | g | z | c
  deriving DecidableEq, Repr

/-- The virtual networks of R265 and R267. -/
inductive VN where | request | reply | clock | system
  deriving DecidableEq, Repr

/-- A decoded operand field (R45): nothing, a register with its ROT bit, a 19-bit immediate, or a queue register. -/
inductive Opnd where
  | none
  | reg (file : File) (rot : Bool) (num : BitVec 6)
  | imm (v : BitVec 19)
  | queue (peek : Bool) (num : BitVec 3)
  deriving DecidableEq, Repr

/-- The guard and hint fields, common to all words (R41 to R43). -/
structure Head where
  neg    : Bool := false
  guard  : BitVec 5 := 0
  stream : Stream := .S
  fin    : Bool := false
  yield  : Bool := false
  stall  : BitVec 4 := 0
  cache  : BitVec 3 := 0
  likely : Bool := false
  deriving DecidableEq, Repr

/-- The operand fields of a word. `pair` holds the 42-bit immediate when IMMPAIR is 1 (R44), and then b and c are
`none`. A modifier that the opcode's layout (R47, R54) does not hold stands at its first code. `msk`, `flg` and
`opf` are MSK, FLG and OPF of R49. -/
structure Operands where
  head  : Head := {}
  a     : Opnd := .none
  b     : Opnd := .none
  c     : Opnd := .none
  pair  : Option (BitVec 42) := none
  ty    : Ty := .i8
  sat   : Bool := false
  rnd   : Rnd := .rne
  scope : Scope := .none
  ord   : Ord := .rlx
  msk   : BitVec 3 := 0
  flg   : BitVec 4 := 0
  opf   : BitVec 5 := 0
  deriving DecidableEq, Repr

/-- What a resume operation names: a frame of a partition (R208), or a PARKED slot (R152). -/
inductive ResumeTarget where
  | frame (part die n : Nat)
  | parked (core slot : Nat)
  deriving DecidableEq, Repr

/-- A 64-bit granule that an ECC event strikes (R214): its structure and address. -/
inductive Granule where
  | glb (addr : Nat)
  | shm (die addr : Nat)
  | loc (core addr : Nat)
  | acc (core index : Nat)
  | sreg (core slot num : Nat)
  | vreg (core slot num word : Nat)
  | qreg (core slot num entry : Nat)
  | mreg (core slot num : Nat)
  | other (structure_ index : Nat)
  deriving DecidableEq, Repr

/-- The kind of a message of the part's own: an ownership message's code (R174), or a clock message's TYPE (R297). -/
inductive FabricKind where
  | ownership (code : Nat)
  | clock (type : Nat)
  deriving DecidableEq, Repr

/-- An event of a system core that matchers look for (R312): a write of its address-translation register with an ASID; an
environment call from user mode with a value in a7; a trap with an interrupt cause. A write to PANIC is an instruction of its
own. -/
inductive SysEvent where
  | contextSwitch (sysCore asid : Nat)
  | systemCall (sysCore a7 : Nat)
  | interrupt (sysCore cause : Nat)
  deriving DecidableEq, Repr

/-- A weir-table entry (R166). -/
structure WeirEntry where
  valid  : Bool := false
  base   : Nat := 0
  length : Nat := 0
  ty     : Ty := .f32
  expb   : Int := 0
  deriving DecidableEq, Repr

/-- A boot copy in the module flash (R329). -/
structure BootCopy where
  magic   : Word := 0
  version : Nat := 0
  length  : Nat := 0
  pubkey  : List Byte := []
  sig     : List Byte := []
  image   : List Byte := []
  deriving DecidableEq, Repr

/-- Registers of the system dies' register space that the spec names (R206, R312 to R315, R328, R332), and the
per-partition and per-die values that the OS sets: LPTBASE (R97), and frames put into a migration pool (R175). -/
inductive SysReg where
  | ringBase (ring : Nat) | ringCtl (ring : Nat)
  | matcher (n : Nat) | filter (n : Nat) | capstat
  | traceBase (die : Nat)
  | ksctl | kdata (n : Nat) | hlerr
  | mcast (die router group : Nat) | member (die cluster index : Nat) | memberGroup (die cluster index : Nat)
  | lptbase
  | migPool (die : Nat)
  deriving DecidableEq, Repr

/-- A stage of a launch image (R37): actor entry, input ports (edge, rate), output ports (edge, rate), the cores
that the OS placed for it under R92, and its bounds. -/
structure StageDecl where
  entry : Word := 0
  ins   : List (Nat × Nat) := []
  outs  : List (Nat × Nat) := []
  count : Nat := 1
  lo    : Nat := 1
  hi    : Nat := 1
  /-- dies with pages named for the stage by .place, with the number of pages -/
  pages : List (Nat × Nat) := []
  deriving DecidableEq, Repr

/-- An edge of the pipeline: depth and marks (R37). -/
structure EdgeDecl where
  depth : Nat := 2
  high  : Nat := 1
  low   : Nat := 0
  deriving DecidableEq, Repr

/-- A local-time link of a launch image (R37): source, destination, lookahead. -/
structure LinkDecl where
  srcStage : Nat := 0
  srcIdx   : Nat := 0
  dstStage : Nat := 0
  dstIdx   : Nat := 0
  look     : Nat := 0
  deriving DecidableEq, Repr

/-- A group of a launch image (R37, R87): number, ranges of core indices with both ends, and the four words of its table
entry, word 0 first, as they are to be written; its member list stands in GLB where the entry says. -/
structure GroupDecl where
  id     : Nat := 0
  ranges : List (Nat × Nat) := []
  entry  : List Word := []
  deriving DecidableEq, Repr

/-- The binary operators of an expression (R24). -/
inductive POp where | mul | div | rem | add | sub | shl | shr | and | xor | or
  deriving DecidableEq, Repr

/-- An expression over launch parameters, which are numbered (R24, R39). -/
inductive PExpr where
  | lit (v : Word) | par (n : Nat) | neg (a : PExpr) | inv (a : PExpr) | bin (op : POp) (a b : PExpr)
  deriving DecidableEq, Repr

/-- The space of a .data block (R37): glb, by physical address in an image; loc and shm, by offset. -/
inductive DataSpace where | glb | loc | shm
  deriving DecidableEq, Repr

/-- What a patch rewrites (R39): the 19-bit immediate or the immediate pair of the instruction word at a physical address; a
data item of a type, an SB block, or a T4 code in the low or high half of a byte, where it stands in a data space; BASE or SIZE of the
LOC region at a physical address; an item of a directive, by its place in the image and the port or range in it. -/
inductive PatchTarget where
  | imm (addr : Nat) | pair (addr : Nat)
  | item (space : DataSpace) (addr : Nat) (ty : Ty) | sbblock (space : DataSpace) (addr : Nat) (fmt : Ty)
  | t4 (space : DataSpace) (addr : Nat) (high : Bool)
  | regionBase (addr : Nat) | regionSize (addr : Nat)
  | clusters
  | stageCores (i : Nat) | stageMin (i : Nat) | stageMax (i : Nat) | inRate (i port : Nat) | outRate (i port : Nat)
  | edgeDepth (i : Nat) | edgeHigh (i : Nat) | edgeLow (i : Nat)
  | linkSrc (i : Nat) | linkDst (i : Nat) | linkLook (i : Nat)
  | groupId (i : Nat) | groupFrom (i range : Nat) | groupTo (i range : Nat) | groupRank (i : Nat)
  | tileIndex (i : Nat) | tileBase (i : Nat) | tileSize (i : Nat) | tileRank (i : Nat)
  deriving DecidableEq, Repr

/-- An entry of the patch list (R39): its expression; of an SB block, that of its first value, with those of the other 15. -/
structure Patch where
  target : PatchTarget
  expr   : PExpr
  more   : List PExpr := []
  deriving DecidableEq, Repr

/-- A tile-table entry of a launch image (R37). -/
structure TileDecl where
  stage : Nat := 0
  index : Nat := 0
  base  : Nat := 0
  size  : Nat := 1
  ready : Bool := false
  rank  : Rank := 0
  deriving DecidableEq, Repr

/-- What the OS launches (R36, R91): the grant, the tables, the memory contents that the loader writes, the parameter table
with its patch list, and the values that the launching software gives. -/
structure Image where
  part      : Nat := 0
  asid      : BitVec 16 := 0
  clusters  : List Nat := []
  /-- the number of clusters that .launch names -/
  need      : Nat := 1
  root      : Nat := 0
  lt        : Bool := false
  /-- the launch parameter ltquantum, if it is declared (R287) -/
  ltquantum : Option Nat := none
  /-- the parameter table: each parameter with its default value -/
  params    : List (Nat × Word) := []
  /-- the values that the launching software gives -/
  given     : List (Nat × Word) := []
  patches   : List Patch := []
  stepping  : BitVec 16 := 0
  /-- the words of every code block, in sequence (R61) -/
  code      : List IWord := []
  /-- physical bytes written by the loader: page tables, code and data -/
  bytes     : List (Nat × Byte) := []
  locBytes  : List (Nat × Byte) := []
  shmBytes  : List (Nat × Byte) := []
  /-- the partition's SHM grants: die, first address, and length (R112) -/
  shmGrants : List (Nat × Nat × Nat) := []
  /-- home-directory entries: page VA[55:16], owning die, SIZE -/
  homes     : List (Nat × Nat × Bool) := []
  handlers  : List (Nat × Word) := []
  /-- entry addresses of the .actor and .handler blocks (R37) -/
  entries   : List Word := []
  classes   : List Nat := []
  groups    : List GroupDecl := []
  tiles     : List TileDecl := []
  edges     : List EdgeDecl := []
  stages    : List StageDecl := []
  links     : List LinkDecl := []
  pushBase  : Word := 0
  frameBase : Word := 0
  deadBase  : Word := 0
  deadSize  : Nat := 0
  bindWait  : Nat := 4096
  /-- explicit keys of .data blocks, each with its block's number, and the key slots granted to the partition (R37) -/
  keys      : List (Nat × Nat) := []
  granted   : List Nat := []
  pred      : Option Nat := none
  /-- mode of the cores as TRCCTL.RMODE codes it, and their logs: core, base, length and number of entries (R317, R321) -/
  rmode     : Nat := 0
  logs      : List (Nat × Nat × Nat × Nat) := []
  deriving DecidableEq, Repr

/-- The rows of the opcode table: instruction words of R52, each with its operand fields, and the events of the
hardware, the OS and the host, each with the operands that say where it happens and what its cause chooses. -/
inductive Instr where
  /-- ABS (R344): Writes the absolute value of a w-bit integer source to an s register, with SAT applied. -/
  | abs (w : Operands)
  /-- ADD (R344): Adds two w-bit integers, or a register and an immediate or immediate pair, and fits the sum under SAT. -/
  | add (w : Operands)
  /-- AND (R344): Writes the bitwise AND of two w-bit integer operands. -/
  | and (w : Operands)
  /-- ANDN (R344): Writes the bitwise AND of one operand with the complement of the other. -/
  | andn (w : Operands)
  /-- BSWAP (R344): Reverses the bytes of a w-bit value. -/
  | bswap (w : Operands)
  /-- CLZ (R344): Counts the leading zero bits of a w-bit value. -/
  | clz (w : Operands)
  /-- CTZ (R344): Counts the trailing zero bits of a w-bit value. -/
  | ctz (w : Operands)
  /-- CMP (R358): Compares two integers and writes less-than and equal into a pair of guards. -/
  | cmp (w : Operands)
  /-- DIV (R362): Divides two integers, truncating toward zero, and never traps. -/
  | div (w : Operands)
  /-- EXTS (R366): Extracts a bit field and sign-extends it. -/
  | exts (w : Operands)
  /-- EXTZ (R366): Extracts a bit field and zero-extends it. -/
  | extz (w : Operands)
  /-- INS (R366): Inserts a bit field of the source into the tied destination. -/
  | ins (w : Operands)
  /-- LI (R379): Loads an immediate, or an immediate pair, extended by TYPE. -/
  | li (w : Operands)
  /-- LIH (R379): Replaces the high 32 bits of the destination with an immediate. -/
  | lih (w : Operands)
  /-- MADR (R384): Multiplies two integers, adds the tied destination exactly, and fits the result under SAT. -/
  | madr (w : Operands)
  /-- MAX (R384): Writes the greater of two integers, compared by signedness. -/
  | max (w : Operands)
  /-- MIN (R384): Writes the lesser of two integers, compared by signedness. -/
  | min (w : Operands)
  /-- MOV (R389): Copies one operand whole between s, v, m or q registers, as its stream allows. -/
  | mov (w : Operands)
  /-- MUL (R384): Multiplies two integers and fits the product under SAT. -/
  | mul (w : Operands)
  /-- MULH (R384): Writes the high half of the exact 2w-bit product. -/
  | mulh (w : Operands)
  /-- NEG (R384): Negates an integer under SAT. -/
  | neg (w : Operands)
  /-- OR (R384): Writes the bitwise OR of two operands. -/
  | or (w : Operands)
  /-- POPC (R384): Counts the one bits of a w-bit value. -/
  | popc (w : Operands)
  /-- REM (R384): Writes the truncating remainder, which has the sign of the dividend, and never traps. -/
  | rem (w : Operands)
  /-- ROL (R384): Rotates a w-bit value left by a count taken mod w. -/
  | rol (w : Operands)
  /-- SAR (R402): Shifts right arithmetically by an unsigned count. -/
  | sar (w : Operands)
  /-- SEL (R402): Selects bits of two sources under the mask held in the tied destination. -/
  | sel (w : Operands)
  /-- SHL (R402): Shifts left, giving 0 for a count of w or more. -/
  | shl (w : Operands)
  /-- SHR (R402): Shifts right logically, giving 0 for a count of w or more. -/
  | shr (w : Operands)
  /-- SUB (R402): Subtracts two integers and fits the difference under SAT. -/
  | sub (w : Operands)
  /-- XOR (R445): Writes the bitwise XOR of two operands. -/
  | xor (w : Operands)
  /-- FABS (R368): Clears the sign bit of a floating-point value. -/
  | fabs (w : Operands)
  /-- FADD (R368): Adds two floating-point values, rounded once. -/
  | fadd (w : Operands)
  /-- FCMP (R369): Compares two floating-point values into a guard pair. -/
  | fcmp (w : Operands)
  /-- FCVT (R370): Converts a scalar between integer and IEEE types, rounding once. -/
  | fcvt (w : Operands)
  /-- FDIV (R368): Divides two floating-point values, rounded once. -/
  | fdiv (w : Operands)
  /-- FFMA (R368): Computes d + b × c exactly and rounds once. -/
  | ffma (w : Operands)
  /-- FMAX (R368): Writes maximumNumber of two floating-point values. -/
  | fmax (w : Operands)
  /-- FMIN (R368): Writes minimumNumber of two floating-point values. -/
  | fmin (w : Operands)
  /-- FMUL (R368): Multiplies two floating-point values, rounded once. -/
  | fmul (w : Operands)
  /-- FNEG (R368): Flips the sign bit of a floating-point value. -/
  | fneg (w : Operands)
  /-- FSQRT (R368): Writes the square root of a floating-point value, rounded once. -/
  | fsqrt (w : Operands)
  /-- FSUB (R368): Subtracts two floating-point values, rounded once. -/
  | fsub (w : Operands)
  /-- BR (R354): Branches to a PC-relative target under its guard. -/
  | br (w : Operands)
  /-- BRL (R354): Branches to a relative or register target and writes the link address. -/
  | brl (w : Operands)
  /-- CHK (R197): Branches when the deferral bit of an s register is set. -/
  | chk (w : Operands)
  /-- END (R364): Ends the activation once every earlier word has issued; it frees the slot or faults with OBL_AT_END. -/
  | endOp (w : Operands)
  /-- JMP (R374): Transfers to an absolute address held in a register. -/
  | jmp (w : Operands)
  /-- LOOP (R380): Decrements a count and branches while the result is nonzero. -/
  | loop (w : Operands)
  /-- NOP (R390): Does nothing in S, V or E. -/
  | nop (w : Operands)
  /-- RET (R397): Returns to a register address, predicted by the return stack. -/
  | ret (w : Operands)
  /-- YIELD (R446): Ends the slot's turn and moves the slot to the end of the round-robin order. -/
  | yield (w : Operands)
  /-- GAND (R372): Writes the AND of two guards. -/
  | gand (w : Operands)
  /-- GNOT (R372): Writes the complement of a guard. -/
  | gnot (w : Operands)
  /-- GOR (R372): Writes the OR of two guards. -/
  | gor (w : Operands)
  /-- MALL (R385): Sets a guard true when every lane below the vector length is set in the mask. -/
  | mall (w : Operands)
  /-- MAND (R385): Writes the AND of two masks. -/
  | mand (w : Operands)
  /-- MANY (R385): Sets a guard true when any lane below the vector length is set in the mask. -/
  | many (w : Operands)
  /-- MFIRST (R385): Keeps only the lowest set mask bit below the vector length. -/
  | mfirst (w : Operands)
  /-- MNOT (R385): Complements a mask below the vector length. -/
  | mnot (w : Operands)
  /-- MOR (R385): Writes the OR of two masks. -/
  | mor (w : Operands)
  /-- MPOP (R385): Counts the set mask bits into a v register or pushes the count to a queue register. -/
  | mpop (w : Operands)
  /-- VABS (R426): Writes the absolute value of each active lane. -/
  | vabs (w : Operands)
  /-- VADD (R426): Adds the active lanes. -/
  | vadd (w : Operands)
  /-- VAND (R426): ANDs the active integer lanes. -/
  | vand (w : Operands)
  /-- VCMP (R428): Compares the active lanes into a pair of masks. -/
  | vcmp (w : Operands)
  /-- VCVT (R429): Converts each active lane between lane types. -/
  | vcvt (w : Operands)
  /-- VDOT4 (R430): Accumulates four-element dot products into the tied destination. -/
  | vdot4 (w : Operands)
  /-- VEXP2 (R431): Computes 2^x per lane within the stated bound. -/
  | vexp2 (w : Operands)
  /-- VEXT (R432): Pushes one lane to a queue register. -/
  | vext (w : Operands)
  /-- VFMA (R426): Computes a fused multiply-add per active lane. -/
  | vfma (w : Operands)
  /-- VINS (R432): Writes a scalar or queue value into one lane. -/
  | vins (w : Operands)
  /-- VLGET (R434): Grants min(n, VLMAX) as the vector length and writes it to an s register. -/
  | vlget (w : Operands)
  /-- VLOG2 (R431): Computes log2 x per lane within the stated bound. -/
  | vlog2 (w : Operands)
  /-- VMAX (R426): Writes the greater value per active lane. -/
  | vmax (w : Operands)
  /-- VMIN (R426): Writes the lesser value per active lane. -/
  | vmin (w : Operands)
  /-- VMOV (R427): Copies the active lanes of a vector register. -/
  | vmov (w : Operands)
  /-- VMUL (R426): Multiplies the active lanes. -/
  | vmul (w : Operands)
  /-- VOR (R426): ORs the active integer lanes. -/
  | vor (w : Operands)
  /-- VPERM (R433): Permutes lanes by an index vector. -/
  | vperm (w : Operands)
  /-- VQNT (R435): Quantises 16 lanes into one SB block. -/
  | vqnt (w : Operands)
  /-- VRCP (R431): Computes an approximate reciprocal per lane. -/
  | vrcp (w : Operands)
  /-- VRED (R436): Reduces the active lanes by a fixed tree and writes the result to every lane. -/
  | vred (w : Operands)
  /-- VRSQ (R431): Computes an approximate reciprocal square root per lane. -/
  | vrsq (w : Operands)
  /-- VSAR (R426): Shifts the active lanes right arithmetically. -/
  | vsar (w : Operands)
  /-- VSCAN (R436): Writes the running combination into each active lane. -/
  | vscan (w : Operands)
  /-- VSEL (R427): Selects each lane from one of two sources by the mask. -/
  | vsel (w : Operands)
  /-- VSHL (R426): Shifts the active lanes left. -/
  | vshl (w : Operands)
  /-- VSHR (R426): Shifts the active lanes right logically. -/
  | vshr (w : Operands)
  /-- VSLIDE (R433): Slides lanes by a signed offset, filling with zero. -/
  | vslide (w : Operands)
  /-- VSPLAT (R426): Writes one scalar, queue or immediate value to every active lane. -/
  | vsplat (w : Operands)
  /-- VSUB (R426): Subtracts the active lanes. -/
  | vsub (w : Operands)
  /-- VXOR (R426): XORs the active integer lanes. -/
  | vxor (w : Operands)
  /-- LDG (R376): Loads a scalar from GLB. -/
  | ldg (w : Operands)
  /-- LDL (R376): Loads a scalar from LOC under the protection regions. -/
  | ldl (w : Operands)
  /-- LDS (R376): Loads a scalar from the die's SHM. -/
  | lds (w : Operands)
  /-- LDZ (R378): Copies one accumulator row into a vector register. -/
  | ldz (w : Operands)
  /-- STG (R413): Stores a scalar to GLB. -/
  | stg (w : Operands)
  /-- STL (R413): Stores a scalar to LOC. -/
  | stl (w : Operands)
  /-- STS (R413): Stores a scalar to SHM. -/
  | sts (w : Operands)
  /-- STZ (R415): Writes one accumulator row from a vector register. -/
  | stz (w : Operands)
  /-- VLDG (R438): Loads a vector contiguously from GLB, decoding by page format. -/
  | vldg (w : Operands)
  /-- VLDL (R438): Loads a vector contiguously from LOC. -/
  | vldl (w : Operands)
  /-- VLDS (R438): Loads a vector contiguously from SHM. -/
  | vlds (w : Operands)
  /-- VSTG (R438): Stores a vector contiguously to GLB, encoding by page format. -/
  | vstg (w : Operands)
  /-- VSTL (R438): Stores a vector contiguously to LOC. -/
  | vstl (w : Operands)
  /-- VSTS (R438): Stores a vector contiguously to SHM. -/
  | vsts (w : Operands)
  /-- VGTHG (R440): Gathers lanes from GLB by index. -/
  | vgthg (w : Operands)
  /-- VGTHL (R440): Gathers lanes from LOC by index. -/
  | vgthl (w : Operands)
  /-- VGTHS (R440): Gathers lanes from SHM by index. -/
  | vgths (w : Operands)
  /-- VSCTG (R440): Scatters lanes to GLB by index, in ascending lane order. -/
  | vsctg (w : Operands)
  /-- VSCTL (R440): Scatters lanes to LOC by index. -/
  | vsctl (w : Operands)
  /-- VSCTS (R440): Scatters lanes to SHM by index. -/
  | vscts (w : Operands)
  /-- PREF (R394): Fetches a GLB line ahead of use and never faults. -/
  | pref (w : Operands)
  /-- AMOG (R347): Performs an atomic operation on a GLB element and returns the old value. -/
  | amog (w : Operands)
  /-- AMOS (R347): Performs an atomic operation on an SHM element at its bank and returns the old value. -/
  | amos (w : Operands)
  /-- CASG (R356): Compares and swaps a GLB element. -/
  | casg (w : Operands)
  /-- CASS (R356): Compares and swaps an SHM element. -/
  | cass (w : Operands)
  /-- REDG (R396): Adds a value into a GLB element, in a weir or an exact accumulator where those apply. -/
  | redg (w : Operands)
  /-- REDS (R396): Adds a value into an SHM element at its bank. -/
  | reds (w : Operands)
  /-- VREDS (R440): Sends each active lane's addition to its SHM bank. -/
  | vreds (w : Operands)
  /-- FENCE (R163): Orders the activation's earlier accesses against its later ones. -/
  | fence (w : Operands)
  /-- FENCER (R164): Orders only those accesses that overlap a GLB range. -/
  | fencer (w : Operands)
  /-- WAITA (R443): Queues the activation as a sleeper on a signal block header. -/
  | waita (w : Operands)
  /-- WAKEA (R444): Releases the n oldest WAITA sleepers of a header. -/
  | wakea (w : Operands)
  /-- OBLGIVE (R392): Stages units of a held obligation for the next consuming word. -/
  | oblgive (w : Operands)
  /-- OBLQRY (R392): Reads one word of a tumbler entry. -/
  | oblqry (w : Operands)
  /-- OBLTAKE (R392): Adds SIGNAL units on a block to the issuer's table and to the block's HOLDERS. -/
  | obltake (w : Operands)
  /-- SIGADD (R406): Adds to a block's VALUE as a release, discharging one unit if held. -/
  | sigadd (w : Operands)
  /-- SIGFREE (R408): Makes a block not live once it has no holders and no waiters. -/
  | sigfree (w : Operands)
  /-- SIGNEW (R405): Makes a block live with a drawn rank, optionally owing one unit. -/
  | signew (w : Operands)
  /-- SIGSET (R406): Sets a block's VALUE as a release, discharging one unit if held. -/
  | sigset (w : Operands)
  /-- SIGWAIT (R407): Waits as a ranked wait until a block's VALUE reaches a target. -/
  | sigwait (w : Operands)
  /-- BARA (R350): Arrives at the current barrier phase of a group as a release. -/
  | bara (w : Operands)
  /-- BARW (R351): Waits for the release of the phase of the core's last arrival. -/
  | barw (w : Operands)
  /-- GRPQRY (R373): Reads the status or an entry word of a group. -/
  | grpqry (w : Operands)
  /-- BIND (R271): Binds an entry address to a message type in the handler table. -/
  | bind (w : Operands)
  /-- UNBIND (R271): Clears the handler-table entry of a type. -/
  | unbind (w : Operands)
  /-- SEND (R269): Sends a request or reply message, with obligations optionally given. -/
  | send (w : Operands)
  /-- SPAWN (R410): Requests a child on a named core, and runs it inline on refusal. -/
  | spawn (w : Operands)
  /-- SLOPEN (R278): Asks for a sluice route into a remote empty tile. -/
  | slopen (w : Operands)
  /-- SLWR (R278): Writes data down an open sluice. -/
  | slwr (w : Operands)
  /-- SLCLOSE (R278): Sends a sluice's closing marker and waits for its acknowledgement. -/
  | slclose (w : Operands)
  /-- LTADV (R305): Raises the core's LVT and announces on the output links that are due. -/
  | ltadv (w : Operands)
  /-- LTANN (R305): Sends an announcement on every output link. -/
  | ltann (w : Operands)
  /-- LTGET (R307): Reads a local-time item by selector. -/
  | ltget (w : Operands)
  /-- LTLOOK (R308): Declares a new message or engine link with a lookahead. -/
  | ltlook (w : Operands)
  /-- LTNULL (R306): Raises FLOOR on output links and sends null events. -/
  | ltnull (w : Operands)
  /-- LTSET (R305): Raises the activation's stamp. -/
  | ltset (w : Operands)
  /-- LTWAIT (R309): Waits until no event stamped below a target can still be dispatched. -/
  | ltwait (w : Operands)
  /-- MMA (R388): Captures its operands and enqueues a matrix multiply-accumulate command. -/
  | mma (w : Operands)
  /-- MMDRAIN (R388): Enqueues a command that drains a tile to a remote LOC tile and sends a wake-up. -/
  | mmdrain (w : Operands)
  /-- MMROW (R257): Reads a tile's row-progress record. -/
  | mmrow (w : Operands)
  /-- MMZ (R388): Enqueues a command that zeroes an accumulator tile. -/
  | mmz (w : Operands)
  /-- CPY (R360): Enqueues a contiguous copy command. -/
  | cpy (w : Operands)
  /-- CPYG (R360): Enqueues a strided copy command. -/
  | cpyg (w : Operands)
  /-- COLAG (R359): Enqueues an all-gather over a group, taking shard signal units. -/
  | colag (w : Operands)
  /-- COLRS (R359): Enqueues a reduce-scatter over a group. -/
  | colrs (w : Operands)
  /-- RPT (R398): Opens a repetition body reissued COUNT times with rotation. -/
  | rpt (w : Operands)
  /-- RPTEND (R259): Closes an open repetition body. -/
  | rptend (w : Operands)
  /-- TBLLD (R416): Loads the core's 16-entry T4 table from a vector register. -/
  | tblld (w : Operands)
  /-- TBLX (R416): Expands T4 codes through the table into lanes. -/
  | tblx (w : Operands)
  /-- TLDEF (R418): Defines a tile-table entry that is empty. -/
  | tldef (w : Operands)
  /-- TLQRY (R418): Reads a tile-table entry. -/
  | tlqry (w : Operands)
  /-- TLSET (R419): Requests a tile state change, waiting where R110 says. -/
  | tlset (w : Operands)
  /-- BRK (R355): Faults with BREAKPOINT for a debugger. -/
  | brk (w : Operands)
  /-- MFC (R387): Reads a control register into an s register. -/
  | mfc (w : Operands)
  /-- MTC (R387): Writes a control register, under the privilege rules. -/
  | mtc (w : Operands)
  /-- PARK (R393): Moves a register's value to ACC, a slot bank or LOC. -/
  | park (w : Operands)
  /-- UNPARK (R422): Restores a parked register's value. -/
  | unpark (w : Operands)
  /-- STAMP (R411): Reads the global time base or the activation's stamp. -/
  | stamp (w : Operands)
  /-- TRACE (R420): Writes a USER trace record when enabled. -/
  | trace (w : Operands)
  /-- TRAP (R420): Faults with TRAP_REQUEST. -/
  | trap (w : Operands)
  /-- TRIG (R421): Releases at .mod and counts the core as triggered for dependent launches. -/
  | trig (w : Operands)
  /-- STREAM_DEADLOCK (R72): Faults the activation when every stream has stayed stalled on queue registers for 64 cycles. -/
  | streamDeadlock (core slot : Nat)
  /-- SLOT_START_DONE (R63): A STARTING slot becomes RUNNING 4 cycles after dispatch. -/
  | slotStartDone (core slot : Nat)
  /-- STARVATION_PROMOTION (R77): A slot ready without issue for 256 cycles is treated as system class for one turn. -/
  | starvationPromotion (core slot : Nat) (port : Stream)
  /-- DISPATCH (R79): The dispatcher starts a handler, wake-up or spawn activation from the input buffer on a slot, saving a waiter under R148 if needed. -/
  | dispatch (core : Nat)
  /-- BINDWAIT_EXPIRY (R272): After BINDWAIT cycles, a waiting message goes to the dead-message queue with an UNBOUND_MESSAGE record. -/
  | bindwaitExpiry (core : Nat)
  /-- BIND_COMPLETE (R271): A BIND or UNBIND completes once every dispatcher reads the new entry, and re-examines the bind-wait area. -/
  | bindComplete (core slot : Nat)
  /-- DEAD_QUEUE_RETRY (R273): A message waiting for room in a full dead-message queue is written when room appears. -/
  | deadQueueRetry (core : Nat)
  /-- FIRING_START (R83): The stage scheduler starts a firing, pops input tokens, reserves output places and gives EMIT obligations. -/
  | firingStart (part stage : Nat)
  /-- REBALANCE_TICK (R86): Every 4,096 cycles the scheduler considers moving one core between the stages of each pipeline. -/
  | rebalanceTick (part : Nat)
  /-- SPAWN_REQUEST (R81): A spawn request arriving at a core starts the child on a free slot or is refused. -/
  | spawnRequest (core : Nat)
  /-- SPAWN_ANSWER (R81): The acceptance or refusal returns to the caller, which continues or runs the child inline. -/
  | spawnAnswer (core slot : Nat)
  /-- MESSAGE_DELIVERY (R168): A message enters the destination's input buffer in link order. -/
  | messageDelivery (index : Nat)
  /-- SEND_ENQUEUE (R269): A SEND waiting for room in its send queue enqueues its message once room appears. -/
  | sendEnqueue (core slot : Nat)
  /-- SIGNAL_HOME_OP (R136): A signal operation arriving at the block's home is performed atomically and releases or orphans waiters. -/
  | signalHomeOp (index : Nat)
  /-- DRAIN (R157): An outbox entry drains to its owner or bank and joins the owner order. -/
  | drain (core slot index : Nat)
  /-- APPLY (R157): A drained GLB write is applied in one die view once its clock and owner order allow. -/
  | apply (die index : Nat)
  /-- ATOMIC_AT_OWNER (R157): An atomic is executed at its owner's home slice or bank in the owner order. -/
  | atomicAtOwner (core slot index : Nat)
  /-- COUNTER_HALVING (R186): Every 2^20 cycles all atomic counters halve. -/
  | counterHalving (die : Nat)
  /-- OWNER_QUERY (R173): The home answers an owner query with OWNER_REPLY and sets the READERS bit. -/
  | ownerQuery (index : Nat)
  /-- OWNER_REPLY (R173): The requester installs the owner entry and sends its held requests. -/
  | ownerReply (index : Nat)
  /-- REDIRECT (R179): The requester updates its owner cache and holds later requests until earlier ones are acknowledged. -/
  | redirect (index : Nat)
  /-- NOT_OWNER (R182): A returned request makes the requester remove its entry and resend through the home. -/
  | notOwner (index : Nat)
  /-- MIGRATE_BEGIN (R177): The new owner starts a line-valid bitmap for the page and becomes owner. -/
  | migrateBegin (index : Nat)
  /-- PAGE_LINES (R177): A streamed line arrives at the new owner and serves the accesses waiting on it. -/
  | pageLines (index : Nat)
  /-- MIGRATE_DONE (R176): The new owner rewrites FRAME and sends OWNER_UPDATE with MOVING 0. -/
  | migrateDone (index : Nat)
  /-- OWNER_UPDATE (R176): The home records the new owner and the MOVING state. -/
  | ownerUpdate (index : Nat)
  /-- STUB_EXPIRY (R181): A stub idle for 2^22 cycles sends STUB_RETIRE to the home. -/
  | stubExpiry (die page : Nat)
  /-- STUB_RETIRE (R181): The home sends OWNER_INVAL to every die in READERS. -/
  | stubRetire (index : Nat)
  /-- OWNER_INVAL (R181): A reader drops its entry if it names the stub and acknowledges after its requests are acknowledged. -/
  | ownerInval (index : Nat)
  /-- OWNER_INVAL_ACK (R181): Once every acknowledgement is in, the home sends RETIRE_OK. -/
  | ownerInvalAck (index : Nat)
  /-- RETIRE_OK (R181): The stub is freed and its old frame returns to the pool. -/
  | retireOk (index : Nat)
  /-- STUB_RELAY (R178): A stub relays a request to its forward target and sends REDIRECT on a first relay. -/
  | stubRelay (index : Nat)
  /-- CHAIN_LIMIT (R180): A request returned by a fourth stub faults the requester precisely, which parks. -/
  | chainLimit (index : Nat)
  /-- DUP_INVAL (R185): A copy holder drops its copy and answers DUP_INVAL_ACK. -/
  | dupInval (index : Nat)
  /-- DUP_INVAL_ACK (R185): Once all acknowledgements are in, the owner applies the write in one step. -/
  | dupInvalAck (index : Nat)
  /-- LEASE_GRANT (R187): A die receives a line lease and performs its near atomics on it. -/
  | leaseGrant (index : Nat)
  /-- LEASE_RECALL (R187): The leaseholder completes its near atomics and returns the line. -/
  | leaseRecall (index : Nat)
  /-- LEASE_RETURN (R187): The owner takes the line back and serves the waiting access. -/
  | leaseReturn (index : Nat)
  /-- RESERVED_KIND (R174): A message of a reserved kind is discarded and reported in a record. -/
  | reservedKind (kind : FabricKind) (src dst : Nat)
  /-- MIGCTL_PIN (R189): Pins a page against migration, or refuses with PINFULL. -/
  | migctlPin (part page : Nat)
  /-- MIGCTL_UNPIN (R189): Unpins a page. -/
  | migctlUnpin (part page : Nat)
  /-- MIGCTL_MOVE (R189): Starts a migration of a page to a destination, or sets REFUSED. -/
  | migctlMove (part page dest destMod : Nat)
  /-- ATMMODE_HINT_WRITE (R188): A privileged write of HINT switches atomic placement mode and recalls leases when leaving hint mode. -/
  | atmmodeHintWrite (part : Nat) (hint : Bool)
  /-- BARRIER_ARRIVAL (R88): A combiner records an arrival and passes one up when all its members have arrived. -/
  | barrierArrival (part group cluster : Nat)
  /-- BARRIER_RELEASE (R88): The release runs down the combiner tree, satisfies BARW waiters and advances the phase. -/
  | barrierRelease (part group : Nat)
  /-- MMA_STEP (R246): The arbiter grants an MMA step, which adds two K-chunks to the tile or parks on an operand fault. -/
  | mmaStep (octet : Nat)
  /-- MMZ_EXEC (R248): The matrix unit zeroes a tile and discharges the command's given obligations. -/
  | mmzExec (octet : Nat)
  /-- DRAIN_START (R249): An MMDRAIN takes the drain port, claims the destination tile and writes its rows. -/
  | drainStart (core : Nat)
  /-- DRAIN_COMPLETE (R249): After the last row write performs, the tile goes ready, the source is freed, obligations are discharged and the wake-up is sent. -/
  | drainComplete (core : Nat)
  /-- COPY_LINE (R250): The copy engine moves one 64-byte line of a command in round-robin order. -/
  | copyLine (core index : Nat)
  /-- COPY_COMPLETE (R255): A copy's last write performs; the tiles change state and its obligations are discharged. -/
  | copyComplete (core index : Nat)
  /-- COLLECTIVE_LINE (R252): The collective engine reads or writes one line of a part and raises the part's signal when the part completes; `part` is the part's place in the engine's order. -/
  | collectiveLine (core index part : Nat)
  /-- COLLECTIVE_COMPLETE (R255): Every part is done and the command's given obligations are discharged. -/
  | collectiveComplete (core index : Nat)
  /-- SLUICE_ANSWER (R278): The route answer returns to SLOPEN and grants or refuses the sluice; before it returns, the question reaches the tile. -/
  | sluiceAnswer (core slot : Nat) (returns : Bool)
  /-- SLUICE_CLOSE_ACK (R278): The closing marker arrives; the tile goes ready and CLOSE is discharged. -/
  | sluiceCloseAck (core slot : Nat)
  /-- EVENT_DISPATCH (R292): In local-time mode the head event is dispatched once its stamp is below SAFE, and LVT rises to it. -/
  | eventDispatch (core : Nat)
  /-- ANNOUNCEMENT (R297): An announcement is held until RCVD reaches its count and then raises the link's CLOCK. -/
  | announcement (core link : Nat)
  /-- NULL_EVENT (R297): A null event raises the input link's CLOCK once its count is met. -/
  | nullEvent (core link : Nat)
  /-- DEMAND (R299): An idle core raises FLOOR for a demand, sends a null event and passes the demand upstream. -/
  | demand (core link : Nat)
  /-- FRAME_SAVE (R202): Once outstanding accesses perform, the context is written to a frame and the slot freed. -/
  | frameSave (core slot : Nat)
  /-- FRAME_RESTORE (R202): A queued frame is checked and restored on a free slot, and its number pushed to the free stack. -/
  | frameRestore (core : Nat)
  /-- PREEMPT (R213): A system message pre-empts the slots named in a mask, saving each. -/
  | preempt (core : Nat) (mask : BitVec 8)
  /-- PAGE_READY (R208): Serves the coalescing entry for a page on the written die. -/
  | pageReady (die asid page : Nat)
  /-- RELEASE_ENTRY (R208): Serves a named coalescing entry. -/
  | releaseEntry (die entry : Nat)
  /-- PUSH_FREE_FRAME (R208): Pushes a frame number onto the die's free stack, completing a waiting save. -/
  | pushFreeFrame (die frame : Nat)
  /-- RESUME_AT_WORD (R208): Resumes a frame at its faulting word. -/
  | resumeAtWord (target : ResumeTarget)
  /-- RESUME_AFTER_WORD (R208): Resumes a frame past its faulting word. -/
  | resumeAfterWord (target : ResumeTarget)
  /-- RESUME_WITH_RECOVERY (R152): Restarts the activation in its own context at the type 0xFFF entry. -/
  | resumeWithRecovery (target : ResumeTarget)
  /-- RING_TAIL_WRITE (R206): The OS consumes fault records, freeing room for waiting records and updating the interrupt line. -/
  | ringTailWrite (ring : Nat) (tail : BitVec 32)
  /-- PROCESS_TERMINATE (R153): Every outstanding obligation of the process is discharged as poisoned. -/
  | processTerminate (part : Nat)
  /-- ECC_CORRECTED (R214): A corrected SECDED error is repaired in place and recorded. -/
  | eccCorrected (granule : Granule)
  /-- ECC_UNCORRECTED (R214): An uncorrectable error poisons its granule and is recorded. -/
  | eccUncorrected (granule : Granule)
  /-- LAUNCH (R91): The OS grants clusters, maps the image, writes the tables, places the stages and enables dispatch. -/
  | launch (image : Image)
  /-- LAUNCH_CLOSE (R101): The scheduler records the close and starts no further firing of stages without inputs. -/
  | launchClose (part : Nat)
  /-- LAUNCH_END (R101): The launch ends when nothing of it remains; queues are discarded and the end is reported. -/
  | launchEnd (part : Nat)
  /-- PARTITION_GROW (R98): The OS grows a partition by whole clusters. -/
  | partitionGrow (part : Nat) (clusters : List Nat)
  /-- PARTITION_SHRINK (R99): The OS starts the departure of whole clusters. -/
  | partitionShrink (part : Nat) (clusters : List Nat)
  /-- DEPARTURE_TIMEOUT (R99): Activations still on a departing core 2^20 cycles after departure began are pre-empted. -/
  | departureTimeout (core : Nat)
  /-- CREDIT_AUDIT (R284): Every 65,536 cycles a die interface audits each partner's credits. -/
  | creditAudit (die partner : Nat) (vn : VN)
  /-- CREDIT_RETURN (R283): A credit with no reply flit to ride within 256 cycles travels in a flit of credits alone. -/
  | creditReturn (die partner : Nat) (vn : VN)
  /-- ROUTER_GATE (R280): A router idle for 64 cycles gates itself. -/
  | routerGate (die router : Nat)
  /-- ROUTER_WAKE (R280): A flit or wake signal wakes a gated router in 6 cycles. -/
  | routerWake (die router : Nat)
  /-- CAPTURE_START (R314): A matcher's start action sets RUN. -/
  | captureStart (event : SysEvent)
  /-- CAPTURE_STOP (R314): A matcher's stop action clears RUN. -/
  | captureStop (event : SysEvent)
  /-- CAPTURE_FREEZE (R314): A matcher's freeze action clears RUN and sets FROZEN. -/
  | captureFreeze (event : SysEvent)
  /-- SELECT_FILTER (R314): A matcher's select-filter action writes FSEL. -/
  | selectFilter (event : SysEvent)
  /-- PRECISE_STOP (R318): A matcher's precise-stop action stops dispatch on the covered cores. -/
  | preciseStop (event : SysEvent)
  /-- PRECISE_STOP_TIMEOUT (R318): An activation still running 65,536 cycles after the stop began is saved. -/
  | preciseStopTimeout (core slot : Nat)
  /-- PRECISE_STOP_LANDING (R318): A core whose slots are all FREE writes a STOP record, and STOPPED is set when all have landed. -/
  | preciseStopLanding (core : Nat)
  /-- PRECISE_STOP_RESUME (R318): Writing RESUME to CAPSTAT restarts dispatch. -/
  | preciseStopResume
  /-- CAPTURE_UNFREEZE (R314): Clearing FROZEN unfreezes the trace rings. -/
  | captureUnfreeze
  /-- PANIC (R314): A write to PANIC is the panic event for the matchers. -/
  | panic (sysCore : Nat)
  /-- PROFILE_CLEAR (R317): Writing PCLR clears the core's profile table. -/
  | profileClear (core : Nat)
  /-- PROFILE_READ (R320): A system message makes the core write its profile table to GLB as a release and reply. -/
  | profileRead (core addr : Nat)
  /-- REPLAY_TIMEOUT (R322): A logged candidate missing for 2^24 cycles writes DIVERGE and returns the core to normal mode. -/
  | replayTimeout (core : Nat)
  /-- KEY_SLOT_LOAD (R332): Loads a key slot from KDATA on every base die. -/
  | keySlotLoad (slot : Nat)
  /-- KEY_SLOT_CLEAR (R332): Clears a key slot. -/
  | keySlotClear (slot : Nat)
  /-- KEY_SLOT_DONE (R332): BUSY clears once all 16 base dies hold the new contents. -/
  | keySlotDone
  /-- HOST_READ_FAIL (R327): A host read that fails or has no completion within 50 ms faults with POISON_CONSUMED. -/
  | hostReadFail (core slot : Nat)
  /-- HOST_WRITE_FAIL (R327): A failed posted write sets WERR and interrupts the management controller. -/
  | hostWriteFail
  /-- HOST_LINK_DOWN (R328): The host link goes down; host reads fail and writes are dropped. -/
  | hostLinkDown
  /-- POWER_GOOD (R330): The boot ROM on system core 0 verifies and loads a boot copy, or enters recovery. -/
  | powerGood
  /-- IDENTITY_REPORT (R331): The management controller returns a signed identity report. -/
  | identityReport (nonce : List Byte)
  /-- ROLLBACK_RAISE (R330): The OS raises the fused rollback counter through the management controller. -/
  | rollbackRaise (value : Word)
  /-- CLOCK_STEP_DOWN (R339): After 10 ms over limit, the arithmetic clock steps down. -/
  | clockStepDown
  /-- CLOCK_STEP_UP (R339): After 100 ms under limit, the arithmetic clock steps back up. -/
  | clockStepUp
  /-- OVER_TEMPERATURE_SHUTDOWN (R339): Above 65 °C at the outlet, every core is held in reset and the shutdown reported. -/
  | overTemperatureShutdown
  /-- WEIR_TABLE_WRITE (R237): An OS call writes a weir entry; making it valid sets each element's exact total from memory. -/
  | weirTableWrite (index : Nat) (entry : WeirEntry)
  /-- REGISTER_WRITE (R7): A write to a register without a row of its own, under the Access codes. -/
  | registerWrite (reg : SysReg) (value : Word)
  /-- PAGE_LINE_SEND (R176): The old owner streams the next line of a migrating page to the new owner as PAGE_LINES, taking first any line that the new owner reports as awaited, and sends MIGRATE_DONE after the last line. -/
  | pageLineSend (die page : Nat)
  /-- PAGE_ENTRY_INVALIDATION (R121): An OS change or invalidation of a page entry completes at the interfaces, so that later accesses use the whole new entry. -/
  | pageEntryInvalidation (addr : Nat) (entry : Word)
  /-- DEAD_MESSAGE_REDISPATCH (R139): The OS dispatches a dead-message record again, or discharges its given obligations as poisoned. -/
  | deadMessageRedispatch (part index : Nat) (poison : Bool)
  /-- CORRUPTED_FLIT (R279): A flit arrives with a bad CRC and is retried at link level, never delivered. -/
  | corruptedFlit (index : Nat)
  /-- HOST_LINK_UP (R328): The host link comes back up, clearing HLERR.DOWN so that host-uncached reads and writes work again. -/
  | hostLinkUp
  /-- COMPUTE_DIE_RESET_RELEASE (R330): The compute dies leave the reset in which the management controller holds them, and the OS then brings them into use. -/
  | computeDieResetRelease
  /-- RECOVERY_COPY_WRITE (R330): In recovery, the host writes one new boot copy to the flash through BAR0. -/
  | recoveryCopyWrite (copy : Nat) (contents : BootCopy)
  deriving DecidableEq, Repr

end Sys2Proof
end

