-- ==== Sys2Proof/Machine/Entries.lean ====
section
/-!
DEFINITION. The opcode map and the entries of the instruction reference as one table (R52 to R54 and the encoding
tables of the reference chapters): for each opcode its layout, streams, operand kinds and files, modifiers, mask,
flags and immediate range.
-/

namespace Sys2Proof

/-- What an operand position accepts (R44 to R46): nothing, an immediate (C only), a queue register, or a file. -/
inductive Acc where | none | imm | queue | file (f : File)
  deriving DecidableEq, Repr

/-- The modifier layouts of R47. -/
inductive Layout where | AR | MEM | SYN | NONE
  deriving DecidableEq, Repr

/-- What OPF of field C means (R49): unused, a gather index, a conversion source, or a lane conversion source. -/
inductive OpfKind where | none | index | conv | vconv
  deriving DecidableEq, Repr

/-- The NUMBER rules of R55 beyond the file ranges. -/
inductive NumRule where
  | none
  /-- A is a destination that may name neither m0 nor g0 (R46). -/
  | dest
  /-- A writes gN and g(N+1): 1 to 30 (R358). -/
  | guardPair
  /-- A writes mD and m(D+1): 1 to 6 (R428). -/
  | maskPair
  /-- C names a control register (R386). -/
  | ctrl
  /-- A is not s0 (R393, R422). -/
  | spill
  deriving DecidableEq, Repr

/-- One entry of the opcode map. `tied` marks an A that is read and written; `range` is the immediate range of
R341; `rotates` is false where the entry says that no field rotates. -/
structure Entry where
  opc     : Nat
  layout  : Layout
  streams : List Stream
  a       : List Acc
  b       : List Acc
  c       : List Acc
  pair    : Bool := false
  tied    : Bool := false
  tys     : List Ty := []
  sat     : Bool := false
  rnd     : Bool := false
  scopes  : List Scope := []
  ords    : List Ord := [.rlx]
  mask    : Bool := false
  flags   : BitVec 4 := 0
  opf     : OpfKind := .none
  numRule : NumRule := .none
  range   : Option (Int × Int) := none
  rotates : Bool := true
  deriving DecidableEq, Repr

/-- The eight integer types (R48). -/
def intTys : List Ty := [.i8, .i16, .i32, .i64, .n8, .n16, .n32, .n64]
/-- The signed integer types. -/
def sintTys : List Ty := [.i8, .i16, .i32, .i64]
/-- The IEEE-style types (R224). -/
def fpTys : List Ty := [.f16, .bf16, .f32, .f64]
/-- The twelve integer and IEEE types (R370, R375). -/
def convTys : List Ty := intTys ++ fpTys
/-- The types of scalar loads and stores (R375, R412). -/
def loadTys : List Ty := convTys
/-- The types of atomics and reductions (R345, R395). -/
def amoTys : List Ty := [.i32, .n32, .i64, .n64, .f32, .f64]
/-- The integer lane types (R423). -/
def vintTys : List Ty := [.i8, .i16, .i32, .n8, .n16, .n32]
/-- The floating-point lane types (R423). -/
def vfpTys : List Ty := [.f16, .bf16, .f32]
/-- All lane types (R423). -/
def vanyTys : List Ty := vintTys ++ vfpTys
/-- The 32-bit lane types (R425). -/
def v32Tys : List Ty := [.i32, .n32, .f32]
/-- Scopes of GLB accesses and of SYN words (R48). -/
def glbScopes : List Scope := [.slot, .core, .oct, .clu, .die, .mod, .dom]
/-- Scopes of SHM accesses (R375). -/
def shmScopes : List Scope := [.slot, .core, .oct, .clu, .die]
/-- Every ORD code. -/
def anyOrd : List Ord := [.rlx, .acq, .rel, .acqrel]
/-- .rlx or .rel. -/
def relOrd : List Ord := [.rlx, .rel]
/-- .rlx or .acq. -/
def acqOrd : List Ord := [.rlx, .acq]

/-- Opcode-map entries: scalar integer (R343, R362, R365, R379, R383, R389, R401, R445), part 1. -/
def scalarEntries1 : List Entry := [
  -- ABS
  { opc := 0x001, layout := .AR, streams := [.S], a := [.file .s], b := [.none], c := [.file .s], tys := sintTys,
      sat := true },
  -- ADD
  { opc := 0x002, layout := .AR, streams := [.S], a := [.file .s], b := [.file .s], c := [.file .s, .imm], pair :=
      true, tys := intTys, sat := true },
  -- AND
  { opc := 0x003, layout := .AR, streams := [.S], a := [.file .s], b := [.file .s], c := [.file .s, .imm], pair :=
      true, tys := intTys },
  -- ANDN
  { opc := 0x004, layout := .AR, streams := [.S], a := [.file .s], b := [.file .s], c := [.file .s, .imm], tys :=
      intTys },
  -- BSWAP
  { opc := 0x005, layout := .AR, streams := [.S], a := [.file .s], b := [.none], c := [.file .s], tys := intTys },
  -- CLZ
  { opc := 0x006, layout := .AR, streams := [.S], a := [.file .s], b := [.none], c := [.file .s], tys := intTys },
  -- CMP
  { opc := 0x007, layout := .AR, streams := [.S], a := [.file .g], b := [.file .s], c := [.file .s, .imm], pair :=
      true, tys := intTys, numRule := .guardPair },
  -- CTZ
  { opc := 0x008, layout := .AR, streams := [.S], a := [.file .s], b := [.none], c := [.file .s], tys := intTys },
  -- DIV
  { opc := 0x009, layout := .AR, streams := [.S], a := [.file .s], b := [.file .s], c := [.file .s, .imm], tys :=
      intTys, sat := true },
  -- EXTS
  { opc := 0x00A, layout := .AR, streams := [.S], a := [.file .s], b := [.file .s], c := [.file .s, .imm], tys :=
      [.i64], range := some (0, 4159) },
  -- EXTZ
  { opc := 0x00B, layout := .AR, streams := [.S], a := [.file .s], b := [.file .s], c := [.file .s, .imm], tys :=
      [.i64], range := some (0, 4159) },
  -- INS
  { opc := 0x00C, layout := .AR, streams := [.S], a := [.file .s], b := [.file .s], c := [.file .s, .imm], tied :=
      true, tys := [.i64], range := some (0, 4159) },
  -- LI
  { opc := 0x00D, layout := .AR, streams := [.S], a := [.file .s], b := [.none], c := [.imm], pair := true, tys :=
      intTys },
  -- LIH
  { opc := 0x00E, layout := .AR, streams := [.S], a := [.file .s], b := [.none], c := [.imm], pair := true, tied :=
      true, tys := [.i64] },
  -- MADR
  { opc := 0x00F, layout := .AR, streams := [.S], a := [.file .s], b := [.file .s], c := [.file .s, .imm], tied :=
      true, tys := intTys, sat := true },
  -- MAX
  { opc := 0x010, layout := .AR, streams := [.S], a := [.file .s], b := [.file .s], c := [.file .s, .imm], tys :=
      intTys }]

/-- Opcode-map entries: scalar integer (R343, R362, R365, R379, R383, R389, R401, R445), part 2. -/
def scalarEntries2 : List Entry := [
  -- MIN
  { opc := 0x011, layout := .AR, streams := [.S], a := [.file .s], b := [.file .s], c := [.file .s, .imm], tys :=
      intTys },
  -- MOV
  { opc := 0x012, layout := .AR, streams := [.S, .V, .E], a := [.file .s, .file .v, .file .m, .queue], b := [.none],
      c := [.file .s, .file .v, .file .m, .queue, .imm], tys := [.i64], numRule := .dest },
  -- MUL
  { opc := 0x013, layout := .AR, streams := [.S], a := [.file .s], b := [.file .s], c := [.file .s, .imm], tys :=
      intTys, sat := true },
  -- MULH
  { opc := 0x014, layout := .AR, streams := [.S], a := [.file .s], b := [.file .s], c := [.file .s], tys := intTys },
  -- NEG
  { opc := 0x015, layout := .AR, streams := [.S], a := [.file .s], b := [.none], c := [.file .s], tys := intTys, sat
      := true },
  -- OR
  { opc := 0x016, layout := .AR, streams := [.S], a := [.file .s], b := [.file .s], c := [.file .s, .imm], pair :=
      true, tys := intTys },
  -- POPC
  { opc := 0x017, layout := .AR, streams := [.S], a := [.file .s], b := [.none], c := [.file .s], tys := intTys },
  -- REM
  { opc := 0x018, layout := .AR, streams := [.S], a := [.file .s], b := [.file .s], c := [.file .s, .imm], tys :=
      intTys },
  -- ROL
  { opc := 0x019, layout := .AR, streams := [.S], a := [.file .s], b := [.file .s], c := [.file .s, .imm], tys :=
      intTys },
  -- SAR
  { opc := 0x01A, layout := .AR, streams := [.S], a := [.file .s], b := [.file .s], c := [.file .s, .imm], tys :=
      intTys },
  -- SEL
  { opc := 0x01B, layout := .AR, streams := [.S], a := [.file .s], b := [.file .s], c := [.file .s, .imm], tied :=
      true, tys := intTys },
  -- SHL
  { opc := 0x01C, layout := .AR, streams := [.S], a := [.file .s], b := [.file .s], c := [.file .s, .imm], tys :=
      intTys },
  -- SHR
  { opc := 0x01D, layout := .AR, streams := [.S], a := [.file .s], b := [.file .s], c := [.file .s, .imm], tys :=
      intTys },
  -- SUB
  { opc := 0x01E, layout := .AR, streams := [.S], a := [.file .s], b := [.file .s], c := [.file .s, .imm], pair :=
      true, tys := intTys, sat := true },
  -- XOR
  { opc := 0x01F, layout := .AR, streams := [.S], a := [.file .s], b := [.file .s], c := [.file .s, .imm], pair :=
      true, tys := intTys }]

/-- Opcode-map entries: scalar integer (R343, R362, R365, R379, R383, R389, R401, R445). -/
def scalarEntries : List Entry := scalarEntries1 ++ scalarEntries2

/-- Opcode-map entries: floating point, control, guards and masks (R197, R353, R364, R367 to R374, R380, R385, R390,
      R397, R446), part 1. -/
def fpControlEntries1 : List Entry := [
  -- FABS
  { opc := 0x080, layout := .AR, streams := [.S], a := [.file .s], b := [.none], c := [.file .s], tys := fpTys },
  -- FADD
  { opc := 0x081, layout := .AR, streams := [.S], a := [.file .s], b := [.file .s], c := [.file .s], tys := fpTys,
      rnd := true },
  -- FCMP
  { opc := 0x082, layout := .AR, streams := [.S], a := [.file .g], b := [.file .s], c := [.file .s], tys := fpTys,
      numRule := .guardPair },
  -- FCVT
  { opc := 0x083, layout := .AR, streams := [.S], a := [.file .s], b := [.none], c := [.file .s], tys := convTys,
      sat := true, rnd := true, opf := .conv },
  -- FDIV
  { opc := 0x084, layout := .AR, streams := [.S], a := [.file .s], b := [.file .s], c := [.file .s], tys := fpTys,
      rnd := true },
  -- FFMA
  { opc := 0x085, layout := .AR, streams := [.S], a := [.file .s], b := [.file .s], c := [.file .s], tied := true,
      tys := fpTys, rnd := true },
  -- FMAX
  { opc := 0x086, layout := .AR, streams := [.S], a := [.file .s], b := [.file .s], c := [.file .s], tys := fpTys },
  -- FMIN
  { opc := 0x087, layout := .AR, streams := [.S], a := [.file .s], b := [.file .s], c := [.file .s], tys := fpTys },
  -- FMUL
  { opc := 0x088, layout := .AR, streams := [.S], a := [.file .s], b := [.file .s], c := [.file .s], tys := fpTys,
      rnd := true },
  -- FNEG
  { opc := 0x089, layout := .AR, streams := [.S], a := [.file .s], b := [.none], c := [.file .s], tys := fpTys },
  -- FSQRT
  { opc := 0x08A, layout := .AR, streams := [.S], a := [.file .s], b := [.none], c := [.file .s], tys := fpTys, rnd
      := true },
  -- FSUB
  { opc := 0x08B, layout := .AR, streams := [.S], a := [.file .s], b := [.file .s], c := [.file .s], tys := fpTys,
      rnd := true },
  -- BR
  { opc := 0x090, layout := .NONE, streams := [.S], a := [.none], b := [.none], c := [.imm], pair := true },
  -- BRL
  { opc := 0x091, layout := .NONE, streams := [.S], a := [.file .s], b := [.none], c := [.imm, .file .s], pair :=
      true },
  -- CHK
  { opc := 0x092, layout := .NONE, streams := [.S], a := [.file .s], b := [.none], c := [.imm], pair := true },
  -- END
  { opc := 0x093, layout := .NONE, streams := [.S], a := [.none], b := [.none], c := [.none] }]

/-- Opcode-map entries: floating point, control, guards and masks (R197, R353, R364, R367 to R374, R380, R385, R390,
      R397, R446), part 2. -/
def fpControlEntries2 : List Entry := [
  -- JMP
  { opc := 0x094, layout := .NONE, streams := [.S], a := [.none], b := [.none], c := [.file .s] },
  -- LOOP
  { opc := 0x095, layout := .NONE, streams := [.S], a := [.file .s], b := [.none], c := [.imm], pair := true },
  -- NOP
  { opc := 0x096, layout := .NONE, streams := [.S, .V, .E], a := [.none], b := [.none], c := [.none] },
  -- RET
  { opc := 0x097, layout := .NONE, streams := [.S], a := [.none], b := [.none], c := [.file .s] },
  -- YIELD
  { opc := 0x098, layout := .NONE, streams := [.S], a := [.none], b := [.none], c := [.none] },
  -- GAND
  { opc := 0x0A0, layout := .NONE, streams := [.S], a := [.file .g], b := [.file .g], c := [.file .g], numRule :=
      .dest },
  -- GNOT
  { opc := 0x0A1, layout := .NONE, streams := [.S], a := [.file .g], b := [.none], c := [.file .g], numRule := .dest
      },
  -- GOR
  { opc := 0x0A2, layout := .NONE, streams := [.S], a := [.file .g], b := [.file .g], c := [.file .g], numRule :=
      .dest },
  -- MALL
  { opc := 0x0A3, layout := .NONE, streams := [.V], a := [.file .g], b := [.none], c := [.file .m], numRule := .dest
      },
  -- MAND
  { opc := 0x0A4, layout := .NONE, streams := [.V], a := [.file .m], b := [.file .m], c := [.file .m], numRule :=
      .dest },
  -- MANY
  { opc := 0x0A5, layout := .NONE, streams := [.V], a := [.file .g], b := [.none], c := [.file .m], numRule := .dest
      },
  -- MFIRST
  { opc := 0x0A6, layout := .NONE, streams := [.V], a := [.file .m], b := [.none], c := [.file .m], numRule := .dest
      },
  -- MNOT
  { opc := 0x0A7, layout := .NONE, streams := [.V], a := [.file .m], b := [.none], c := [.file .m], numRule := .dest
      },
  -- MOR
  { opc := 0x0A8, layout := .NONE, streams := [.V], a := [.file .m], b := [.file .m], c := [.file .m], numRule :=
      .dest },
  -- MPOP
  { opc := 0x0A9, layout := .NONE, streams := [.V], a := [.file .v, .queue], b := [.none], c := [.file .m] }]

/-- Opcode-map entries: floating point, control, guards and masks (R197, R353, R364, R367 to R374, R380, R385, R390,
      R397, R446). -/
def fpControlEntries : List Entry := fpControlEntries1 ++ fpControlEntries2

/-- Opcode-map entries: vector (R425 to R436), part 1. -/
def vectorEntries1 : List Entry := [
  -- VABS
  { opc := 0x100, layout := .AR, streams := [.V], a := [.file .v], b := [.none], c := [.file .v], tys := vanyTys,
      sat := true, mask := true },
  -- VADD
  { opc := 0x101, layout := .AR, streams := [.V], a := [.file .v], b := [.file .v], c := [.file .v, .file .s, .imm],
      tys := vanyTys, sat := true, rnd := true, mask := true },
  -- VAND
  { opc := 0x102, layout := .AR, streams := [.V], a := [.file .v], b := [.file .v], c := [.file .v, .file .s, .imm],
      tys := vintTys, mask := true },
  -- VCMP
  { opc := 0x103, layout := .AR, streams := [.V], a := [.file .m], b := [.file .v], c := [.file .v, .file .s, .imm],
      tys := vanyTys, mask := true, numRule := .maskPair },
  -- VCVT
  { opc := 0x104, layout := .AR, streams := [.V], a := [.file .v], b := [.none], c := [.file .v], tys := vanyTys,
      sat := true, rnd := true, mask := true, opf := .vconv },
  -- VDOT4
  { opc := 0x105, layout := .AR, streams := [.V], a := [.file .v], b := [.file .v], c := [.file .v], tys := [.i8,
      .n8, .f32], sat := true, rnd := true, mask := true },
  -- VEXP2
  { opc := 0x106, layout := .AR, streams := [.V], a := [.file .v], b := [.none], c := [.file .v], tys := [.f32],
      mask := true },
  -- VEXT
  { opc := 0x107, layout := .AR, streams := [.V], a := [.queue], b := [.file .v], c := [.file .s, .imm], tys :=
      vanyTys, range := some (0, 15) },
  -- VFMA
  { opc := 0x108, layout := .AR, streams := [.V], a := [.file .v], b := [.file .v], c := [.file .v, .file .s, .imm],
      tys := vfpTys, rnd := true, mask := true },
  -- VINS
  { opc := 0x109, layout := .AR, streams := [.V], a := [.file .v], b := [.file .s, .queue], c := [.file .s, .imm],
      tys := vanyTys, range := some (0, 15) },
  -- VLGET
  { opc := 0x10A, layout := .NONE, streams := [.S, .V], a := [.file .s], b := [.none], c := [.file .s, .imm], range
      := some (0, 262143) },
  -- VLOG2
  { opc := 0x10B, layout := .AR, streams := [.V], a := [.file .v], b := [.none], c := [.file .v], tys := [.f32],
      mask := true },
  -- VMAX
  { opc := 0x10C, layout := .AR, streams := [.V], a := [.file .v], b := [.file .v], c := [.file .v, .file .s, .imm],
      tys := vanyTys, mask := true },
  -- VMIN
  { opc := 0x10D, layout := .AR, streams := [.V], a := [.file .v], b := [.file .v], c := [.file .v, .file .s, .imm],
      tys := vanyTys, mask := true },
  -- VMOV
  { opc := 0x10E, layout := .AR, streams := [.V], a := [.file .v], b := [.none], c := [.file .v], tys := v32Tys,
      mask := true },
  -- VMUL
  { opc := 0x10F, layout := .AR, streams := [.V], a := [.file .v], b := [.file .v], c := [.file .v, .file .s, .imm],
      tys := vanyTys, sat := true, rnd := true, mask := true }]

/-- Opcode-map entries: vector (R425 to R436), part 2. -/
def vectorEntries2 : List Entry := [
  -- VOR
  { opc := 0x110, layout := .AR, streams := [.V], a := [.file .v], b := [.file .v], c := [.file .v, .file .s, .imm],
      tys := vintTys, mask := true },
  -- VPERM
  { opc := 0x111, layout := .AR, streams := [.V], a := [.file .v], b := [.file .v], c := [.file .v], tys := v32Tys,
      mask := true },
  -- VQNT
  { opc := 0x112, layout := .AR, streams := [.V], a := [.file .v], b := [.none], c := [.file .v], tys := [.sb4,
      .sb6, .sb9], mask := true },
  -- VRCP
  { opc := 0x113, layout := .AR, streams := [.V], a := [.file .v], b := [.none], c := [.file .v], tys := [.f32],
      mask := true },
  -- VRED
  { opc := 0x114, layout := .AR, streams := [.V], a := [.file .v], b := [.file .v], c := [.none, .imm], tys :=
      vanyTys, sat := true, rnd := true, mask := true, range := some (1, 5) },
  -- VRSQ
  { opc := 0x115, layout := .AR, streams := [.V], a := [.file .v], b := [.none], c := [.file .v], tys := [.f32],
      mask := true },
  -- VSAR
  { opc := 0x116, layout := .AR, streams := [.V], a := [.file .v], b := [.file .v], c := [.file .v, .file .s, .imm],
      tys := vintTys, mask := true },
  -- VSCAN
  { opc := 0x117, layout := .AR, streams := [.V], a := [.file .v], b := [.file .v], c := [.none, .imm], tys :=
      vanyTys, sat := true, rnd := true, mask := true, range := some (1, 5) },
  -- VSEL
  { opc := 0x118, layout := .AR, streams := [.V], a := [.file .v], b := [.file .v], c := [.file .v, .file .s, .imm],
      tys := v32Tys, mask := true },
  -- VSHL
  { opc := 0x119, layout := .AR, streams := [.V], a := [.file .v], b := [.file .v], c := [.file .v, .file .s, .imm],
      tys := vintTys, mask := true },
  -- VSHR
  { opc := 0x11A, layout := .AR, streams := [.V], a := [.file .v], b := [.file .v], c := [.file .v, .file .s, .imm],
      tys := vintTys, mask := true },
  -- VSLIDE
  { opc := 0x11B, layout := .AR, streams := [.V], a := [.file .v], b := [.file .v], c := [.file .s, .imm], tys :=
      v32Tys, mask := true },
  -- VSPLAT
  { opc := 0x11C, layout := .AR, streams := [.V], a := [.file .v], b := [.none], c := [.file .s, .queue, .imm], tys
      := vanyTys, mask := true },
  -- VSUB
  { opc := 0x11D, layout := .AR, streams := [.V], a := [.file .v], b := [.file .v], c := [.file .v, .file .s, .imm],
      tys := vanyTys, sat := true, rnd := true, mask := true },
  -- VXOR
  { opc := 0x11E, layout := .AR, streams := [.V], a := [.file .v], b := [.file .v], c := [.file .v, .file .s, .imm],
      tys := vintTys, mask := true }]

/-- Opcode-map entries: vector (R425 to R436). -/
def vectorEntries : List Entry := vectorEntries1 ++ vectorEntries2

/-- Opcode-map entries: memory (R375, R378, R394, R412, R415, R437, R439), part 1. -/
def memoryEntries1 : List Entry := [
  -- LDG
  { opc := 0x180, layout := .MEM, streams := [.S], a := [.file .s], b := [.file .s], c := [.none, .imm, .file .s],
      tys := loadTys, scopes := glbScopes, ords := anyOrd, flags := 3 },
  -- LDL
  { opc := 0x181, layout := .MEM, streams := [.S], a := [.file .s], b := [.file .s], c := [.none, .imm, .file .s],
      tys := loadTys, scopes := [.none], flags := 1 },
  -- LDS
  { opc := 0x182, layout := .MEM, streams := [.S], a := [.file .s], b := [.file .s], c := [.none, .imm, .file .s],
      tys := loadTys, scopes := shmScopes, ords := anyOrd, flags := 1 },
  -- LDZ
  { opc := 0x183, layout := .MEM, streams := [.V], a := [.file .v], b := [.file .z], c := [.imm, .file .s], tys :=
      [.f32, .i32], scopes := [.none], range := some (0, 15) },
  -- STG
  { opc := 0x184, layout := .MEM, streams := [.S], a := [.file .s], b := [.file .s, .none], c := [.none, .imm, .file
      .s], tys := loadTys, scopes := glbScopes, ords := anyOrd },
  -- STL
  { opc := 0x185, layout := .MEM, streams := [.S], a := [.file .s], b := [.file .s, .none], c := [.none, .imm, .file
      .s], tys := loadTys, scopes := [.none] },
  -- STS
  { opc := 0x186, layout := .MEM, streams := [.S], a := [.file .s], b := [.file .s, .none], c := [.none, .imm, .file
      .s], tys := loadTys, scopes := shmScopes, ords := anyOrd },
  -- STZ
  { opc := 0x187, layout := .MEM, streams := [.V], a := [.file .z], b := [.file .v], c := [.imm, .file .s], tys :=
      [.f32, .i32], scopes := [.none], range := some (0, 15) },
  -- VLDG
  { opc := 0x188, layout := .MEM, streams := [.V], a := [.file .v], b := [.file .s], c := [.none, .imm, .file .s],
      tys := vanyTys, scopes := glbScopes, ords := anyOrd, mask := true, flags := 3 },
  -- VLDL
  { opc := 0x189, layout := .MEM, streams := [.V], a := [.file .v], b := [.file .s], c := [.none, .imm, .file .s],
      tys := vanyTys, scopes := [.none], mask := true, flags := 1 },
  -- VLDS
  { opc := 0x18A, layout := .MEM, streams := [.V], a := [.file .v], b := [.file .s], c := [.none, .imm, .file .s],
      tys := vanyTys, scopes := shmScopes, ords := anyOrd, mask := true, flags := 1 },
  -- VSTG
  { opc := 0x18B, layout := .MEM, streams := [.V], a := [.file .s], b := [.file .v], c := [.none, .imm, .file .s],
      tys := vanyTys, scopes := glbScopes, ords := anyOrd, mask := true },
  -- VSTL
  { opc := 0x18C, layout := .MEM, streams := [.V], a := [.file .s], b := [.file .v], c := [.none, .imm, .file .s],
      tys := vanyTys, scopes := [.none], mask := true },
  -- VSTS
  { opc := 0x18D, layout := .MEM, streams := [.V], a := [.file .s], b := [.file .v], c := [.none, .imm, .file .s],
      tys := vanyTys, scopes := shmScopes, ords := anyOrd, mask := true },
  -- VGTHG
  { opc := 0x190, layout := .MEM, streams := [.V], a := [.file .v], b := [.file .s], c := [.file .v], tys :=
      vanyTys, scopes := glbScopes, ords := anyOrd, mask := true, flags := 3, opf := .index },
  -- VGTHL
  { opc := 0x191, layout := .MEM, streams := [.V], a := [.file .v], b := [.file .s], c := [.file .v], tys :=
      vanyTys, scopes := [.none], mask := true, flags := 1, opf := .index }]

/-- Opcode-map entries: memory (R375, R378, R394, R412, R415, R437, R439), part 2. -/
def memoryEntries2 : List Entry := [
  -- VGTHS
  { opc := 0x192, layout := .MEM, streams := [.V], a := [.file .v], b := [.file .s], c := [.file .v], tys :=
      vanyTys, scopes := shmScopes, ords := anyOrd, mask := true, flags := 1, opf := .index },
  -- VSCTG
  { opc := 0x193, layout := .MEM, streams := [.V], a := [.file .s], b := [.file .v], c := [.file .v], tys :=
      vanyTys, scopes := glbScopes, ords := anyOrd, mask := true, opf := .index },
  -- VSCTL
  { opc := 0x194, layout := .MEM, streams := [.V], a := [.file .s], b := [.file .v], c := [.file .v], tys :=
      vanyTys, scopes := [.none], mask := true, opf := .index },
  -- VSCTS
  { opc := 0x195, layout := .MEM, streams := [.V], a := [.file .s], b := [.file .v], c := [.file .v], tys :=
      vanyTys, scopes := shmScopes, ords := anyOrd, mask := true, opf := .index },
  -- PREF
  { opc := 0x196, layout := .MEM, streams := [.S], a := [.file .s], b := [.none], c := [.none, .imm, .file .s], tys
      := [.i64], scopes := [.mod] }]

/-- Opcode-map entries: memory (R375, R378, R394, R412, R415, R437, R439). -/
def memoryEntries : List Entry := memoryEntries1 ++ memoryEntries2

/-- Opcode-map entries: atomics, ordering, obligations, groups (R164, R345, R349, R356, R373, R391, R395, R403,
      R439, R442), part 1. -/
def syncEntries1 : List Entry := [
  -- AMOG
  { opc := 0x200, layout := .MEM, streams := [.S], a := [.file .s], b := [.file .s], c := [.imm], tied := true, tys
      := amoTys, scopes := glbScopes, ords := anyOrd, range := some (0, 6) },
  -- AMOS
  { opc := 0x201, layout := .MEM, streams := [.S], a := [.file .s], b := [.file .s], c := [.imm], tied := true, tys
      := amoTys, scopes := glbScopes, ords := anyOrd, range := some (0, 6) },
  -- CASG
  { opc := 0x202, layout := .MEM, streams := [.S], a := [.file .s], b := [.file .s], c := [.file .s, .imm], tied :=
      true, tys := amoTys, scopes := glbScopes, ords := anyOrd },
  -- CASS
  { opc := 0x203, layout := .MEM, streams := [.S], a := [.file .s], b := [.file .s], c := [.file .s, .imm], tied :=
      true, tys := amoTys, scopes := glbScopes, ords := anyOrd },
  -- REDG
  { opc := 0x204, layout := .MEM, streams := [.S], a := [.file .s], b := [.file .s], c := [.none, .imm, .file .s],
      tys := amoTys, scopes := glbScopes, ords := relOrd, flags := 1 },
  -- REDS
  { opc := 0x205, layout := .MEM, streams := [.S], a := [.file .s], b := [.file .s], c := [.none, .imm, .file .s],
      tys := amoTys, scopes := shmScopes, ords := relOrd },
  -- VREDS
  { opc := 0x206, layout := .MEM, streams := [.V], a := [.file .s], b := [.file .v], c := [.file .v], tys := v32Tys,
      scopes := shmScopes, ords := relOrd, mask := true, opf := .index },
  -- FENCE
  { opc := 0x208, layout := .SYN, streams := [.S, .V, .E], a := [.none], b := [.none], c := [.none], scopes :=
      glbScopes, ords := [.rlx, .acq, .rel] },
  -- FENCER
  { opc := 0x209, layout := .SYN, streams := [.S, .V, .E], a := [.file .s], b := [.none], c := [.file .s, .imm],
      scopes := glbScopes, ords := [.rlx, .acq, .rel], range := some (1, 262143), rotates := false },
  -- WAITA
  { opc := 0x20A, layout := .SYN, streams := [.S], a := [.file .s], b := [.none], c := [.none], scopes := glbScopes,
      ords := acqOrd },
  -- WAKEA
  { opc := 0x20B, layout := .SYN, streams := [.S], a := [.file .s], b := [.none], c := [.file .s, .imm], scopes :=
      glbScopes, ords := relOrd, range := some (0, 262143) },
  -- OBLGIVE
  { opc := 0x210, layout := .NONE, streams := [.S], a := [.file .s], b := [.none], c := [.file .s, .imm], range :=
      some (1, 262143) },
  -- OBLQRY
  { opc := 0x211, layout := .NONE, streams := [.S], a := [.file .s], b := [.none], c := [.file .s, .imm], range :=
      some (0, 31) },
  -- OBLTAKE
  { opc := 0x212, layout := .NONE, streams := [.S], a := [.file .s], b := [.none], c := [.file .s, .imm], range :=
      some (1, 262143) },
  -- SIGADD
  { opc := 0x213, layout := .SYN, streams := [.S], a := [.file .s], b := [.none], c := [.file .s, .imm], scopes :=
      glbScopes, ords := anyOrd, range := some (0, 262143) },
  -- SIGFREE
  { opc := 0x214, layout := .SYN, streams := [.S], a := [.file .s], b := [.none], c := [.none], scopes := glbScopes,
      ords := relOrd }]

/-- Opcode-map entries: atomics, ordering, obligations, groups (R164, R345, R349, R356, R373, R391, R395, R403,
      R439, R442), part 2. -/
def syncEntries2 : List Entry := [
  -- SIGNEW
  { opc := 0x215, layout := .SYN, streams := [.S], a := [.file .s], b := [.file .s], c := [.file .s, .imm], scopes
      := glbScopes, ords := relOrd, flags := 7, range := some (1, 255) },
  -- SIGSET
  { opc := 0x216, layout := .SYN, streams := [.S], a := [.file .s], b := [.none], c := [.file .s, .imm], scopes :=
      glbScopes, ords := anyOrd, range := some (0, 262143) },
  -- SIGWAIT
  { opc := 0x217, layout := .SYN, streams := [.S], a := [.file .s], b := [.none], c := [.file .s, .imm], scopes :=
      glbScopes, ords := acqOrd, range := some (0, 262143) },
  -- BARA
  { opc := 0x218, layout := .SYN, streams := [.S], a := [.none], b := [.none], c := [.file .s, .imm], scopes :=
      glbScopes, ords := relOrd, range := some (0, 255) },
  -- BARW
  { opc := 0x219, layout := .SYN, streams := [.S], a := [.none], b := [.none], c := [.file .s, .imm], scopes :=
      glbScopes, ords := acqOrd, range := some (0, 255) },
  -- GRPQRY
  { opc := 0x21A, layout := .NONE, streams := [.S], a := [.file .s], b := [.none], c := [.file .s, .imm], range :=
      some (0, 1023) }]

/-- Opcode-map entries: atomics, ordering, obligations, groups (R164, R345, R349, R356, R373, R391, R395, R403,
      R439, R442). -/
def syncEntries : List Entry := syncEntries1 ++ syncEntries2

/-- Opcode-map entries: messages and local time (R268, R271, R277, R304, R352, R381, R409). -/
def messageEntries : List Entry := [
  -- BIND
  { opc := 0x280, layout := .NONE, streams := [.S], a := [.file .s], b := [.none], c := [.file .s, .imm], range :=
      some (0, 4095) },
  -- UNBIND
  { opc := 0x281, layout := .NONE, streams := [.S], a := [.none], b := [.none], c := [.file .s, .imm], range := some
      (0, 4095) },
  -- SEND
  { opc := 0x282, layout := .SYN, streams := [.S], a := [.file .s], b := [.file .s], c := [.file .s], scopes :=
      glbScopes, ords := relOrd, flags := 3 },
  -- SPAWN
  { opc := 0x283, layout := .SYN, streams := [.S], a := [.file .s], b := [.file .s], c := [.file .s], scopes :=
      glbScopes, ords := relOrd },
  -- SLOPEN
  { opc := 0x284, layout := .SYN, streams := [.S], a := [.file .g], b := [.file .s], c := [.imm], scopes :=
      glbScopes, numRule := .dest },
  -- SLWR
  { opc := 0x285, layout := .NONE, streams := [.S, .V], a := [.file .s, .file .v], b := [.none], c := [.imm] },
  -- SLCLOSE
  { opc := 0x286, layout := .SYN, streams := [.S], a := [.none], b := [.none], c := [.imm], scopes := glbScopes,
      ords := relOrd },
  -- LTADV
  { opc := 0x288, layout := .NONE, streams := [.S], a := [.none], b := [.none], c := [.file .s, .imm] },
  -- LTANN
  { opc := 0x289, layout := .NONE, streams := [.S], a := [.none], b := [.none], c := [.none] },
  -- LTGET
  { opc := 0x28A, layout := .NONE, streams := [.S], a := [.file .s], b := [.none], c := [.file .s, .imm], range :=
      some (0, 255) },
  -- LTLOOK
  { opc := 0x28B, layout := .NONE, streams := [.S], a := [.file .s], b := [.file .s], c := [.file .s, .imm], range
      := some (0, 262143) },
  -- LTNULL
  { opc := 0x28C, layout := .NONE, streams := [.S], a := [.file .s], b := [.none], c := [.file .s, .imm] },
  -- LTSET
  { opc := 0x28D, layout := .NONE, streams := [.S], a := [.none], b := [.none], c := [.file .s, .imm] },
  -- LTWAIT
  { opc := 0x28E, layout := .NONE, streams := [.S], a := [.none], b := [.none], c := [.file .s, .imm] }]

/-- Opcode-map entries: engines and tiles (R256 to R258, R359, R360, R388, R416, R417). -/
def engineEntries : List Entry := [
  -- MMA
  { opc := 0x300, layout := .SYN, streams := [.E], a := [.file .z], b := [.file .s], c := [.file .s], scopes :=
      glbScopes, ords := anyOrd },
  -- MMDRAIN
  { opc := 0x301, layout := .MEM, streams := [.E], a := [.file .z], b := [.file .s], c := [.file .s, .imm], tys :=
      [.f32, .i32, .f16, .bf16, .sb4, .sb6, .sb9], scopes := glbScopes, ords := anyOrd },
  -- MMROW
  { opc := 0x302, layout := .NONE, streams := [.S], a := [.file .s], b := [.none], c := [.file .s, .imm] },
  -- MMZ
  { opc := 0x303, layout := .SYN, streams := [.E], a := [.file .z], b := [.none], c := [.none], scopes := glbScopes,
      ords := anyOrd },
  -- CPY
  { opc := 0x304, layout := .SYN, streams := [.E], a := [.file .s], b := [.file .s], c := [.file .s, .imm], scopes
      := glbScopes, ords := anyOrd, range := some (0, 262143) },
  -- CPYG
  { opc := 0x305, layout := .SYN, streams := [.E], a := [.file .s], b := [.file .s], c := [.file .s], scopes :=
      glbScopes, ords := anyOrd },
  -- COLAG
  { opc := 0x306, layout := .MEM, streams := [.E], a := [.file .s], b := [.file .s], c := [.file .s], tys := [.n8,
      .n16, .n32, .n64], scopes := glbScopes, ords := anyOrd },
  -- COLRS
  { opc := 0x307, layout := .MEM, streams := [.E], a := [.file .s], b := [.file .s], c := [.file .s], tys := [.f16,
      .bf16, .f32, .f64, .i32, .i64], scopes := glbScopes, ords := anyOrd },
  -- RPT
  { opc := 0x308, layout := .NONE, streams := [.V, .E], a := [.none], b := [.none], c := [.file .s, .imm] },
  -- RPTEND
  { opc := 0x309, layout := .NONE, streams := [.V, .E], a := [.none], b := [.none], c := [.none] },
  -- TBLLD
  { opc := 0x310, layout := .NONE, streams := [.V], a := [.file .v], b := [.none], c := [.none] },
  -- TBLX
  { opc := 0x311, layout := .AR, streams := [.V], a := [.file .v], b := [.file .v], c := [.file .s, .imm], tys :=
      [.i32, .f32], mask := true, range := some (0, 7) },
  -- TLDEF
  { opc := 0x312, layout := .NONE, streams := [.S], a := [.file .s], b := [.none], c := [.file .s, .imm], range :=
      some (0, 15) },
  -- TLQRY
  { opc := 0x313, layout := .NONE, streams := [.S], a := [.file .s], b := [.none], c := [.file .s, .imm], range :=
      some (0, 15) },
  -- TLSET
  { opc := 0x314, layout := .NONE, streams := [.S], a := [.none], b := [.none], c := [.file .s, .imm], range := some
      (0, 63) }]

/-- Opcode-map entries: system (R355, R386, R393, R411, R420 to R422). -/
def systemEntries : List Entry := [
  -- BRK
  { opc := 0x380, layout := .NONE, streams := [.S], a := [.none], b := [.none], c := [.imm], range := some (0,
      262143) },
  -- MFC
  { opc := 0x381, layout := .NONE, streams := [.S], a := [.file .s], b := [.none], c := [.imm], numRule := .ctrl },
  -- MTC
  { opc := 0x382, layout := .NONE, streams := [.S], a := [.file .s], b := [.none], c := [.imm], numRule := .ctrl },
  -- PARK
  { opc := 0x383, layout := .NONE, streams := [.S], a := [.file .s, .file .v], b := [.none], c := [.file .s, .imm],
      numRule := .spill, range := some (0, 32767) },
  -- UNPARK
  { opc := 0x384, layout := .NONE, streams := [.S], a := [.file .s, .file .v], b := [.none], c := [.none], numRule
      := .spill },
  -- STAMP
  { opc := 0x385, layout := .NONE, streams := [.S], a := [.file .s], b := [.none], c := [.file .s, .imm], range :=
      some (0, 1) },
  -- TRACE
  { opc := 0x386, layout := .NONE, streams := [.S], a := [.file .s], b := [.none], c := [.imm], range := some (0,
      262143) },
  -- TRAP
  { opc := 0x387, layout := .NONE, streams := [.S], a := [.none], b := [.none], c := [.imm], range := some (0,
      262143) },
  -- TRIG
  { opc := 0x388, layout := .NONE, streams := [.S], a := [.none], b := [.none], c := [.none] }]

/-- The opcode map of R52 with every entry of the instruction reference. -/
def entries : List Entry :=
  scalarEntries ++
  fpControlEntries ++
  vectorEntries ++
  memoryEntries ++
  syncEntries ++
  messageEntries ++
  engineEntries ++
  systemEntries

/-- The entry of an opcode; none where the opcode is unassigned (R52, R60). -/
def entryOf (opc : Nat) : Option Entry := entries.find? (fun e => e.opc == opc)

end Sys2Proof
end

