-- ==== Sys2Proof/Machine/Encoding.lean ====
section
/-!
DEFINITION. The bits of an instruction word: its fields (R41, R45 to R49), the codes of the modifiers (R48), and
the checks that make a word an instruction, in the order of causes and fields of R55.
-/

namespace Sys2Proof

/-- Bits [lo + n − 1 : lo] of a word (R10), as a bit vector of n bits. -/
def bits {m : Nat} (w : BitVec m) (lo n : Nat) : BitVec n := w.extractLsb' lo n

/-! The word's fields (R41). -/

/-- OPC. -/
def opcField (w : IWord) : Nat := (bits w 86 10).toNat
/-- HINT.STREAM as a code. -/
def streamField (w : IWord) : Nat := (bits w 78 2).toNat
/-- Operand field A. -/
def fieldA (w : IWord) : BitVec 21 := bits w 42 21
/-- Operand field B. -/
def fieldB (w : IWord) : BitVec 21 := bits w 21 21
/-- Operand field C. -/
def fieldC (w : IWord) : BitVec 21 := bits w 0 21
/-- IMMPAIR. -/
def pairField (w : IWord) : Bool := w.getLsbD 63

/-! An operand field's parts (R45). -/

/-- KIND. -/
def kindOf (f : BitVec 21) : Nat := (bits f 19 2).toNat
/-- FILE. -/
def fileCode (f : BitVec 21) : Nat := (bits f 16 3).toNat
/-- ROT, or PEEK of the queue kind. -/
def rotOf (f : BitVec 21) : Bool := f.getLsbD 15
/-- NUM. -/
def numOf (f : BitVec 21) : BitVec 6 := bits f 9 6
/-- MOD. -/
def modOf (f : BitVec 21) : BitVec 9 := bits f 0 9
/-- CODE of the special kind. -/
def specialCode (f : BitVec 21) : Nat := (bits f 9 10).toNat
/-- The 19-bit immediate. -/
def immOf (f : BitVec 21) : BitVec 19 := bits f 0 19

/-! Codes (R46, R48). -/

/-- The stream of a code. -/
def Stream.ofCode : Nat → Option Stream | 0 => some .S | 1 => some .V | 2 => some .E | _ => none
/-- The code of a stream. -/
def Stream.code : Stream → BitVec 2 | .S => 0 | .V => 1 | .E => 2
/-- The type of a code. -/
def Ty.ofCode (n : BitVec 4) : Ty :=
  match n.toNat with
  | 0 => .i8 | 1 => .i16 | 2 => .i32 | 3 => .i64 | 4 => .n8 | 5 => .n16 | 6 => .n32 | 7 => .n64
  | 8 => .f16 | 9 => .bf16 | 10 => .f32 | 11 => .f64 | 12 => .sb4 | 13 => .sb6 | 14 => .sb9 | _ => .t4
/-- The code of a type. -/
def Ty.code : Ty → BitVec 4
  | .i8 => 0 | .i16 => 1 | .i32 => 2 | .i64 => 3 | .n8 => 4 | .n16 => 5 | .n32 => 6 | .n64 => 7
  | .f16 => 8 | .bf16 => 9 | .f32 => 10 | .f64 => 11 | .sb4 => 12 | .sb6 => 13 | .sb9 => 14 | .t4 => 15
/-- The rounding of a code; codes 5 to 7 are reserved. -/
def Rnd.ofCode (n : BitVec 3) : Option Rnd :=
  match n.toNat with
  | 0 => some .rne | 1 => some .rtz | 2 => some .rdn | 3 => some .rup | 4 => some .dyn | _ => none
/-- The code of a rounding. -/
def Rnd.code : Rnd → BitVec 3 | .rne => 0 | .rtz => 1 | .rdn => 2 | .rup => 3 | .dyn => 4
/-- The scope of a code. -/
def Scope.ofCode (n : BitVec 3) : Scope :=
  match n.toNat with
  | 0 => .none | 1 => .slot | 2 => .core | 3 => .oct | 4 => .clu | 5 => .die | 6 => .mod | _ => .dom
/-- The code of a scope. -/
def Scope.code : Scope → BitVec 3
  | .none => 0 | .slot => 1 | .core => 2 | .oct => 3 | .clu => 4 | .die => 5 | .mod => 6 | .dom => 7
/-- The order of a code. -/
def Ord.ofCode (n : BitVec 2) : Ord := match n.toNat with | 0 => .rlx | 1 => .acq | 2 => .rel | _ => .acqrel
/-- The code of an order. -/
def Ord.code : Ord → BitVec 2 | .rlx => 0 | .acq => 1 | .rel => 2 | .acqrel => 3
/-- The file of a FILE code under kind 0b00; 0b101 and 0b111 are reserved there. -/
def File.ofCode : Nat → Option File
  | 0 => some .s | 1 => some .v | 2 => some .m | 3 => some .g | 4 => some .z | 6 => some .c | _ => none
/-- The code of a file. -/
def File.code : File → BitVec 3 | .s => 0 | .v => 1 | .m => 2 | .g => 3 | .z => 4 | .c => 6

/-- Whether a number names a control register (R51). -/
def isCtrl (n : Nat) : Bool := n ≤ 0x11 || (0x100 ≤ n && n ≤ 0x24F)

/-- The range of NUM per file (R46). -/
def File.inRange : File → Nat → Bool
  | .s, n => n < 64 | .v, n => n < 32 | .m, n => n < 8 | .g, n => n < 32 | .z, n => n < 8
  | .c, n => n < 0x40 && isCtrl n

/-- Whether a file may rotate (R46). -/
def File.rotates : File → Bool | .s => true | .v => true | .z => true | _ => false

/-- The immediate of field C as a signed number. -/
def immInt (f : BitVec 21) : Int := (immOf f).toInt

/-- Floating-point types of R224. -/
def Ty.isFloat : Ty → Bool | .f16 => true | .bf16 => true | .f32 => true | .f64 => true | _ => false

/-- Whether an S-stream instruction of layout AR stands at this opcode, so that R448 lets a queue register stand
for an s register. -/
def allowsQueue (e : Entry) : Bool := e.layout == .AR && (e.opc < 0x20 || (0x80 ≤ e.opc && e.opc < 0x8C)) && e.opc != 0x012

/-- What field `i` (1, 2, 3 for A, B, C) accepts, with the queue registers that R448 adds. -/
def Entry.accept (e : Entry) (pair : Bool) (i : Nat) : List Acc :=
  let l := if i = 1 then e.a else if i = 2 then e.b else e.c
  if allowsQueue e && l.contains (.file .s) && !(i = 1 && (e.tied || pair)) then .queue :: l else l

/-- Whether a position accepts some register (of a file or a queue). -/
def takesRegister (l : List Acc) : Bool := l.any (fun a => match a with | .queue => true | .file _ => true | _ => false)

/-- Whether a position accepts a register of some file under kind 0b00. -/
def takesFile (l : List Acc) : Bool := l.any (fun a => match a with | .file _ => true | _ => false)

/-! The causes 0x05 to 0x0A of R55 for one field. -/

/-- Cause 0x05 KIND. -/
def kindBad (e : Entry) (w : IWord) (i : Nat) (f : BitVec 21) : Bool :=
  let l := e.accept (pairField w) i
  match kindOf f with
  | 0 => !takesFile l
  | 1 => !(i = 3 && l.contains .imm) || (e.opc == 0x012 && streamField w != 0) ||
         (e.opc == 0x215 && bits (fieldB w) 0 2 == 3)
  | 2 => !takesRegister l
  | _ => !l.contains .none || (i = 2 && 0x184 ≤ e.opc && e.opc ≤ 0x186 && kindOf (fieldC w) != 1)

/-- MOV's register pairs (R389): the files allowed in A and C by the stream. -/
def movFileBad (w : IWord) (i : Nat) (f : BitVec 21) : Bool :=
  let cls (x : BitVec 21) : Nat := if kindOf x = 2 then 5 else fileCode x
  let s := streamField w
  if i = 1 then !((s = 0 && (cls f = 0 || cls f = 5)) || (s = 1 && (cls f = 1 || cls f = 2 || cls f = 5)) ||
                  (s = 2 && cls f = 5))
  else if s = 0 then !(cls f = 0 || cls f = 5) else cls f != cls (fieldA w)

/-- Cause 0x06 FILE. -/
def fileBad (e : Entry) (w : IWord) (i : Nat) (f : BitVec 21) : Bool :=
  let l := e.accept (pairField w) i
  match kindOf f with
  | 0 =>
    match File.ofCode (fileCode f) with
    | none => true
    | some x => !l.contains (.file x) || (e.opc == 0x012 && movFileBad w i f) ||
        (e.opc == 0x285 && x != (if streamField w = 0 then .s else .v))
  | 2 => fileCode f != 5 || !l.contains .queue || (e.opc == 0x012 && movFileBad w i f)
  | _ => false

/-- The NUMBER rules of an entry for a register in field A (R46, R358, R393, R428). -/
def numRuleBad (e : Entry) (f : BitVec 21) : Bool :=
  let n := (numOf f).toNat
  match e.numRule with
  | .dest => (fileCode f = 2 || fileCode f = 3) && n = 0
  | .guardPair => n = 0 || 31 ≤ n
  | .maskPair => n = 0 || 7 ≤ n
  | .spill => fileCode f = 0 && n = 0
  | _ => false

/-- Cause 0x07 NUMBER. -/
def numberBad (e : Entry) (w : IWord) (i : Nat) (f : BitVec 21) : Bool :=
  match kindOf f with
  | 0 =>
    match File.ofCode (fileCode f) with
    | none => true
    | some x => !x.inRange (numOf f).toNat || (i = 1 && numRuleBad e f)
  | 1 =>
    let out := match e.range with | none => false | some r => immInt f < r.1 || r.2 < immInt f
    out || (e.numRule == .ctrl && !isCtrl (immOf f).toNat) ||
      ((e.opc == 0x114 || e.opc == 0x117) && 3 ≤ immInt f && (Ty.ofCode (bits (fieldA w) 5 4)).isFloat)
  | 2 => 8 ≤ (numOf f).toNat
  | _ => false

/-- Whether the MOD bits of field A break its layout (R47, R48) or the entry's groups. -/
def modABad (e : Entry) (w : IWord) (m : BitVec 9) : Bool :=
  match e.layout with
  | .AR =>
    !e.tys.contains (Ty.ofCode (bits m 5 4)) || (m.getLsbD 4 && !e.sat) ||
    (match Rnd.ofCode (bits m 1 3) with | none => true | some r => r != .rne && !e.rnd) || m.getLsbD 0
  | .MEM =>
    !e.tys.contains (Ty.ofCode (bits m 5 4)) || !e.scopes.contains (Scope.ofCode (bits m 2 3)) ||
    !e.ords.contains (Ord.ofCode (bits m 0 2)) ||
    ((e.opc == 0x200 || e.opc == 0x201) && 2 ≤ immInt (fieldC w) && immInt (fieldC w) ≤ 4 &&
      (Ty.ofCode (bits m 5 4)).isFloat)
  | .SYN =>
    !e.scopes.contains (Scope.ofCode (bits m 6 3)) || !e.ords.contains (Ord.ofCode (bits m 4 2)) || bits m 0 4 != 0
  | .NONE => m != 0

/-- Whether the MOD bits of field B are not those its entry lists (R45, R49, R50). -/
def modBBad (e : Entry) (f : BitVec 21) : Bool :=
  let m := modOf f
  bits m 7 2 != 0 || (!e.mask && bits m 4 3 != 0) ||
  (if kindOf f = 3 then bits m 0 4 != 0 else bits m 0 4 &&& ~~~ e.flags != 0) ||
  (e.opc == 0x215 && bits m 0 2 == 0)

/-- Whether the MOD bits of field C are not those its entry lists (R49). -/
def modCBad (e : Entry) (f : BitVec 21) : Bool :=
  let m := modOf f
  if kindOf f = 3 then m != 0
  else
    bits m 0 4 != 0 ||
    (match e.opf with
     | .none => bits m 4 5 != 0
     | .index => 5 ≤ (bits m 4 3).toNat
     | .conv => m.getLsbD 4 || !convTys.contains (Ty.ofCode (bits m 5 4))
     | .vconv => m.getLsbD 4 || !vanyTys.contains (Ty.ofCode (bits m 5 4)))

/-- Cause 0x08 MODIFIER. -/
def modifierBad (e : Entry) (w : IWord) (i : Nat) (f : BitVec 21) : Bool :=
  if kindOf f = 1 then false
  else if i = 1 then modABad e w (modOf f)
  else if i = 2 then modBBad e f
  else modCBad e f

/-- Cause 0x09 ROTATE: ROT = 1 outside a captured body, in an S word, or on a file that does not rotate. -/
def rotateBad (body : Bool) (e : Entry) (w : IWord) (f : BitVec 21) : Bool :=
  kindOf f = 0 && rotOf f &&
    (!body || streamField w = 0 || !e.rotates ||
     (match File.ofCode (fileCode f) with | none => true | some x => !x.rotates))

/-- Cause 0x0A SPECIAL. -/
def specialBad (f : BitVec 21) : Bool := kindOf f = 3 && specialCode f != 0

/-- The first field at which a cause stands, in the order A, B, C; B and C are not checked under IMMPAIR. -/
def firstField (w : IWord) (bad : Nat → BitVec 21 → Bool) : Option Nat :=
  if bad 1 (fieldA w) then some 1
  else if pairField w then none
  else if bad 2 (fieldB w) then some 2
  else if bad 3 (fieldC w) then some 3
  else none

/-- The field causes in ascending order. -/
def fieldCauses (body : Bool) (e : Entry) (w : IWord) : List (Nat × (Nat → BitVec 21 → Bool)) :=
  [(0x05, kindBad e w), (0x06, fileBad e w), (0x07, numberBad e w), (0x08, modifierBad e w),
   (0x09, fun _ f => rotateBad body e w f), (0x0A, fun _ f => specialBad f)]

/-- The first cause and field that stand, over a list of causes. -/
def firstCause (w : IWord) : List (Nat × (Nat → BitVec 21 → Bool)) → Option (Nat × Nat)
  | [] => none
  | (k, bad) :: rest =>
    match firstField w bad with
    | some i => some (k, i)
    | none => firstCause w rest

/-- The cause and the field of ILLEGAL_ENCODING that R55 reports for a word, if it is not an instruction. `body` says
that the word is captured between RPT and RPTEND (R46). -/
def encodingFault (body : Bool) (w : IWord) : Option (Nat × Nat) :=
  match entryOf (opcField w) with
  | none => some (0x01, 0)
  | some e =>
    if !(match Stream.ofCode (streamField w) with | none => false | some s => e.streams.contains s) then some (0x02, 0)
    else if bits w 64 4 != 0 || (w.getLsbD 68 && !([0x090, 0x091, 0x092, 0x095].contains e.opc)) then some (0x03, 0)
    else if pairField w && !e.pair then some (0x04, 0)
    else firstCause w (fieldCauses body e w)

end Sys2Proof
end

