-- ==== Sys2Proof/Machine/Codec.lean ====
section
/-!
DEFINITION. From the fields of a word to an instruction and back (R41 to R52): the constructor of an opcode, the
operand fields of a word, and the word of operand fields.
-/

namespace Sys2Proof

/-- The constructor of an opcode (R52), holding the operand fields. -/
def ofOpcode (opc : Nat) (w : Operands) : Option Instr :=
  match opc with
  | 0x001 => some (.abs w)
  | 0x002 => some (.add w)
  | 0x003 => some (.and w)
  | 0x004 => some (.andn w)
  | 0x005 => some (.bswap w)
  | 0x006 => some (.clz w)
  | 0x007 => some (.cmp w)
  | 0x008 => some (.ctz w)
  | 0x009 => some (.div w)
  | 0x00A => some (.exts w)
  | 0x00B => some (.extz w)
  | 0x00C => some (.ins w)
  | 0x00D => some (.li w)
  | 0x00E => some (.lih w)
  | 0x00F => some (.madr w)
  | 0x010 => some (.max w)
  | 0x011 => some (.min w)
  | 0x012 => some (.mov w)
  | 0x013 => some (.mul w)
  | 0x014 => some (.mulh w)
  | 0x015 => some (.neg w)
  | 0x016 => some (.or w)
  | 0x017 => some (.popc w)
  | 0x018 => some (.rem w)
  | 0x019 => some (.rol w)
  | 0x01A => some (.sar w)
  | 0x01B => some (.sel w)
  | 0x01C => some (.shl w)
  | 0x01D => some (.shr w)
  | 0x01E => some (.sub w)
  | 0x01F => some (.xor w)
  | 0x080 => some (.fabs w)
  | 0x081 => some (.fadd w)
  | 0x082 => some (.fcmp w)
  | 0x083 => some (.fcvt w)
  | 0x084 => some (.fdiv w)
  | 0x085 => some (.ffma w)
  | 0x086 => some (.fmax w)
  | 0x087 => some (.fmin w)
  | 0x088 => some (.fmul w)
  | 0x089 => some (.fneg w)
  | 0x08A => some (.fsqrt w)
  | 0x08B => some (.fsub w)
  | 0x090 => some (.br w)
  | 0x091 => some (.brl w)
  | 0x092 => some (.chk w)
  | 0x093 => some (.endOp w)
  | 0x094 => some (.jmp w)
  | 0x095 => some (.loop w)
  | 0x096 => some (.nop w)
  | 0x097 => some (.ret w)
  | 0x098 => some (.yield w)
  | 0x0A0 => some (.gand w)
  | 0x0A1 => some (.gnot w)
  | 0x0A2 => some (.gor w)
  | 0x0A3 => some (.mall w)
  | 0x0A4 => some (.mand w)
  | 0x0A5 => some (.many w)
  | 0x0A6 => some (.mfirst w)
  | 0x0A7 => some (.mnot w)
  | 0x0A8 => some (.mor w)
  | 0x0A9 => some (.mpop w)
  | 0x100 => some (.vabs w)
  | 0x101 => some (.vadd w)
  | 0x102 => some (.vand w)
  | 0x103 => some (.vcmp w)
  | 0x104 => some (.vcvt w)
  | 0x105 => some (.vdot4 w)
  | 0x106 => some (.vexp2 w)
  | 0x107 => some (.vext w)
  | 0x108 => some (.vfma w)
  | 0x109 => some (.vins w)
  | 0x10A => some (.vlget w)
  | 0x10B => some (.vlog2 w)
  | 0x10C => some (.vmax w)
  | 0x10D => some (.vmin w)
  | 0x10E => some (.vmov w)
  | 0x10F => some (.vmul w)
  | 0x110 => some (.vor w)
  | 0x111 => some (.vperm w)
  | 0x112 => some (.vqnt w)
  | 0x113 => some (.vrcp w)
  | 0x114 => some (.vred w)
  | 0x115 => some (.vrsq w)
  | 0x116 => some (.vsar w)
  | 0x117 => some (.vscan w)
  | 0x118 => some (.vsel w)
  | 0x119 => some (.vshl w)
  | 0x11A => some (.vshr w)
  | 0x11B => some (.vslide w)
  | 0x11C => some (.vsplat w)
  | 0x11D => some (.vsub w)
  | 0x11E => some (.vxor w)
  | 0x180 => some (.ldg w)
  | 0x181 => some (.ldl w)
  | 0x182 => some (.lds w)
  | 0x183 => some (.ldz w)
  | 0x184 => some (.stg w)
  | 0x185 => some (.stl w)
  | 0x186 => some (.sts w)
  | 0x187 => some (.stz w)
  | 0x188 => some (.vldg w)
  | 0x189 => some (.vldl w)
  | 0x18A => some (.vlds w)
  | 0x18B => some (.vstg w)
  | 0x18C => some (.vstl w)
  | 0x18D => some (.vsts w)
  | 0x190 => some (.vgthg w)
  | 0x191 => some (.vgthl w)
  | 0x192 => some (.vgths w)
  | 0x193 => some (.vsctg w)
  | 0x194 => some (.vsctl w)
  | 0x195 => some (.vscts w)
  | 0x196 => some (.pref w)
  | 0x200 => some (.amog w)
  | 0x201 => some (.amos w)
  | 0x202 => some (.casg w)
  | 0x203 => some (.cass w)
  | 0x204 => some (.redg w)
  | 0x205 => some (.reds w)
  | 0x206 => some (.vreds w)
  | 0x208 => some (.fence w)
  | 0x209 => some (.fencer w)
  | 0x20A => some (.waita w)
  | 0x20B => some (.wakea w)
  | 0x210 => some (.oblgive w)
  | 0x211 => some (.oblqry w)
  | 0x212 => some (.obltake w)
  | 0x213 => some (.sigadd w)
  | 0x214 => some (.sigfree w)
  | 0x215 => some (.signew w)
  | 0x216 => some (.sigset w)
  | 0x217 => some (.sigwait w)
  | 0x218 => some (.bara w)
  | 0x219 => some (.barw w)
  | 0x21A => some (.grpqry w)
  | 0x280 => some (.bind w)
  | 0x281 => some (.unbind w)
  | 0x282 => some (.send w)
  | 0x283 => some (.spawn w)
  | 0x284 => some (.slopen w)
  | 0x285 => some (.slwr w)
  | 0x286 => some (.slclose w)
  | 0x288 => some (.ltadv w)
  | 0x289 => some (.ltann w)
  | 0x28A => some (.ltget w)
  | 0x28B => some (.ltlook w)
  | 0x28C => some (.ltnull w)
  | 0x28D => some (.ltset w)
  | 0x28E => some (.ltwait w)
  | 0x300 => some (.mma w)
  | 0x301 => some (.mmdrain w)
  | 0x302 => some (.mmrow w)
  | 0x303 => some (.mmz w)
  | 0x304 => some (.cpy w)
  | 0x305 => some (.cpyg w)
  | 0x306 => some (.colag w)
  | 0x307 => some (.colrs w)
  | 0x308 => some (.rpt w)
  | 0x309 => some (.rptend w)
  | 0x310 => some (.tblld w)
  | 0x311 => some (.tblx w)
  | 0x312 => some (.tldef w)
  | 0x313 => some (.tlqry w)
  | 0x314 => some (.tlset w)
  | 0x380 => some (.brk w)
  | 0x381 => some (.mfc w)
  | 0x382 => some (.mtc w)
  | 0x383 => some (.park w)
  | 0x384 => some (.unpark w)
  | 0x385 => some (.stamp w)
  | 0x386 => some (.trace w)
  | 0x387 => some (.trap w)
  | 0x388 => some (.trig w)
  | _ => none

/-- The opcode and the operand fields of an instruction word; none for an event. -/
def toOpcode (i : Instr) : Option (Nat × Operands) :=
  match i with
  | .abs w => some (0x001, w)
  | .add w => some (0x002, w)
  | .and w => some (0x003, w)
  | .andn w => some (0x004, w)
  | .bswap w => some (0x005, w)
  | .clz w => some (0x006, w)
  | .ctz w => some (0x008, w)
  | .cmp w => some (0x007, w)
  | .div w => some (0x009, w)
  | .exts w => some (0x00A, w)
  | .extz w => some (0x00B, w)
  | .ins w => some (0x00C, w)
  | .li w => some (0x00D, w)
  | .lih w => some (0x00E, w)
  | .madr w => some (0x00F, w)
  | .max w => some (0x010, w)
  | .min w => some (0x011, w)
  | .mov w => some (0x012, w)
  | .mul w => some (0x013, w)
  | .mulh w => some (0x014, w)
  | .neg w => some (0x015, w)
  | .or w => some (0x016, w)
  | .popc w => some (0x017, w)
  | .rem w => some (0x018, w)
  | .rol w => some (0x019, w)
  | .sar w => some (0x01A, w)
  | .sel w => some (0x01B, w)
  | .shl w => some (0x01C, w)
  | .shr w => some (0x01D, w)
  | .sub w => some (0x01E, w)
  | .xor w => some (0x01F, w)
  | .fabs w => some (0x080, w)
  | .fadd w => some (0x081, w)
  | .fcmp w => some (0x082, w)
  | .fcvt w => some (0x083, w)
  | .fdiv w => some (0x084, w)
  | .ffma w => some (0x085, w)
  | .fmax w => some (0x086, w)
  | .fmin w => some (0x087, w)
  | .fmul w => some (0x088, w)
  | .fneg w => some (0x089, w)
  | .fsqrt w => some (0x08A, w)
  | .fsub w => some (0x08B, w)
  | .br w => some (0x090, w)
  | .brl w => some (0x091, w)
  | .chk w => some (0x092, w)
  | .endOp w => some (0x093, w)
  | .jmp w => some (0x094, w)
  | .loop w => some (0x095, w)
  | .nop w => some (0x096, w)
  | .ret w => some (0x097, w)
  | .yield w => some (0x098, w)
  | .gand w => some (0x0A0, w)
  | .gnot w => some (0x0A1, w)
  | .gor w => some (0x0A2, w)
  | .mall w => some (0x0A3, w)
  | .mand w => some (0x0A4, w)
  | .many w => some (0x0A5, w)
  | .mfirst w => some (0x0A6, w)
  | .mnot w => some (0x0A7, w)
  | .mor w => some (0x0A8, w)
  | .mpop w => some (0x0A9, w)
  | .vabs w => some (0x100, w)
  | .vadd w => some (0x101, w)
  | .vand w => some (0x102, w)
  | .vcmp w => some (0x103, w)
  | .vcvt w => some (0x104, w)
  | .vdot4 w => some (0x105, w)
  | .vexp2 w => some (0x106, w)
  | .vext w => some (0x107, w)
  | .vfma w => some (0x108, w)
  | .vins w => some (0x109, w)
  | .vlget w => some (0x10A, w)
  | .vlog2 w => some (0x10B, w)
  | .vmax w => some (0x10C, w)
  | .vmin w => some (0x10D, w)
  | .vmov w => some (0x10E, w)
  | .vmul w => some (0x10F, w)
  | .vor w => some (0x110, w)
  | .vperm w => some (0x111, w)
  | .vqnt w => some (0x112, w)
  | .vrcp w => some (0x113, w)
  | .vred w => some (0x114, w)
  | .vrsq w => some (0x115, w)
  | .vsar w => some (0x116, w)
  | .vscan w => some (0x117, w)
  | .vsel w => some (0x118, w)
  | .vshl w => some (0x119, w)
  | .vshr w => some (0x11A, w)
  | .vslide w => some (0x11B, w)
  | .vsplat w => some (0x11C, w)
  | .vsub w => some (0x11D, w)
  | .vxor w => some (0x11E, w)
  | .ldg w => some (0x180, w)
  | .ldl w => some (0x181, w)
  | .lds w => some (0x182, w)
  | .ldz w => some (0x183, w)
  | .stg w => some (0x184, w)
  | .stl w => some (0x185, w)
  | .sts w => some (0x186, w)
  | .stz w => some (0x187, w)
  | .vldg w => some (0x188, w)
  | .vldl w => some (0x189, w)
  | .vlds w => some (0x18A, w)
  | .vstg w => some (0x18B, w)
  | .vstl w => some (0x18C, w)
  | .vsts w => some (0x18D, w)
  | .vgthg w => some (0x190, w)
  | .vgthl w => some (0x191, w)
  | .vgths w => some (0x192, w)
  | .vsctg w => some (0x193, w)
  | .vsctl w => some (0x194, w)
  | .vscts w => some (0x195, w)
  | .pref w => some (0x196, w)
  | .amog w => some (0x200, w)
  | .amos w => some (0x201, w)
  | .casg w => some (0x202, w)
  | .cass w => some (0x203, w)
  | .redg w => some (0x204, w)
  | .reds w => some (0x205, w)
  | .vreds w => some (0x206, w)
  | .fence w => some (0x208, w)
  | .fencer w => some (0x209, w)
  | .waita w => some (0x20A, w)
  | .wakea w => some (0x20B, w)
  | .oblgive w => some (0x210, w)
  | .oblqry w => some (0x211, w)
  | .obltake w => some (0x212, w)
  | .sigadd w => some (0x213, w)
  | .sigfree w => some (0x214, w)
  | .signew w => some (0x215, w)
  | .sigset w => some (0x216, w)
  | .sigwait w => some (0x217, w)
  | .bara w => some (0x218, w)
  | .barw w => some (0x219, w)
  | .grpqry w => some (0x21A, w)
  | .bind w => some (0x280, w)
  | .unbind w => some (0x281, w)
  | .send w => some (0x282, w)
  | .spawn w => some (0x283, w)
  | .slopen w => some (0x284, w)
  | .slwr w => some (0x285, w)
  | .slclose w => some (0x286, w)
  | .ltadv w => some (0x288, w)
  | .ltann w => some (0x289, w)
  | .ltget w => some (0x28A, w)
  | .ltlook w => some (0x28B, w)
  | .ltnull w => some (0x28C, w)
  | .ltset w => some (0x28D, w)
  | .ltwait w => some (0x28E, w)
  | .mma w => some (0x300, w)
  | .mmdrain w => some (0x301, w)
  | .mmrow w => some (0x302, w)
  | .mmz w => some (0x303, w)
  | .cpy w => some (0x304, w)
  | .cpyg w => some (0x305, w)
  | .colag w => some (0x306, w)
  | .colrs w => some (0x307, w)
  | .rpt w => some (0x308, w)
  | .rptend w => some (0x309, w)
  | .tblld w => some (0x310, w)
  | .tblx w => some (0x311, w)
  | .tldef w => some (0x312, w)
  | .tlqry w => some (0x313, w)
  | .tlset w => some (0x314, w)
  | .brk w => some (0x380, w)
  | .mfc w => some (0x381, w)
  | .mtc w => some (0x382, w)
  | .park w => some (0x383, w)
  | .unpark w => some (0x384, w)
  | .stamp w => some (0x385, w)
  | .trace w => some (0x386, w)
  | .trap w => some (0x387, w)
  | .trig w => some (0x388, w)
  | .streamDeadlock _ _ => none
  | .slotStartDone _ _ => none
  | .starvationPromotion _ _ _ => none
  | .dispatch _ => none
  | .bindwaitExpiry _ => none
  | .bindComplete _ _ => none
  | .deadQueueRetry _ => none
  | .firingStart _ _ => none
  | .rebalanceTick _ => none
  | .spawnRequest _ => none
  | .spawnAnswer _ _ => none
  | .messageDelivery _ => none
  | .sendEnqueue _ _ => none
  | .signalHomeOp _ => none
  | .drain _ _ _ => none
  | .apply _ _ => none
  | .atomicAtOwner _ _ _ => none
  | .counterHalving _ => none
  | .ownerQuery _ => none
  | .ownerReply _ => none
  | .redirect _ => none
  | .notOwner _ => none
  | .migrateBegin _ => none
  | .pageLines _ => none
  | .migrateDone _ => none
  | .ownerUpdate _ => none
  | .stubExpiry _ _ => none
  | .stubRetire _ => none
  | .ownerInval _ => none
  | .ownerInvalAck _ => none
  | .retireOk _ => none
  | .stubRelay _ => none
  | .chainLimit _ => none
  | .dupInval _ => none
  | .dupInvalAck _ => none
  | .leaseGrant _ => none
  | .leaseRecall _ => none
  | .leaseReturn _ => none
  | .reservedKind _ _ _ => none
  | .migctlPin _ _ => none
  | .migctlUnpin _ _ => none
  | .migctlMove _ _ _ _ => none
  | .atmmodeHintWrite _ _ => none
  | .barrierArrival _ _ _ => none
  | .barrierRelease _ _ => none
  | .mmaStep _ => none
  | .mmzExec _ => none
  | .drainStart _ => none
  | .drainComplete _ => none
  | .copyLine _ _ => none
  | .copyComplete _ _ => none
  | .collectiveLine _ _ _ => none
  | .collectiveComplete _ _ => none
  | .sluiceAnswer _ _ _ => none
  | .sluiceCloseAck _ _ => none
  | .eventDispatch _ => none
  | .announcement _ _ => none
  | .nullEvent _ _ => none
  | .demand _ _ => none
  | .frameSave _ _ => none
  | .frameRestore _ => none
  | .preempt _ _ => none
  | .pageReady _ _ _ => none
  | .releaseEntry _ _ => none
  | .pushFreeFrame _ _ => none
  | .resumeAtWord _ => none
  | .resumeAfterWord _ => none
  | .resumeWithRecovery _ => none
  | .ringTailWrite _ _ => none
  | .processTerminate _ => none
  | .eccCorrected _ => none
  | .eccUncorrected _ => none
  | .launch _ => none
  | .launchClose _ => none
  | .launchEnd _ => none
  | .partitionGrow _ _ => none
  | .partitionShrink _ _ => none
  | .departureTimeout _ => none
  | .creditAudit _ _ _ => none
  | .creditReturn _ _ _ => none
  | .routerGate _ _ => none
  | .routerWake _ _ => none
  | .captureStart _ => none
  | .captureStop _ => none
  | .captureFreeze _ => none
  | .selectFilter _ => none
  | .preciseStop _ => none
  | .preciseStopTimeout _ _ => none
  | .preciseStopLanding _ => none
  | .preciseStopResume => none
  | .captureUnfreeze => none
  | .panic _ => none
  | .profileClear _ => none
  | .profileRead _ _ => none
  | .replayTimeout _ => none
  | .keySlotLoad _ => none
  | .keySlotClear _ => none
  | .keySlotDone => none
  | .hostReadFail _ _ => none
  | .hostWriteFail => none
  | .hostLinkDown => none
  | .powerGood => none
  | .identityReport _ => none
  | .rollbackRaise _ => none
  | .clockStepDown => none
  | .clockStepUp => none
  | .overTemperatureShutdown => none
  | .weirTableWrite _ _ => none
  | .registerWrite _ _ => none
  | .pageLineSend _ _ => none
  | .pageEntryInvalidation _ _ => none
  | .deadMessageRedispatch _ _ _ => none
  | .corruptedFlit _ => none
  | .hostLinkUp => none
  | .computeDieResetRelease => none
  | .recoveryCopyWrite _ _ => none
/-- The operand that a field holds (R45), for a field that passed the checks. -/
def decodeOpnd (f : BitVec 21) : Opnd :=
  match kindOf f with
  | 0 => match File.ofCode (fileCode f) with | none => .none | some x => .reg x (rotOf f) (numOf f)
  | 1 => .imm (immOf f)
  | 2 => .queue (rotOf f) (bits f 9 3)
  | _ => .none

/-- The field that holds an operand with its MOD bits. -/
def encodeOpnd (o : Opnd) (m : BitVec 9) : BitVec 21 :=
  match o with
  | .none => 0b11#2 ++ 0#10 ++ m
  | .reg x r n => 0b00#2 ++ x.code ++ BitVec.ofBool r ++ n ++ m
  | .imm v => 0b01#2 ++ v
  | .queue p n => 0b10#2 ++ 0b101#3 ++ BitVec.ofBool p ++ 0#3 ++ n ++ m

/-- Guard and hint fields of a word (R41). -/
def decodeHead (w : IWord) : Head where
  neg := w.getLsbD 85
  guard := bits w 80 5
  stream := (Stream.ofCode (streamField w)).getD .S
  fin := w.getLsbD 77
  yield := w.getLsbD 76
  stall := bits w 72 4
  cache := bits w 69 3
  likely := w.getLsbD 68

/-- The operand fields of a word whose opcode has the given layout, for a word that passed the checks. -/
def decodeOperands (l : Layout) (w : IWord) : Operands :=
  let m := modOf (fieldA w)
  let p := pairField w
  { head := decodeHead w
    a := decodeOpnd (fieldA w)
    b := if p then .none else decodeOpnd (fieldB w)
    c := if p then .none else decodeOpnd (fieldC w)
    pair := if p then some (bits w 0 42) else none
    ty := match l with | .AR => Ty.ofCode (bits m 5 4) | .MEM => Ty.ofCode (bits m 5 4) | _ => .i8
    sat := match l with | .AR => m.getLsbD 4 | _ => false
    rnd := match l with | .AR => (Rnd.ofCode (bits m 1 3)).getD .rne | _ => .rne
    scope := match l with
      | .MEM => Scope.ofCode (bits m 2 3) | .SYN => Scope.ofCode (bits m 6 3) | _ => .none
    ord := match l with | .MEM => Ord.ofCode (bits m 0 2) | .SYN => Ord.ofCode (bits m 4 2) | _ => .rlx
    msk := if p then 0 else bits (modOf (fieldB w)) 4 3
    flg := if p then 0 else bits (modOf (fieldB w)) 0 4
    opf := if p || kindOf (fieldC w) = 1 then 0 else bits (modOf (fieldC w)) 4 5 }

/-- The MOD bits of field A under a layout (R47). -/
def modA (l : Layout) (w : Operands) : BitVec 9 :=
  match l with
  | .AR => w.ty.code ++ BitVec.ofBool w.sat ++ w.rnd.code ++ 0#1
  | .MEM => w.ty.code ++ w.scope.code ++ w.ord.code
  | .SYN => w.scope.code ++ w.ord.code ++ 0#4
  | .NONE => 0

/-- The word of operand fields (R41). -/
def encodeWord (opc : Nat) (l : Layout) (w : Operands) : IWord :=
  let h := w.head
  let a := encodeOpnd w.a (modA l w)
  let bc : BitVec 42 := match w.pair with
    | some p => p
    | none => encodeOpnd w.b (0#2 ++ w.msk ++ w.flg) ++ encodeOpnd w.c (w.opf ++ 0#4)
  BitVec.ofNat 10 opc ++ BitVec.ofBool h.neg ++ h.guard ++ h.stream.code ++ BitVec.ofBool h.fin ++
    BitVec.ofBool h.yield ++ h.stall ++ h.cache ++ BitVec.ofBool h.likely ++ 0#4 ++
    BitVec.ofBool w.pair.isSome ++ a ++ bc

/-- Whether operand fields hold nothing that a word of this layout cannot: the modifiers of other layouts at their
first codes, an A and a B that are no immediates, and b, c and their modifiers empty under the pair (R44, R47). -/
def Operands.canonical (l : Layout) (w : Operands) : Bool :=
  (match w.a with | .imm _ => false | _ => true) && (match w.b with | .imm _ => false | _ => true) &&
  (w.pair.isNone || (w.b == .none && w.c == .none && w.msk == 0 && w.flg == 0 && w.opf == 0)) &&
  (match w.c with | .imm _ => w.opf == 0 | _ => true) &&
  (match l with
   | .AR => w.scope == .none && w.ord == .rlx
   | .MEM => w.sat == false && w.rnd == .rne
   | .SYN => w.ty == .i8 && w.sat == false && w.rnd == .rne
   | .NONE => w.ty == .i8 && w.sat == false && w.rnd == .rne && w.scope == .none && w.ord == .rlx)

end Sys2Proof
end

