-- ==== Sys2Proof/WellFormed.lean ====
section
/-!
DEFINITION. Which instructions are well formed: a word constructor whose operand fields R41 to R54 and its entry
accept, with nothing in the modifiers that its layout does not hold. An event is always well formed.
-/

namespace Sys2Proof

/-- An instruction is well formed when its word breaks no rule of R55 (as a word captured between RPT and RPTEND
when `body` is true, R46) and its operand fields are in the form that the word alone determines. -/
def Instr.wf (body : Bool) (i : Instr) : Bool :=
  match toOpcode i with
  | none => true
  | some (opc, w) =>
    match entryOf opc with
    | none => false
    | some e => w.canonical e.layout && (encodingFault body (encodeWord opc e.layout w)).isNone

end Sys2Proof
end

