-- ==== Sys2Proof/Decode.lean ====
section
/-!
DEFINITION. Decoding, total on any bytes: from 12 bytes to a word (R8), from a word to an instruction or to the cause
and field of ILLEGAL_ENCODING (R55, R56); then the encoder, from the same tables.
-/

namespace Sys2Proof

/-- The instruction of a word, or the cause and field that R55 reports. -/
def decodeWord (body : Bool) (w : IWord) : Except (Nat × Nat) Instr :=
  match encodingFault body w with
  | some c => .error c
  | none =>
    match entryOf (opcField w) with
    | none => .error (0x01, 0)
    | some e =>
      match ofOpcode (opcField w) (decodeOperands e.layout w) with
      | none => .error (0x01, 0)
      | some i => .ok i

/-- The instruction that stands in 12 consecutive bytes (R8, R41). -/
def decodeBytes (body : Bool) (bs : List Byte) : Except (Nat × Nat) Instr :=
  decodeWord body (BitVec.ofNat 96 (leNat bs))

/-- The word of an instruction; none for an event, which has no word. -/
def encode (i : Instr) : Option IWord :=
  match toOpcode i with
  | none => none
  | some (opc, w) => (entryOf opc).map (fun e => encodeWord opc e.layout w)

/-- The instruction that the decoder reads from a word of a row, its bits numbered from the first byte's least
significant bit. -/
def decodeTableWord (nbits w : Nat) : Option Instr :=
  match decodeBytes false (leBytes 12 (w % 2 ^ min nbits 96)) with
  | .ok i => some i
  | .error _ => none

end Sys2Proof
end

