-- ==== Sys2Proof/Config.lean ====
section
/-!
DEFINITION. What one part fixes and the spec leaves open: fuses, keys, cryptographic functions, the approximate
functions within their bounds, and the free values. Each is a constant without a body, so no proof can see its value.
-/

namespace Sys2Proof.Config

/-- A fresh value for each count: what the spec leaves undefined (log entry 7). -/
opaque freeValue : Nat → BitVec 64

/-- The contents of an accumulator tile when it becomes HELD: the count of its becoming so, and the element (R116, log
entry 8). -/
opaque freeAcc : (seed element : Nat) → Lane

/-- HMAPn of a die as the fuses hold it (R96). -/
opaque hmap : (die n : Nat) → Word

/-- VRCP: whether the upper of the two neighbouring values of 1/x is taken (R431). -/
opaque rcpUp : Lane → Bool
/-- VRSQ: whether the upper of the two neighbouring values of 1/√x is taken (R431). -/
opaque rsqUp : Lane → Bool
/-- VEXP2 for inputs that R431 lists as neither exact nor special, where it lies within the bound. -/
opaque exp2 : Lane → Lane
/-- VLOG2 for inputs that R431 lists as neither exact nor special, where it lies within the bound. -/
opaque log2 : Lane → Lane

/-- SHAKE256 of bytes, taken to a number of bytes (R330). -/
opaque shake256 : List Byte → Nat → List Byte
/-- Falcon-1024 verification: public key, signature, digest (R330). -/
opaque falconVerify : (key sig digest : List Byte) → Bool
/-- The management controller's Falcon-1024 signature of a digest under the module's identity key (R331). -/
opaque falconSign : List Byte → List Byte
/-- The fused hash of the boot key (R330). -/
opaque keyHash : List Byte
/-- The fused rollback counter before any raise (R330). -/
opaque rollback : Word
/-- The module's serial number, 14 bytes (R331). -/
opaque serial : List Byte
/-- Key slot 0 as the boot ROM fills it from the random source: word i (R332). -/
opaque bootKey : Nat → Word
/-- AES-256-XTS of a 16-byte block at a physical address under a slot's data and tweak keys, as the permutation of the block's
values that it is (R332). -/
opaque xts : (keys : List Word) → (block : Nat) → Equiv.Perm (BitVec 128)

/-- This module's number within the domain; the model holds one module (log entry 2). -/
def moduleNumber : Nat := 0
/-- Modules of the domain. -/
def domainModules : Nat := 1

end Sys2Proof.Config
end

