-- ==== Sys2Proof/Machine/Float.lean ====
section
/-!
DEFINITION. Floating-point arithmetic (R224 to R227) by exact dyadic numbers and one rounding, and the sticky flags
of R222.
-/

namespace Sys2Proof

/-! ## Flags (R222) -/

/-- NV, invalid operation. -/
def flagNV : Word := 0x1
/-- DZ, division by zero. -/
def flagDZ : Word := 0x2
/-- OF, overflow. -/
def flagOF : Word := 0x4
/-- UF, underflow. -/
def flagUF : Word := 0x8
/-- NX, inexact. -/
def flagNX : Word := 0x10
/-- IDZ, integer division by zero. -/
def flagIDZ : Word := 0x100
/-- IOVD, the most negative value divided by −1. -/
def flagIOVD : Word := 0x200
/-- ISAT, an integer result was clamped. -/
def flagISAT : Word := 0x400

/-- A flag if a condition holds. -/
def flagIf (c : Bool) (f : Word) : Word := if c then f else 0

/-! ## Formats (R224) -/

/-- An IEEE-style format: exponent and fraction bits; the bias is 2^(ebits − 1) − 1. -/
structure FFmt where
  ebits : Nat
  fbits : Nat
  deriving DecidableEq, Repr

/-- The format of a floating-point TYPE; .f32 for a TYPE that names none. -/
def Ty.fmt : Ty → FFmt
  | .f16 => ⟨5, 10⟩
  | .bf16 => ⟨8, 7⟩
  | .f64 => ⟨11, 52⟩
  | _ => ⟨8, 23⟩

/-- The exponent bias. -/
def FFmt.bias (f : FFmt) : Int := 2 ^ (f.ebits - 1) - 1
/-- Width in bits. -/
def FFmt.width (f : FFmt) : Nat := 1 + f.ebits + f.fbits
/-- The all-ones exponent field. -/
def FFmt.expMax (f : FFmt) : Nat := 2 ^ f.ebits - 1
/-- The least exponent of a normal number. -/
def FFmt.emin (f : FFmt) : Int := 1 - f.bias

/-- A floating-point value: a NaN (signalling or quiet), an infinity, or (−1)^neg × mant × 2^exp. -/
inductive FVal where
  | nan (signalling : Bool)
  | inf (neg : Bool)
  | fin (neg : Bool) (mant : Nat) (exp : Int)
  deriving DecidableEq, Repr

/-- The bits of a number of sign, exponent field and fraction. -/
def FFmt.pack (f : FFmt) (neg : Bool) (e frac : Nat) : Nat :=
  (if neg then 2 ^ (f.ebits + f.fbits) else 0) + e * 2 ^ f.fbits + frac

/-- The canonical quiet NaN (R224). -/
def FFmt.qnan (f : FFmt) : Nat := f.pack false f.expMax (2 ^ (f.fbits - 1))
/-- An infinity. -/
def FFmt.infBits (f : FFmt) (neg : Bool) : Nat := f.pack neg f.expMax 0
/-- The largest finite number. -/
def FFmt.maxBits (f : FFmt) (neg : Bool) : Nat := f.pack neg (f.expMax - 1) (2 ^ f.fbits - 1)
/-- A zero. -/
def FFmt.zeroBits (f : FFmt) (neg : Bool) : Nat := f.pack neg 0 0

/-- The value of the low bits of a number; under `ftz` a denormal reads as zero of its sign (R225). -/
def FFmt.decode (f : FFmt) (ftz : Bool) (n : Nat) : FVal :=
  let frac := n % 2 ^ f.fbits
  let e := n / 2 ^ f.fbits % 2 ^ f.ebits
  let neg := n / 2 ^ (f.ebits + f.fbits) % 2 == 1
  if e == f.expMax then (if frac == 0 then .inf neg else .nan (frac < 2 ^ (f.fbits - 1)))
  else if e == 0 then (if ftz then .fin neg 0 0 else .fin neg frac (f.emin - f.fbits))
  else .fin neg (2 ^ f.fbits + frac) ((e : Int) - f.bias - f.fbits)

/-- Number of bits of a natural number. -/
def bitLen (n : Nat) : Nat := if n = 0 then 0 else Nat.log2 n + 1

/-- n divided by 2^k, rounded to an integer under a mode, with whether it was inexact. -/
def roundShift (r : Rnd) (neg : Bool) (n k : Nat) : Nat × Bool :=
  let q := n / 2 ^ k
  let rem := n % 2 ^ k
  let up : Bool := match r with
    | .rne => 2 * rem > 2 ^ k || (2 * rem == 2 ^ k && q % 2 == 1)
    | .rtz => false
    | .rdn => neg && rem != 0
    | .rup => !neg && rem != 0
    | .dyn => false
  (if rem != 0 && up then q + 1 else q, rem != 0)

/-- mant × 2^exp in units of 2^unit, rounded. -/
def roundTo (r : Rnd) (neg : Bool) (mant : Nat) (exp unit : Int) : Nat × Bool :=
  if unit ≤ exp then (mant * 2 ^ (exp - unit).toNat, false) else roundShift r neg mant (unit - exp).toNat

/-- A rounding mode with .dyn replaced by RM of FPCTL (R221). -/
def Rnd.resolve (r : Rnd) (fpctl : Word) : Rnd :=
  match r with
  | .dyn => match (bits fpctl 0 2).toNat with | 0 => .rne | 1 => .rtz | 2 => .rdn | _ => .rup
  | x => x

/-- FTZ of FPCTL (R221). -/
def ftzOf (fpctl : Word) : Bool := fpctl.getLsbD 2

/-- Whether an overflow of this sign under this mode gives infinity (R225). -/
def overflowToInf (r : Rnd) (neg : Bool) : Bool :=
  match r with | .rne => true | .rtz => false | .rdn => neg | .rup => !neg | .dyn => true

/-- One rounding of (−1)^neg × mant × 2^exp into a format, with flags (R225). -/
def FFmt.round (f : FFmt) (r : Rnd) (ftz : Bool) (neg : Bool) (mant : Nat) (exp : Int) : Nat × Word :=
  if mant = 0 then (f.zeroBits neg, 0)
  else
    let top : Int := exp + bitLen mant - 1
    let unit : Int := max top f.emin - f.fbits
    let (n0, nx) := roundTo r neg mant exp unit
    let n := if n0 = 2 ^ (f.fbits + 1) then 2 ^ f.fbits else n0
    let unit := if n0 = 2 ^ (f.fbits + 1) then unit + 1 else unit
    let tiny := top < f.emin &&
      (top + 1 < f.emin || (roundTo r neg mant exp (top - f.fbits)).1 < 2 ^ (f.fbits + 1))
    if n ≥ 2 ^ f.fbits && unit + f.fbits > f.bias then
      (if overflowToInf r neg then f.infBits neg else f.maxBits neg, flagOF ||| flagNX)
    else if n < 2 ^ f.fbits then
      if ftz && n != 0 then (f.zeroBits neg, flagUF ||| flagNX)
      else (f.pack neg 0 n, flagIf nx flagNX ||| flagIf (tiny && nx) flagUF)
    else (f.pack neg (unit + f.fbits + f.bias).toNat (n - 2 ^ f.fbits),
          flagIf nx flagNX ||| flagIf (tiny && nx) flagUF)

/-- The result and flags of a floating-point operation. -/
abbrev FRes := Nat × Word

/-- The canonical NaN, with NV when a condition holds. -/
def FFmt.nanRes (f : FFmt) (invalid : Bool) : FRes := (f.qnan, flagIf invalid flagNV)

/-- Whether a value is a signalling NaN. -/
def FVal.isSig : FVal → Bool | .nan s => s | _ => false
/-- Whether a value is a NaN. -/
def FVal.isNan : FVal → Bool | .nan _ => true | _ => false
/-- The value with its sign flipped; a NaN is kept. -/
def FVal.neg : FVal → FVal | .nan s => .nan s | .inf n => .inf (!n) | .fin n m e => .fin (!n) m e
/-- The sign of a number. -/
def FVal.sign : FVal → Bool | .nan _ => false | .inf n => n | .fin n _ _ => n
/-- Whether a value is a zero. -/
def FVal.isZero : FVal → Bool | .fin _ m _ => m == 0 | _ => false

/-- The sign of an exact zero sum (R225). -/
def zeroSign (r : Rnd) (a b : Bool) : Bool := if a == b then a else (match r with | .rdn => true | _ => false)

/-- A signed magnitude as an integer. -/
def signed (neg : Bool) (m : Nat) : Int := if neg then -(m : Int) else m

/-- An exact dyadic number i × 2^e. -/
abbrev Dy := Int × Int

/-- The exact sum of two dyadic numbers. -/
def Dy.add (a b : Dy) : Dy :=
  let e := min a.2 b.2
  (a.1 * 2 ^ (a.2 - e).toNat + b.1 * 2 ^ (b.2 - e).toNat, e)

/-- One rounding of an exact dyadic number; `zneg` is the sign of a zero. -/
def FFmt.roundDy (f : FFmt) (r : Rnd) (ftz zneg : Bool) (d : Dy) : FRes :=
  if d.1 = 0 then (f.zeroBits zneg, 0) else f.round r ftz (d.1 < 0) d.1.natAbs d.2

/-- a + b (R225). -/
def FFmt.add (f : FFmt) (r : Rnd) (ftz : Bool) (a b : FVal) : FRes :=
  match a, b with
  | .nan s, x => f.nanRes (s || x.isSig)
  | .inf _, .nan s => f.nanRes s
  | .fin _ _ _, .nan s => f.nanRes s
  | .inf m, .inf n => if m == n then (f.infBits m, 0) else f.nanRes true
  | .inf m, .fin _ _ _ => (f.infBits m, 0)
  | .fin _ _ _, .inf n => (f.infBits n, 0)
  | .fin n1 m1 e1, .fin n2 m2 e2 =>
    let z := if m1 == 0 && m2 == 0 then zeroSign r n1 n2 else zeroSign r false true
    f.roundDy r ftz z (Dy.add (signed n1 m1, e1) (signed n2 m2, e2))

/-- a × b (R225). -/
def FFmt.mul (f : FFmt) (r : Rnd) (ftz : Bool) (a b : FVal) : FRes :=
  let n := a.sign != b.sign
  match a, b with
  | .nan s, x => f.nanRes (s || x.isSig)
  | .inf _, .nan s => f.nanRes s
  | .fin _ _ _, .nan s => f.nanRes s
  | .inf _, .inf _ => (f.infBits n, 0)
  | .inf _, .fin _ m _ => if m == 0 then f.nanRes true else (f.infBits n, 0)
  | .fin _ m _, .inf _ => if m == 0 then f.nanRes true else (f.infBits n, 0)
  | .fin _ m1 e1, .fin _ m2 e2 => f.round r ftz n (m1 * m2) (e1 + e2)

/-- The exact product of two values; 0 × ∞ is a signalling NaN here, since it is invalid (R225). -/
def FVal.mulExact (a b : FVal) : FVal :=
  let n := a.sign != b.sign
  match a, b with
  | .nan s, x => .nan (s || x.isSig)
  | .inf _, .nan s => .nan s
  | .fin _ _ _, .nan s => .nan s
  | .inf _, .inf _ => .inf n
  | .inf _, .fin _ m _ => if m == 0 then .nan true else .inf n
  | .fin _ m _, .inf _ => if m == 0 then .nan true else .inf n
  | .fin _ m1 e1, .fin _ m2 e2 => .fin n (m1 * m2) (e1 + e2)

/-- d + b × c, rounded once (R225). -/
def FFmt.fma (f : FFmt) (r : Rnd) (ftz : Bool) (d b c : FVal) : FRes := f.add r ftz d (b.mulExact c)

/-- a ÷ b (R225): the quotient to enough bits with a sticky bit, rounded once. -/
def FFmt.div (f : FFmt) (r : Rnd) (ftz : Bool) (a b : FVal) : FRes :=
  let n := a.sign != b.sign
  match a, b with
  | .nan s, x => f.nanRes (s || x.isSig)
  | .inf _, .nan s => f.nanRes s
  | .fin _ _ _, .nan s => f.nanRes s
  | .inf _, .inf _ => f.nanRes true
  | .inf _, .fin _ _ _ => (f.infBits n, 0)
  | .fin _ _ _, .inf _ => (f.zeroBits n, 0)
  | .fin _ m1 e1, .fin _ m2 e2 =>
    if m2 == 0 then (if m1 == 0 then f.nanRes true else (f.infBits n, flagDZ))
    else if m1 == 0 then (f.zeroBits n, 0)
    else
      let k := f.fbits + 4 + bitLen m2
      let q := m1 * 2 ^ k / m2
      let sticky := if m1 * 2 ^ k % m2 == 0 then 0 else 1
      f.round r ftz n (2 * q + sticky) (e1 - e2 - k - 1)

/-- The integer square root by bits, from bit k − 1 of the root down. -/
def isqrtFrom : Nat → Nat → Nat → Nat
  | 0, _, acc => acc
  | k + 1, n, acc => isqrtFrom k n (if (acc + 2 ^ k) * (acc + 2 ^ k) ≤ n then acc + 2 ^ k else acc)

/-- The integer square root. -/
def isqrt (n : Nat) : Nat := isqrtFrom (bitLen n / 2 + 1) n 0

/-- √a (R225). -/
def FFmt.sqrt (f : FFmt) (r : Rnd) (ftz : Bool) (a : FVal) : FRes :=
  match a with
  | .nan s => f.nanRes s
  | .inf n => if n then f.nanRes true else (f.infBits false, 0)
  | .fin n m e =>
    if m == 0 then (f.zeroBits n, 0)
    else if n then f.nanRes true
    else
      let k : Nat := 2 * (f.fbits + 4)
      let odd := e % 2 != 0
      let m' := if odd then 2 * m * 2 ^ k else m * 2 ^ k
      let e' := (if odd then e - 1 else e) - k
      let q := isqrt m'
      let sticky := if q * q == m' then 0 else 1
      f.round r ftz false (2 * q + sticky) (e' / 2 - 1)

/-- Whether a lies below b as exact numbers, for values that are no NaN; −0 and +0 compare equal. -/
def FVal.lt (a b : FVal) : Bool :=
  match a, b with
  | .inf m, .inf n => m && !n
  | .inf m, _ => m
  | _, .inf n => !n
  | .fin n1 m1 e1, .fin n2 m2 e2 =>
    let e := min e1 e2
    signed n1 m1 * 2 ^ (e1 - e).toNat < signed n2 m2 * 2 ^ (e2 - e).toNat
  | _, _ => false

/-- Whether two values that are no NaN are equal numbers. -/
def FVal.eq (a b : FVal) : Bool := !a.isNan && !b.isNan && !a.lt b && !b.lt a

/-- minimumNumber and maximumNumber (R226): bits of the chosen operand. -/
def FFmt.minmax (f : FFmt) (ismax : Bool) (ftz : Bool) (x y : Nat) : FRes :=
  let a := f.decode ftz x
  let b := f.decode ftz y
  let keep (v : FVal) (n : Nat) : Nat := match v with | .fin s 0 _ => f.zeroBits s | _ => n
  let nv := flagIf (a.isSig || b.isSig) flagNV
  if a.isNan && b.isNan then (f.qnan, nv)
  else if a.isNan then (keep b y, nv)
  else if b.isNan then (keep a x, nv)
  else
    let aLess := a.lt b || (a.isZero && b.isZero && a.sign && !b.sign)
    (if aLess != ismax then keep a x else keep b y, nv)

/-- Conversion between floating-point formats (R227). -/
def FFmt.ofFVal (f : FFmt) (r : Rnd) (ftz : Bool) (a : FVal) : FRes :=
  match a with
  | .nan s => f.nanRes s
  | .inf n => (f.infBits n, 0)
  | .fin n m e => if m == 0 then (f.zeroBits n, 0) else f.round r ftz n m e

/-- A value rounded to an integer, with whether it was inexact; none for a NaN or an infinity. -/
def FVal.toInt? (r : Rnd) : FVal → Option (Int × Bool)
  | .fin n m e => let (q, nx) := roundTo r n m e 0; some (signed n q, nx)
  | _ => none

/-! ## Types -/

/-- Width of a TYPE in bits; blocks and codes have their own rules (R228, R231). -/
def Ty.width : Ty → Nat
  | .i8 => 8 | .i16 => 16 | .i32 => 32 | .i64 => 64 | .n8 => 8 | .n16 => 16 | .n32 => 32 | .n64 => 64
  | .f16 => 16 | .bf16 => 16 | .f32 => 32 | .f64 => 64 | .sb4 => 64 | .sb6 => 96 | .sb9 => 144 | .t4 => 4

/-- Width in bytes. -/
def Ty.bytes (t : Ty) : Nat := t.width / 8

/-- Signed integer types. -/
def Ty.isSigned : Ty → Bool | .i8 => true | .i16 => true | .i32 => true | .i64 => true | _ => false

/-- The low w bits of a number, extended by TYPE (R217). -/
def Ty.value (t : Ty) (n : Nat) : Int :=
  let x := n % 2 ^ t.width
  if t.isSigned && 2 ^ (t.width - 1) ≤ x then (x : Int) - 2 ^ t.width else x

/-- Least value of an integer TYPE. -/
def Ty.minVal (t : Ty) : Int := if t.isSigned then -(2 ^ (t.width - 1)) else 0
/-- Greatest value of an integer TYPE. -/
def Ty.maxVal (t : Ty) : Int := if t.isSigned then 2 ^ (t.width - 1) - 1 else 2 ^ t.width - 1

/-- An exact result fitted under SAT, as the extended integer, with ISAT (R218). -/
def Ty.fit (t : Ty) (sat : Bool) (x : Int) : Int × Word :=
  if sat then
    let y := max t.minVal (min t.maxVal x)
    (y, flagIf (y != x) flagISAT)
  else (t.value (x % 2 ^ t.width).toNat, 0)

/-- A float converted to an integer type (R227). -/
def Ty.ofFVal (t : Ty) (r : Rnd) (a : FVal) : Int × Word :=
  match a with
  | .nan _ => (0, flagNV)
  | .inf n => (if n then t.minVal else t.maxVal, flagNV)
  | .fin n m e =>
    let (q, nx) := roundTo r n m e 0
    let x := signed n q
    if x < t.minVal then (t.minVal, flagNV) else if t.maxVal < x then (t.maxVal, flagNV) else (x, flagIf nx flagNX)

/-- An integer converted to a floating-point format (R227). -/
def FFmt.ofInt (f : FFmt) (r : Rnd) (ftz : Bool) (x : Int) : FRes := f.round r ftz (x < 0) x.natAbs 0

/-- A conversion of w-bit contents between two of the twelve types, FTZ applying to a floating-point source and result
(R227, R370): the new contents, extended to 64 bits by an
integer destination type, and the flags. -/
def convert (src dst : Ty) (sat : Bool) (r : Rnd) (ftz : Bool) (n : Nat) : Word × Word :=
  if src.isFloat then
    let a := src.fmt.decode ftz n
    if dst.isFloat then let (x, fl) := dst.fmt.ofFVal r ftz a; (BitVec.ofNat 64 x, fl)
    else let (x, fl) := dst.ofFVal r a; (BitVec.ofInt 64 x, fl)
  else
    let x := src.value n
    if dst.isFloat then let (y, fl) := dst.fmt.ofInt r ftz x; (BitVec.ofNat 64 y, fl)
    else let (y, fl) := dst.fit sat x; (BitVec.ofInt 64 y, fl)

end Sys2Proof
end

