-- ==== Sys2Proof/Machine/Formats.lean ====
section
/-!
DEFINITION. Shared-exponent blocks, T4 codes and INT8 elements (R228 to R233), and the element formats of pages (R122).
-/

namespace Sys2Proof

/-- Magnitude bits m of a block format (R228). -/
def sbBits : Ty → Nat | .sb4 => 2 | .sb6 => 4 | _ => 7

/-- Bytes of a block (R228). -/
def sbBytes (t : Ty) : Nat := 2 + 2 * (sbBits t + 1)

/-- An element of a block as binary32 bits (R229). -/
def sbElem (m block i : Nat) : Nat :=
  let e := block % 256
  if e = 255 then Ty.f32.fmt.qnan
  else
    let mu := block / 2 ^ (8 + i / 2) % 2
    let fld := block / 2 ^ (16 + (m + 1) * i) % 2 ^ (m + 1)
    let mant := fld % 2 ^ m
    if mant = 0 then 0
    else (Ty.f32.fmt.round .rne false (fld / 2 ^ m == 1) mant ((e : Int) - 127 - mu - m + 1)).1

/-- The 16 elements of a block as binary32 bits (R229). -/
def sbDecode (t : Ty) (block : Nat) : List Nat := (upTo 16).map (sbElem (sbBits t) block)

/-- Magnitude and exponent of a binary32 value; 0 for a special value. -/
def f32Mag (x : Nat) : Nat × Int :=
  match Ty.f32.fmt.decode false x with | .fin _ m e => (m, e) | _ => (0, 0)

/-- floor(log2) of a nonzero magnitude. -/
def magTop (p : Nat × Int) : Int := p.2 + bitLen p.1 - 1

/-- The greatest floor(log2) of nonzero magnitudes. -/
def maxTop : List Nat → Option Int
  | [] => none
  | x :: xs =>
    let p := f32Mag x
    match maxTop xs with
    | none => if p.1 = 0 then none else some (magTop p)
    | some t => if p.1 = 0 then some t else some (max t (magTop p))

/-- Quantising 16 binary32 values into one block, with flags (R230). -/
def sbQuantise (t : Ty) (xs : List Nat) : Nat × Word :=
  let m := sbBits t
  let special := xs.any (fun x => match Ty.f32.fmt.decode false x with | .fin _ _ _ => false | _ => true)
  if special then (255, flagNV)
  else
    match maxTop xs with
    | none => (0, 0)
    | some top =>
      let e : Int := max 0 (min 254 (top + 127))
      let q : Int := e - 127 - m + 1
      let mag (i : Nat) := f32Mag (nth 0 xs i)
      let fits (i : Nat) : Bool := (roundTo .rne false (mag i).1 (mag i).2 (q - 1)).1 ≤ 2 ^ m - 1
      let mu (j : Nat) : Nat := if fits (2 * j) && fits (2 * j + 1) then 1 else 0
      let elem (i : Nat) : Nat × Word :=
        let u := q - mu (i / 2)
        let (r, nx) := roundTo .rne false (mag i).1 (mag i).2 u
        let big := decide (r > 2 ^ m - 1)
        let r' := if big then 2 ^ m - 1 else r
        let s := if nth 0 xs i / 2 ^ 31 % 2 = 1 && r' != 0 then 2 ^ m else 0
        (s + r', flagIf big flagOF ||| flagIf (nx || big) flagNX ||| flagIf (r' == 0 && (mag i).1 != 0) flagUF)
      let body := (upTo 16).foldl (fun acc i => acc + (elem i).1 * 2 ^ (16 + (m + 1) * i)) 0
      let mus := (upTo 8).foldl (fun acc j => acc + mu j * 2 ^ (8 + j)) 0
      (e.toNat + mus + body, (upTo 16).foldl (fun fl i => fl ||| (elem i).2) 0)

/-- An 8-bit signed value as binary32 bits, exactly. -/
def f32OfInt8 (b : BitVec 8) : Nat := (Ty.f32.fmt.ofInt .rne false b.toInt).1

/-- An INT8 element from a lane of .i32 or .f32 (R233). -/
def int8Encode (t : Ty) (lane : Lane) : Byte × Word :=
  match t with
  | .f32 => let (x, fl) := Ty.i8.ofFVal .rne (Ty.f32.fmt.decode false lane.toNat); (BitVec.ofInt 8 x, fl)
  | _ => let (x, fl) := Ty.i8.fit true (Ty.value .i32 lane.toNat); (BitVec.ofInt 8 x, fl)

/-- Code i of a T4 group of 8 bytes (R231). -/
def t4Code (group i : Nat) : Nat := group / 16 ^ i % 16

/-- Page formats of R122. -/
inductive PageFmt where | raw | fp32 | fp16 | bf16 | sb4 | sb6 | sb9 | t4 | int8
  deriving DecidableEq, Repr

/-- The format of a code (R122); codes from 9 on are reserved. -/
def PageFmt.ofCode : Nat → Option PageFmt
  | 0 => some .raw | 1 => some .fp32 | 2 => some .fp16 | 3 => some .bf16 | 4 => some .sb4 | 5 => some .sb6
  | 6 => some .sb9 | 7 => some .t4 | 8 => some .int8 | _ => none

/-- The code of a format. -/
def PageFmt.code : PageFmt → Nat
  | .raw => 0 | .fp32 => 1 | .fp16 => 2 | .bf16 => 3 | .sb4 => 4 | .sb6 => 5 | .sb9 => 6 | .t4 => 7 | .int8 => 8

/-- The block TYPE of an SB page. -/
def PageFmt.sb : PageFmt → Option Ty | .sb4 => some .sb4 | .sb6 => some .sb6 | .sb9 => some .sb9 | _ => none

/-- Whether a page holds SB blocks or T4 codes. -/
def PageFmt.packed : PageFmt → Bool | .sb4 => true | .sb6 => true | .sb9 => true | .t4 => true | _ => false

/-- Bytes of an element, a block or a group (R122). -/
def PageFmt.unit : PageFmt → Nat
  | .raw => 4 | .fp32 => 4 | .fp16 => 2 | .bf16 => 2 | .sb4 => 8 | .sb6 => 12 | .sb9 => 18 | .t4 => 8 | .int8 => 1

/-- Bytes that 16 elements take. -/
def PageFmt.span (f : PageFmt) : Nat := if f.packed then f.unit else 16 * f.unit

/-- Lanes from bytes of a page, without .raw (R122, R233): `t` is the lane TYPE and `tbl` the T4 table. -/
def PageFmt.lanes (f : PageFmt) (t : Ty) (tbl : List (BitVec 8)) (bs : List Byte) : List Lane :=
  let elem (i : Nat) : Nat := leNat ((bs.drop (f.unit * i)).take f.unit)
  let small (b : BitVec 8) : Lane := match t with | .f32 => BitVec.ofNat 32 (f32OfInt8 b) | _ => BitVec.ofInt 32 b.toInt
  match f with
  | .raw => (upTo 16).map (fun i => BitVec.ofNat 32 (elem i))
  | .fp32 => (upTo 16).map (fun i => BitVec.ofNat 32 (elem i))
  | .fp16 => (upTo 16).map (fun i => BitVec.ofNat 32 (Ty.f32.fmt.ofFVal .rne false (Ty.f16.fmt.decode false (elem i))).1)
  | .bf16 => (upTo 16).map (fun i => BitVec.ofNat 32 (Ty.f32.fmt.ofFVal .rne false (Ty.bf16.fmt.decode false (elem i))).1)
  | .int8 => (upTo 16).map (fun i => small (BitVec.ofNat 8 (elem i)))
  | .t4 => (upTo 16).map (fun i => small (nth 0 tbl (t4Code (elem 0) i)))
  | .sb4 => (sbDecode .sb4 (leNat (bs.take 8))).map (BitVec.ofNat 32)
  | .sb6 => (sbDecode .sb6 (leNat (bs.take 12))).map (BitVec.ofNat 32)
  | .sb9 => (sbDecode .sb9 (leNat (bs.take 18))).map (BitVec.ofNat 32)

/-- The bytes and flags of one element encoded into a page that is not packed (R122, R233); `t` is the lane TYPE. -/
def PageFmt.encode (f : PageFmt) (t : Ty) (x : Lane) : List Byte × Word :=
  match f with
  | .fp16 => let (n, fl) := Ty.f16.fmt.ofFVal .rne false (Ty.f32.fmt.decode false x.toNat); (leBytes 2 n, fl)
  | .bf16 => let (n, fl) := Ty.bf16.fmt.ofFVal .rne false (Ty.f32.fmt.decode false x.toNat); (leBytes 2 n, fl)
  | .int8 => let (b, fl) := int8Encode t x; ([b], fl)
  | .raw => (leBytes t.bytes x.toNat, 0)
  | _ => (leBytes 4 x.toNat, 0)

end Sys2Proof
end

