-- ==== Sys2Proof/Machine/State.lean ====
section
/-!
DEFINITION. The state of the machine as plain data: one BKM9-3216A module with its 32 compute dies, the activations in
the thread slots, the partitions, memory, the fabric's queues and the system dies' registers, and State.reset.

Sparse tables (Tab) hold keys in rising order and list no entry equal to the table's default. The keys are: a core is
20,480 × die + logical core (R97); a slot is 8 × core + slot number (R62); other keys are said where they stand.
-/

namespace Sys2Proof.Machine

/-- What a step can stop on. The machine's own faults (R191) are no stops: they are taken, and the step goes on. -/
inductive Fault where
  /-- Raised by Machine.step when the agenda, or cur, names a thread slot that the part does not have (R13, R62). Safe:
  the machine stops where the hardware has no such slot to act. -/
  | noSuchSlot
  deriving DecidableEq, Repr

/-- Why an instruction has no meaning. -/
inductive Refusal where
  /-- Raised by an arm of Machine.exec whose instruction has no meaning yet. Safe: nothing is claimed of it. -/
  | notModelled (mnemonic : String)
  deriving DecidableEq, Repr

/-! ## Values of registers -/

/-- The value of a vector register: its 16 lanes, lane 0 first (R94). -/
abbrev Vec := List Lane

/-- A vector of zeros. -/
def Vec.zero : Vec := [0, 0, 0, 0, 0, 0, 0, 0, 0, 0, 0, 0, 0, 0, 0, 0]

/-- A guard slot's value (R73). -/
inductive GVal where | unres | f | t
  deriving DecidableEq, Repr

/-- ORIGIN of SLOT (R65), in code order. -/
inductive Origin where | firing | handler | spawn | child
  deriving DecidableEq, Repr

/-- CLASS of SLOT (R65), in code order. -/
inductive Cls where | system | handler | firing
  deriving DecidableEq, Repr

/-- The obligation kinds of R129; `free` marks a free entry. -/
inductive OblKind where | free | signal | reply | arrive | close | guard | emit | tile
  deriving DecidableEq, Repr

/-- A tumbler-table entry (R128). -/
structure Obl where
  kind   : OblKind := .free
  staged : Bool := false
  count  : Nat := 0
  rank   : Rank := 0
  handle : Word := 0
  deriving DecidableEq, Repr

/-- Where a parked register lies: WHERE of R117. -/
inductive ParkPlace where | none | acc | bank | loc
  deriving DecidableEq, Repr

/-- A spill-map entry (R117): FALL in 8-byte units; INDEX as R117 lays it out; the deferral bit and the poison that the
value took with it, one bit for each of its 64-bit granules (R214, R393). -/
structure Spill where
  place  : ParkPlace := .none
  fall   : Nat := 0
  index  : Nat := 0
  dfr    : Bool := false
  poison : BitVec 8 := 0
  deriving DecidableEq, Repr

/-- A captured s value with its register number, its deferral bit and its poison (R69, R196, R215). -/
structure Cap where
  num    : BitVec 6
  val    : Word
  dfr    : Bool
  poison : Bool := false
  deriving DecidableEq, Repr

/-- A decoded V or E word that has not issued (R66), or a load that has issued and is not yet bound (R155): its address,
the word with its numbers already rotated (R261), its captured s values in field order, its guard's value once known, and
the vector length, FPCTL and stamp that travel with it (R223, R305, R434). -/
structure Pending where
  pc    : Word
  word  : IWord
  strm  : Stream
  caps  : List Cap := []
  gv    : Option Bool := some true
  vl    : Nat := 16
  /-- how many VLGETs of S had issued before it in program order (R434) -/
  vlGen : Nat := 0
  fpctl : Word := 0
  /-- the stamp at its place in program order (R305) -/
  stamp : Word := 0
  /-- its place in the program order of the activation -/
  seq   : Nat := 0
  /-- the guards that it writes, with the values that they had before it (R73, R74) -/
  gold  : List (Nat × Bool) := []
  /-- of an access that has issued: the level-4 entries of its GLB pages by page number, and the T4 table, as they stood then
  (R121, R232), and how many words the activation had issued with it (R193) -/
  pages : List (Nat × Word) := []
  t4    : List (BitVec 8) := []
  mark  : Nat := 0
  deriving DecidableEq, Repr

/-- An open repetition (R258 to R261). `left` counts the passes not yet placed, the one in capture included; `base` is
the rotation of the next pass to place; `at` is the next body word of that pass. `closed` says that the body is whole;
`scan` is the address from which a restored repetition captures its body again. -/
structure Rpt where
  strm    : Stream
  /-- the guard and hint bits of the RPT word, which its frame word keeps (R261) -/
  head    : Head := {}
  pc      : Word
  base    : Nat := 0
  stagger : Nat := 0
  left    : Nat := 0
  body    : List (Word × IWord) := []
  at_     : Nat := 0
  closed  : Bool := false
  scan    : Option Word := none
  deriving DecidableEq, Repr

/-- An open sluice (R277, R278): the core that opened it, destination core and tile, the offset reached. -/
structure Sluice where
  isOpen : Bool := false
  src    : Nat := 0
  core   : Nat := 0
  tile   : Nat := 0
  off    : Nat := 0
  deriving DecidableEq, Repr

/-- What a waiting TLSET or copy source wants of a tile (R109, R110). -/
inductive TileWant where | draining | empty | source
  deriving DecidableEq, Repr

/-- The object that a WAITING activation waits on (R142, R309). A signal block is named by its home key. -/
inductive WaitOn where
  | signal (home : Nat) (ref : Word) (target : Option Word)
  | group (part id phase : Nat)
  | tile (core idx : Nat) (want : TileWant)
  | room
  | time (target : Word)
  deriving DecidableEq, Repr

/-- The wait record of a waiting activation: since when it waits, in order of entering waits. -/
structure Wait where
  on    : WaitOn
  rank  : Rank := 0
  since : Nat := 0
  /-- the scope of a wait on a signal block, at which its acquire is performed (R156, R160) -/
  scope : Scope := .slot
  deriving DecidableEq, Repr

/-- WREL of a frame (R200). -/
inductive WRel where | none | released | orphaned | poisoned
  deriving DecidableEq, Repr

/-- What the S word at PC has asked for: SPAWN's answer, with the obligations that left and the floor that the child
inherits (R81, R141); room in the request send queue, a ranked wait (R145); SLOPEN's route, with the cycle in which the question
has reached the tile, and SLCLOSE's acknowledgement (R278); BIND's and UNBIND's completion (R271). -/
inductive Asked where
  | spawn (w : Operands) (given : List Obl) (inh : Option Rank)
  | room (opc : Nat) (w : Operands)
  | slopen (w : Operands) (core tile : Nat) (claim : Option Nat)
  | slclose (n : Nat)
  | bind (type : Nat) (entry : Option Word)
  deriving DecidableEq, Repr

/-- What an outbox entry does (R157): a plain write of bytes of one 64-byte line; a reduction, or an atomic that returns the
old value to the word at a place of the program order, performed at the owner or bank. An atomic applies an operation, or with
none stores where the old value is as expected. -/
inductive OutKind where
  | write (cells : List (Nat × Byte))
  | red (addr : Nat) (ty : Ty) (val : Word) (exact : Bool)
  | amo (addr : Nat) (ty : Ty) (op : Option Nat) (val expect : Word) (seq : Nat) (acq : Bool)
  deriving DecidableEq, Repr

/-- The address and TYPE of what an owner or bank performs. -/
def OutKind.atomic : OutKind → Option (Nat × Ty)
  | .write _ => none
  | .red a t _ _ => some (a, t)
  | .amo a t _ _ _ _ _ => some (a, t)

/-- An outbox entry (R155): physical GLB addresses, or SHM keys when `shm`; the address-space page it was made
through (page key), which its ownership follows; the activation that issued it. -/
structure OutEntry where
  kind    : OutKind
  shm     : Bool := false
  page    : Nat := 0
  scope   : Scope := .mod
  uid     : Nat := 0
  /-- the write's identity -/
  wid     : Nat := 0
  /-- the entry has drained, and its atomic has not yet been executed (R157) -/
  drained : Bool := false
  /-- the write waits at the owner for DUP_INVAL_ACK (R185) -/
  dupWait : Bool := false
  /-- the page is read-duplicable: the write is applied in every view in one step (R158) -/
  dup     : Bool := false
  /-- ATMMODE.NEAR in hint mode when the reduction issued (R187) -/
  near    : Bool := false
  /-- index of the weir it reduces into (R167) -/
  weir    : Option Nat := none
  deriving DecidableEq, Repr

/-- Why a slot is being saved: REASON of R200. -/
inductive SaveWhy where | fault | preempt | forMessage | host
  deriving DecidableEq, Repr

/-- An access that a fourth stub returned (R180): the stub's die, the page, and the word that asked. -/
structure Chained where
  die  : Nat
  page : Nat
  word : Nat
  deriving DecidableEq, Repr

/-- The items of a fault record that its fault fixes (R191, R204). -/
structure FaultReq where
  code   : Nat
  detail : Nat := 0
  space  : Nat := 0
  strm   : Nat := 0
  lane   : Nat := 31
  addr   : Word := 0
  info   : Word := 0
  /-- ASID and page on whose coalescing entry the item parks -/
  page   : Option (Nat × Nat) := none
  deriving DecidableEq, Repr

/-- A save in progress (R202): why, and the fault's record items with the faulting word's address; for a pending word
that faulted, its place in program order. -/
structure SaveReq where
  why   : SaveWhy
  fault : Option FaultReq := none
  pc    : Word := 0
  at_   : Option Nat := none
  /-- FRAME_EMPTY has been reported for this save (R198) -/
  noted : Bool := false
  /-- coalescing entry that the faulting item joined; whether it leads and so writes the record; whether the entry has
  been served before the save was complete (R203, R209) -/
  coal  : Option Nat := none
  lead  : Bool := false
  served : Bool := false
  deriving DecidableEq, Repr

/-- What the activation in a slot is doing: the slot states of R63. HOSTING is a slot whose activation has a host
frame; SAVED activations stand in no slot; `saving` is a slot stopped while its save waits (R198, R202). -/
inductive SlotState where | free | starting | running | waiting | parked | saving
  deriving DecidableEq, Repr

/-- One thread slot and its activation (R62 to R65). -/
structure Act where
  st        : SlotState := .free
  s         : Tab Word := []
  v         : Tab Vec := []
  m         : Tab (BitVec 16) := []
  g         : Tab GVal := []
  q         : Tab (List Word) := []
  defS      : Tab Bool := []
  defV      : Tab Bool := []
  vl        : Nat := 16
  /-- VLGETs of S that have issued: a VLGET of V sets the length of the words decoded up to the next one (R434) -/
  vlGen     : Nat := 0
  fpctl     : Word := 0
  fpflags   : Word := 0
  near      : Bool := false
  /-- LOC protection regions, R106 -/
  regions   : Tab (BitVec 32) := []
  tumbler   : Tab Obl := []
  gcnt      : Tab Nat := []
  inh       : Option Rank := none
  stamp     : Word := 0
  pc        : Word := 0
  entry     : Word := 0
  inline    : Nat := 0
  stage     : BitVec 16 := 0xFFFF
  origin    : Origin := .handler
  cls       : Cls := .handler
  faultInfo : Word := 0x1FC0
  pend      : List Pending := []
  /-- loads that have issued and are not yet bound (R155, R157) -/
  late      : List Pending := []
  /-- words of the activation that have been decoded into a queue so far -/
  seq       : Nat := 0
  rpt       : Option Rpt := none
  /-- address of an E-stream RPT held at decode whose GUARD unit has been counted (R130) -/
  counted   : Option Word := none
  spill     : Tab Spill := []
  rstack    : List Word := []
  /-- REPLY handle taken at dispatch, for SEND.rep with s0 (R269) -/
  reply     : Word := 0
  event     : Bool := false
  sluices   : Tab Sluice := []
  outbox    : List OutEntry := []
  /-- the activation's own writes not yet performed: identity and GLB virtual bytes (R160, R163) -/
  own       : List (Nat × List Nat) := []
  /-- writes whose value its loads returned, not yet applied in every view (R160) -/
  deps      : List Nat := []
  /-- acquiring writes and the scopes at which later accesses wait for them (R160) -/
  acq       : List (Scope × Nat) := []
  wait      : Option Wait := none
  /-- outcome of a queued wait that came while the activation was being saved or lay in a frame (R200, R213) -/
  wrel      : WRel := .none
  asked     : Option Asked := none
  save      : Option SaveReq := none
  /-- lanes completed by the oldest pending V word, a part-way vector access, and its captured index vector (R212) -/
  prog      : Nat := 0
  progIdx   : Option Vec := none
  dseq      : Nat := 0
  hostFrame : Option Nat := none
  /-- of a SAVED activation: the core that saved it (R86, R293, R299) -/
  savedOn   : Option Nat := none
  /-- and the slot from which it was saved, as its record names it (R152, R204) -/
  savedSlot : Nat := 0
  /-- firing: token window of R84, by input port -/
  tokens    : List (List Word) := []
  traceSeq  : BitVec 16 := 0
  traceTag  : Word := 0
  /-- cycles of the delay split (R319): sender core, transit, input-queue wait, dispatch cycle -/
  sender    : Option Nat := none
  transit   : Nat := 0
  qwait     : Nat := 0
  started   : Nat := 0
  /-- identity of the activation; outbox entries carry it -/
  uid       : Nat := 0
  /-- cycle of its last issue, for R72 and R77 -/
  lastIssue : Nat := 0
  /-- an access was returned by a fourth stub: CHAIN_LIMIT is raised when the word that asked is taken again (R180) -/
  chain     : Option Chained := none
  /-- the word whose host read is outstanding, by its place in program order from 1 up; 0 for a fetch (R327) -/
  hostRead  : Option Nat := none
  /-- that read has failed: the word faults when it is taken again (R327) -/
  hostFail  : Bool := false
  /-- words that the activation has issued (R193) -/
  words     : Nat := 0
  /-- R77: the slot is treated as system class for its next turn in a port -/
  promoted  : List Stream := []
  part      : Nat := 0
  deriving DecidableEq, Repr

/-! ## Messages -/

/-- What a message is, beyond the words of R265. -/
inductive MsgKind where
  | plain
  | spawnReq (caller : Nat) (inh : Option Rank) (cls : Cls) (id : Nat)
  /-- the acceptance or refusal of a spawn request, for a slot and its activation (R81, R267) -/
  | answer (caller : Nat) (id : Nat) (accepted : Bool)
  | wakeup
  | system
  deriving DecidableEq, Repr

/-- A message (R265) with the extension of given obligations, and its times for R319. Core addresses are 25 bits. -/
structure Msg where
  dest    : Nat
  src     : Nat
  sslot   : Nat := 0
  vn      : VN := .request
  byType  : Bool := false
  mcast   : Bool := false
  poison  : Bool := false
  first   : Bool := false
  type    : Nat := 0
  seq     : Nat := 0
  rseq    : Nat := 0
  rslot   : Nat := 0
  stamp   : Word := 0
  entry   : Word := 0
  args    : List Word := [0, 0, 0, 0]
  given   : List Obl := []
  kind    : MsgKind := .plain
  sent    : Nat := 0
  arrived : Nat := 0
  part    : Nat := 0
  /-- the message stands in its sender's send queue (R267) -/
  queued  : Bool := false
  /-- it has left its sending unit, with its SEQ (R267, R282) -/
  numbered : Bool := false
  /-- the die on which it stands -/
  here    : Nat := 0
  /-- it crosses the torus and holds a receive slot of the interface that it goes to, since the cycle `crossed` (R283) -/
  credit  : Bool := false
  crossed : Nat := 0
  /-- the cycles of its crossings that the torus age does not show (R281, R319) -/
  lost    : Nat := 0
  /-- it has found its destination's input buffer full and waits in the router there (R279) -/
  stuck   : Bool := false
  /-- of a multicast not yet replicated: the die and router to which it goes next (R285) -/
  at_     : Option (Nat × Nat) := none
  /-- it is a multicast's copy for one member, and the group (R169, R285) -/
  spread  : Bool := false
  group   : Nat := 0
  /-- its group is an ORD group, and whether the root has fixed its place (R169) -/
  ord     : Bool := false
  rooted  : Bool := false
  /-- RCVD of its link has counted its arrival (R297) -/
  counted : Bool := false
  /-- its process was terminated while it was on its way: it vanishes on arrival (R153, R154) -/
  doomed  : Bool := false
  deriving DecidableEq, Repr

/-- A message in the bind-wait area with the cycle it entered (R272); `event` for an event of R292. -/
structure BindWaiting where
  msg   : Msg
  since : Nat
  event : Bool := false
  deriving DecidableEq, Repr

/-! ## Engines -/

/-- The commands of R240. -/
inductive CmdOp where | mma | mmz | mmdrain | cpy | cpyg | colag | colrs
  deriving DecidableEq, Repr

/-- Where an accepted command stands. `accepting n`: a collective adding its n-th shard unit (R254). `queued`: not
started. `running`: line or chunk `done` is next. `closing`: its writes are made, its completion waits. -/
inductive CmdPhase where
  | accepting (n : Nat)
  | queued
  | running
  | closing
  deriving DecidableEq, Repr

/-- An engine command in its queue (R240, R241, R263). -/
structure Cmd where
  op      : CmdOp
  id      : Nat := 0
  pc      : Word := 0
  stamp   : Word := 0
  key     : Nat := 0
  uid     : Nat := 0
  part    : Nat := 0
  asid    : Nat := 0
  scope   : Scope := .mod
  ord     : Ord := .rlx
  ty      : Ty := .i8
  gnum    : Nat := 0
  gneg    : Bool := false
  guard   : Option Bool := some true
  z       : Nat := 0
  /-- captured operand values, in field order -/
  vals    : List Word := []
  /-- given obligations not yet discharged (R139) -/
  obls    : List Obl := []
  phase   : CmdPhase := .queued
  /-- chunks of an MMA, lines of a copy or of a COLRS result that are done -/
  done    : Nat := 0
  parked  : Option FaultReq := none
  /-- FMT and GEOM codes of MMA's operands A and B, once the first chunk has fixed them (R245) -/
  fmts    : List Nat := []
  /-- T4 table snapshot (R232) -/
  t4      : List (BitVec 8) := []
  /-- the cycle in which it bid for its destination tile, with the tile's core address and index (R111); and whether it has
  claimed it (R109) -/
  bid     : Option (Nat × Nat × Nat) := none
  claimed : Bool := false
  /-- it took its LOC source tile to draining at acceptance (R250) -/
  drains  : Bool := false
  /-- writes that its acquire step waits for (R162) -/
  acq     : List Nat := []
  /-- its own writes, for its release step (R162) -/
  wids    : List Nat := []
  /-- by part of a collective: bytes read so far, bytes written, its writes, whether its signal is raised -/
  read    : Tab (List Byte) := []
  written : Tab Nat := []
  pwids   : Tab (List Nat) := []
  raised  : Tab Bool := []
  /-- shard units taken (R254) -/
  units   : Bool := false
  /-- local time: lowest legal stamp, none when the engine link is missing (R302) -/
  low     : Option Word := none
  deriving DecidableEq, Repr

/-- STATE of a tile entry (R108), in code order. -/
inductive TileState where | empty | filling | ready | draining
  deriving DecidableEq, Repr

/-- Who began a filling (R109). -/
inductive Filler where | act (uid : Nat) | engine | sluice
  deriving DecidableEq, Repr

/-- A tile-table entry (R108). -/
structure Tile where
  rank   : Rank := 0
  base   : Nat := 0
  size   : Nat := 0
  owed   : Bool := false
  state  : TileState := .empty
  by_    : Filler := .engine
  deriving DecidableEq, Repr

/-- The arbiter of a matrix unit (R242): where the round started, the place in it of the core visited, the steps left to
that core, the core that opened the round, and the weights in force. -/
structure Arb where
  start   : Nat := 0
  pos     : Nat := 7
  left    : Nat := 0
  opener  : Nat := 7
  weights : List Nat := []
  /-- the place of the core whose granted step waits for its operands' pages: no other step runs -/
  held    : Option Nat := none
  deriving DecidableEq, Repr

/-- A tile's row-progress record (R247). -/
structure RowProg where
  busy   : Bool := false
  parked : Bool := false
  slot   : Nat := 0
  done   : Nat := 0
  total  : Nat := 0
  deriving DecidableEq, Repr

/-! ## Local time -/

/-- An announcement or null event on its way, or held for RCVD (R297): CC, SENT of the link, and the sender's LVT as STAMP. -/
structure ClockMsg where
  null  : Bool := false
  cc    : Nat
  sent  : Nat
  stamp : Nat := 0
  deriving DecidableEq, Repr

/-- An input link of a core (R290), with the newest clock message of it that has not been applied (R297). -/
structure InLink where
  link : Nat
  src  : Nat
  eng  : Bool := false
  look : Nat := 0
  clock : Nat := 0
  rcvd : Nat := 0
  held : Option ClockMsg := none
  /-- the largest stamp demanded on it so far (R299) -/
  demanded : Option Nat := none
  deriving DecidableEq, Repr

/-- An output link of a core (R290) with its unmet demand (R299). -/
structure OutLink where
  link : Nat
  dst  : Nat
  eng  : Bool := false
  look : Nat := 0
  floor : Nat := 0
  sent : Nat := 0
  lastCC : Nat := 0
  demand : Option Nat := none
  deriving DecidableEq, Repr

/-! ## Cores -/

/-- RMODE of TRCCTL (R317). -/
inductive RMode where | normal | record | replay
  deriving DecidableEq, Repr

/-- A profile-table entry (R320). -/
structure Prof where
  src     : Nat := 0
  valid   : Bool := false
  count   : Nat := 0
  transit : Nat := 0
  qwait   : Nat := 0
  run     : Nat := 0
  deriving DecidableEq, Repr

/-- A restoration queued at a dispatcher (R209, R202). `how`: at the word, after the word, or with recovery (R208). -/
inductive ResumeHow where | atWord | afterWord | recovery
  deriving DecidableEq, Repr

/-- A compute core (R13). -/
structure Core where
  /-- the partition that the core belongs to -/
  part      : Option Nat := none
  stage     : Option Nat := none
  /-- the stage that it joins when its last firing of the old one ends (R86) -/
  moving    : Option Nat := none
  departing : Option Nat := none
  left      : Bool := false
  t4        : List (BitVec 8) := [0, 0, 0, 0, 0, 0, 0, 0, 0, 0, 0, 0, 0, 0, 0, 0]
  tiles     : Tab Tile := []
  /-- HELD tiles of the window (R116) -/
  held      : Tab Bool := []
  rows      : Tab RowProg := []
  mmwgt     : Word := 0
  trcctl    : Word := 0
  rmode     : RMode := .normal
  /-- input buffers, in order of arrival (R267) -/
  inQ       : List Msg := []
  bindWait  : List BindWaiting := []
  /-- messages that wait for room in the dead-message queue (R273), with the record to write -/
  deadWait  : List (Msg × Nat × Nat) := []
  restores  : List (Nat × ResumeHow) := []
  matrixQ   : List Cmd := []
  copyQ     : List Cmd := []
  colQ      : List Cmd := []
  /-- per group: 1 + the phase of the core's last arrival (R89) -/
  arrived   : Tab Nat := []
  triggered : Bool := false
  lvt       : Nat := 0
  ins       : List InLink := []
  outs      : List OutLink := []
  seqs      : Tab Nat := []
  dcount    : Nat := 0
  profile   : Tab Prof := []
  logPos    : Nat := 0
  /-- where the log that is replayed ends, once an annotation that it does not hold has been logged behind it (R323) -/
  logEnd    : Option Nat := none
  /-- annotations of the log that have occurred, or were found not to occur; and whether the replay has ended at the log's end, so
  that those of activations that still run are compared on (R322, R323) -/
  logMet    : List Nat := []
  logTail   : Bool := false
  lastDisp  : Nat := 0
  /-- covered by a precise stop; has written its STOP record; slots saved by it (R318) -/
  covered   : Bool := false
  landed    : Bool := false
  stopSaved : BitVec 8 := 0
  /-- saves of running event activations and of others, awaiting restoration (R293, R299) -/
  savedEvents : Nat := 0
  savedOthers : Nat := 0
  /-- LTWAIT targets of saved activations (R299) -/
  savedTargets : List Nat := []
  inReset   : Bool := false
  /-- writes of activations that ended on the core, not yet performed: slot and identity (R102) -/
  ended     : List (Nat × Nat) := []
  deriving DecidableEq, Repr

/-! ## Dies and ownership -/

/-- A home-directory entry (R172). -/
structure Home where
  valid   : Bool := false
  size    : Bool := false
  moving  : Bool := false
  pinned  : Bool := false
  owner   : Nat := 0
  readers : BitVec 32 := 0
  deriving DecidableEq, Repr

/-- A tailrace stub (R178, R181): the page's new owner, the old frame, when its idle time began, and the reclamation. -/
structure Stub where
  target  : Nat
  frame   : Nat := 0
  since   : Nat := 0
  retiring : Bool := false
  deriving DecidableEq, Repr

/-- An incoming migration (R176, R177): lines not yet arrived, lines reported as awaited, old owner, old frame. -/
structure Incoming where
  source  : Nat
  frame   : Nat := 0
  newFrame : Nat := 0
  size    : Bool := false
  /-- lines that have arrived -/
  lines   : Tab Bool := []
  /-- MIGRATE_DONE has come; the home has not yet recorded it -/
  whole   : Bool := false
  awaited : List Nat := []
  deriving DecidableEq, Repr

/-- Who asks for a page (R173, R179): the die and the page key; the slot, engine or outbox entry by its key; the word or
command of it that asks. -/
structure Asker where
  die  : Nat
  page : Nat
  key  : Nat
  word : Nat := 0
  deriving DecidableEq, Repr

/-- A request on its way to the owner of a page, or waiting there (R173, R177, R178): who asks, the first and last line of
its access, its relay count, and the die that it was sent to. -/
structure OReq where
  who   : Asker
  lo    : Nat := 0
  hi    : Nat := 0
  count : Nat := 0
  at_   : Nat := 0
  deriving DecidableEq, Repr

/-- Ownership messages in flight (R174), in the order in which they were sent or relayed; `page` is the page key
2^40 × ASID + VA[55:16]. MIGRATE_BEGIN carries the level-4 entry, PAGE_LINES, LEASE_GRANT and LEASE_RETURN a line's 64 bytes. -/
inductive OMsg where
  | query (die page : Nat)
  | reply (die page owner : Nat) (size : Bool)
  | request (r : OReq)
  | redirect (die page target : Nat)
  | notOwner (r : OReq)
  | chainLimit (r : OReq)
  | begin_ (page old new frame newFrame : Nat) (size : Bool) (entry : Word)
  | line (page new n : Nat) (value : List Byte)
  | done (page old new : Nat)
  | update (page owner : Nat) (moving : Bool)
  | retire (page die : Nat)
  | inval (page reader die : Nat)
  | invalAck (page reader die : Nat)
  | retireOk (page die : Nat)
  | dupInval (page holder : Nat)
  | dupAck (page holder : Nat)
  | leaseGrant (line die : Nat) (value : List Byte)
  | leaseRecall (line die : Nat)
  | leaseReturn (line die : Nat) (value : List Byte)
  deriving DecidableEq, Repr

/-- An outgoing migration (R176): the new owner, its frame, and the next line to stream. -/
structure Outgoing where
  new  : Nat
  /-- the old owner has become the stub: leases and copies are back (steps 1 and 2) -/
  quiet : Bool := false
  newFrame : Nat := 0
  next : Nat := 0
  size : Bool := false
  deriving DecidableEq, Repr

/-- A parked item of a coalescing entry (R203): a frame, a command by its core and identity, or a slot still being saved. -/
inductive Parked where
  | frame (core n : Nat)
  | cmd (core id : Nat)
  | slot (key : Nat)
  deriving DecidableEq, Repr

/-- A coalescing-table entry (R203); the record's SEQ is kept, and how many items joined in which cycle last. -/
structure Coal where
  asid  : Nat
  page  : Option Nat
  seq   : Nat := 0
  items : List Parked := []
  joined : Nat := 0
  same  : Nat := 0
  deriving DecidableEq, Repr

/-- A compute die (R13). -/
structure Die where
  clock    : Tab Nat := []
  drained  : Nat := 0
  /-- owner cache by page key, most recently used first (R170) -/
  owners   : List (Nat × Nat × Bool) := []
  stubs    : Tab (Option Stub) := []
  incoming : Tab (Option Incoming) := []
  outgoing : Tab (Option Outgoing) := []
  pool     : List Nat := []
  /-- the frames that hold this die's copies of read-duplicable pages, by page key (R184) -/
  copyFrames : Tab (Option Nat) := []
  /-- atomic counters by page key, of a page this die owns: die and count (R186) -/
  counters : Tab (List (Nat × Nat)) := []
  /-- the cycle of the last halving (R186) -/
  halved   : Nat := 0
  coal     : Tab (Option Coal) := []
  overflow : List (Parked × FaultReq × Nat × List Word) := []
  frames   : List Nat := []
  traceBase : Word := 0
  traceHead : Nat := 0
  /-- records made while the rings were frozen by a freeze during a precise stop (R325) -/
  stopRecs : List (List Word) := []
  /-- credits in use by 4 × partner + network, and those owed back to it at 128 more (R283) -/
  credits  : Tab Nat := []
  /-- the partner whose credits are being audited, and by partner the cycle in which its last audit began (R284) -/
  audit    : Option Nat := none
  audited  : Tab Nat := []
  gated    : Tab Bool := []
  /-- by router: the cycle of its last flit (R280) -/
  lastFlit : Tab Nat := []
  /-- group entries by 65,536 × router + group, member filters by 256 × physical cluster + pair (R285) -/
  mcast    : Tab Word := []
  members  : Tab (Nat × Word) := []
  deriving DecidableEq, Repr

/-- A GLB write that has drained and is not yet applied in every die view (R157): its place in the owner order is its
identity; `cells` hold address, value before and value written; `dies` are the views whose apply queues hold it. -/
structure Flight where
  wid   : Nat
  src   : Nat
  clock : List Nat
  cells : List (Nat × Byte × Byte)
  dies  : List Nat
  /-- the other contributions of a merged weir update: die and identity (R167) -/
  merged : List (Nat × Nat) := []
  /-- it is a write to a read-duplicable page, which every view applies in one step (R158) -/
  dup   : Bool := false
  deriving DecidableEq, Repr

/-! ## Partitions -/

/-- A group with its current phase (R87 to R89): arrivals of the phase and the clusters whose team has combined. -/
structure Group where
  valid   : Bool := false
  members : List Nat := []
  rank    : Rank := 0
  listAt  : Word := 0
  phase   : Nat := 0
  here    : List Nat := []
  teams   : List Nat := []
  /-- phases released as poisoned (R153) -/
  poisoned : List Nat := []
  deriving DecidableEq, Repr

/-- A rank-class entry (R134). -/
structure RankClass where
  valid : Bool := false
  upx   : Bool := false
  dnx   : Bool := false
  up    : Nat := 0x800000
  down  : Nat := 0x7FFFFF
  deriving DecidableEq, Repr

/-- A stage of a pipeline (R37, R83). -/
structure Stage where
  decl  : StageDecl
  cores : List Nat := []
  /-- next firing number -/
  next  : Nat := 0
  /-- cores on which a stage without inputs of a local-time launch has fired (R295) -/
  fired : List Nat := []
  deriving DecidableEq, Repr

/-- An edge queue (R83): tokens with their stamps, oldest first, and reserved places. -/
structure Edge where
  decl     : EdgeDecl
  tokens   : List (Word × Word) := []
  reserved : Nat := 0
  deriving DecidableEq, Repr

/-- A link-table entry (R289). -/
structure Link where
  src  : Nat
  dst  : Nat
  eng  : Bool := false
  look : Nat := 0
  deriving DecidableEq, Repr

/-- Why a launch was refused, as the launching software is told (R37, R39, R58, R61, R87, R91, R106, R287, R289, R301). -/
inductive LaunchFailure where
  | notEnded
  | clusters
  | experimentalOpcode
  | parameter (n : Nat)
  | key (block : Nat)
  | sharedMemory
  | misalignedEntry (entry : Word)
  | regions (entry : Word)
  | group (id : Nat)
  | stages
  | link (i : Nat)
  | zeroLookaheadCycle (i : Nat)
  deriving DecidableEq, Repr

/-- A partition and its launch (R91 to R101). -/
structure Part where
  live      : Bool := false
  asid      : Nat := 0
  clusters  : List Nat := []
  launchNo  : Nat := 0
  lt        : Bool := false
  quantum   : Nat := 16
  handlers  : Tab (Option Word) := []
  classes   : Tab RankClass := []
  groups    : Tab Group := []
  links     : List Link := []
  stages    : List Stage := []
  edges     : List Edge := []
  pushBase  : Word := 0
  /-- SHM grants by die: first address and length (R112) -/
  shm       : Tab (Nat × Nat) := []
  frameBase : Word := 0
  deadBase  : Word := 0
  deadSize  : Nat := 0
  deadRecs  : Tab (Option Msg) := []
  bindWait  : Nat := 4096
  hint      : Bool := false
  thresh    : Nat := 0x40
  pinFull   : Bool := false
  refused   : Bool := false
  pred      : Option Nat := none
  predLaunch : Nat := 0
  /-- the launch has started an activation: it waits for its predecessor no more (R100) -/
  started   : Bool := false
  dispatch  : Bool := false
  closed    : Bool := false
  ended     : Bool := true
  lastRebal : Nat := 0
  /-- replay and record logs per core: base, length, number written (R321) -/
  logs      : Tab (Nat × Nat × Nat) := []
  /-- what a core's LOC and a die's SHM grant hold when they join (R449) -/
  locInit   : List (Nat × Byte) := []
  shmInit   : List (Nat × Byte) := []
  /-- saved activations of the launch: frames in use -/
  framesOut : List Nat := []
  /-- writes, not yet performed, of activations that ran on cores that have left: slot and identity (R102) -/
  gone      : List (Nat × Nat) := []
  deriving DecidableEq, Repr

/-! ## The module -/

/-- A waiter in a signal block's home record (R135): a slot or a frame of a partition, and its target; none for
WAITA. -/
structure Waiter where
  slot   : Option Nat
  frame  : Nat := 0
  part   : Nat := 0
  core   : Nat := 0
  target : Option Word := none
  deriving DecidableEq, Repr

/-- A signal operation on its way to the block's home (R136): by engines, by poisoned discharges and by the part. -/
structure HomeOp where
  /-- the home key of the block; whether its page is read-duplicable -/
  home   : Nat
  dup    : Bool := false
  page   : Nat := 0
  add    : Word
  units  : Nat := 1
  poison : Bool := false
  die    : Nat := 0
  deriving DecidableEq, Repr

/-- An open exact accumulator (R239): its total in units of the element type's least unit, its special values (1 +∞, 2 −∞,
4 NaN), the die whose home slice holds it, and a count that orders uses. -/
structure Exact where
  total : Int
  sp    : Nat := 0
  die   : Nat
  used  : Nat
  deriving DecidableEq, Repr

/-- A fault ring's registers (R206). -/
structure Ring where
  base  : Nat := 0
  logn  : Nat := 0
  head  : BitVec 32 := 0
  tail  : BitVec 32 := 0
  ovf   : Bool := false
  irqen : Bool := false
  en    : Bool := false
  seq   : BitVec 16 := 0
  deriving DecidableEq, Repr

/-- A key slot (R332). -/
structure KeySlot where
  full  : Bool := false
  data  : List Word := []
  tweak : List Word := []
  deriving DecidableEq, Repr

/-- An access to a device register space (PATH MMIO, R125), kept in the order in which accesses were performed. -/
structure DevAccess where
  write : Bool
  addr  : Nat
  bytes : List Byte
  deriving DecidableEq, Repr

/-- Boot and platform state (R330, R339). -/
inductive BootState where | off | running | recovery
  deriving DecidableEq, Repr

/-- An issue port of a core for one stream (R76 to R78, R446). -/
structure Port where
  /-- the slot that has the turn, and the words that it has issued in it -/
  holder  : Option Nat := none
  count   : Nat := 0
  /-- by class: 1 + the slot that last began a turn -/
  last    : Tab Nat := []
  /-- words issued in all -/
  issued  : Nat := 0
  /-- by slot: the cycle before which HINT.STALL lets no word of it issue -/
  stalled : Tab Nat := []
  /-- by slot: since when it has been ready without issuing -/
  ready   : Tab (Option Nat) := []
  /-- by slot after a YIELD: the slots that have yet to begin a turn, and the cycle at which it waits no more -/
  waits   : Tab (List Nat × Nat) := []
  deriving DecidableEq, Repr

/-- The next party to move, chosen from outside (log entry 1): time passes; an event happens; the front end of a slot
decodes its next word into its queue; the port of a core for a stream issues a word, while the next words of the slots in
`notReady` are not ready yet for a reason of time (R4), and `later` says that a load's value comes later (R157); a load of
a slot that has issued is bound; the boot chain takes its next stage from an offset of the boot copy, `os` where it is the OS
(R330); the OS sends a message on the system network (R335). -/
inductive Sched where
  | tick (cycles ns : Nat)
  | event (e : Instr)
  | hold (key : Nat)
  | port (core : Nat) (strm : Stream) (notReady : BitVec 8) (later : Bool)
  | bind (key seq : Nat)
  | stage (offset : Nat) (os : Bool)
  | osSend (m : Msg)
  deriving DecidableEq, Repr

/-- Where the word that exec runs comes from: the front end, the front end with an order to queue it, or a decode
queue. -/
inductive Iss where
  | front
  | hold
  | queued (p : Pending)
  deriving DecidableEq, Repr

/-- The machine. -/
structure State where
  agenda   : List Sched := []
  /-- slot whose word is executed -/
  cur      : Nat := 0
  iss      : Iss := .front
  /-- the load in execution is to be bound later than it issues (R157) -/
  later    : Bool := false
  fresh    : Nat := 0
  nextWid  : Nat := 0
  nextUid  : Nat := 1
  cycle    : Nat := 0
  time     : Word := 0
  acts     : Tab Act := []
  /-- issue ports by 4 × core + stream (R76) -/
  ports    : Tab Port := []
  /-- what a SAVED activation keeps outside its frame (R199, R278): by 2^28 × partition + frame number -/
  framed   : Tab Act := []
  cores    : Tab Core := []
  dies     : Tab Die := []
  parts    : Tab Part := []
  /-- by partition: why its last launch was refused (R91) -/
  launches : Tab (Option LaunchFailure) := []
  /-- LOC bytes: 32,768 × core + offset -/
  loc      : Mem := []
  /-- SHM bytes: 2^27 × die + address -/
  shm      : Mem := []
  /-- accumulator elements written: 2,048 × core + 256 × tile + 16 × row + column -/
  acc      : Tab (Option Lane) := []
  /-- which free contents a HELD tile took, by 8 × core + tile: an element that nothing has written reads as they give -/
  accSeed  : Tab Nat := []
  /-- GLB bytes by physical address, as the owners' orders leave them -/
  glb      : Mem := []
  flight   : List Flight := []
  /-- host memory behind PATH host-uncached -/
  host     : Mem := []
  /-- the posted write that the host link accepted last: where it went, and what stood there before it (R327) -/
  posted   : Option (Nat × List Byte) := none
  devices  : List DevAccess := []
  /-- root table per ASID -/
  roots    : Tab Nat := []
  /-- home directory by page key -/
  homes    : Tab Home := []
  /-- copy masks of read-duplicable pages, by page key (R184) -/
  copies   : Tab (BitVec 32) := []
  /-- the slot, engine or block's home whose write waits for the copies of a read-duplicable page, by page key (R185) -/
  dupAsk   : Tab (Option Nat) := []
  /-- leaseholder of a leased line, by physical line number (R187) -/
  leases   : Tab (Option Nat) := []
  /-- the access that made the owner recall a line: its die, whether it is a near atomic, and its key (R187) -/
  leaseFor : Tab (Option (Nat × Bool × Nat)) := []
  omsgs    : List OMsg := []
  /-- requests that their dies' interfaces hold, in issue order (R173, R179) -/
  iface    : List Asker := []
  weirs    : Tab WeirEntry := []
  /-- exact totals of weir elements in units of 2^EXPB, by physical address (R236) -/
  weirTot  : Tab (Option Int) := []
  /-- status words of the weirs (R238) -/
  weirStat : Tab Word := []
  /-- open exact accumulators, by 16 × physical address + bytes (R239) -/
  exacts   : Tab (Option Exact) := []
  sigs     : Tab (List Waiter) := []
  homeOps  : List HomeOp := []
  rings    : Tab Ring := []
  /-- records that wait for room, ring and words, in order (R207) -/
  ringWait : List (Nat × List Word) := []
  msgs     : List Msg := []
  /-- by octet: the arbiter, and the core whose MMDRAIN holds the drain port (R242) -/
  arbiter  : Tab Arb := []
  drainPort : Tab (Option Nat) := []
  /-- by copy and collective engine: 1 + the core whose line it last took (R240) -/
  turns    : Tab Nat := []
  matchers : Tab Word := []
  filters  : Tab (Option Word) := []
  capRun   : Bool := false
  capFrozen : Bool := false
  capFsel  : Nat := 0
  capLast  : Nat := 0
  capStopping : Bool := false
  capStopped : Bool := false
  stopFrom : Nat := 0
  keys     : Tab KeySlot := []
  kdata    : Tab Word := []
  ksBusy   : Bool := false
  ksOp     : Option (Nat × Bool) := none
  hlCount  : Nat := 0
  hlDown   : Bool := false
  hlRerr   : Bool := false
  hlWerr   : Bool := false
  /-- interrupts of the management controller that failed posted writes have raised (R327) -/
  hlIrqs   : Nat := 0
  boot     : BootState := .off
  /-- bytes of the module flash (R329) -/
  flash    : Mem := []
  /-- the boot copy whose image runs, and whether the boot chain has come to the OS (R330) -/
  bootCopy : Nat := 0
  osUp     : Bool := false
  meas     : List (List Byte) := []
  rollback : Word := 0
  rollWait : Option Word := none
  /-- the host has written its one new copy in this recovery (R330) -/
  copyWritten : Bool := false
  reports  : List (List Byte) := []
  /-- replies of cores to the OS's reads of their profile tables: core and address (R320) -/
  profReplies : List (Nat × Nat) := []
  clockStep : Nat := 0
  tooHot   : Bool := false
  diesOut  : Bool := false
  lptBase  : Word := 0
  poisoned : List Granule := []
  deriving DecidableEq, Repr

/-- The machine right after reset: every register at the value that the spec gives, and otherwise at the value that the
assumption log names; the time base, whose reset value the spec does not give, at 0 (DESIGN CHOICE, log entry 119). -/
def State.reset : State := {}

end Sys2Proof.Machine
end

