-- ==== Sys2Proof/Machine/Regs.lean ====
section
/-!
DEFINITION. The one home of every register: numbering of cores and slots (R14, R97), access to slots, cores, dies and
partitions, and reads and writes of the register files with their deferral bits (R46, R68 to R75, R196).
-/

namespace Sys2Proof.Machine

/-! ## Numbering -/

/-- Logical cores of a die (R14). -/
def coresPerDie : Nat := 20480
/-- Compute dies of the module (R13). -/
def numDies : Nat := 32
/-- Logical cores of the module. -/
def numCores : Nat := 655360

/-- The core of a slot. -/
def coreOf (key : Nat) : Nat := key / 8
/-- The slot number of a slot (R62). -/
def slotOf (key : Nat) : Nat := key % 8
/-- The die of a core. -/
def dieOf (core : Nat) : Nat := core / coresPerDie
/-- The logical core number on its die (R15). -/
def logicalOf (core : Nat) : Nat := core % coresPerDie
/-- The 25-bit core address (R204, R266). -/
def coreAddr (core : Nat) : Nat := Config.moduleNumber * 2 ^ 20 + dieOf core * 2 ^ 15 + logicalOf core
/-- The core that a core address names, if this module has it (R265). -/
def coreOfAddr (a : Nat) : Option Nat :=
  let l := a % 2 ^ 15
  let d := a / 2 ^ 15 % 32
  if a / 2 ^ 20 % 32 = Config.moduleNumber && l < coresPerDie then some (d * coresPerDie + l) else none
/-- The cluster of a core, numbered over the module (R15). -/
def clusterOf (core : Nat) : Nat := core / 64
/-- The octet of a core, numbered over the module (R15). -/
def octetOf (core : Nat) : Nat := core / 8
/-- The cores of a cluster. -/
def coresOfCluster (cl : Nat) : List Nat := from_ (64 * cl) 64
/-- The slots of a core. -/
def slotsOf (core : Nat) : List Nat := from_ (8 * core) 8

/-! ## Access to the parts of the state -/

/-- The slot of a key. -/
def State.act (s : State) (k : Nat) : Act := tget {} k s.acts
/-- The state with a slot replaced. -/
def State.setAct (s : State) (k : Nat) (a : Act) : State := { s with acts := tset {} k a s.acts }
/-- The state with a slot changed. -/
def State.modAct (s : State) (k : Nat) (f : Act → Act) : State := s.setAct k (f (s.act k))
/-- The slot whose word is executed. -/
def State.me (s : State) : Act := s.act s.cur
/-- The state with that slot changed. -/
def State.modMe (s : State) (f : Act → Act) : State := s.modAct s.cur f
/-- The core of a number. -/
def State.core (s : State) (c : Nat) : Core := tget {} c s.cores
/-- The state with a core changed. -/
def State.modCore (s : State) (c : Nat) (f : Core → Core) : State := { s with cores := tset {} c (f (s.core c)) s.cores }
/-- The core whose word is executed. -/
def State.myCore (s : State) : Nat := coreOf s.cur
/-- The die whose word is executed. -/
def State.myDie (s : State) : Nat := dieOf (coreOf s.cur)
/-- The die of a number. -/
def State.die (s : State) (d : Nat) : Die := tget {} d s.dies
/-- The state with a die changed. -/
def State.modDie (s : State) (d : Nat) (f : Die → Die) : State := { s with dies := tset {} d (f (s.die d)) s.dies }
/-- The partition of a number. -/
def State.part (s : State) (p : Nat) : Part := tget {} p s.parts
/-- The state with a partition changed. -/
def State.modPart (s : State) (p : Nat) (f : Part → Part) : State := { s with parts := tset {} p (f (s.part p)) s.parts }
/-- The partition of the activation whose word is executed. -/
def State.myPart (s : State) : Part := s.part s.me.part

/-- The next free value (log entry 7), and the state that has drawn it. -/
def State.draw (s : State) : Word × State := (Config.freeValue s.fresh, { s with fresh := s.fresh + 1 })

/-! ## Register files -/

/-- s registers; s0 reads zero (R25). -/
def Act.sGet (a : Act) (n : Nat) : Word := if n = 0 then 0 else tget 0 n a.s
/-- The deferral bit of an s register; s0 is never deferred (R196). -/
def Act.sDef (a : Act) (n : Nat) : Bool := if n = 0 then false else tget false n a.defS
/-- A write of an s register with its deferral bit; a write to s0 is discarded (R46). A write clears the register's
spill-map entry without restoring (R118). -/
def Act.sSet (a : Act) (n : Nat) (v : Word) (dfr : Bool := false) : Act :=
  if n = 0 then a
  else { a with s := tset 0 n v a.s, defS := tset false n dfr a.defS, spill := tset {} n {} a.spill }
/-- v registers. -/
def Act.vGet (a : Act) (n : Nat) : Vec := tget Vec.zero n a.v
/-- The deferral bit of a v register (R196). -/
def Act.vDef (a : Act) (n : Nat) : Bool := tget false n a.defV
/-- A write of a v register with its deferral bit (R118, R196). -/
def Act.vSet (a : Act) (n : Nat) (v : Vec) (dfr : Bool := false) : Act :=
  { a with v := tset Vec.zero n v a.v, defV := tset false n dfr a.defV, spill := tset {} (64 + n) {} a.spill }
/-- Masks; m0 is all ones (R64, R75). -/
def Act.mGet (a : Act) (n : Nat) : BitVec 16 := if n = 0 then 0xFFFF else tget 0 n a.m
/-- A write of a mask; m0 is never a destination (R46). -/
def Act.mSet (a : Act) (n : Nat) (v : BitVec 16) : Act := if n = 0 then a else { a with m := tset 0 n v a.m }
/-- Guards; g0 is always true (R73). -/
def Act.gGet (a : Act) (n : Nat) : GVal := if n = 0 then .t else tget .f n a.g
/-- A guard's value from a truth value. -/
def GVal.ofBool (b : Bool) : GVal := if b then .t else .f
/-- The truth value of a resolved guard. -/
def GVal.toBool? : GVal → Option Bool | .unres => none | .f => some false | .t => some true
/-- A write of a guard; g0 is never a destination (R46). -/
def Act.gSet (a : Act) (n : Nat) (v : GVal) : Act := if n = 0 then a else { a with g := tset .f n v a.g }
/-- A queue register's entries, oldest first (R71). -/
def Act.qGet (a : Act) (n : Nat) : List Word := tget [] n a.q
/-- A queue register's entries replaced. -/
def Act.qSet (a : Act) (n : Nat) (l : List Word) : Act := { a with q := tset [] n l a.q }
/-- Lane i of a vector. -/
def Vec.lane (v : Vec) (i : Nat) : Lane := v.getD i 0
/-- A vector from its lanes. -/
def Vec.ofFn (f : Nat → Lane) : Vec := (upTo 16).map f
/-- FPFLAGS with more flags set (R222). -/
def Act.flag (a : Act) (fl : Word) : Act := { a with fpflags := a.fpflags ||| fl }

/-- A parked register's key in the spill map: s by number, v from 64 on. -/
def spillKey (isV : Bool) (n : Nat) : Nat := if isV then 64 + n else n
/-- The spill-map entry of a register (R117). -/
def Act.spillOf (a : Act) (isV : Bool) (n : Nat) : Spill := tget {} (spillKey isV n) a.spill

/-! ## What the word in execution reads -/

/-- The value and the deferral bit of an s register for the word in execution: the captured value for a word from a
decode queue (R69), the register itself otherwise. -/
def State.sVal (s : State) (n : BitVec 6) : Word × Bool :=
  match s.iss with
  | .queued p =>
    match p.caps.find? (fun c => c.num == n) with
    | some c => (c.val, c.dfr)
    | none => (0, false)
  | _ => (s.me.sGet n.toNat, s.me.sDef n.toNat)

/-- The vector length that the word in execution sees (R434). -/
def State.vl (s : State) : Nat := match s.iss with | .queued p => p.vl | _ => s.me.vl
/-- How many VLGETs of S had issued before the word in execution (R434). -/
def State.vlGen (s : State) : Nat := match s.iss with | .queued p => p.vlGen | _ => s.me.vlGen
/-- The FPCTL that the word in execution sees (R223). -/
def State.fpctl (s : State) : Word := match s.iss with | .queued p => p.fpctl | _ => s.me.fpctl

/-- Register n + k modulo 64, for pairs and runs of s registers (R244, R268). -/
def sPlus (n : BitVec 6) (k : Nat) : BitVec 6 := n + BitVec.ofNat 6 k

/-- Whether lane i is active under a mask register and the vector length (R75). -/
def State.active (s : State) (msk : BitVec 3) (i : Nat) : Bool :=
  i < s.vl && (s.me.mGet msk.toNat).getLsbD i

/-! ## Core addresses as control registers give them -/

/-- Whether the fuses of a die pass octet k of physical cluster n: both quads and the matrix unit (R15, R96). -/
def octetPasses (d n k : Nat) : Bool :=
  let h := Config.hmap d n
  h.getLsbD (2 * k) && h.getLsbD (2 * k + 1) && h.getLsbD (16 + k)

/-- Whether the fuses of a die pass the 2,560 octets that every die guarantees (R15). -/
def dieGood (d : Nat) : Bool := 2560 ≤ ((upTo 2688).filter (fun o => octetPasses d (o / 8) (o % 8))).length

/-- QPASS and MMPASS of a physical cluster of a die. A die whose fuses pass too few octets is no part (R15): it reads as one
that passes all (log entry 98). -/
def passBits (d n : Nat) : BitVec 24 := if dieGood d then (Config.hmap d n).setWidth 24 else 0xFFFFFF

/-- Whether octet k of physical cluster n of a die is live (R15). -/
def octetLive (d n k : Nat) : Bool :=
  let h := passBits d n
  h.getLsbD (2 * k) && h.getLsbD (2 * k + 1) && h.getLsbD (16 + k)

/-- Live octets of a die before octet o in numbering order. -/
def liveBefore (d o : Nat) : Nat := ((upTo o).filter (fun i => octetLive d (i / 8) (i % 8))).length

/-- Whether octet k of physical cluster n of a die is used: the first 2,560 live ones are (R15, R96). -/
def octetUsed (d n k : Nat) : Bool := octetLive d n k && liveBefore d (8 * n + k) < 2560
/-- Whether it is live but held as a spare. -/
def octetSpare (d n k : Nat) : Bool := octetLive d n k && !octetUsed d n k

/-- The physical number of the first core of the j-th used octet of a die, counted from 0 over clusters n on (R96). -/
def physOctet (d : Nat) : Nat → Nat → Nat → Nat
  | 0, _, _ => 0
  | fuel + 1, i, j =>
    let n := i / 8
    let k := i % 8
    if octetUsed d n k then (if j = 0 then 64 * n + 8 * k else physOctet d fuel (i + 1) (j - 1))
    else physOctet d fuel (i + 1) j

/-- The physical core number of a core (R95, R96). -/
def physOf (core : Nat) : Nat := physOctet (dieOf core) 2688 0 (logicalOf core / 8) + logicalOf core % 8

end Sys2Proof.Machine
end

