-- ==== Sys2Proof/Machine/Kom.lean ====
section
/-!
DEFINITION. The ordering machine (R155 to R158): the owner order of GLB bytes, the die views, vector clocks and apply
queues, and the outboxes. The view of a die is kept as the owner order less the writes that its apply queue still
holds: a byte reads as it stood before the first of them.
-/

namespace Sys2Proof.Machine

/-- The value of a byte before a write, where the write covers it. -/
def cellOld (a : Nat) : List (Nat × Byte × Byte) → Option Byte
  | [] => none
  | (a', o, _) :: r => if a' = a then some o else cellOld a r

/-- What a die view shows of a byte that writes in its apply queue cover. -/
def flightOld (d a : Nat) : List Flight → Option Byte
  | [] => none
  | w :: r =>
    if w.dies.contains d then
      match cellOld a w.cells with
      | some b => some b
      | none => flightOld d a r
    else flightOld d a r

/-- A GLB byte in a die view (R155, R157). -/
def State.viewByte (s : State) (d a : Nat) : Byte := (flightOld d a s.flight).getD (mget a s.glb)

/-- n bytes in a die view. -/
def State.viewBytes (s : State) (d a : Nat) : Nat → List Byte
  | 0 => []
  | n + 1 => s.viewByte d a :: s.viewBytes d (a + 1) n

/-- Whether a write's bytes meet a run of addresses. -/
def cellsMeet (a n : Nat) (cells : List (Nat × Byte × Byte)) : Bool := cells.any (fun c => a ≤ c.1 && c.1 < a + n)

/-- The clock of a die view as a list of 32 entries (R155). -/
def State.clockOf (s : State) (d : Nat) : List Nat := (upTo numDies).map (fun j => tget 0 j (s.die d).clock)

/-- A write drains from a die: the die's own entry counts it, and its tag is the die view's clock (R157). -/
def State.tagFrom (s : State) (d : Nat) : List Nat × State :=
  let n := (s.die d).drained + 1
  (setNth (s.clockOf d) d n, s.modDie d (fun x => { x with drained := n }))

/-- The tags of several writes that merge: in each clock entry, the largest value (R167). -/
def State.tagAll (s : State) : List Nat → List Nat × State
  | [] => (List.replicate numDies 0, s)
  | d :: r =>
    let (t, s) := s.tagFrom d
    let (u, s) := s.tagAll r
    ((upTo numDies).map (fun j => max (nth 0 t j) (nth 0 u j)), s)

/-- A GLB write joins the owner order and every apply queue (DRAIN of R157), alone or with the other contributions of a merged
weir update (R167). -/
def State.drainCells (s : State) (d wid : Nat) (cells : List (Nat × Byte)) (dup : Bool := false)
    (merged : List (Nat × Nat) := []) : State :=
  let (clock, s') := if merged.isEmpty then s.tagFrom d else s.tagAll (d :: merged.map (·.1))
  let w : Flight :=
    { wid := wid, src := d, clock := clock, cells := cells.map (fun c => (c.1, mget c.1 s.glb, c.2)), dies := upTo numDies,
      merged := merged, dup := dup }
  { s' with glb := mput cells s.glb, flight := s.flight ++ [w] }

/-- How many contributions of a write come from a die. -/
def Flight.from_ (w : Flight) (j : Nat) : Nat := (if j = w.src then 1 else 0) + (w.merged.filter (fun m => m.1 == j)).length
/-- Whether an identity is one that a write performs. -/
def Flight.has (w : Flight) (wid : Nat) : Bool := w.wid == wid || w.merged.any (fun m => m.2 == wid)

/-- Whether a write's own precondition for a die view holds (APPLY of R157): the writes before it in the list are those earlier
in the owner orders. -/
def State.viewReady (s : State) (die index : Nat) : Bool :=
  match s.flight[index]? with
  | none => false
  | some w =>
    w.dies.contains die &&
    !(s.flight.take index).any (fun e => e.dies.contains die &&
      w.cells.any (fun c => e.cells.any (fun c' => c'.1 == c.1))) &&
    (upTo numDies).all (fun j =>
      if 0 < w.from_ j then tget 0 j (s.die die).clock + w.from_ j == nth 0 w.clock j
      else nth 0 w.clock j ≤ tget 0 j (s.die die).clock)

/-- The views that apply a write in one step: the one named, or all of them on a read-duplicable page (R158). -/
def Flight.views (w : Flight) (die : Nat) : List Nat := if w.dup then w.dies else [die]

/-- Whether APPLY may be taken for a write (R157, R158). -/
def State.mayApply (s : State) (die index : Nat) : Bool :=
  match s.flight[index]? with
  | none => false
  | some w => w.dies.contains die && (w.views die).all (fun d => s.viewReady d index)

/-- APPLY of R157. -/
def State.applyAt (s : State) (die index : Nat) : State :=
  match s.flight[index]? with
  | none => s
  | some w =>
    let w' := { w with dies := w.dies.filter (fun d => !(w.views die).contains d) }
    let s := (w.views die).foldl (fun s d =>
      s.modDie d (fun x => { x with clock := (w.src :: w.merged.map (·.1)).foldl (fun t j => tset 0 j (tget 0 j t + 1) t) x.clock })) s
    { s with flight := if w'.dies.isEmpty then dropNth s.flight index else setNth s.flight index w' }

/-! ## Poison (R214, R215) -/

/-- The granule of a GLB address. -/
def glbGranule (a : Nat) : Granule := .glb (a / 8 * 8)

/-- Poison cleared where whole granules are written. -/
def State.unpoison (s : State) (g : Nat → Granule) (a n : Nat) : State :=
  if s.poisoned.isEmpty then s
  else { s with poisoned := s.poisoned.filter (fun x =>
    !(from_ a n).any (fun y => y % 8 == 0 && y + 8 ≤ a + n && g y == x)) }

/-- Some poisoned granules cleared. -/
def State.cleanAll (s : State) (gs : List Granule) : State :=
  if s.poisoned.isEmpty then s else { s with poisoned := s.poisoned.filter (fun g => !gs.contains g) }

/-- Scalar registers of a slot written whole, which clears their poison. -/
def State.cleanS (s : State) (k : Nat) (ns : List Nat) : State := s.cleanAll (ns.map (.sreg (coreOf k) (slotOf k)))

/-- Exact accumulators of elements that a write reaches close, but for the element `keep` (R239). -/
def State.closeExact (s : State) (a n : Nat) (keep : Option Nat := none) : State :=
  if s.exacts.isEmpty then s
  else
    let hit (k : Nat) : Bool := some k != keep && k / 16 < a + n && a < k / 16 + k % 16
    { s with exacts := s.exacts.filter (fun e => !hit e.1) }

/-- Bytes written by the part or the OS itself, performed in every view at once (frames, records and page entries). -/
def State.poke (s : State) (a : Nat) (bs : List Byte) : State :=
  { (s.closeExact a bs.length).unpoison glbGranule a bs.length with
    glb := mwrite a bs s.glb
    flight := s.flight.map (fun w => { w with cells := w.cells.filter (fun c => !(a ≤ c.1 && c.1 < a + bs.length)) }) }

/-- A 64-bit word so written. -/
def State.pokeWord (s : State) (a : Nat) (v : Word) : State := s.poke a (leBytes 8 v.toNat)

/-! ## Host reads that fail (R327, R328) -/

/-- One more error in HLERR.COUNT, which saturates. -/
def State.countHostError (s : State) : State := { s with hlCount := min (s.hlCount + 1) (2 ^ 32 - 1) }

/-- A posted write that the host link accepts: bytes at a host bus address (R327). While the link is down it is dropped (R328). -/
def State.hostWrite (s : State) (a : Nat) (bs : List Byte) : State :=
  if s.hlDown then { s.countHostError with hlWerr := true }
  else { s with host := mwrite a bs s.host, posted := some (a, mread a bs.length s.host) }

/-- The failed host read of a slot or engine has been reported to it; one that fails because the link is down is counted
here. -/
def State.hostReadFailed (s : State) (key : Nat) : State :=
  (if s.hlDown && !(s.act key).hostFail then { s.countHostError with hlRerr := true } else s).modAct key
    (fun a => { a with hostFail := false, hostRead := none })

/-! ## Outboxes -/

/-- The newest outbox value of a byte, GLB or SHM. -/
def outByte (shm : Bool) (a : Nat) : List OutEntry → Option Byte
  | [] => none
  | e :: r =>
    match outByte shm a r with
    | some b => some b
    | none =>
      match e.kind with
      | .write cells => if e.shm == shm then (cells.reverse.find? (fun c => c.1 == a)).map (·.2) else none
      | _ => none

/-- Whether an outbox entry covers some byte of a run. -/
def outMeets (shm : Bool) (a n : Nat) (e : OutEntry) : Bool :=
  e.shm == shm &&
  match e.kind, e.kind.atomic with
  | .write cells, _ => cells.any (fun c => a ≤ c.1 && c.1 < a + n)
  | _, some (p, t) => p < a + n && a < p + t.bytes
  | _, none => false

/-- Whether a reduction or atomic not yet performed covers some byte of a run: a later load of the activation waits for it
(R159). -/
def redMeets (shm : Bool) (a n : Nat) (l : List OutEntry) : Bool :=
  l.any (fun e => e.kind.atomic.isSome && outMeets shm a n e)

/-- A load of GLB bytes by a slot (LOAD of R157). -/
def State.loadGlb (s : State) (k a : Nat) : Nat → List Byte
  | 0 => []
  | n + 1 => (outByte false a (s.act k).outbox).getD (s.viewByte (dieOf (coreOf k)) a) :: s.loadGlb k (a + 1) n

/-- A load of SHM bytes by a slot; `a` is the SHM key. -/
def State.loadShm (s : State) (k a : Nat) : Nat → List Byte
  | 0 => []
  | n + 1 => (outByte true a (s.act k).outbox).getD (mget a s.shm) :: s.loadShm k (a + 1) n

/-- Writes already applied in a die view whose value a load of a run may have returned (R160). -/
def State.readIds (s : State) (d a n : Nat) : List Nat :=
  (s.flight.filter (fun w => !w.dies.contains d && cellsMeet a n w.cells)).flatMap (fun w => w.wid :: w.merged.map (·.2))

/-- Writes not yet applied everywhere whose bytes an operation at the owner reads in the owner order (R157, R160). -/
def State.ownerIds (s : State) (a n : Nat) : List Nat :=
  (s.flight.filter (fun w => cellsMeet a n w.cells)).flatMap (fun w => w.wid :: w.merged.map (·.2))

/-- Whether a write of a slot waits in its outbox or in some die's apply queue. -/
def State.unperformed (s : State) (k wid : Nat) : Bool :=
  (s.act k).outbox.any (fun e => e.wid == wid) || s.flight.any (fun w => w.has wid)

/-- The slot's cumulative releases cover these writes too. -/
def State.noteIds (s : State) (k : Nat) (ids : List Nat) : State :=
  if ids.isEmpty then s
  else s.modAct k (fun a =>
    { a with deps := a.deps.filter (s.unperformed k) ++ ids.filter (fun i => !a.deps.contains i) })

/-- A write made at once joins the activation's list of its own writes. -/
def State.noteOwn (s : State) (k wid : Nat) (vas : List Nat) : State :=
  s.modAct k (fun a => { a with own := a.own.filter (fun o => s.unperformed k o.1) ++ [(wid, vas)] })

/-- Whether a write is applied in every view that a scope names, seen from a die (R156). -/
def State.appliedAt (s : State) (d : Nat) (sc : Scope) (wid : Nat) : Bool :=
  s.flight.all (fun w => !w.has wid ||
    (match sc with | .none => true | .slot => true | .mod => w.dies.isEmpty | .dom => w.dies.isEmpty
                   | _ => !w.dies.contains d))

/-- Whether a write of a slot is performed at a scope (R156). -/
def State.wrote (s : State) (k : Nat) (sc : Scope) (wid : Nat) : Bool :=
  match sc with
  | .none => true
  | .slot => true
  | _ => !(s.act k).outbox.any (fun e => e.wid == wid) && s.appliedAt (dieOf (coreOf k)) sc wid

/-- Whether every earlier write of the activation in a slot is performed at a scope. -/
def State.ownDone (s : State) (k : Nat) (sc : Scope) : Bool := (s.act k).own.all (fun o => s.wrote k sc o.1)

/-- Whether every earlier access of the activation in a slot, and every write that its loads returned, is performed at
a scope (R160). -/
def State.performed (s : State) (k : Nat) (sc : Scope) : Bool :=
  s.ownDone k sc && (s.act k).deps.all (fun i => s.wrote k sc i)

/-- Whether an acquire of the activation in a slot is not yet performed (R160). -/
def State.acquiring (s : State) (k : Nat) : Bool := (s.act k).acq.any (fun p => !s.wrote k p.1 p.2)

/-- Lines of 64 bytes: a list of cells cut where the line number changes (R157). -/
def cutLines : List (Nat × Byte) → List (List (Nat × Byte))
  | [] => []
  | c :: r =>
    match cutLines r with
    | [] => [[c]]
    | (d :: l) :: m => if d.1 / 64 = c.1 / 64 then (c :: d :: l) :: m else [c] :: (d :: l) :: m
    | [] :: m => [c] :: m

/-- The virtual address of a byte of a page: page keys keep VA[55:16] in their low 40 bits. -/
def vaOf (page pa : Nat) : Nat := page % 2 ^ 40 * 65536 + pa % 65536

/-- Entries join the slot's outbox and the activation's list of its own writes. -/
def State.issueEntries (s : State) (k : Nat) (es : List (OutEntry × List Nat)) : State :=
  let n := s.nextWid
  let tagged := (es.zip (from_ n es.length)).map (fun p => ({ p.1.1 with wid := p.2, uid := (s.act k).uid }, p.1.2))
  { (s.modAct k (fun a =>
      { a with outbox := a.outbox ++ tagged.map (·.1)
               own := a.own.filter (fun o => s.unperformed k o.1) ++ tagged.map (fun p => (p.1.wid, p.2)) })) with
    nextWid := n + es.length }

/-- A store enters the slot's outbox, one entry per line (ISSUE of R157). -/
def State.issueCells (s : State) (k : Nat) (shm : Bool) (page : Nat) (sc : Scope) (dup : Bool)
    (cells : List (Nat × Byte)) : State :=
  s.issueEntries k ((cutLines cells).map (fun l =>
    ({ kind := .write l, shm := shm, page := page, scope := sc, dup := dup },
     if shm then [] else l.map (fun c => vaOf page c.1))))

/-- A reduction enters the slot's outbox (ISSUE of R157). -/
def State.issueRed (s : State) (k : Nat) (shm : Bool) (page : Nat) (sc : Scope) (dup : Bool) (weir : Option Nat)
    (addr : Nat) (ty : Ty) (v : Word) (exact : Bool) (near : Bool := false) : State :=
  s.issueEntries k
    [({ kind := .red addr ty v exact, shm := shm, page := page, scope := sc, dup := dup, weir := weir, near := near },
      if shm then [] else (from_ addr ty.bytes).map (vaOf page))]

/-- The writes issued between two states of a slot become acquires: later accesses wait for them (R160). -/
def State.acquireFrom (s : State) (k first : Nat) (sc : Scope) : State :=
  s.modAct k (fun a =>
    { a with acq := a.acq.filter (fun p => !s.wrote k p.1 p.2) ++ (from_ first (s.nextWid - first)).map (fun i => (sc, i)) })

/-- Whether an older entry of the outbox covers bytes of a later one (DRAIN of R157). -/
def outBlocked (l : List OutEntry) (index : Nat) : Bool :=
  match l[index]? with
  | none => true
  | some e =>
    (l.take index).any (fun o =>
      match e.kind, e.kind.atomic with
      | .write cells, _ => cells.any (fun c => outMeets e.shm c.1 1 o)
      | _, some (p, t) => outMeets e.shm p t.bytes o
      | _, none => false)

/-! ## Poison (R214, R215) -/

/-- The granule of an SHM key. -/
def shmGranule (a : Nat) : Granule := .shm (a / 2 ^ 27) (a % 2 ^ 27 / 8 * 8)
/-- The granule of a LOC key. -/
def locGranule (a : Nat) : Granule := .loc (a / 32768) (a % 32768 / 8 * 8)

/-- Whether a run of bytes touches a poisoned granule. -/
def State.poisonAt (s : State) (g : Nat → Granule) (a n : Nat) : Bool :=
  !s.poisoned.isEmpty && (from_ a n).any (fun x => s.poisoned.contains (g x))

end Sys2Proof.Machine
end

