-- ==== Sys2Proof/Machine/Glb.lean ====
section
/-!
DEFINITION. GLB translation (R119 to R125), page ownership as a requester meets it (R170 to R182, R184), weirs and push
addresses (R85, R167), and the checks of one access in the order of R104 and R125.
-/

namespace Sys2Proof.Machine

/-- PATH of a page entry (R120, R125). -/
inductive Path where | module | domain | host | mmio
  deriving DecidableEq, Repr

/-- The path of a code. -/
def Path.ofCode : Nat → Path | 0 => .module | 1 => .domain | 2 => .host | _ => .mmio
/-- The code of a path. -/
def Path.code : Path → Nat | .module => 0 | .domain => 1 | .host => 2 | .mmio => 3
/-- Whether a compute die owns pages of the path. -/
def Path.owned : Path → Bool | .module => true | .domain => true | _ => false

/-- A level-4 page entry (R120) that passed its own checks; `frame` is the physical address of the 64 KiB page. -/
structure Page where
  fmt   : PageFmt := .raw
  geom  : Nat := 0
  key   : Nat := 0
  path  : Path := .module
  dup   : Bool := false
  mig   : Bool := false
  frame : Nat := 0
  size  : Bool := false
  x     : Bool := false
  w     : Bool := false
  rd    : Bool := false
  raw   : Word := 0
  deriving DecidableEq, Repr

/-- The physical address of an address's level-4 entry, if levels 1 to 3 are valid; otherwise the fault. -/
def State.walkTables (s : State) (asid va : Nat) : Except FaultReq Nat :=
  let go (table level : Nat) : Except FaultReq Nat :=
    let e := mword (table + 8 * (va / 2 ^ (56 - 10 * level) % 1024)) s.glb
    if !e.getLsbD 0 then
      .error { code := 0x10, detail := level, space := 4, addr := BitVec.ofNat 64 va, page := some (asid, va / 65536) }
    else if bits e 56 8 != 0 || bits e 1 12 != 0 then
      .error { code := 0x11, detail := level, space := 4, addr := BitVec.ofNat 64 va, info := e }
    else .ok ((bits e 13 43).toNat * 8192)
  match go (tget 0 asid s.roots) 1 with
  | .error f => .error f
  | .ok t2 =>
    match go t2 2 with
    | .error f => .error f
    | .ok t3 =>
      match go t3 3 with
      | .error f => .error f
      | .ok t4 => .ok (t4 + 8 * (va / 65536 % 1024))

/-- A level-4 entry read as a page; none for a reserved code or a nonzero reserved bit (R120, R122, R123). -/
def Page.ofEntry (e : Word) : Option Page :=
  match PageFmt.ofCode (bits e 60 4).toNat with
  | none => none
  | some f =>
    let geom := (bits e 58 2).toNat
    let mig := (bits e 47 2).toNat
    if 2 ≤ geom || 2 ≤ mig || bits e 8 8 != 0 || bits e 1 3 != 0 || (geom != 0 && !f.packed) then none
    else some
      { fmt := f, geom := geom, key := (bits e 52 6).toNat, path := Path.ofCode (bits e 50 2).toNat,
        dup := e.getLsbD 49, mig := mig == 1, frame := (bits e 16 31).toNat * 65536, size := e.getLsbD 7,
        x := e.getLsbD 6, w := e.getLsbD 5, rd := e.getLsbD 4, raw := e }

/-- Whether the 32 entries of an aligned group agree, entry j holding the first frame plus j (R119). -/
def State.groupOk (s : State) (entryAt : Nat) : Bool :=
  let base := entryAt / 256 * 256
  let e0 := mword base s.glb
  (upTo 32).all (fun j => mword (base + 8 * j) s.glb == e0 + BitVec.ofNat 64 (j * 65536))

/-- The page of an address in an address space (R119, R120), or PAGE_FAULT or PAGE_ENTRY. -/
def State.walk (s : State) (asid va : Nat) : Except FaultReq Page :=
  match s.walkTables asid va with
  | .error f => .error f
  | .ok at_ =>
    let e := mword at_ s.glb
    if !e.getLsbD 0 then
      .error { code := 0x10, detail := 4, space := 4, addr := BitVec.ofNat 64 va, page := some (asid, va / 65536) }
    else
      match Page.ofEntry e with
      | none => .error { code := 0x11, detail := 4, space := 4, addr := BitVec.ofNat 64 va, info := e }
      | some p =>
        if p.size && !s.groupOk at_ then
          .error { code := 0x11, detail := 4, space := 4, addr := BitVec.ofNat 64 va, info := e }
        else .ok p

/-- The page by which the access in execution was translated when it issued, if it has issued and touches the page (R121). -/
def State.latePage (s : State) (va : Nat) : Option Page :=
  match s.iss with
  | .queued p => (p.pages.find? (fun e => e.1 == va / 65536)).bind (fun e => Page.ofEntry e.2)
  | _ => none

/-- The page of an address as the access in execution meets it. -/
def State.pageOf (s : State) (asid va : Nat) : Except FaultReq Page :=
  match s.latePage va with | some p => .ok p | none => s.walk asid va

/-! ## Ownership as a requester meets it -/

/-- The key of a page in an address space. -/
def pageKey (asid page : Nat) : Nat := asid * 2 ^ 40 + page
/-- The key of the 2 MiB group of a page. -/
def groupKey (asid page : Nat) : Nat := asid * 2 ^ 40 + page / 32 * 32

/-- The home directory's key for a page: its group's where the group has an entry (R170, R172). -/
def State.homeKey (s : State) (asid page : Nat) : Nat :=
  let h := tget {} (groupKey asid page) s.homes
  if h.valid && h.size then groupKey asid page else pageKey asid page

/-- The home directory's key for a page key. -/
def State.homeOf (s : State) (pk : Nat) : Nat := s.homeKey (pk / 2 ^ 40) (pk % 2 ^ 40)

/-- The home-directory entry of a key. -/
def State.home (s : State) (k : Nat) : Home := tget {} k s.homes

/-- Whether a die owns a page: the home names it, or its migration to the die has begun, and it holds no stub
(R176, R182). -/
def State.owns (s : State) (d k : Nat) : Bool :=
  ((tget none k (s.die d).incoming).isSome || ((s.home k).owner == d && !(s.home k).moving)) &&
    (tget none k (s.die d).stubs).isNone

/-- The owner that a die's owner cache names for a key (R170). -/
def State.cached (s : State) (d k : Nat) : Option Nat := ((s.die d).owners.find? (fun e => e.1 == k)).map (·.2.1)

/-- An owner-cache entry installed as the most recently used of 65,536 (R170). -/
def installOwner (k owner : Nat) (size : Bool) (l : List (Nat × Nat × Bool)) : List (Nat × Nat × Bool) :=
  ((k, owner, size) :: l.filter (fun e => e.1 != k)).take 65536

/-- The hash of R171 over the 2 MiB region of a page and its address space. -/
def homeHash (k : Nat) : Nat :=
  let g := k % 2 ^ 40 / 32
  g ^^^ (g / 2 ^ 11) ^^^ (g / 2 ^ 22) ^^^ (k / 2 ^ 40)

/-- The die on which the home entry of a page lives (R171). -/
def homeDie (k : Nat) : Nat := homeHash k % 32
/-- The module of that die among the domain's `nmod` (R171). -/
def homeModule (nmod k : Nat) : Nat := homeHash k / 32 % 1024 % nmod

/-- Bytes of a page, or of a group. -/
def pageSpan (size : Bool) : Nat := if size then 2 ^ 21 else 65536

/-- The address space of a page key. -/
def asidOfKey (k : Nat) : Nat := k / 2 ^ 40
/-- The address of the first byte of a page key. -/
def vaOfKey (k : Nat) : Nat := k % 2 ^ 40 * 65536

/-- The key of the page or group that a physical line lies in. -/
def State.lineHome (s : State) (line : Nat) : Option Nat :=
  (s.homes.find? (fun h => h.2.valid && (match s.walk (asidOfKey h.1) (vaOfKey h.1) with
    | .ok p => p.frame ≤ 64 * line && 64 * line < p.frame + pageSpan h.2.size | .error _ => false))).map (·.1)

/-- The owner of the page of a physical line. -/
def State.lineOwner (s : State) (line : Nat) : Nat := ((s.lineHome line).map (fun k => (s.home k).owner)).getD 0

/-- The kind code of an ownership message (R174). -/
def OMsg.kind : OMsg → Nat
  | .query _ _ => 0x01 | .reply _ _ _ _ => 0x02 | .redirect _ _ _ => 0x03 | .notOwner _ => 0x04
  | .begin_ _ _ _ _ _ _ _ => 0x05 | .line _ _ _ _ => 0x06 | .done _ _ _ => 0x07 | .update _ _ _ => 0x08
  | .retire _ _ => 0x09 | .inval _ _ _ => 0x0A | .invalAck _ _ _ => 0x0B | .retireOk _ _ => 0x0C
  | .dupInval _ _ => 0x0D | .dupAck _ _ => 0x0E | .leaseGrant _ _ _ => 0x0F | .leaseRecall _ _ => 0x10
  | .leaseReturn _ _ _ => 0x11 | .chainLimit _ => 0x12 | .request _ => 0

/-- The die that an ownership message goes to (R174). -/
def State.omsgDest (s : State) : OMsg → Nat
  | .query _ k => homeDie k | .reply d _ _ _ => d | .redirect d _ _ => d | .notOwner r => r.who.die
  | .begin_ _ _ n _ _ _ _ => n | .line _ n _ _ => n | .done _ _ n => n | .update k _ _ => homeDie k
  | .retire k _ => homeDie k | .inval _ r _ => r | .invalAck k _ _ => homeDie k | .retireOk _ d => d
  | .dupInval _ d => d | .dupAck k _ => (s.home k).owner | .leaseGrant _ d _ => d | .leaseRecall _ d => d
  | .leaseReturn l _ _ => s.lineOwner l | .chainLimit r => r.who.die | .request r => r.at_

/-- A die's owner cache names a page's owner, most recently used (R170). -/
def State.nameOwner (s : State) (d k o : Nat) : State :=
  s.modDie d (fun x => { x with owners := installOwner k o (s.home k).size x.owners })

/-- The request of an asker for a run of lines that is on its way or waits at an owner: its place among the messages, and
itself. The lanes of a vector word and the lines of a command each have their own. -/
def State.requestOf (s : State) (w : Asker) (lo hi : Nat) : Option (Nat × OReq) :=
  s.omsgs.zipIdx.findSome? (fun m =>
    match m.1 with | .request r => if r.who == w && r.lo == lo && r.hi == hi then some (m.2, r) else none | _ => none)

/-- Whether a request of a die to a page, by another than `but`, has gone to another die than the owner that its cache names, or
has been relayed or returned: the die's later requests to the page are held until it is acknowledged (R179). -/
def State.asking (s : State) (d k : Nat) (but : Option Asker := none) : Bool :=
  let of (r : OReq) : Bool := r.who.die == d && r.who.page == k && some r.who != but
  s.omsgs.any (fun m =>
    match m with
    | .request r => of r && !(r.count == 0 && s.owns r.at_ k && s.cached d k == some r.at_)
    | .notOwner r => of r
    | .chainLimit r => of r
    | _ => false)

/-- What a request for a page meets: served by the owner, held in the requester's or the owner's interface, or no home
entry. -/
inductive Route where
  | ready (s : State)
  | held (s : State)
  | unmapped
  deriving DecidableEq, Repr

/-- The line of a page or group that an address lies in (R177). -/
def lineOf (size : Bool) (va : Nat) : Nat := if size then va % 2 ^ 21 / 64 else va % 65536 / 64

/-- Whether a page's old owner is quiescing for a migration: requests wait there (R176). -/
def State.quiescing (s : State) (o k : Nat) : Bool :=
  match tget none k (s.die o).outgoing with | some g => !g.quiet | none => false

/-- Whether all lines of a run of a page have arrived at its owner (R177). -/
def State.linesHere (s : State) (o k lo hi : Nat) : Bool :=
  match tget none k (s.die o).incoming with
  | none => true
  | some i => i.whole || (from_ lo (hi + 1 - lo)).all (fun n => tget false n i.lines)

/-- The lines of a run that have not arrived are reported to the old owner, which sends them next (R176). -/
def State.awaitLines (s : State) (o k lo hi : Nat) : State :=
  match tget none k (s.die o).incoming with
  | none => s
  | some i =>
    let more := (from_ lo (hi + 1 - lo)).filter (fun n => !i.whole && !tget false n i.lines && !i.awaited.contains n)
    if more.isEmpty then s
    else s.modDie o (fun x => { x with incoming := tset none k (some { i with awaited := i.awaited ++ more }) x.incoming })

/-- Whether an access to lines of a page must wait at its owner (R176, R177): the page is quiescing, a line has not arrived,
or one of the first `before` messages is another's request that waits there for one of the lines. -/
def State.waitsAt (s : State) (w : Asker) (o lo hi before : Nat) : Bool :=
  s.quiescing o w.page || !s.linesHere o w.page lo hi ||
    (s.omsgs.take before).any (fun m =>
      match m with | .request r => r.at_ == o && r.who.page == w.page && r.who != w && r.lo ≤ hi && lo ≤ r.hi | _ => false)

/-- The key under which PREF asks for pages: no interface holds its requests, and it waits for none. -/
def prefKey : Nat := 2 ^ 41
/-- The key under which an outbox entry asks for pages. -/
def drainKey (wid : Nat) : Nat := 2 ^ 42 + wid
/-- The key under which an operation at a block's home asks for a line. -/
def homeOpKey (home : Nat) : Nat := 2 ^ 60 + home

/-- Whether an asker is the first of its die's to a page that the interface holds. -/
def State.first (s : State) (w : Asker) : Bool :=
  match s.iface.find? (fun x => x.die == w.die && x.page == w.page) with | none => true | some x => x == w
/-- The interface holds a request, behind those that it holds already. -/
def State.hold (s : State) (w : Asker) : State :=
  if w.key == prefKey || s.iface.contains w then s else { s with iface := s.iface ++ [w] }
/-- It holds the request no more. -/
def State.unhold (s : State) (w : Asker) : State :=
  if s.iface.isEmpty then s else { s with iface := s.iface.filter (· != w) }
/-- A returned request is held before all others (R179). -/
def State.holdFirst (s : State) (w : Asker) : State := { s with iface := w :: s.iface.filter (· != w) }

/-- Requests whose askers a test accepts are withdrawn: the access is not made. -/
def State.withdraw (s : State) (p : Asker → Bool) : State :=
  if s.iface.isEmpty && s.omsgs.isEmpty then s
  else
    { s with
      iface := s.iface.filter (fun w => !p w)
      omsgs := s.omsgs.filter (fun m => match m with
        | .request r => !p r.who | .notOwner r => !p r.who | .chainLimit r => !p r.who | _ => true) }

/-- A slot or engine asks for nothing any more: the part neither keeps a line for it nor returns its request, and no host read
of it is outstanding. -/
def State.forgetKey (s : State) (key : Nat) : State :=
  let s := s.withdraw (fun w => w.key == key)
  let s := if s.leaseFor.isEmpty then s
    else { s with leaseFor := s.leaseFor.filter (fun e => match e.2 with | some x => x.2.2 != key | none => true) }
  let s := if s.dupAsk.isEmpty then s else { s with dupAsk := s.dupAsk.filter (fun e => e.2 != some key) }
  let a := s.act key
  if a.chain.isNone && a.hostRead.isNone && !a.hostFail then s
  else s.modAct key (fun a => { a with chain := none, hostRead := none, hostFail := false })

/-- OWNER_QUERY is sent, unless one or its answer is on its way (R173). -/
def State.askHome (s : State) (d k : Nat) : State :=
  if s.omsgs.any (fun m => match m with | .query x p => x == d && p == k | .reply x p _ _ => x == d && p == k | _ => false) then s
  else { s with omsgs := s.omsgs ++ [.query d k] }

/-- The request of die `d`, on behalf of a word of a slot, a command of an engine or an outbox entry, for n bytes of a page
(R173, R176 to R182). A miss asks the home; a request that the owner cannot serve at once is sent, and waits there or is
relayed. -/
def State.route (s : State) (d key word asid va n : Nat) : Route :=
  let k := s.homeKey asid (va / 65536)
  let h := s.home k
  if !h.valid then .unmapped
  else
    let w : Asker := { die := d, page := k, key := key, word := word }
    let lo := lineOf h.size va
    let hi := lineOf h.size (va + n - 1)
    match s.requestOf w lo hi with
    | some (i, r) =>
      if !s.owns r.at_ k then .held s
      else if s.waitsAt w r.at_ lo hi i then .held (s.awaitLines r.at_ k lo hi)
      else .ready ({ s with omsgs := dropNth s.omsgs i }.nameOwner d k r.at_)
    | none =>
      if s.asking d k (some w) || !s.first w then .held (s.hold w)
      else
        match s.cached d k with
        | none => .held ((s.hold w).askHome d k)
        | some o =>
          let s := s.nameOwner d k o
          if s.owns o k && !s.waitsAt w o lo hi s.omsgs.length then .ready (s.unhold w)
          else if key == prefKey then .held s
          else
            let s := if s.owns o k then s.awaitLines o k lo hi else s
            .held { s.unhold w with omsgs := s.omsgs ++ [.request { who := w, lo := lo, hi := hi, at_ := o }] }

/-! ## Read-duplicable pages (R184, R185) -/

/-- The slot and place of an outbox entry that waits at a page's owner for its copies. -/
def State.dupWaiter (s : State) (k : Nat) : Option (Nat × Nat) :=
  s.acts.findSome? (fun a => (findIdx (fun e : OutEntry => !e.shm && e.dupWait && s.homeOf e.page == k) a.2.outbox).map (fun i => (a.1, i)))

/-- Whether a die holds a copy of a page: reads there are served from it (R184). -/
def State.holdsCopy (s : State) (d k : Nat) : Bool := (tget none k (s.die d).copyFrames).isSome

/-- A die's first read of a read-duplicable page takes a copy, if its frame pool has a frame and no write waits for the copies
(R184, R185). -/
def State.takeCopy (s : State) (d k : Nat) : State :=
  let m := tget 0 k s.copies
  match (s.die d).pool with
  | [] => s
  | f :: rest =>
    if s.owns d k || m.getLsbD d || (s.dupWaiter k).isSome || (tget none k s.dupAsk).isSome then s
    else
      { (s.modDie d (fun x => { x with pool := rest, copyFrames := tset none k (some f) x.copyFrames })) with
        copies := tset 0 k (m ||| (1#32 <<< d)) s.copies }

/-- Whether a die other than the owner holds a copy of a page, or has not acknowledged its loss (R184, R185). -/
def State.copiesOut (s : State) (k : Nat) : Bool :=
  let m := tget 0 k s.copies
  (upTo numDies).any (fun d => m.getLsbD d && d != (s.home k).owner)

/-- DUP_INVAL goes to every holder of a copy that is not the owner and has not been told (R185). -/
def State.dupRecall (s : State) (k : Nat) : State :=
  let m := tget 0 k s.copies
  { s with omsgs := s.omsgs ++ ((upTo numDies).filter (fun d => m.getLsbD d && d != (s.home k).owner &&
      !s.omsgs.any (fun x => match x with
        | .dupInval p h => p == k && h == d | .dupAck p h => p == k && h == d | _ => false))).map (.dupInval k) }

/-- Whether a write of another than the asker of a key waits at the owner for the copies of a page (R185). -/
def State.dupTaken (s : State) (k key : Nat) : Bool :=
  (s.dupWaiter k).isSome || (match tget none k s.dupAsk with | some x => x != key | none => false)

/-- Whether an atomic, a signal operation or an engine's write may be performed at the owner of a read-duplicable page: no
earlier write waits there, and the copies are back, which are else recalled, while this one waits for them (R185). -/
def State.dupReady (s : State) (dup : Bool) (k key : Nat) : Bool × State :=
  if !dup || s.dupTaken k key then (!dup, s)
  else if s.copiesOut k then (false, { s with dupAsk := tset none k (some key) s.dupAsk }.dupRecall k)
  else (true, if (tget none k s.dupAsk).isNone then s else { s with dupAsk := tset none k none s.dupAsk })

/-! ## Line leases (R187) -/

/-- The 64 bytes of a line. -/
def State.lineValue (s : State) (line : Nat) : List Byte := mread (64 * line) 64 s.glb

/-- The leaseholder of a line is told to return it (R187), once. -/
def State.recallLease (s : State) (line : Nat) : State :=
  match tget none line s.leases with
  | none => s
  | some h =>
    if s.omsgs.any (fun m => match m with | .leaseRecall l _ => l == line | .leaseReturn l _ _ => l == line | _ => false) then s
    else { s with omsgs := s.omsgs ++ [.leaseRecall line h] }

/-- Whether a line's grant is on its way, or its return. -/
def State.leaseMoving (s : State) (line : Nat) : Bool :=
  s.omsgs.any (fun m => match m with | .leaseGrant l _ _ => l == line | .leaseReturn l _ _ => l == line | _ => false)

/-- Whether an access at the line of an address may be served: a near atomic needs its die's lease, and every other
access needs the line back (R187). The owner sends LEASE_GRANT or LEASE_RECALL where it may not, and serves the access
that waits for a recall before it grants the line again. -/
def State.lineReady (s : State) (d key pa : Nat) (near : Bool) : Bool × State :=
  let line := pa / 64
  let want := tget none line s.leaseFor
  match tget none line s.leases with
  | some h =>
    if near && h == d && !s.leaseMoving line then (true, s)
    else
      let s := if want.isSome then s else { s with leaseFor := tset none line (some (d, near, key)) s.leaseFor }
      (false, s.recallLease line)
  | none =>
    if s.leaseMoving line then (false, s)
    else
      let mine := want == some (d, near, key)
      let s := if mine then { s with leaseFor := tset none line none s.leaseFor } else s
      if !near then (true, s)
      else if mine || want.isNone then (false, { s with omsgs := s.omsgs ++ [.leaseGrant line d (s.lineValue line)] })
      else (false, s)

/-- Whether the lines of a run may all be used by an access that is no near atomic. -/
def State.linesReady (s : State) (d key pa n : Nat) : Bool × State :=
  if s.leases.isEmpty && s.leaseFor.isEmpty && s.omsgs.isEmpty then (true, s)
  else (from_ (pa / 64) ((pa + n - 1) / 64 + 1 - pa / 64)).foldl (fun x line =>
    let y := x.2.lineReady d key (64 * line) false
    (x.1 && y.1, y.2)) (true, s)

/-! ## Weirs and push addresses -/

/-- The valid weir that holds an address (R166). -/
def State.weirAt (s : State) (va : Nat) : Option Nat :=
  (s.weirs.find? (fun e => e.2.valid && e.2.base ≤ va && va < e.2.base + e.2.length)).map (·.1)

/-- The edge whose push address lies at an address (R85); push address e stands at 8 × e above the partition's base. -/
def Part.pushEdge (p : Part) (va : Nat) : Option Nat :=
  let b := p.pushBase.toNat
  if b != 0 && b ≤ va && va < b + 8 * p.edges.length then some ((va - b) / 8) else none

/-! ## One access -/

/-- What an access does to a page (R120). -/
inductive Use where | load | store | atomic | signal | fetch
  deriving DecidableEq, Repr

/-- The permission that an access needs. -/
def Page.allows (p : Page) : Use → Bool
  | .load => p.rd | .fetch => p.x | _ => p.w

/-- SPACE of R204 for an access. -/
def Use.space : Use → Nat | .fetch => 5 | _ => 4

/-- The outcome of a page's checks. -/
inductive PRes where
  | ok (s : State) (p : Page)
  | stall (s : State)
  | fault (f : FaultReq) (s : State)
  deriving DecidableEq, Repr

/-- The stub at which CHAIN_LIMIT met the request of this word for a page (R180). -/
def State.chainOf (s : State) (key word k : Nat) : Option Nat :=
  match (s.act key).chain with
  | some c => if c.page == k && c.word == word then some c.die else none
  | none => none

/-- A page whose checks have passed is used: a read on a die that holds a copy of it is served there (R184), and every other
access by the owner, where a line under lease comes back before a load reads it (R187). -/
def State.servePage (s : State) (d key word asid va n : Nat) (u : Use) (p : Page) : PRes :=
  let k := s.homeKey asid (va / 65536)
  let reads := u == .load || u == .fetch
  if !p.path.owned || (p.dup && reads && s.holdsCopy d k) then .ok s p
  else
    match s.route d key word asid va n with
    | .unmapped => if (s.latePage va).isSome then .ok s p else .stall s
    | .held s => .stall s
    | .ready s =>
      let (go, s) := if reads && key != prefKey then s.linesReady d key (p.frame + va % 65536) n else (true, s)
      if !go then .stall s
      else .ok (if p.dup && reads then s.takeCopy d k else s) p

/-- Whether a level-4 entry with a reserved code names a path that a compute die owns: its page has a home entry too. -/
def ownedEntry (f : FaultReq) : Bool := f.detail < 4 || (Path.ofCode (bits f.info 50 2).toNat).owned

/-- The checks of n bytes of one page that an access touches, in the order of R125 and R347: PAGE_FAULT or CHAIN_LIMIT,
PAGE_ENTRY, ATOMIC_PATH, PAGE_PROTECTION, the `extra` checks (FORMAT_MISMATCH, WEIR_ACCESS), then KEY_EMPTY. A signal block
also needs a raw page (R135). An access that has issued passed them then (R121). -/
def State.pageChecks (s : State) (d key word asid va n : Nat) (u : Use) (extra : Nat → Page → Option FaultReq) : PRes :=
  let a := BitVec.ofNat 64 va
  let k := s.homeKey asid (va / 65536)
  match s.latePage va, s.chainOf key word k with
  | some p, _ => s.servePage d key word asid va n u p
  | none, some dd =>
    .fault { code := 0x14, space := u.space, addr := a, info := BitVec.ofNat 64 dd, page := some (asid, va / 65536) }
      (s.modAct key (fun x => { x with chain := none }))
  | none, none =>
    let walked := s.walk asid va
    let needsHome := match walked with | .ok p => p.path.owned | .error _ => true
    let missing := needsHome && !(s.home k).valid
    let unmapped : FaultReq := { code := 0x10, detail := 0, space := u.space, addr := a, page := some (asid, va / 65536) }
    match walked with
    | .error f => .fault (if missing && (f.code == 0x10 || ownedEntry f) then unmapped else { f with space := u.space }) s
    | .ok p =>
      let atomic := match u with | .atomic => true | .signal => true | _ => false
      let badPath := (atomic && !p.path.owned) || (u == .signal && p.fmt != .raw)
      if missing then .fault unmapped s
      else if badPath then .fault { code := 0x0E, space := u.space, addr := a, info := BitVec.ofNat 64 p.path.code } s
      else if !p.allows u then .fault { code := 0x12, space := u.space, addr := a, info := p.raw } s
      else
        match extra va p with
        | some f => .fault f s
        | none =>
          if !(tget {} p.key s.keys).full then
            .fault { code := 0x13, space := u.space, addr := a, info := BitVec.ofNat 64 p.key } s
          else s.servePage d key word asid va n u p

/-- An access's use of one page: an access that faults withdraws its requests. -/
def State.usePage (s : State) (d key asid va n : Nat) (u : Use) (extra : Nat → Page → Option FaultReq := fun _ _ => none)
    (word : Nat := 0) : PRes :=
  match s.pageChecks d key word asid va n u extra with
  | .fault f s => .fault f (s.withdraw (fun w => w.key == key && w.word == word))
  | r => r

/-- The outcome of a whole access: the pieces of it, each with its page, virtual address, physical address and length. -/
inductive GRes where
  | ok (s : State) (pieces : List (Page × Nat × Nat × Nat))
  | stall (s : State)
  | fault (f : FaultReq) (s : State)
  deriving DecidableEq, Repr

/-- The checks of an access of n bytes at va, n from 1 to 65,536: its first page, then its second (R104, R191). -/
def State.useGlb (s : State) (d key asid va n : Nat) (u : Use) (extra : Nat → Page → Option FaultReq := fun _ _ => none)
    (word : Nat := 0) : GRes :=
  let n1 := min n (65536 - va % 65536)
  match s.usePage d key asid va n1 u extra word with
  | .stall s => .stall s
  | .fault f s => .fault f s
  | .ok s p =>
    if n1 = n then .ok s [(p, va, p.frame + va % 65536, n)]
    else
      match s.usePage d key asid (va + n1) (n - n1) u extra word with
      | .stall s => .stall s
      | .fault f s => .fault f s
      | .ok s q =>
        if p.fmt != q.fmt then
          .fault { code := 0x0D, space := u.space, addr := BitVec.ofNat 64 va, info := BitVec.ofNat 64 p.fmt.code } s
        else .ok s [(p, va, p.frame + va % 65536, n1), (q, va + n1, q.frame, n - n1)]

/-- The range check of GLB (R104). -/
def glbRange (a : Word) (n : Nat) : Option FaultReq :=
  if 2 ^ 56 ≤ a.toNat then some { code := 0x0A, space := 4, addr := a }
  else if 2 ^ 56 < a.toNat + n then some { code := 0x0A, space := 4, addr := a }
  else none

/-- The alignment check (R104). -/
def aligned (space : Nat) (a : Word) (n : Nat) : Option FaultReq :=
  if a.toNat % n = 0 then none else some { code := 0x0B, space := space, addr := a }

end Sys2Proof.Machine
end

