-- ==== Sys2Proof/Machine/Weir.lean ====
section
/-!
DEFINITION. The totals of weir elements (R236, R237): contributions, the word that the home writes, and the totals that the
window holds.
-/

namespace Sys2Proof.Machine

/-- A contribution to a weir (R236): n in units of 2^EXPB, and the status bits NAN 4, OVR 2, LOST 1 that it sets. -/
def weirTerm (t : Ty) (expb : Int) (x : Word) : Int × Word :=
  let clamp (n : Int) (st : Word) : Int × Word :=
    if n > 2 ^ 127 - 1 then (2 ^ 127 - 1, st ||| 2) else if n < -(2 ^ 127) then (-(2 ^ 127), st ||| 2) else (n, st)
  let fin (neg : Bool) (m : Nat) (e : Int) : Int × Word :=
    let (r, nx) := roundTo .rne neg m e expb
    clamp (signed neg r) (if nx then 1 else 0)
  if t.isFloat then
    match t.fmt.decode false x.toNat with
    | .nan _ => (0, 4)
    | .inf n => (if n then -(2 ^ 127) else 2 ^ 127 - 1, 2)
    | .fin n m e => fin n m e
  else
    let v := t.value x.toNat
    fin (v < 0) v.natAbs 0

/-- The word that a weir's home writes for a total (R237), and whether OVR is set. -/
def weirWord (t : Ty) (expb : Int) (nan : Bool) (total : Int) : Word × Bool :=
  let c : Int := max (-(2 ^ 127)) (min (2 ^ 127 - 1) total)
  let w : Word :=
    if nan then BitVec.ofNat 64 t.fmt.qnan
    else if t.isFloat then BitVec.ofNat 64 (t.fmt.round .rne false (c < 0) c.natAbs expb).1
    else BitVec.ofInt 64 (t.fit true (signed (c < 0) (roundTo .rne (c < 0) c.natAbs expb 0).1)).1
  (w, !nan && c != total)

/-- A weir element's exact total: as it has come to be or, before its first update and any write to its word, from that word, which
then stands as it stood when the weir was made valid (R237). -/
def State.weirTotal (s : State) (i pa : Nat) : Int :=
  let e := tget {} i s.weirs
  match tget none (16 * pa + i) s.weirTot with
  | some v => v
  | none => (weirTerm e.ty e.expb (BitVec.ofNat 64 (leNat (mread pa e.ty.bytes s.glb)))).1

/-- The total of the weir element that a byte lies in, kept before a write changes its memory word: its physical address and its
address in an address space. -/
def State.sealByte (s : State) (pa va : Nat) : State :=
  match s.weirAt va with
  | none => s
  | some i =>
    let n := (tget ({} : WeirEntry) i s.weirs).ty.bytes
    let pa := pa / n * n
    { s with weirTot := tset none (16 * pa + i) (some (s.weirTotal i pa)) s.weirTot }

/-- The totals of the weir elements that a run of bytes lies in, kept so. -/
def State.sealRun (s : State) (pa va n : Nat) : State :=
  if s.weirs.isEmpty then s else (upTo n).foldl (fun s j => s.sealByte (pa + j) (va + j)) s

/-- The totals of the weir elements that some cells of a page lie in, kept so. -/
def State.sealWeir (s : State) (page : Nat) (cells : List (Nat × Byte)) : State :=
  cells.foldl (fun s c => s.sealByte c.1 (vaOf page c.1)) s

/-- The total of the weir element that a physical byte lies in, kept so. -/
def State.sealPhys (s : State) (pa : Nat) : State :=
  if s.weirs.isEmpty then s
  else
    match s.lineHome (pa / 64) with
    | none => s
    | some k =>
      match s.walk (asidOfKey k) (vaOfKey k) with
      | .ok p => s.sealByte pa (vaOfKey k + (pa - p.frame))
      | .error _ => s

end Sys2Proof.Machine
end

