-- ==== Sys2Proof/Machine/Records.lean ====
section
/-!
DEFINITION. Fault records and rings (R204 to R207), trace records and filters (R313 to R317), and the record and replay
logs (R321).
-/

namespace Sys2Proof.Machine

/-- A word from its fields: (low bit, value) pairs. -/
def packFields : List (Nat × Nat) → Nat
  | [] => 0
  | (lo, v) :: r => v * 2 ^ lo + packFields r

/-- A 64-bit word from its fields. -/
def wordOf (l : List (Nat × Nat)) : Word := BitVec.ofNat 64 (packFields l)

/-! ## Writing GLB by virtual address on the part's own account -/

/-- The physical address of a virtual one, for frames, logs and queues of a partition. -/
def State.physOfVirt (s : State) (asid va : Nat) : Option Nat :=
  match s.walk asid va with
  | .ok p => some (p.frame + va % 65536)
  | .error _ => none

/-- Bytes written to one page; nothing where it is not mapped. -/
def State.pokePage (s : State) (asid va : Nat) (bs : List Byte) : State :=
  match s.physOfVirt asid va with
  | some p => (s.sealRun p va bs.length).poke p bs
  | none => s

/-- Bytes of one page; zeros where it is not mapped. -/
def State.peekPage (s : State) (asid va n : Nat) : List Byte :=
  match s.physOfVirt asid va with
  | some p => mread p n s.glb
  | none => List.replicate n 0

/-- At most 65,536 bytes written at a virtual address, page by page. -/
def State.pokeVirt (s : State) (asid va : Nat) (bs : List Byte) : State :=
  let n := 65536 - va % 65536
  if bs.length ≤ n then s.pokePage asid va bs else (s.pokePage asid va (bs.take n)).pokePage asid (va + n) (bs.drop n)

/-- At most 65,536 bytes read at a virtual address, page by page. -/
def State.peekVirt (s : State) (asid va n : Nat) : List Byte :=
  let m := 65536 - va % 65536
  if n ≤ m then s.peekPage asid va n else s.peekPage asid va m ++ s.peekPage asid (va + m) (n - m)

/-! ## Fault records -/

/-- The ring of an address space (R207). -/
def ringOf (asid : Nat) : Nat :=
  (BitVec.ofNat 16 asid ^^^ (BitVec.ofNat 16 asid >>> 6) ^^^ (BitVec.ofNat 16 asid >>> 12)).toNat % 64

/-- A record's eight words, with SEQ and TIME left zero until it is written (R204). -/
def recordWords (f : FaultReq) (asid : Nat) (eng : Bool) (pc : Word) (frame : Option Nat) (core slot : Nat)
    (stamp : Word) : List Word :=
  [wordOf [(56, f.code), (48, f.detail), (32, asid), (12, f.space), (10, f.strm), (9, if eng then 1 else 0), (4, f.lane)],
   f.addr, pc,
   wordOf [(32, frame.getD 0), (28, if frame.isSome then 1 else 0), (25, slot), (0, coreAddr core)],
   f.info, stamp, 0, 0]

/-- Whether a ring has room: EN, and fewer records than 2^(LOGN + 6) not consumed (R206, R207). -/
def Ring.room (r : Ring) : Bool := r.en && (r.head - r.tail).toNat < 2 ^ (r.logn + 6)

/-- Whether a ring's interrupt line is asserted (R206). -/
def Ring.line (r : Ring) : Bool := r.en && r.irqen && r.head != r.tail

/-- A record written to its ring: SEQ and TIME are fixed, then HEAD advances (R204, R206). -/
def State.writeRing (s : State) (n : Nat) (ws : List Word) : State :=
  let r := tget {} n s.rings
  let w0 := nth 0 ws 0 ||| (BitVec.zeroExtend 64 r.seq <<< 16)
  let ws := setNth (setNth ws 0 w0) 6 s.time
  let at_ := r.base + 64 * (r.head.toNat % 2 ^ (r.logn + 6))
  let s := s.poke at_ (ws.flatMap (fun w => leBytes 8 w.toNat))
  { s with rings := tset {} n { r with head := r.head + 1, seq := r.seq + 1 } s.rings }

/-- CODE of a record. -/
def codeOfWords (ws : List Word) : Nat := (bits (nth 0 ws 0) 56 8).toNat

/-- A record goes to the ring of its ASID, or waits for room with OVF set; waiting ECC_CORRECTED records are merged
(R207), the number counted from 0 (DESIGN CHOICE, log entry 110). -/
def State.post (s : State) (asid : Nat) (ws : List Word) : State :=
  let n := ringOf asid
  let r := tget {} n s.rings
  if r.room && !s.ringWait.any (fun p => p.1 == n) then s.writeRing n ws
  else
    let s := { s with rings := tset {} n { r with ovf := true } s.rings }
    match findIdx (fun p : Nat × List Word => p.1 == n && codeOfWords p.2 == 0x80 && codeOfWords ws == 0x80) s.ringWait with
    | some i =>
      let old := (s.ringWait.getD i (n, [])).2
      { s with ringWait := setNth s.ringWait i (n, setNth old 4 (nth 0 old 4 + 1)) }
    | none => { s with ringWait := s.ringWait ++ [(n, ws)] }

/-- Waiting records of a ring are written while it has room, oldest first (R207). -/
def State.flushRing (s : State) (n : Nat) : Nat → State
  | 0 => s
  | fuel + 1 =>
    match findIdx (fun p : Nat × List Word => p.1 == n) s.ringWait with
    | none => s
    | some i =>
      if (tget {} n s.rings).room then
        let ws := (s.ringWait.getD i (n, [])).2
        ({ s with ringWait := dropNth s.ringWait i }.writeRing n ws).flushRing n fuel
      else s

/-- A record that reports no fault of an activation (R192). -/
def State.note (s : State) (code : Nat) (asid core : Nat) (addr info : Word) (detail space : Nat := 0) : State :=
  s.post asid (recordWords { code := code, detail := detail, space := space, strm := 3, addr := addr, info := info }
    asid false 0 none core 0 0)

/-- A record that names a frame, whose context stays in it (R202, R204). -/
def State.noteFrame (s : State) (code : Nat) (asid core frame : Nat) : State :=
  s.post asid (recordWords { code := code, strm := 3 } asid false 0 (some frame) core 0 0)

/-- The sequence number that the next record of an ASID's ring will carry: those that wait come before it (R207). -/
def State.nextSeq (s : State) (asid : Nat) : Nat :=
  ((tget {} (ringOf asid) s.rings).seq.toNat + (s.ringWait.filter (fun x => x.1 == ringOf asid)).length) % 2 ^ 16

/-! ## Trace -/

/-- A filter's reset value: every kind, every die, every address space (R313). -/
def filterReset : Word := 0xFFFFFFFFFF010000
/-- A filter register (R313). -/
def State.filter (s : State) (n : Nat) : Word := (tget none n s.filters).getD filterReset
/-- Whether the filter in force passes a die (R313). -/
def State.filterDie (s : State) (d : Nat) : Bool := (s.filter s.capFsel).getLsbD (24 + d)
/-- Whether the filter in force passes an address space (R313). -/
def State.filterAsid (s : State) (asid : Nat) : Bool :=
  let f := s.filter s.capFsel
  f.getLsbD 16 || (bits f 0 16).toNat == asid
/-- Whether capture is running on a die: CAP of TRCCTL (R317). -/
def State.capOn (s : State) (d : Nat) : Bool := s.capRun && !s.capFrozen && s.filterDie d

/-- A trace record enters its die's ring, overwriting the oldest when it is full (R315). -/
def State.traceWrite (s : State) (d : Nat) (ws : List Word) : State :=
  let x := s.die d
  let base := (bits x.traceBase 12 44).toNat * 4096
  let size := 2 ^ ((bits x.traceBase 0 4).toNat + 6)
  (s.poke (base + 64 * (x.traceHead % size)) (ws.flatMap (fun w => leBytes 8 w.toNat))).modDie d
    (fun x => { x with traceHead := (x.traceHead + 1) % 2 ^ 32 })

/-- The code of an origin (R65). -/
def Origin.code : Origin → Nat | .firing => 0 | .handler => 1 | .spawn => 2 | .child => 3
/-- The code of a class (R65). -/
def Cls.code : Cls → Nat | .system => 0 | .handler => 1 | .firing => 2

/-- The eight words of a trace record of an activation (R316). -/
def traceWords (kind : Nat) (core slot : Nat) (a : Act) (time d0 d1 : Word) : List Word :=
  [wordOf [(56, kind), (31, coreAddr core), (28, slot), (26, a.origin.code), (0, a.traceSeq.toNat)],
   a.traceTag, a.entry, a.stamp, time, d0, d1, wordOf [(32, a.dseq % 2 ^ 32)]]

/-- A trace record of an activation's, made when capture runs and the filter in force passes it (R315). -/
def State.trace (s : State) (kind key : Nat) (a : Act) (d0 d1 : Word) : State :=
  let core := coreOf key
  let d := dieOf core
  if s.capOn d && (s.filter s.capFsel).getLsbD (56 + kind - 1) && s.filterAsid (s.part a.part).asid then
    s.traceWrite d (traceWords kind core (slotOf key) a s.time d0 d1)
  else s

/-- The eight words of a record that is a core's own or the block's: what R316 takes from an activation is a free value
(log entry 7). -/
def State.bareWords (s : State) (kind core d0 d1 : Word) : List Word × State :=
  let (a, s) := s.draw
  let (e, s) := s.draw
  let (t, s) := s.draw
  let (n, s) := s.draw
  ([(kind <<< 56) ||| (core <<< 31) ||| ((bits a 26 5).zeroExtend 64 <<< 26), 0, e, t, s.time, d0, d1, (bits n 0 32).zeroExtend 64 <<< 32], s)

/-- Whether the filter in force passes a record's kind and die. -/
def State.filterKind (s : State) (kind d : Nat) : Bool := s.capOn d && (s.filter s.capFsel).getLsbD (56 + kind - 1)

/-! ## Record and replay logs (R321) -/

/-- The code of RMODE (R317). -/
def RMode.code : RMode → Nat | .normal => 0 | .record => 1 | .replay => 2

/-- An entry written behind a core's log, if there is room for it. -/
def State.logAppend (s : State) (core : Nat) (w0 w1 : Word) : Option State :=
  match (s.core core).part with
  | none => some s
  | some p =>
    let (base, len, n) := tget (0, 0, 0) core (s.part p).logs
    if n < len then
      let s := s.pokeVirt (s.part p).asid (base + 16 * n) (leBytes 8 w0.toNat ++ leBytes 8 w1.toNat)
      some (s.modPart p (fun x => { x with logs := tset (0, 0, 0) core (base, len, n + 1) x.logs }))
    else none

/-- An entry appended to a core's log in record mode; a full log stops recording (R321). -/
def State.logEntry (s : State) (core : Nat) (w0 w1 : Word) : State :=
  (s.logAppend core w0 w1).getD (s.modCore core (fun c => { c with rmode := .normal }))

/-- The number written of a core's log. -/
def State.logLength (s : State) (core : Nat) : Nat :=
  match (s.core core).part with | none => 0 | some p => (tget (0, 0, 0) core (s.part p).logs).2.2

/-- An annotation that a replayed log does not hold is logged behind it, where the replay does not come (R323). -/
def State.logBehind (s : State) (core : Nat) (w0 w1 : Word) : State :=
  let n := s.logLength core
  ((s.logAppend core w0 w1).getD s).modCore core (fun c => { c with logEnd := some (c.logEnd.getD n) })

/-- Entry i of the log that a core replays: its two words; none past its end (R322). -/
def State.logWord (s : State) (core i : Nat) : Option (Word × Word) :=
  match (s.core core).part with
  | none => none
  | some p =>
    let (base, _, n) := tget (0, 0, 0) core (s.part p).logs
    if i < (s.core core).logEnd.getD n then
      let b := s.peekVirt (s.part p).asid (base + 16 * i) 16
      some (BitVec.ofNat 64 (leNat (b.take 8)), BitVec.ofNat 64 (leNat (b.drop 8)))
    else none

/-- Whether a log entry is an annotation, by its EKIND (R321). -/
def isNote (w0 : Word) : Bool := 3 ≤ (bits w0 60 4).toNat

/-- A DIVERGE record of a core, of no activation (R322, R323). -/
def State.divergeCore (s : State) (core cause : Nat) (w1 : Word) : State :=
  let asid := match (s.core core).part with | some p => (s.part p).asid | none => 0
  if s.filterKind 0x07 (dieOf core) && s.filterAsid asid then
    let (ws, s) := s.bareWords 0x07 (BitVec.ofNat 64 (coreAddr core)) (BitVec.ofNat 64 cause) w1
    s.traceWrite (dieOf core) ws
  else s

/-- A DIVERGE record of an activation (R316, R323). -/
def State.diverge (s : State) (key cause : Nat) (w1 : Word) : State :=
  s.trace 0x07 key (s.act key) (BitVec.ofNat 64 cause) w1

/-- The next entry of a replayed log from entry i on that is a dispatch or refusal: its place and words. -/
def State.logFrom (s : State) (core : Nat) : Nat → Nat → Option (Nat × Word × Word)
  | 0, _ => none
  | fuel + 1, i =>
    match s.logWord core i with
    | none => none
    | some (w0, w1) => if isNote w0 then s.logFrom core fuel (i + 1) else some (i, w0, w1)

/-- The entries of the log that a core replays. -/
def State.logSpan (s : State) (core : Nat) : Nat := (s.core core).logEnd.getD (s.logLength core)

/-- The next dispatch or refusal of the log that a core replays (R322). -/
def State.logNext (s : State) (core : Nat) : Option (Nat × Word × Word) :=
  s.logFrom core (s.logSpan core + 1) (s.core core).logPos

/-- Whether an activation with a dispatch number of a core has not ended. -/
def State.liveDseq (s : State) (core n : Nat) : Bool :=
  (slotsOf core).any (fun k => (s.act k).st != .free && (s.act k).dseq % 2 ^ 32 == n) ||
    s.framed.any (fun e => e.2.savedOn == some core && e.2.dseq % 2 ^ 32 == n)

/-- The logged annotations that did not occur: each is of an activation that has been dispatched again and has ended (R323). One
DIVERGE record is written for each, and it is skipped. -/
def State.settleNotes (s : State) (core : Nat) : State :=
  let c := s.core core
  if c.rmode != .replay && !c.logTail then s
  else
    (upTo (s.logSpan core)).foldl (fun s i =>
      match (if (s.core core).logMet.contains i then none else s.logWord core i) with
      | none => s
      | some (w0, w1) =>
        let n := (bits w0 0 32).toNat
        if isNote w0 && decide (n < c.dcount) && !s.liveDseq core n then
          (s.divergeCore core 0x02 w1).modCore core (fun c => { c with logMet := c.logMet ++ [i] })
        else s) s

/-- The place in the log of an annotation that occurs, if the log holds it and it has not yet been met. -/
def State.noteAt (s : State) (core : Nat) (w0 w1 : Word) : Option Nat :=
  (upTo (s.logSpan core)).find? (fun i => !(s.core core).logMet.contains i && s.logWord core i == some (w0, w1))

/-- An annotation that strikes a core, of an activation or of none (R321, R323): logged in record mode; in replay compared with the
annotations of the log, and one that the log does not hold is logged behind it and diverges as `say` records. -/
def State.annotateCore (s : State) (core : Nat) (w0 w1 : Word) (say : State → State) : State :=
  match (s.core core).rmode with
  | .record => s.logEntry core w0 w1
  | .normal =>
    if (s.core core).logTail then
      match s.noteAt core w0 w1 with
      | some i => s.modCore core (fun c => { c with logMet := c.logMet ++ [i] })
      | none => s
    else s
  | .replay =>
    match s.noteAt core w0 w1 with
    | some i => s.modCore core (fun c => { c with logMet := c.logMet ++ [i] })
    | none => say (s.logBehind core w0 w1)

/-- An annotation that strikes an activation. -/
def State.annotate (s : State) (key ekind : Nat) (ident : Word) : State :=
  s.annotateCore (coreOf key) (wordOf [(60, ekind), (55, (s.act key).origin.code), (0, (s.act key).dseq % 2 ^ 32)]) ident
    (fun s => s.diverge key 0x03 ident)

end Sys2Proof.Machine
end

