-- ==== Sys2Proof/Machine/Oblig.lean ====
section
/-!
DEFINITION. The tumbler table, the obligation floor and ranks (R128 to R134, R138, R141, R144).
-/

namespace Sys2Proof.Machine

/-- KIND of R129. -/
def OblKind.code : OblKind → Nat
  | .free => 0 | .signal => 1 | .reply => 2 | .arrive => 3 | .close => 4 | .guard => 5 | .emit => 6 | .tile => 7
/-- The kind of a code; reserved codes name no kind. -/
def OblKind.ofCode : Nat → Option OblKind
  | 0 => some .free | 1 => some .signal | 2 => some .reply | 3 => some .arrive | 4 => some .close | 5 => some .guard
  | 6 => some .emit | 7 => some .tile | _ => none

/-- Handles of R129. -/
def replyHandle (core slot seq : Nat) : Word := wordOf [(60, 1), (41, slot), (16, coreAddr core), (0, seq)]
/-- The CLOSE handle of a destination core and tile. -/
def closeHandle (core tile : Nat) : Word := wordOf [(60, 3), (4, coreAddr core), (0, tile)]
/-- The EMIT handle of an output port. -/
def emitHandle (port : Nat) : Word := wordOf [(60, 5), (0, port)]
/-- The TILE handle of a tile index. -/
def tileHandle (idx : Nat) : Word := wordOf [(60, 6), (0, idx)]

/-- Whether an obligation kind may be given to a child, into a message, to an engine command (R129). -/
def OblKind.toChild : OblKind → Bool | .signal => true | .reply => true | _ => false
/-- May be given into a message. -/
def OblKind.toMessage : OblKind → Bool | .signal => true | .reply => true | _ => false
/-- May be given to an engine command. -/
def OblKind.toEngine : OblKind → Bool | .signal => true | .tile => true | _ => false

/-- The rank of REPLY and EMIT (R129). -/
def topRank : Rank := 0xFFFFFFFF
/-- The rank of a blocking request SEND (R145). -/
def sendRank : Rank := 0xFFFFFFFE

/-- Tumbler entry n (R128). -/
def Act.obl (a : Act) (n : Nat) : Obl := tget {} n a.tumbler
/-- A tumbler entry replaced. -/
def Act.setObl (a : Act) (n : Nat) (o : Obl) : Act := { a with tumbler := tset {} n o a.tumbler }

/-- The word of an entry: word 0, or word 1, the HANDLE (R128). -/
def Obl.word (o : Obl) (second : Bool) : Word :=
  if second then o.handle
  else wordOf [(32, o.rank.toNat), (28, o.kind.code), (27, if o.staged then 1 else 0), (0, o.count)]

/-- An entry from its two words (R128, R199). -/
def Obl.ofWords (w0 w1 : Word) : Obl :=
  { kind := (OblKind.ofCode (bits w0 28 4).toNat).getD .free, staged := w0.getLsbD 27, count := (bits w0 0 24).toNat,
    rank := bits w0 32 32, handle := w1 }

/-- The unstaged entry of a kind and handle (R130). -/
def Act.oblFind (a : Act) (k : OblKind) (h : Word) : Option Nat :=
  (upTo 16).find? (fun n => (a.obl n).kind == k && (a.obl n).handle == h && !(a.obl n).staged)
/-- The lowest-numbered free entry (R130). -/
def Act.oblFree (a : Act) : Option Nat := (upTo 16).find? (fun n => (a.obl n).kind == .free)
/-- Units of a kind and handle held unstaged. -/
def Act.oblUnits (a : Act) (k : OblKind) (h : Word) : Nat :=
  match a.oblFind k h with | some n => (a.obl n).count | none => 0

/-- n units acquired; none where the table or the COUNT has no room (R130). -/
def Act.oblAcquire (a : Act) (k : OblKind) (h : Word) (r : Rank) (n : Nat) : Option Act :=
  match a.oblFind k h with
  | some i =>
    if (a.obl i).count + n ≤ 0xFFFFFF then some (a.setObl i { a.obl i with count := (a.obl i).count + n }) else none
  | none =>
    match a.oblFree with
    | some i => if n ≤ 0xFFFFFF then some (a.setObl i { kind := k, count := n, rank := r, handle := h }) else none
    | none => none

/-- One unit discharged from the matching unstaged entry; unchanged where none is held (R130, R136). -/
def Act.oblDischarge (a : Act) (k : OblKind) (h : Word) : Act :=
  match a.oblFind k h with
  | none => a
  | some i => if (a.obl i).count ≤ 1 then a.setObl i {} else a.setObl i { a.obl i with count := (a.obl i).count - 1 }

/-- Entries in use, in table order. -/
def Act.oblUsed (a : Act) : List Obl := ((upTo 16).map a.obl).filter (fun o => o.kind != .free)
/-- Staged entries, in table order. -/
def Act.oblStaged (a : Act) : List Obl := a.oblUsed.filter (·.staged)
/-- The table after every staged entry has left (R138). -/
def Act.dropStaged (a : Act) : Act := { a with tumbler := a.tumbler.filter (fun e => !e.2.staged) }
/-- Entries put back as staged ones, into free places (R81). -/
def Act.restage (a : Act) (l : List Obl) : Act :=
  l.foldl (fun a o => match a.oblFree with | some i => a.setObl i { o with staged := true } | none => a) a
/-- An entry placed in a new activation's table, which always has room; where merging would pass the largest COUNT, it takes
an entry of its own (R130). -/
def Act.takeOne (a : Act) (o : Obl) : Act :=
  match a.oblAcquire o.kind o.handle o.rank o.count with
  | some a' => a'
  | none => match a.oblFree with | some i => a.setObl i { o with staged := false } | none => a
/-- Given entries placed in a new activation's table, in order (R64, R139). -/
def Act.takeGiven (a : Act) (l : List Obl) : Act := l.foldl Act.takeOne a

/-- Groups of which a core of a partition is a member (R87). -/
def Part.groupsOf (p : Part) (core : Nat) : List (Nat × Group) :=
  p.groups.filter (fun g => g.2.valid && g.2.members.contains core)

/-- Whether any guard counter of the slot is nonzero (R131). -/
def Act.guarded (a : Act) : Bool := a.gcnt.any (fun g => g.2 != 0)

/-- The ranks that count in the floor of an activation on a core (R131); `skip` leaves one group out (R144). -/
def State.floorRanks (s : State) (core : Nat) (a : Act) (skip : Option Nat) : List Nat :=
  a.oblUsed.map (fun o => o.rank.toNat) ++ (if a.guarded then [0] else []) ++
    ((((s.part a.part).groupsOf core).filter (fun g => some g.1 != skip)).map (fun g => g.2.rank.toNat)) ++
    (match a.inh with | some r => [r.toNat] | none => [])

/-- The lowest of some ranks; none when nothing counts. -/
def lowest : List Nat → Option Nat
  | [] => none
  | x :: r => match lowest r with | none => some x | some y => some (min x y)

/-- OBLFLOOR (R131). -/
def State.oblFloor (s : State) (core : Nat) (a : Act) : Word :=
  let l := lowest (s.floorRanks core a none)
  wordOf [(33, if a.inh.isSome then 1 else 0), (32, if l.isNone then 1 else 0), (0, l.getD 0xFFFFFFFF)]

/-- Whether a wait at a rank is legal: strictly below the floor (R142, R144). -/
def State.rankLegal (s : State) (core : Nat) (a : Act) (skip : Option Nat) (r : Rank) : Bool :=
  match lowest (s.floorRanks core a skip) with
  | none => true
  | some f => r.toNat < f

/-- OBLCOUNT (R131). -/
def State.oblCount (s : State) (core : Nat) (a : Act) : Word :=
  wordOf [(27, a.oblUsed.length), (24, a.oblStaged.length), (21, ((s.part a.part).groupsOf core).length),
    (16, (a.gcnt.filter (fun g => g.2 != 0)).length)]

/-- Whether a rank is reserved to the part (R133). -/
def reservedRank (r : Rank) : Bool := (bits r 24 8) == 0 || r == topRank || r == sendRank

/-- OBLGIVE's outcome: the fault of R138 and R392, or the table with n units staged. -/
def Act.oblGive (a : Act) (h : Word) (n : Nat) : Except FaultReq Act :=
  match (upTo 16).find? (fun i => (a.obl i).kind != .free && (a.obl i).handle == h && !(a.obl i).staged) with
  | none => .error { code := 0x25, addr := h, info := BitVec.ofNat 64 n }
  | some i =>
    let o := a.obl i
    if o.count < n then .error { code := 0x25, addr := h, info := BitVec.ofNat 64 n }
    else if !(o.kind.toChild || o.kind.toEngine) then
      .error { code := 0x26, addr := h, info := BitVec.ofNat 64 o.kind.code }
    else if 4 ≤ a.oblStaged.length then .error { code := 0x24, addr := h }
    else if n = o.count then .ok (a.setObl i { o with staged := true })
    else
      match a.oblFree with
      | none => .error { code := 0x24, addr := h }
      | some j => .ok ((a.setObl i { o with count := o.count - n }).setObl j { o with staged := true, count := n })

/-- The first staged entry whose kind a consuming word may not take (R138). -/
def Act.badStaged (a : Act) (ok : OblKind → Bool) : Option FaultReq :=
  (a.oblStaged.find? (fun o => !ok o.kind)).map
    (fun o => { code := 0x26, addr := o.handle, info := BitVec.ofNat 64 o.kind.code })

/-- SIGNEW's draw from a rank class: the fault of R134, or the rank and the new entry. `mode` is MODE of R50: 1 UP,
2 DOWN, 3 AT. -/
def drawRank (c : RankClass) (cls mode : Nat) : Except FaultReq (Rank × RankClass) :=
  if cls = 0 || !c.valid then .error { code := 0x22, addr := BitVec.ofNat 64 cls }
  else if mode = 1 then
    if c.upx then .error { code := 0x23, addr := BitVec.ofNat 64 cls, info := 1 }
    else
      let top := if cls = 0xFF then 0xFFFFFD else 0xFFFFFF
      .ok (BitVec.ofNat 32 (cls * 2 ^ 24 + c.up), if c.up = top then { c with upx := true } else { c with up := c.up + 1 })
  else
    if c.dnx then .error { code := 0x23, addr := BitVec.ofNat 64 cls, info := 2 }
    else
      .ok (BitVec.ofNat 32 (cls * 2 ^ 24 + c.down), if c.down = 0 then { c with dnx := true } else { c with down := c.down - 1 })

end Sys2Proof.Machine
end

