-- ==== Sys2Proof/Machine/Operands.lean ====
section
/-!
DEFINITION. Operand forms (R27, R44, R45): which registers a word reads, the values of its fields, the bytes of memory
that it touches, and what it waits for of earlier words of its activation (R69, R159 to R163).
-/

namespace Sys2Proof.Machine

/-! ## Which fields a word reads -/

/-- Opcodes whose field A is read: tied destinations, and instructions without a register destination (R44). -/
def readsA (opc : Nat) : Bool :=
  [0x00C, 0x00E, 0x00F, 0x01B, 0x085, 0x092, 0x095, 0x105, 0x108, 0x184, 0x185, 0x186, 0x18B, 0x18C, 0x18D, 0x193, 0x194,
   0x195, 0x196, 0x200, 0x201, 0x202, 0x203, 0x204, 0x205, 0x206, 0x209, 0x20A, 0x20B, 0x210, 0x212, 0x213, 0x214, 0x216,
   0x217, 0x280, 0x282, 0x285, 0x28C, 0x304, 0x305, 0x306, 0x307, 0x310, 0x312, 0x382, 0x386].contains opc

/-- Opcodes whose destination A keeps some of its lanes or bits, so that a parked A is restored first (R75, R118). -/
def keepsA (opc : Nat) : Bool := (0x100 ≤ opc && opc ≤ 0x11E) || (0x188 ≤ opc && opc ≤ 0x192) || opc == 0x183 || opc == 0x311

/-- Registers that an s operand of a field stands for: pairs and runs of R244, R250, R252 and R268. -/
def runLength (opc field : Nat) : Nat :=
  if opc = 0x300 && 1 ≤ field then 2
  else if opc = 0x301 && field = 1 then 2
  else if opc = 0x305 && field = 2 then 2
  else if (opc = 0x306 || opc = 0x307) && 1 ≤ field then 2
  else if opc = 0x282 && field = 2 then 4
  else 1

/-- The s registers of one field of a word. -/
def sOf (opc field : Nat) (o : Opnd) : List (BitVec 6) :=
  match o with
  | .reg .s _ n => (upTo (runLength opc field)).map (fun k => sPlus n k)
  | _ => []

/-- The s registers that a word reads, in field order (R69, R199). ADD, AND, OR, SUB and XOR with the pair read A
(R44); SPAWN reads s1 to s4 (R81). -/
def sSources (opc : Nat) (w : Operands) : List (BitVec 6) :=
  (if readsA opc || (w.pair.isSome && [0x002, 0x003, 0x016, 0x01E, 0x01F].contains opc) then sOf opc 0 w.a else []) ++
    (if w.pair.isSome then [] else sOf opc 1 w.b ++ sOf opc 2 w.c) ++ (if opc = 0x283 then [1, 2, 3, 4] else [])

/-- The v registers of one field. -/
def vOf (o : Opnd) : List (BitVec 6) := match o with | .reg .v _ n => [n] | _ => []

/-- The v registers that a word reads. -/
def vSources (opc : Nat) (w : Operands) : List (BitVec 6) :=
  (if readsA opc then vOf w.a else []) ++ vOf w.b ++ vOf w.c

/-- The s register that a word writes, when field A names one that is a destination. -/
def sDest (opc : Nat) (w : Operands) : Option (BitVec 6) :=
  match w.a with
  | .reg .s _ n =>
    if [0x092, 0x184, 0x185, 0x186, 0x18B, 0x18C, 0x18D, 0x193, 0x194, 0x195, 0x196, 0x204, 0x205, 0x206, 0x209, 0x20A, 0x20B,
        0x210, 0x212, 0x213, 0x214, 0x216, 0x217, 0x280, 0x282, 0x285, 0x28C, 0x304, 0x305, 0x306, 0x307, 0x312, 0x382,
        0x386, 0x383].contains opc then none else some n
  | _ => none

/-- The guards that a word writes: CMP and FCMP write a pair (R358, R369). -/
def gDests (opc : Nat) (w : Operands) : List Nat :=
  match w.a with
  | .reg .g _ n => if opc = 0x007 || opc = 0x082 then [n.toNat, n.toNat + 1] else [n.toNat]
  | _ => []

/-! ## Values of operands -/

/-- The value of a register or immediate operand; an immediate is sign-extended (R44). -/
def State.val (s : State) (o : Opnd) : Word :=
  match o with
  | .reg .s _ n => (s.sVal n).1
  | .imm v => v.signExtend 64
  | _ => 0

/-- The value of field C, or of the pair (R44). -/
def State.valC (s : State) (w : Operands) : Word :=
  match w.pair with | some p => p.signExtend 64 | none => s.val w.c

/-- Whether an operand is a deferred s or v register (R196). -/
def State.dfr (s : State) (o : Opnd) : Bool :=
  match o with
  | .reg .s _ n => (s.sVal n).2
  | .reg .v _ n => s.me.vDef n.toNat
  | _ => false

/-- The number of a register operand. -/
def opndNum (o : Opnd) : Nat :=
  match o with | .reg _ _ n => n.toNat | .queue _ n => n.toNat | _ => 0

/-- Whether an operand is an immediate. -/
def opndIsImm (o : Opnd) : Bool := match o with | .imm _ => true | _ => false

/-- The vector that an operand of a vector word stands for: a v register; an s value or an immediate gives its low 32
bits to every lane (R427). -/
def State.vecOf (s : State) (o : Opnd) : Vec :=
  match o with
  | .reg .v _ n => s.me.vGet n.toNat
  | o => List.replicate 16 ((s.val o).setWidth 32)

/-- DEFERRED_USE of a register (R196). -/
def deferredUse (isV : Bool) (n : Nat) : FaultReq :=
  { code := 0x16, space := 6, addr := BitVec.ofNat 64 n, info := if isV then 1 else 0 }

/-- DEFERRED_USE of the first deferred s register among some. -/
def State.firstDeferred (s : State) (l : List (BitVec 6)) : Option FaultReq :=
  (l.find? (fun n => (s.sVal n).2)).map (fun n => deferredUse false n.toNat)

/-- DEFERRED_USE of the first deferred v register among some. -/
def State.firstDeferredV (s : State) (l : List (BitVec 6)) : Option FaultReq :=
  (l.find? (fun n => s.me.vDef n.toNat)).map (fun n => deferredUse true n.toNat)

/-! ## Bytes that a word touches -/

/-- The bytes that a word accesses: 1 LOC, 2 SHM, 4 GLB, 0 an access without bytes (R163). `runs` are addresses and
lengths; `whole` stands for a gather or scatter whose index vector is not yet known; `read` says that a value is bound; `eng`
is an engine command's acceptance, whose operands FENCER alone looks at (R162, R164): its opcode and captured values. -/
structure Touch where
  space : Nat := 0
  write : Bool := true
  read  : Bool := false
  whole : Bool := false
  eng   : Bool := false
  cmd   : Nat × List Word := (0, [])
  runs  : List (Nat × Nat) := []
  deriving DecidableEq, Repr

/-- The space of a memory opcode (R103), and whether it writes. -/
def spaceOf (opc : Nat) : Option (Nat × Bool) :=
  match opc with
  | 0x180 => some (4, false) | 0x181 => some (1, false) | 0x182 => some (2, false)
  | 0x184 => some (4, true) | 0x185 => some (1, true) | 0x186 => some (2, true)
  | 0x188 => some (4, false) | 0x189 => some (1, false) | 0x18A => some (2, false)
  | 0x18B => some (4, true) | 0x18C => some (1, true) | 0x18D => some (2, true)
  | 0x190 => some (4, false) | 0x191 => some (1, false) | 0x192 => some (2, false)
  | 0x193 => some (4, true) | 0x194 => some (1, true) | 0x195 => some (2, true)
  | 0x200 => some (4, true) | 0x201 => some (2, true) | 0x202 => some (4, true) | 0x203 => some (2, true)
  | 0x204 => some (4, true) | 0x205 => some (2, true) | 0x206 => some (2, true)
  | _ => none

/-- Gathers, scatters and VREDS, whose addresses come from an index vector. -/
def indexed (opc : Nat) : Bool := (0x190 ≤ opc && opc ≤ 0x195) || opc == 0x206

/-- Signal operations other than the queries (R136). -/
def isSignalOp (opc : Nat) : Bool := [0x20A, 0x20B, 0x212, 0x213, 0x214, 0x215, 0x216, 0x217].contains opc

/-- Engine commands (R240). -/
def isEngineCmd (opc : Nat) : Bool := [0x300, 0x301, 0x303, 0x304, 0x305, 0x306, 0x307].contains opc

/-- Whether the base address stands in field A: stores, reductions and PREF. -/
def baseInA (opc : Nat) : Bool :=
  [0x184, 0x185, 0x186, 0x18B, 0x18C, 0x18D, 0x193, 0x194, 0x195, 0x196, 0x204, 0x205, 0x206].contains opc

/-- The base address operand of a memory word (R27). -/
def baseOf (opc : Nat) (w : Operands) : Opnd := if baseInA opc then w.a else w.b

/-- The displacement of a memory word (R27): nothing where C holds immediate data, a new value or an operation. -/
def State.dispOf (s : State) (opc : Nat) (w : Operands) : Word :=
  if [0x200, 0x201, 0x202, 0x203].contains opc || (baseInA opc && w.b == .none && [0x184, 0x185, 0x186].contains opc) then 0
  else s.val w.c

/-- The effective address of a word that is no gather or scatter (R27, R104). -/
def State.eaOf (s : State) (opc : Nat) (w : Operands) : Word := s.val (baseOf opc w) + s.dispOf opc w

/-- Bytes of a vector access at an address (R122): FLG[1] is .raw. -/
def State.vecBytes (s : State) (opc : Nat) (w : Operands) (va : Nat) : Nat :=
  let plain := 16 * w.ty.bytes
  if opc = 0x188 || opc = 0x18B then
    if w.flg.getLsbD 1 then plain
    else match s.walk s.myPart.asid va with
      | .ok p => if p.fmt == .raw then (if opc = 0x188 then 64 else plain) else p.fmt.span
      | .error _ => plain
  else plain

/-- The 64-bit or 32-bit index of lane i, extended and scaled (R49, R440). -/
def indexOf (w : Operands) (ix : Vec) (i : Nat) : Word :=
  let ixw := (bits w.opf 3 2).toNat
  let scale := 2 ^ (bits w.opf 0 3).toNat
  let v : Word :=
    if 2 ≤ ixw then ix.lane (2 * i + 1) ++ ix.lane (2 * i)
    else if ixw = 0 then (ix.lane i).signExtend 64 else (ix.lane i).zeroExtend 64
  v * BitVec.ofNat 64 scale

/-- Whether the index vector and the mask of a V word are known: no earlier V word of the activation has yet to issue, and no
load that has yet to be bound writes the index register. -/
def State.lanesKnown (s : State) (w : Operands) : Bool :=
  let before (q : Pending) : Bool := q.strm == .V && (match s.iss with | .queued p => q.seq < p.seq | _ => true)
  let loads (q : Pending) : Bool :=
    match entryOf (opcField q.word) with
    | some e => s.me.progIdx.isNone && !(vOf w.c).isEmpty && vOf (decodeOperands e.layout q.word).a == vOf w.c
    | none => false
  !s.me.pend.any before && !s.me.late.any (fun q => before q && loads q)

/-- The bytes of the active lanes of a gather, scatter or VREDS (R164, R440). -/
def State.laneRuns (s : State) (opc : Nat) (w : Operands) : List (Nat × Nat) :=
  let ix := s.me.progIdx.getD (s.vecOf w.c)
  ((upTo 16).filter (fun i => s.active w.msk i && !(2 ≤ (bits w.opf 3 2).toNat && 8 ≤ i))).map
    (fun i => ((s.val (baseOf opc w) + indexOf w ix i).toNat, w.ty.bytes))

/-- Whether a memory word binds a value: a load, or an atomic's read (R163). -/
def bindsValue (opc : Nat) : Bool :=
  (0x180 ≤ opc && opc ≤ 0x182) || (0x188 ≤ opc && opc ≤ 0x18A) || (0x190 ≤ opc && opc ≤ 0x192) || (0x200 ≤ opc && opc ≤ 0x206)

/-- The values that an engine command captures, in field order. -/
def State.captures (s : State) (opc : Nat) (w : Operands) : List Word :=
  (sSources opc w).map (fun n => (s.sVal n).1) ++ (if opndIsImm w.c then [s.val w.c] else [])

/-- What a word touches, when it is an access in the sense of R163; its s operands as the word sees them. -/
def State.touchOf (s : State) (opc : Nat) (w : Operands) : Option Touch :=
  match spaceOf opc with
  | some (sp, wr) =>
    if indexed opc then
      let known := s.lanesKnown w
      some { space := sp, write := wr, read := bindsValue opc, whole := !known, runs := if known then s.laneRuns opc w else [] }
    else
      let a := (s.eaOf opc w).toNat
      let n := if 0x188 ≤ opc && opc ≤ 0x18D then s.vecBytes opc w a else w.ty.bytes
      some { space := sp, write := wr, read := bindsValue opc, runs := [(a, n)] }
  | none =>
    if isSignalOp opc then
      let r := s.val (if opc = 0x215 then w.b else w.a)
      some { space := if r.getLsbD 63 then 2 else 4, runs := [((bits r 0 56).toNat, 32)] }
    else if isEngineCmd opc then some { space := 4, eng := true, cmd := (opc, s.captures opc w) }
    else if [0x218, 0x219, 0x282, 0x283, 0x388].contains opc then some {}
    else none

/-- Physical pieces of a run of GLB bytes. -/
def State.physRuns (s : State) (asid : Nat) (r : Nat × Nat) : List (Nat × Nat) :=
  let n1 := min r.2 (65536 - r.1 % 65536)
  ((s.physOfVirt asid r.1).toList.map (fun p => (p, n1))) ++
    (if n1 = r.2 then [] else (s.physOfVirt asid (r.1 + n1)).toList.map (fun p => (p, r.2 - n1)))

/-- Whether two runs share a byte. -/
def runsMeet (a b : Nat × Nat) : Bool := a.1 < b.1 + b.2 && b.1 < a.1 + a.2

/-- Whether an access touches a push address of the partition (R85). -/
def Part.pushMeets (p : Part) (va n : Nat) : Bool :=
  let b := p.pushBase.toNat
  b != 0 && runsMeet (va, n) (b, 8 * p.edges.length)

/-- Whether two accesses of one activation must perform in program order (R159): they share bytes of one space. -/
def State.conflict (s : State) (x y : Touch) : Bool :=
  x.space == y.space && x.space != 0 && !x.eng && !y.eng &&
  (x.whole || y.whole ||
    let px := if x.space = 4 then x.runs.flatMap (s.physRuns s.myPart.asid) else x.runs
    let py := if y.space = 4 then y.runs.flatMap (s.physRuns s.myPart.asid) else y.runs
    px.any (fun a => py.any (runsMeet a)))

/-! ## Earlier words of the activation -/

/-- The words of the activation that stand before the word in execution and have not issued, and its loads that are not
yet bound (R155). -/
def State.earlier (s : State) : List Pending :=
  match s.iss with
  | .queued p => (s.me.pend ++ s.me.late).filter (fun q => q.seq < p.seq)
  | _ => s.me.pend ++ s.me.late

/-- The state as a pending word's operands see it. -/
def State.seenBy (s : State) (p : Pending) : State := { s with iss := .queued p }

/-- The opcode and operand fields of a pending word, if it is an instruction (R202). -/
def Pending.fields (p : Pending) : Option (Nat × Operands) :=
  match entryOf (opcField p.word) with
  | none => none
  | some e => if (encodingFault false p.word).isSome then none else some (opcField p.word, decodeOperands e.layout p.word)

/-- Whether a load that is not yet bound clashes with a word: the word reads or writes a register that the load will write,
or writes one that the load will read (R69). -/
def Pending.clashes (p : Pending) (opc : Nat) (w : Operands) : Bool :=
  match p.fields with
  | none => false
  | some (o, x) =>
    (match sDest o x with | some n => (sSources opc w).contains n || sDest opc w == some n | none => false) ||
    (match x.a with
      | .reg .v _ n => (vSources opc w ++ vOf w.a).contains n
      | .queue _ n => [w.a, w.b, w.c].any (fun y => match y with | .queue _ m => m == n | _ => false)
      | _ => false) ||
    (match w.a with
      | .reg .v _ n => p.strm == .V && (vSources o x).contains n
      | .reg .m _ n => p.strm == .V && x.msk.toNat == n.toNat
      | _ => false)

/-- Whether a load of the activation that is not yet bound holds up the word in execution (R69). A load being bound is not
held up. -/
def State.lateBusy (s : State) (opc : Nat) (w : Operands) : Bool :=
  match s.iss with
  | .queued p => s.me.late.all (fun q => q.seq != p.seq) && s.me.late.any (fun q => q.clashes opc w)
  | _ => s.me.late.any (fun q => q.clashes opc w)

/-- Whether a range meets some of `rows` stretches of `len` bytes, `stride` apart. -/
def rowsMeet (b n : Nat) (a : Word) (rows : Nat) (stride : Int) (len : Nat) : Bool :=
  (upTo rows).any (fun i => runsMeet (b, n) ((a + BitVec.ofInt 64 (i * stride)).toNat, len))

/-- Whether a range meets an MMA's operand: base, stride, steps; operand A is o = 0 (R244). -/
def State.mmaMeets (s : State) (b n : Nat) (base stride steps : Word) (o : Nat) : Bool :=
  match s.walk s.myPart.asid base.toNat with
  | .error _ => false
  | .ok p =>
    let chunks := 2 * (bits steps 32 16).toNat
    let st := (stride.setWidth 32 : BitVec 32).toInt
    let unit := if p.fmt.packed then p.fmt.unit else 16 * p.fmt.unit
    if (p.geom == 0) == (o == 0) then rowsMeet b n base 16 st (chunks * unit) else rowsMeet b n base (16 * chunks) st p.fmt.span

/-- Whether a range of GLB meets a GLB operand of an engine command with its captured values (R164, R244, R250 to R252). -/
def State.engMeets (s : State) (b n : Nat) (opc : Nat) (v : List Word) : Bool :=
  let x (i : Nat) : Word := nth 0 v i
  match opc with
  | 0x300 => s.mmaMeets b n (x 0) (x 1) (x 1) 0 || s.mmaMeets b n (x 2) (x 3) (x 1) 1
  | 0x304 => [x 0, x 1].any (fun d => bits d 62 2 == 0 && runsMeet (b, n) (d.toNat, (bits (x 2) 0 32).toNat))
  | 0x305 =>
    let ends : List (Word × Int) := [(x 0, (bits (x 3) 0 32).toInt), (x 1, (bits (x 3) 32 32).toInt)]
    ends.any (fun e =>
      bits e.1 62 2 == 0 && rowsMeet b n e.1 (bits (x 2) 32 32).toNat e.2 (bits (x 2) 0 32).toNat)
  | 0x306 | 0x307 =>
    let len := (bits (x 2) 0 32).toNat
    let ms := (tget ({} : Group) (bits (x 4) 0 8).toNat s.myPart.groups).members
    let own := if opc = 0x307 then (ms.findIdx (· == s.myCore)) * len else 0
    rowsMeet b n (x 1 + BitVec.ofNat 64 own) ms.length (bits (x 2) 32 32).toInt len ||
      runsMeet (b, n) ((x 0).toNat, if opc = 0x306 then ms.length * len else len)
  | _ => false

/-- Whether a range of GLB covers some byte of an access (R164). -/
def State.covers (s : State) (b n : Nat) (t : Touch) : Bool :=
  t.space == 4 && (if t.eng then s.engMeets b n t.cmd.1 t.cmd.2 else t.whole || t.runs.any (runsMeet (b, n)))

/-- Whether the word in execution is a load that has issued and is now bound (R157). -/
def State.binding (s : State) : Bool := match s.iss with | .queued p => s.me.late.any (fun q => q.seq == p.seq) | _ => false

/-- Whether an earlier word that has not issued holds back an access of the word in execution: an access that conflicts
with it, an acquiring access, or a fence that orders it (R159, R160, R163, R164). -/
def State.heldBack (s : State) (t : Touch) : Bool :=
  (!s.binding && s.acquiring s.cur) ||
  s.earlier.any (fun p =>
    p.gv != some false &&
    match p.fields with
    | none => false
    | some (opc, w) =>
      let q := s.seenBy p
      if opc = 0x208 || opc = 0x209 then
        (w.ord != .rel || t.write) &&
          (opc = 0x208 || ((q.val w.c).toNat != 0 && s.covers (q.val w.a).toNat (q.val w.c).toNat t))
      else
        match q.touchOf opc w with
        | none => false
        | some u => s.conflict t u || (!isEngineCmd opc && opc ≤ 0x206 && (w.ord == .acq || w.ord == .acqrel)))

/-- Whether an engine command stands earlier in program order and has not been accepted: the entries staged before it are its
own (R138). -/
def State.cmdAhead (s : State) : Bool := s.earlier.any (fun p => isEngineCmd (opcField p.word))

/-- The collectives of the activation that have not completed their acceptance (R254). -/
def State.acceptances (s : State) : List Cmd :=
  (s.core s.myCore).colQ.filter (fun c => c.uid == s.me.uid && (match c.phase with | .accepting _ => true | _ => false))
/-- Whether a collective of the activation has not completed its acceptance. -/
def State.accepting (s : State) : Bool := !s.acceptances.isEmpty

/-- Whether an earlier word that has not issued is an access of a kind that a test accepts. -/
def State.earlierAccess (s : State) (ok : State → Touch → Bool) : Bool :=
  s.acceptances.any (fun c => ok s { space := 4, eng := true, cmd := (if c.op == .colrs then 0x307 else 0x306, c.vals) }) ||
  s.earlier.any (fun p =>
    p.gv != some false &&
    match p.fields with
    | none => false
    | some (opc, w) => match (s.seenBy p).touchOf opc w with | none => false | some t => ok (s.seenBy p) t)

/-- Whether a release of the word in execution may issue: every access earlier in program order is performed at the
scope (R160). -/
def State.releaseReady (s : State) (sc : Scope) : Bool :=
  !s.earlierAccess (fun _ _ => true) && s.performed s.cur sc

/-- Whether a fence of the word in execution is complete: FENCE (R163), or FENCER over a range (R164). -/
def State.fenceDone (s : State) (o : Ord) (sc : Scope) (range : Option (Nat × Nat)) : Bool :=
  let cov (s : State) (t : Touch) : Bool := match range with | none => true | some (b, n) => s.covers b n t
  let mine (vas : List Nat) : Bool := match range with | none => true | some (b, n) => vas.any (fun a => b ≤ a && a < b + n)
  match o with
  | .acq =>
    !s.earlierAccess (fun s t => t.read && cov s t) &&
      !(s.me.outbox.any (fun e => e.uid == s.me.uid &&
        (match e.kind.atomic with
          | some (a, t) => range.isNone || (!e.shm && mine ((from_ a t.bytes).map (vaOf e.page)))
          | none => false)))
  | _ => !s.earlierAccess cov && (s.me.own.all (fun o => !mine o.2 || s.wrote s.cur sc o.1))

end Sys2Proof.Machine
end

