-- ==== Sys2Proof/Machine/Ops.lean ====
section
/-!
DEFINITION. The named operations that every meaning is written with: taking a fault and restarting at the recovery entry
(R190, R191, R205, R211), waits and their release (R143, R147), parked registers (R117, R118), LOC protection (R107),
and the issue of a word in its stream (R66 to R74, R193).
-/

namespace Sys2Proof.Machine

/-! ## What a word's own effect ends in -/

/-- How a word's effect ends. `done`: it has issued and the activation goes to the next word. `goto`: a control transfer.
`halt`: it has issued, and the state says where the slot stands. `stall`: it has not issued. `wait`: the state stands as
it is: the word has not issued and no later word is decoded, or it has taken its turn itself. `fault`: it faults, with nothing of it done but what the state shows. -/
inductive Res where
  | done (s : State)
  | goto (s : State) (pc : Word)
  | halt (s : State)
  | stall (s : State)
  | wait (s : State)
  | fault (f : FaultReq) (s : State)
  deriving DecidableEq, Repr

/-! ## Taking a fault -/

/-- Delivery classes (R190), in code order of DELIV. -/
inductive Deliv where | held | parked | trap | end_
  deriving DecidableEq, Repr

/-- The class of a fault code (R191). -/
def delivOf (code : Nat) : Deliv :=
  if code = 0x10 || code = 0x14 then .parked else if code = 0x30 then .trap else if code = 0x27 then .end_ else .held
/-- DELIV of R205. -/
def Deliv.code : Deliv → Nat | .held => 0 | .parked => 1 | .trap => 2 | .end_ => 3

/-- FAULTINFO for a fault (R205). -/
def faultInfoOf (f : FaultReq) (d : Deliv) : Word :=
  wordOf [(56, f.code), (48, f.detail), (8, f.lane), (6, f.strm), (4, d.code)]

/-- The first address of a partition's SHM grant on a die (R112). -/
def Part.shmBase (p : Part) (d : Nat) : Nat := (tget (0, 0) d p.shm).1
/-- The length of a partition's SHM grant on a die. -/
def Part.shmSize (p : Part) (d : Nat) : Nat := (tget (0, 0) d p.shm).2

/-- The entry bound to a message type in a partition's handler table; none where the type is unbound. -/
def Part.handler (p : Part) (type : Nat) : Option Word := tget none type p.handlers

/-- The recovery restart of R152 and R211: the activation goes on in its own context at the entry bound to type 0xFFF,
with s1 the fault's code and s2 to s4 words 1 to 3 of the record, with no pending word and no guard counted. -/
def Act.recover (a : Act) (entry : Word) (code : Nat) (w1 w2 w3 : Word) : Act :=
  { (((a.sSet 1 (BitVec.ofNat 64 code)).sSet 2 w1).sSet 3 w2).sSet 4 w3 with
    st := .running, pc := entry, wait := none, wrel := .none, asked := none, pend := [], rpt := none, counted := none
    gcnt := [], prog := 0, progIdx := none }

/-! ### The coalescing tables (R203) -/

/-- The entry of a die that holds an address space and page. -/
def State.coalFind (s : State) (d asid page : Nat) : Option Nat :=
  (s.die d).coal.findSome? (fun e => match e.2 with
    | some c => if c.asid == asid && c.page == some page then some e.1 else none
    | none => none)

/-- The lowest-numbered free entry of a die's 256. -/
def State.coalFree (s : State) (d : Nat) : Option Nat := (upTo 256).find? (fun n => (tget none n (s.die d).coal).isNone)

/-- An entry of a die replaced. -/
def State.coalSet (s : State) (d n : Nat) (c : Option Coal) : State :=
  s.modDie d (fun x => { x with coal := tset none n c x.coal })

/-- The place of a parked item among those that reach an entry in one cycle: by core, then slot, then engine (R203). -/
def State.itemOrder (s : State) : Parked → Nat
  | .slot k => 4 * k
  | .frame core _ => 32 * core
  | .cmd core id =>
    let x := s.core core
    let on (l : List Cmd) (e : Nat) : Option Nat := (l.find? (fun c => c.id == id)).map (fun c => 4 * c.key + e)
    (((on x.matrixQ 1).orElse (fun _ => on x.copyQ 2)).orElse (fun _ => on x.colQ 3)).getD (32 * core)

/-- An item joins an entry's queue, behind those of earlier cycles and in the order of R203 among those of its own. -/
def State.coalAdd (s : State) (c : Coal) (item : Parked) : Coal :=
  let n := if c.joined = s.cycle then c.same else 0
  let old := c.items.take (c.items.length - n)
  let now := c.items.drop (c.items.length - n)
  let before (i : Parked) : Bool := decide (s.itemOrder i ≤ s.itemOrder item)
  { c with items := old ++ now.takeWhile before ++ item :: now.dropWhile before, joined := s.cycle, same := n + 1 }

/-- An item joins the table of a die: with a PAGE_FAULT, the entry of its page if there is one; else a free entry, in
which it leads; else the overflow list. The entry, and whether the item leads. -/
def State.coalJoin (s : State) (d asid : Nat) (f : FaultReq) (item : Parked) (ws : List Word) :
    State × Option Nat × Bool :=
  let page := f.page.map (·.2)
  let found := if f.code = 0x10 then page.bind (fun p => s.coalFind d asid p) else none
  match found with
  | some n =>
    let c := (tget none n (s.die d).coal).getD { asid := asid, page := page }
    (s.coalSet d n (some (s.coalAdd c item)), some n, false)
  | none =>
    match s.coalFree d with
    | some n => (s.coalSet d n (some (s.coalAdd { asid := asid, page := page } item)), some n, true)
    | none => (s.modDie d (fun x => { x with overflow := x.overflow ++ [(item, f, asid, ws)] }), none, false)

/-- The record of an entry's first item is written: its SEQ is kept, and a PAGE_FAULT's INFO is the entry (R191). -/
def State.coalRecord (s : State) (d n asid : Nat) (code : Nat) (ws : List Word) : State :=
  let ws := if code = 0x10 then setNth ws 4 (BitVec.ofNat 64 n) else ws
  let s := match tget none n (s.die d).coal with
    | some c => s.coalSet d n (some { c with seq := s.nextSeq asid })
    | none => s
  s.post asid ws

/-- An entry of a die is free: the items of the overflow list leave it in order, those of a page that has an entry to that one,
until one takes the free entry, and its record is written (R203). -/
def State.fromOverflow (s : State) (d n : Nat) : Nat → State
  | 0 => s
  | fuel + 1 =>
  match (s.die d).overflow with
  | [] => s
  | (item, f, asid, ws) :: r =>
    let s := s.modDie d (fun x => { x with overflow := r })
    let page := f.page.map (·.2)
    match (if f.code = 0x10 then page.bind (s.coalFind d asid) else none) with
    | some i =>
      let c := (tget none i (s.die d).coal).getD { asid := asid, page := page }
      let s := s.coalSet d i (some (s.coalAdd c item))
      let s : State := match item with
        | .slot k => s.modAct k (fun a => { a with save := a.save.map (fun (v : SaveReq) => { v with coal := some i }) })
        | _ => s
      s.fromOverflow d n fuel
    | none =>
      let s := s.coalSet d n (some (s.coalAdd { asid := asid, page := page } item))
      match item with
      | .slot k => s.modAct k (fun a => { a with save := a.save.map (fun v => { v with coal := some n, lead := true }) })
      | _ => s.coalRecord d n asid f.code ws

/-- The key of a frame: partition and number. -/
def frameKey (part n : Nat) : Nat := part * 2 ^ 28 + n
/-- The virtual address of a frame (R198). -/
def Part.frameVa (p : Part) (n : Nat) : Nat := p.frameBase.toNat + 4096 * n

/-- The partition of an address space whose frame a parked item names. -/
def State.partOfFrame (s : State) (asid _core n : Nat) : Option Nat :=
  (s.parts.find? (fun e => e.2.asid == asid && e.2.framesOut.contains n)).map (·.1)

/-- The first item that is left of an entry whose leader was discarded leads in it: the entry's record is that of its fault (R203). -/
def State.leadBy (s : State) (d n asid : Nat) (item : Parked) : State :=
  match item with
  | .slot j => s.modAct j (fun a => { a with save := a.save.map (fun v => { v with lead := true }) })
  | .frame core m =>
    let a : Act := tget {} (frameKey ((s.partOfFrame asid core m).getD 0) m) s.framed
    match a.save with
    | some { fault := some f, pc := pc, .. } =>
      s.coalRecord d n asid f.code (recordWords f asid false pc (some m) core a.savedSlot a.stamp)
    | _ => s
  | .cmd core id =>
    let x := s.core core
    match (x.matrixQ ++ x.copyQ ++ x.colQ).find? (fun c => c.id == id) with
    | some { parked := some f, pc := pc, uid := uid, key := key, stamp := stamp, .. } =>
      let frame := (s.framed.find? (fun x => x.2.uid == uid)).map (fun x => x.1 % 2 ^ 28)
      s.coalRecord d n asid f.code (recordWords f asid true pc frame core (slotOf key) stamp)
    | _ => s

/-- A fault that slot k is being saved for is discarded, because a word before it in program order faults (R194): the item
leaves its coalescing entry; the first that is left leads in it, or the entry is free (R203). -/
def State.dropFault (s : State) (k : Nat) : State :=
  match (s.act k).save with
  | some { fault := some _, coal := n, lead := lead, .. } =>
    let d := dieOf (coreOf k)
    let s := s.modDie d (fun x => { x with overflow := x.overflow.filter (fun o => o.1 != .slot k) })
    match n.bind (fun n => (tget none n (s.die d).coal).map (fun c => (n, c))) with
    | none => s
    | some (n, c) =>
      match c.items.filter (· != .slot k) with
      | [] => (s.coalSet d n none).fromOverflow d n (s.die d).overflow.length
      | item :: r =>
        let s := s.coalSet d n (some { c with items := item :: r })
        if lead then s.leadBy d n c.asid item else s
  | _ => s

/-- Taking a fault: the activation in slot k stops at the word at `pc`. FAULTINFO is written; a trap restarts the
activation where type 0xFFF is bound and no precise stop covers the core (R318); a fault at END leaves it PARKED and writes the record; every other fault leaves
the slot saving, until FRAME_SAVE writes frame and record (R190, R202, R205, R211). -/
def State.takeFaultAt (s : State) (k : Nat) (f : FaultReq) (pc : Word) (at_ : Option Nat := none) : State :=
  let s := (s.dropFault k).forgetKey k
  let a := s.act k
  let p := s.part a.part
  let core := coreOf k
  match delivOf f.code with
  | .end_ =>
    let s := s.modAct k (fun a => { a with st := .parked, faultInfo := faultInfoOf f .end_ })
    s.post p.asid (recordWords f p.asid false pc none core (slotOf k) a.stamp)
  | .trap =>
    match (if (s.core core).covered then none else p.handler 0xFFF) with
    | some e =>
      let ws := recordWords f p.asid false pc none core (slotOf k) a.stamp
      let s := s.modAct k (fun a =>
        { a with faultInfo := faultInfoOf f .trap }.recover e f.code (nth 0 ws 1) (nth 0 ws 2) (nth 0 ws 3))
      let s := s.cleanS k [1, 2, 3, 4]
      s.annotate k 6 (BitVec.ofNat 64 f.code)
    | none =>
      s.modAct k (fun a =>
        { a with st := .saving, faultInfo := faultInfoOf f .held, save := some { why := .fault, fault := some f, pc := pc, at_ := at_ } })
  | .held =>
    s.modAct k (fun a =>
      { a with st := .saving, faultInfo := faultInfoOf f .held, save := some { why := .fault, fault := some f, pc := pc, at_ := at_ } })
  | .parked =>
    let s := s.annotate k 3 f.addr
    let (s, n, lead) := s.coalJoin (dieOf core) p.asid f (.slot k) []
    s.modAct k (fun a =>
      { a with st := .saving, faultInfo := faultInfoOf f .parked
               save := some { why := .fault, fault := some f, pc := pc, at_ := at_, coal := n, lead := lead } })

/-! ## Waits -/

/-- The slot of the word in execution goes to WAITING (R143 step 6). -/
def State.enterWait (s : State) (on : WaitOn) (rank : Rank) (sc : Scope := .slot) : State :=
  s.modMe (fun a => { a with st := .waiting, wait := some { on := on, rank := rank, since := s.cycle, scope := sc } })

/-- RANK_ORDER at an object (R143 step 2). -/
def State.rankOrder (s : State) (obj : Word) (r : Rank) : FaultReq :=
  { code := 0x20, addr := obj,
    info := wordOf [(32, r.toNat), (0, (bits (s.oblFloor s.myCore s.me) 0 32).toNat)] }

/-- ORPHAN_WAIT at an object. -/
def orphanWait (obj : Word) (r : Rank) : FaultReq := { code := 0x21, addr := obj, info := r.zeroExtend 64 }
/-- SIG_POISONED at an object. -/
def sigPoisoned (obj : Word) : FaultReq := { code := 0x29, addr := obj }

/-- A queued wait of the activation in slot k is satisfied: it completes, and the activation goes on after the word; an
activation that is being saved takes the release into its frame (R147, R213). -/
def State.releaseAt (s : State) (k : Nat) : State :=
  s.modAct k (fun a =>
    if a.st == .waiting then { a with st := .running, wait := none, pc := a.pc + 12 } else { a with wrel := .released })

/-- A waiting access of slot k is taken again from its first step. -/
def State.retryAt (s : State) (k : Nat) : State :=
  s.modAct k (fun a => if a.st == .waiting then { a with st := .running, wait := none } else a)

/-- A queued wait of the activation in slot k ends in a fault at the waiting word (R147, R213). -/
def State.failAt (s : State) (k : Nat) (r : WRel) (f : FaultReq) : State :=
  let a := s.act k
  if a.st == .waiting then (s.modAct k (fun a => { a with wait := none })).takeFaultAt k f a.pc
  else s.modAct k (fun a => { a with wrel := r })

/-! ## LOC protection (R106, R107) -/

/-- Region n of an activation: start and length in bytes, W, RD. -/
def Act.region (a : Act) (n : Nat) : Nat × Nat × Bool × Bool :=
  let r := tget 0 n a.regions
  ((bits r 23 9).toNat * 64, (bits r 13 10).toNat * 64, r.getLsbD 1, r.getLsbD 0)

/-- Whether a LOC byte lies in the token window (R84). -/
def inWindow (off : Nat) : Bool := 0x7BC0 ≤ off && off < 0x8000

/-- Whether the activation may read a LOC byte. -/
def Act.locRead (a : Act) (off : Nat) : Bool :=
  (a.origin == .firing && inWindow off) ||
    (upTo 4).any (fun n => let r := a.region n; r.2.2.2 && r.1 ≤ off && off < r.1 + r.2.1)

/-- Whether the activation may write a LOC byte; a firing's window is never writable. -/
def Act.locWrite (a : Act) (off : Nat) : Bool :=
  !(a.origin == .firing && inWindow off) &&
    (upTo 4).any (fun n => let r := a.region n; r.2.2.1 && r.1 ≤ off && off < r.1 + r.2.1)

/-! ## Parked registers (R117, R118, R393, R422) -/

/-- Accumulator key of an element (log entry 8 names the contents of FREE tiles). -/
def accKey (core tile row col : Nat) : Nat := 2048 * core + 256 * tile + 16 * row + col

/-- The 16 lanes of a parked register: a v register, or an s register in its two low lanes. -/
def wordLanes (v : Word) : Vec := (v.setWidth 32 :: (v >>> 32).setWidth 32 :: List.replicate 14 0)
/-- The s value in two low lanes. -/
def lanesWord (v : Vec) : Word := (v.lane 1) ++ (v.lane 0)

/-- An accumulator element: what was last written to it, or a free value since its tile became HELD. -/
def State.accGet (s : State) (k : Nat) : Lane :=
  match tget none k s.acc with | some v => v | none => Config.freeAcc (tget 0 (k / 256) s.accSeed) (k % 256)
/-- An accumulator element written. -/
def accSet (k : Nat) (v : Lane) (m : Tab (Option Lane)) : Tab (Option Lane) := tset none k (some v) m
/-- A column of a tile read as 16 lanes, row i giving lane i. -/
def State.colGet (s : State) (core tile col : Nat) : Vec := Vec.ofFn (fun i => s.accGet (accKey core tile i col))
/-- A column of a tile written. -/
def State.colSet (s : State) (core tile col : Nat) (v : Vec) : State :=
  { s with acc := (upTo 16).foldl (fun m i => accSet (accKey core tile i col) (v.lane i) m) s.acc }

/-- The value of a parked register at its place. -/
def State.parkedVal (s : State) (k : Nat) (isV : Bool) (e : Spill) : Vec :=
  let core := coreOf k
  match e.place with
  | .acc => s.colGet core (e.index / 16) (e.index % 16)
  | .bank =>
    let b := s.act (8 * core + e.index / 32)
    if isV then b.vGet (e.index % 32) else wordLanes (b.sGet (e.index % 32))
  | .loc =>
    let bs := mread (32768 * core + 8 * e.fall) (if isV then 64 else 8) s.loc
    if isV then Vec.ofFn (fun i => BitVec.ofNat 32 (leNat ((bs.drop (4 * i)).take 4)))
    else wordLanes (BitVec.ofNat 64 (leNat bs))
  | .none => Vec.zero

/-- Bytes of a parked register. -/
def parkBytes (isV : Bool) : Nat := if isV then 64 else 8

/-- The 64-bit granules of a register (R214). -/
def regGranules (core slot : Nat) (isV : Bool) (n : Nat) : List Granule :=
  if isV then (upTo 8).map (fun i => .vreg core slot n i) else [.sreg core slot n]

/-- A mask of the granules, in order, that a test accepts. -/
def granuleMask (p : Granule → Bool) (gs : List Granule) : BitVec 8 :=
  BitVec.ofNat 8 ((upTo gs.length).foldl (fun n i => if (gs[i]?.map p).getD false then n + 2 ^ i else n) 0)

/-- The granules that a mask names. -/
def granulesOf (m : BitVec 8) (gs : List Granule) : List Granule :=
  (upTo gs.length).flatMap (fun i => if m.getLsbD i then gs[i]?.toList else [])

/-- The 64-bit granules of LOC under a parked register. -/
def fallGranules (core : Nat) (isV : Bool) (fall : Nat) : List Granule :=
  (upTo (parkBytes isV / 8)).map (fun i => locGranule (32768 * core + 8 * fall + 8 * i))

/-- UNPARK (R422): the value comes back with its deferral bit and poison; in LOC the poison is that of its bytes. -/
def State.unparkAt (s : State) (k : Nat) (isV : Bool) (n : Nat) : State :=
  let e := (s.act k).spillOf isV n
  if e.place == .none then s
  else
    let v := s.parkedVal k isV e
    let bad := if e.place == .loc then granuleMask s.poisoned.contains (fallGranules (coreOf k) isV e.fall) else e.poison
    let gs := regGranules (coreOf k) (slotOf k) isV n
    let s := (s.modAct k (fun a => if isV then a.vSet n v e.dfr else a.sSet n (lanesWord v) e.dfr)).cleanAll gs
    if bad = 0 then s else { s with poisoned := granulesOf bad gs ++ s.poisoned }

/-- A parked value written to LOC at its fallback address, with its poison. -/
def State.toFall (s : State) (core : Nat) (isV : Bool) (fall : Nat) (v : Vec) (poison : BitVec 8) : State :=
  let bs := if isV then v.flatMap (fun l => leBytes 4 l.toNat) else leBytes 8 (lanesWord v).toNat
  let a := 32768 * core + 8 * fall
  let s := { s.unpoison locGranule a bs.length with loc := mwrite a bs s.loc }
  if poison = 0 then s else { s with poisoned := granulesOf poison (fallGranules core isV fall) ++ s.poisoned }

/-- One parked value of a slot moved from its column or slot bank to its FALL address (R118). -/
def State.evictReg (s : State) (k : Nat) (isV : Bool) (n : Nat) : State :=
  let e := (s.act k).spillOf isV n
  match e.place with
  | .none => s
  | .loc => s
  | _ =>
    let v := s.parkedVal k isV e
    let s := s.toFall (coreOf k) isV e.fall v e.poison
    s.modAct k (fun a => { a with spill := tset {} (spillKey isV n) { e with place := .loc, index := 0, poison := 0 } a.spill })

/-- Parked registers of a slot that a test accepts, evicted in order of register. -/
def State.evictSlot (s : State) (k : Nat) (p : Spill → Bool) : State :=
  (s.act k).spill.foldl (fun s e => if p e.2 then s.evictReg k (64 ≤ e.1) (e.1 % 64) else s) s

/-- Whether a tile is HELD (R116). -/
def State.heldTile (s : State) (core tile : Nat) : Bool := tget false tile (s.core core).held

/-- A tile becomes HELD: parked columns in it move to LOC, and its contents are free values (R116, R118). -/
def State.holdTile (s : State) (core tile : Nat) : State :=
  if s.heldTile core tile then s
  else
    let s := (slotsOf core).foldl (fun s k => s.evictSlot k (fun e => e.place == .acc && e.index / 16 == tile)) s
    let s := s.modCore core (fun c => { c with held := tset false tile true c.held })
    { s with
      acc := s.acc.filter (fun e => e.1 / 256 != 8 * core + tile)
      accSeed := tset 0 (8 * core + tile) s.fresh s.accSeed
      fresh := s.fresh + 1 }

/-- Whether a granule is one of a slot's registers. -/
def granuleOfSlot (core slot : Nat) : Granule → Bool
  | .sreg c sl _ => c == core && sl == slot
  | .vreg c sl _ _ => c == core && sl == slot
  | .qreg c sl _ _ => c == core && sl == slot
  | .mreg c sl _ => c == core && sl == slot
  | _ => false

/-- The state without the poison of a slot's registers. -/
def State.cleanSlot (s : State) (k : Nat) : State :=
  if s.poisoned.isEmpty then s else { s with poisoned := s.poisoned.filter (fun g => !granuleOfSlot (coreOf k) (slotOf k) g) }

/-- A FREE slot is about to be started: parked registers in its bank move to LOC (R118), and its registers will be written
whole (R64, R202, R215). -/
def State.clearBank (s : State) (k : Nat) : State :=
  ((slotsOf (coreOf k)).foldl (fun s j => s.evictSlot j (fun e => e.place == .bank && e.index / 32 == slotOf k)) s).cleanSlot k

/-- The lanes of its v destination that a word writes: an opcode that ignores mask and length writes them all, VINS writes
one, VSEL those below the vector length, and the others the active lanes (R75, R378, R427, R432, R435, R436, R440). -/
def State.lanesWritten (s : State) (opc : Nat) (w : Operands) (i : Nat) : Bool :=
  if opc = 0x112 || opc = 0x114 || opc = 0x183 then true
  else if opc = 0x109 then (s.val w.c).toNat % 16 = i
  else if opc = 0x118 then i < s.vl
  else s.active w.msk i && !(indexed opc && 2 ≤ (bits w.opf 3 2).toNat && 8 ≤ i)

/-- A v destination of which the word leaves some lanes as they are (R75), so that a parked value comes back first. -/
def State.vKept (s : State) (opc : Nat) (w : Operands) : List (BitVec 6) :=
  if keepsA opc && !(upTo 16).all (s.lanesWritten opc w) then vOf w.a else []

/-- Registers that the word in execution reads, or writes only in part, come back from where they are parked (R118). -/
def State.unparkSources (s : State) (opc : Nat) (w : Operands) : State :=
  if s.me.spill.isEmpty then s
  else
    let s1 := match s.iss with
      | .queued _ => s
      | _ => (sSources opc w).foldl (fun s n => s.unparkAt s.cur false n.toNat) s
    if w.head.stream == .V then (vSources opc w ++ s.vKept opc w).foldl (fun s n => s.unparkAt s.cur true n.toNat) s1 else s1

/-- Whether a register of the slot in execution is poisoned in some granule. -/
def State.badReg (s : State) (isV : Bool) (n : Nat) : Bool :=
  (regGranules s.myCore (slotOf s.cur) isV n).any s.poisoned.contains

/-- The poisoned head entries of the queue registers that a word reads (R215). -/
def State.badQueues (s : State) (w : Operands) : List Nat :=
  ([w.b, w.c].filterMap (fun o => match o with | .queue _ n => some n.toNat | _ => none)).filter
    (fun n => s.poisoned.contains (.qreg s.myCore (slotOf s.cur) n 0))

/-- The poisoned mask registers that a vector word is under or reads (R215). -/
def State.badMasks (s : State) (w : Operands) : List Nat :=
  (((if w.head.stream == .V then [w.msk.toNat] else []) ++
    [w.b, w.c].filterMap (fun o => match o with | .reg .m _ n => some n.toNat | _ => none))).filter
    (fun n => n != 0 && s.poisoned.contains (.mreg s.myCore (slotOf s.cur) n))

/-- POISON_CONSUMED by the first poisoned register that the word reads, in an s register at its capture (R69, R215). -/
def State.poisonHit (s : State) (opc : Nat) (w : Operands) : Option FaultReq :=
  let ss := match s.iss with
    | .queued p => ((sSources opc w).filter (fun n => p.caps.any (fun c => c.num == n && c.poison))).map (·.toNat)
    | _ => if s.poisoned.isEmpty then [] else ((sSources opc w).filter (fun n => s.badReg false n.toNat)).map (·.toNat)
  let vs := if s.poisoned.isEmpty then [] else
    (if w.head.stream == .V then ((vSources opc w).filter (fun n => s.badReg true n.toNat)).map (·.toNat) else []) ++
      s.badQueues w ++ s.badMasks w
  (ss ++ vs).head?.map (fun n => { code := 0x15, space := 6, addr := BitVec.ofNat 64 n })

/-- A load with .spec defers instead of faulting on poison (R195, R215). -/
def specLoad (opc : Nat) (w : Operands) : Bool :=
  ((0x180 ≤ opc && opc ≤ 0x182) || (0x188 ≤ opc && opc ≤ 0x18A) || (0x190 ≤ opc && opc ≤ 0x192)) && w.flg.getLsbD 0

/-- The poison fault that a word takes before its effect (R215). -/
def State.poisonedReg (s : State) (opc : Nat) (w : Operands) : Option FaultReq :=
  if specLoad opc w then none else s.poisonHit opc w

/-- A write of a whole granule clears its poison (R215); UNPARK brings poison back (R422). -/
def State.cleanDest (s : State) (opc : Nat) (w : Operands) : State :=
  if s.poisoned.isEmpty || opc = 0x383 || opc = 0x384 then s
  else
    let drop (gs : List Granule) : State := { s with poisoned := s.poisoned.filter (fun g => !gs.contains g) }
    let c := s.myCore
    let sl := slotOf s.cur
    match sDest opc w, w.a with
    | some n, _ => drop [.sreg c sl n.toNat]
    | none, .reg .v _ n =>
      if readsA opc && !keepsA opc then s
      else drop (((upTo 8).filter (fun i => s.lanesWritten opc w (2 * i) && s.lanesWritten opc w (2 * i + 1))).map
        (fun i => .vreg c sl n.toNat i))
    | none, .reg .m _ n => drop [.mreg c sl n.toNat]
    | none, _ => s

/-! ## Issue -/

/-- The code of a stream in records. -/
def streamNum : Stream → Nat | .S => 0 | .V => 1 | .E => 2

/-- The outcome of the guard of the word in execution (R73, R74). -/
def State.guardOf (s : State) (h : Head) : Option Bool :=
  match s.iss with
  | .queued p => p.gv
  | _ => (s.me.gGet h.guard.toNat).toBool?.map (fun b => b != h.neg)

/-- The list without the word at a place of the program order. -/
def dropSeq (n : Nat) (l : List Pending) : List Pending := l.filter (fun p => p.seq != n)

/-- The word in execution has issued: the front end goes to the next word, or the word leaves its decode queue, or the
loads that wait to be bound. -/
def State.advance (s : State) : State :=
  match s.iss with
  | .queued p => s.modMe (fun a => { a with pend := dropSeq p.seq a.pend, late := dropSeq p.seq a.late, lastIssue := s.cycle })
  | _ => s.modMe (fun a => { a with pc := a.pc + 12, lastIssue := s.cycle })

/-! ## Issue ports (R76 to R78, R446) -/

/-- The port of a core for a stream. -/
def State.port (s : State) (core : Nat) (st : Stream) : Port := tget {} (4 * core + streamNum st) s.ports
/-- The state with a port changed. -/
def State.modPort (s : State) (core : Nat) (st : Stream) (f : Port → Port) : State :=
  { s with ports := tset {} (4 * core + streamNum st) (f (s.port core st)) s.ports }

/-- The class that a slot has in a port: a promoted slot counts as system class (R77). -/
def Act.portClass (a : Act) (st : Stream) : Nat := if a.promoted.contains st then 0 else a.cls.code

/-- The turn of a port's holder ends, and with it a promotion in that port (R76, R77). -/
def State.endTurn (s : State) (core : Nat) (st : Stream) : State :=
  match (s.port core st).holder with
  | none => s
  | some j =>
    (s.modAct (8 * core + j) (fun a => { a with promoted := a.promoted.filter (· != st) })).modPort core st
      (fun p => { p with holder := none, count := 0 })

/-- A slot takes the turn of a port (R76): it has the class's last turn, and no YIELD of another slot waits for it. -/
def State.beginTurn (s : State) (core slot : Nat) (st : Stream) : State :=
  if (s.port core st).holder == some slot then s
  else
    let c := (s.act (8 * core + slot)).portClass st
    (s.endTurn core st).modPort core st (fun p =>
      { p with holder := some slot, count := 0, last := tset 0 c (slot + 1) p.last
               waits := p.waits.map (fun e => (e.1, (e.2.1.filter (· != slot), e.2.2))) })

/-- A slot goes to the end of its class's order in every stream (R78, R446). -/
def State.yieldSlot (s : State) (core slot : Nat) : State :=
  [Stream.S, .V, .E].foldl (fun s st =>
    let c := (s.act (8 * core + slot)).portClass st
    let s := if (s.port core st).holder == some slot then s.endTurn core st else s
    s.modPort core st (fun p => { p with last := tset 0 c (slot + 1) p.last })) s

/-- Slots of a core, other than one and of its class, that its port has found ready. -/
def State.readyPeers (s : State) (core slot : Nat) (st : Stream) : List Nat :=
  let c := (s.act (8 * core + slot)).portClass st
  (upTo 8).filter (fun j => j != slot && (tget none j (s.port core st).ready).isSome && (s.act (8 * core + j)).portClass st == c)

/-- The word in execution takes a place of its slot's turn in its core's port (R76). STALL keeps the slot from that port for
its cycles; after a YIELD the slot waits there for its ready peers (R78, R446). -/
def State.turnTaken (s : State) (opc : Nat) (h : Head) : State :=
  let core := s.myCore
  let slot := slotOf s.cur
  ((s.beginTurn core slot h.stream).modMe (fun a => { a with words := a.words + 1 })).modPort core h.stream (fun p =>
    { p with count := p.count + 1, issued := p.issued + 1, ready := tset none slot none p.ready
             stalled := if h.stall = 0 then p.stalled else tset 0 slot (s.cycle + h.stall.toNat) p.stalled
             waits := if opc = 0x098 then tset ([], 0) slot (s.readyPeers core slot h.stream, s.cycle + 256) p.waits else p.waits })

/-- The turn ends after END, after YIELD, and after eight words (R76, R78). -/
def State.turnEnded (s : State) (opc : Nat) (h : Head) : State :=
  if h.fin || opc = 0x098 || 8 ≤ (s.port s.myCore h.stream).count then s.endTurn s.myCore h.stream else s

/-- The word in execution has gone through its core's port: the turn, and the hint items that act at issue (R76, R78). A load
that is being bound went through it when it issued (R157). -/
def State.turned (s : State) (opc : Nat) (h : Head) : State :=
  if s.binding then s else
  let t := (s.turnTaken opc h).turnEnded opc h
  if h.yield || opc = 0x098 then t.yieldSlot s.myCore (slotOf s.cur) else t

/-- A word whose guard is false has gone through its core's port; YIELD, and the hint that it carries, then have no effect
(R74, R446). -/
def State.turnedOff (s : State) (opc : Nat) (h : Head) : State :=
  if opc = 0x098 then s.turned 0 { h with fin := false, yield := false } else s.turned opc h

/-- Captured values in the decode queues. -/
def Act.captured (a : Act) : Nat := (a.pend.map (fun p => p.caps.length)).foldl (· + ·) 0

/-- The bits of the word in execution (R44 to R54). -/
def wordOfFields (opc : Nat) (w : Operands) : IWord :=
  match entryOf opc with | some e => encodeWord opc e.layout w | none => 0

/-- The word at the front end as it waits in a decode queue (R66, R69, R73). -/
def State.asPending (s : State) (opc : Nat) (w : Operands) : Pending :=
  let a := s.me
  { pc := a.pc, word := wordOfFields opc w, strm := w.head.stream, gv := s.guardOf w.head, vl := a.vl, vlGen := a.vlGen
    fpctl := a.fpctl, stamp := a.stamp, seq := a.seq
    gold := (gDests opc w).map (fun n => (n, a.gGet n == .t))
    caps := (sSources opc w).map (fun n =>
      { num := n, val := a.sGet n.toNat, dfr := a.sDef n.toNat, poison := s.badReg false n.toNat }) }

/-- The word in execution by its place in program order, 1 and up: what owner requests name (R173). -/
def State.wordId (s : State) : Nat := (match s.iss with | .queued p => p.seq | _ => s.me.seq) + 1
/-- The word in execution asks for no page any more. -/
def State.unasked (s : State) : State := s.withdraw (fun w => w.key == s.cur && w.word == s.wordId)

/-- Whether nothing of an activation has issued since an access of it did: it may still fault precisely (R161, R193). -/
def Act.lastIssued (a : Act) (p : Pending) : Bool := p.mark == a.words

/-- An access of slot k that has issued, and whose value has not come, faults: it has not issued then (R161), and its word stands
again where it stood. -/
def State.lateFault (s : State) (k : Nat) (p : Pending) (f : FaultReq) : State :=
  let f := { f with strm := streamNum p.strm }
  let s := s.modAct k (fun a => { a with late := dropSeq p.seq a.late })
  if p.strm == .S then (s.modAct k (fun a => { a with pc := p.pc })).takeFaultAt k f p.pc
  else
    (s.modAct k (fun a => { a with
      pend := a.pend.filter (fun q => q.seq < p.seq) ++ p :: a.pend.filter (fun q => p.seq < q.seq) })).takeFaultAt k f p.pc (some p.seq)

/-- A fault of the word in execution (R193): a V or E word stays pending, in its place in program order, and a guard that it
writes is unresolved (R73). -/
def State.takeFault (s : State) (opc : Nat) (w : Operands) (f : FaultReq) : State :=
  let f := { f with strm := streamNum w.head.stream }
  match s.iss with
  | .queued p => if s.binding then s.lateFault s.cur p f else s.takeFaultAt s.cur f p.pc (some p.seq)
  | _ =>
    let pc := s.me.pc
    if w.head.stream == .S then s.takeFaultAt s.cur f pc
    else
      let p := s.asPending opc w
      (s.modMe (fun a =>
        let a := (gDests opc w).foldl (fun a n => a.gSet n .unres) a
        { a with pend := a.pend ++ [p], seq := a.seq + 1, pc := a.pc + 12 })).takeFaultAt s.cur f pc (some p.seq)

/-- Whether the decode queues have room for one more word with its captured values (R201); an open repetition keeps one
place for its own pending word (R261). -/
def State.queueRoom (s : State) (opc : Nat) (w : Operands) : Bool :=
  let a := s.me
  a.pend.length + (if a.rpt.isSome then 1 else 0) < 16 && a.captured + (sSources opc w).length ≤ 16

/-- The front end decodes a V or E word into its queue (R66, R69, R73, R130, R201); it stops while a limit holds. -/
def State.enqueue (s : State) (opc : Nat) (w : Operands) : State :=
  let s := s.unparkSources opc w
  let a := s.me
  let g := w.head.guard.toNat
  let gv := s.guardOf w.head
  let counts := w.head.stream == .E && gv.isNone
  let writes := gDests opc w
  if !s.queueRoom opc w || (counts && 15 ≤ tget 0 g a.gcnt) ||
      writes.any (fun n => a.gGet n == .unres) || s.lateBusy opc w then s
  else
    let p := s.asPending opc w
    s.modMe (fun a =>
      let a := writes.foldl (fun a n => a.gSet n .unres) a
      { a with pend := a.pend ++ [p], seq := a.seq + 1, pc := a.pc + 12,
               gcnt := if counts then tset 0 g (tget 0 g a.gcnt + 1) a.gcnt else a.gcnt })

/-- The state after a word's effect. `queues`: a V or E word that stalls at the front end goes to its queue. -/
def conclude (opc : Nat) (w : Operands) (queues : Bool) (r : Res) : State :=
  match r with
  | .done s => ((s.cleanDest opc w).turned opc w.head).advance
  | .goto s pc => ((s.cleanDest opc w).turned opc w.head).modMe (fun a => { a with pc := pc, lastIssue := s.cycle })
  | .halt s => s.turned opc w.head
  | .stall s =>
    match s.iss with
    | .queued _ => s
    | _ => if queues && w.head.stream != .S then s.enqueue opc w else s
  | .wait s => s
  | .fault f s => s.takeFault opc w f

/-- Whether a pending VLGET writes an s register that the word names (R68, R69, R434). -/
def State.vlgetPending (s : State) (opc : Nat) (w : Operands) : Bool :=
  s.me.pend.any (fun p =>
    p.gv != some false &&
    match p.fields with
    | some (0x10A, v) =>
      (sSources opc w).contains (BitVec.ofNat 6 (opndNum v.a)) || sDest opc w == some (BitVec.ofNat 6 (opndNum v.a))
    | _ => false)

/-- Whether the word, an access, is held back by earlier words (R159, R160, R163). -/
def State.accessHeld (s : State) (opc : Nat) (w : Operands) : Bool :=
  match s.touchOf opc w with | none => false | some t => s.heldBack t

/-- A word's effect, once its registers are back from where they are parked and none of them is poisoned. -/
def State.run (s : State) (opc : Nat) (w : Operands) (eff : State → Res) : Res :=
  let s := s.unparkSources opc w
  match s.poisonedReg opc w with
  | some f => .fault f s
  | none => eff s

/-- An engine command whose guard is false is accepted, and reads no register that could fault (R74). -/
def State.runOff (s : State) (opc : Nat) (w : Operands) (eff : State → Res) : Res := eff (s.unparkSources opc w)

/-- An engine command whose guard is unresolved is accepted (R74); where its acceptance would fault, it waits for the guard,
since it does not fault if the guard resolves false. -/
def State.runHeld (s : State) (opc : Nat) (w : Operands) (eff : State → Res) : State :=
  match s.run opc w eff with
  | .fault _ _ => s
  | r => conclude opc w false r

/-- A word at the front end of a running slot (R66, R73, R74). -/
def State.atFront (s : State) (opc : Nat) (w : Operands) (serial : Bool) (eff : State → Res) : State :=
  let st := w.head.stream
  let cmd := isEngineCmd opc
  let busy := s.me.pend.any (fun p => p.strm == st)
  if s.vlgetPending opc w || s.lateBusy opc w then s
  else if (gDests opc w).any (fun n => s.me.gGet n == .unres) then s
  else if serial && (!s.me.pend.isEmpty || !s.me.late.isEmpty || s.accepting) then s
  else if st != .S && !s.queueRoom opc w then s
  else if st != .S && !serial && (busy || (st == .E && s.accepting)) then s.enqueue opc w
  else
    match s.guardOf w.head with
    | none => if st == .S || serial then s else s.enqueue opc w
    | some false => if cmd then conclude opc w (!serial) (s.runOff opc w eff) else (s.turnedOff opc w.head).advance
    | some true =>
      if s.accessHeld opc w then (if st == .S || serial then s else s.enqueue opc w)
      else conclude opc w (!serial) (s.run opc w eff)

/-- STEPS of an MMA (R244). -/
def Cmd.steps (c : Cmd) : Nat := (bits (nth 0 c.vals 1) 32 16).toNat

/-- The row-progress record of tile z as the matrix queue stands: that of the oldest MMA on it whose guard is not unresolved or
false, or of the last one (R247, R262, R264). -/
def Core.syncRow (x : Core) (z : Nat) : Core :=
  let old := tget {} z x.rows
  let r : RowProg := match x.matrixQ.find? (fun c => c.op == .mma && c.z == z && c.guard == some true) with
    | some c => { busy := true, parked := c.parked.isSome, slot := slotOf c.key, done := c.done, total := 2 * c.steps }
    | none => { old with busy := false, parked := false }
  { x with rows := tset {} z r x.rows }

/-- The row-progress records of a core's window (R247). -/
def Core.syncRows (x : Core) : Core := (upTo 8).foldl Core.syncRow x

/-- A guard written by V resolves (R73): the words that wait for it take its value, its counter clears (R130), and
engine commands held at it go on. -/
def State.resolveGuard (s : State) (g : Nat) (v : Bool) : State :=
  let uid := s.me.uid
  let cmds (l : List Cmd) : List Cmd :=
    l.map (fun c => if c.uid == uid && c.gnum == g && c.guard.isNone then { c with guard := some (v != c.gneg) } else c)
  let s := s.modMe (fun a =>
    { a.gSet g (GVal.ofBool v) with
      gcnt := tset 0 g 0 a.gcnt
      pend := a.pend.map (fun p =>
        match p.gv with
        | some _ => p
        | none =>
          let h := decodeHead p.word
          if h.guard.toNat == g then { p with gv := some (v != h.neg) } else p) })
  { s with cores := s.cores.map (fun (e : Nat × Core) =>
      (e.1, { e.2 with matrixQ := cmds e.2.matrixQ, copyQ := cmds e.2.copyQ, colQ := cmds e.2.colQ }.syncRows)) }

/-- A queued word whose guard is false leaves its queue with no effect: the guards that it would have written resolve to
what they were (R73, R74). -/
def State.passOver (s : State) (opc : Nat) (w : Operands) : State :=
  let gold := match s.iss with | .queued p => p.gold | _ => []
  gold.foldl (fun s g => s.resolveGuard g.1 g.2) (s.turnedOff opc w.head).advance

/-- The oldest word of a decode queue (R66, R74). An engine command needs no resolved guard. -/
def State.fromQueue (s : State) (opc : Nat) (w : Operands) (eff : State → Res) : State :=
  let cmd := isEngineCmd opc
  if (w.head.stream == .E && s.accepting) || s.lateBusy opc w then s
  else match s.guardOf w.head with
  | none => if cmd && !s.accessHeld opc w then s.runHeld opc w eff else s
  | some false => if cmd then conclude opc w false (s.runOff opc w eff) else s.passOver opc w
  | some true => if s.accessHeld opc w then s else conclude opc w false (s.run opc w eff)

/-- Whether the slot may issue from where the word comes (R63). Once a word has faulted, those before it in program order
still may until the frame is written, and a load still is bound (R161, R193, R194). -/
def State.mayIssue (s : State) : Bool :=
  match s.iss with
  | .queued p => s.me.st == .running || s.me.st == .waiting ||
    (s.me.st == .saving && (s.me.late.any (fun q => q.seq == p.seq) ||
      (match s.me.save with
        | some v => v.fault.isSome && (match v.at_ with | some n => p.seq < n | none => true)
        | none => false)))
  | _ => s.me.st == .running && s.me.asked.isNone

/-- Loads whose value may come after they have issued (R155, R157): from GLB or SHM. -/
def deferrable (opc : Nat) : Bool := [0x180, 0x182, 0x188, 0x18A, 0x190, 0x192].contains opc

/-- The level-4 entries, by page number, of the GLB pages that a load touches, where compute dies own them all: only such a load
binds later than it issues, since the accesses to host space and to devices are performed in the order of issue (R125, R157). -/
def State.latePages (s : State) (opc : Nat) (w : Operands) : Option (List (Nat × Word)) :=
  match s.touchOf opc w with
  | none => none
  | some t =>
    if t.space != 4 then some []
    else if t.runs.any (fun r => s.myPart.pushMeets r.1 r.2) then none
    else ((t.runs.flatMap (fun r => [r.1 / 65536, (r.1 + r.2 - 1) / 65536])).dedup).foldr (fun n l =>
      match l, s.walk s.myPart.asid (65536 * n) with
      | some l, .ok p => if p.path.owned then some ((n, p.raw) :: l) else none
      | _, _ => none) (some [])

/-- A load has issued, and will be bound later (R157): by the pages and the T4 table that it issued with (R121, R232). -/
def State.postpone (s : State) (opc : Nat) (w : Operands) (pages : List (Nat × Word)) : State :=
  let s := s.unparkSources opc w
  let p := match s.iss with | .queued p => p | _ => s.asPending opc w
  let next := match s.iss with | .queued _ => 0 | _ => 1
  let p := { p with pages := pages, t4 := (s.core s.myCore).t4, mark := s.me.words + 1 }
  (s.turned opc w.head).advance.modMe (fun a => { a with late := a.late ++ [p], seq := a.seq + next })

/-- Whether the word in execution has left its destination deferred (R195): it has done with. -/
def State.leftDeferred (s : State) (w : Operands) : Bool :=
  match w.a with
  | .reg .s _ n => s.me.sDef n.toNat
  | .reg .v _ n => s.me.vDef n.toNat
  | _ => false

/-- Words that a port has issued. -/
def State.issuedBy (s : State) (st : Stream) : Nat := (s.port s.myCore st).issued

/-- The meaning of an instruction word from its effect. `serial`: the word issues only after every earlier word of the
activation has issued (R70, R143). -/
def issueWord (opc : Nat) (w : Operands) (serial : Bool) (eff : State → Res) (s : State) : State :=
  if !s.mayIssue then s
  else
    let s' := match s.iss with
      | .queued _ => s.fromQueue opc w eff
      | .hold => if w.head.stream == .S || serial || s.vlgetPending opc w then s else s.enqueue opc w
      | .front => s.atFront opc w serial eff
    if s.later && deferrable opc && s'.issuedBy w.head.stream != s.issuedBy w.head.stream && s.guardOf w.head == some true &&
      !s'.leftDeferred w
    then (match s.latePages opc w with | some pages => s.postpone opc w pages | none => s') else s'

/-- A word's meaning as an outcome. -/
def issue (opc : Nat) (w : Operands) (eff : State → Res) (s : State) : Host.Outcome State Fault Refusal :=
  .next (issueWord opc w false eff s)

/-- The meaning of a word that serialises. -/
def issueSerial (opc : Nat) (w : Operands) (eff : State → Res) (s : State) : Host.Outcome State Fault Refusal :=
  .next (issueWord opc w true eff s)

end Sys2Proof.Machine
end

