-- ==== Sys2Proof/Machine/Owner.lean ====
section
/-!
DEFINITION. What happens at a page's owner: line leases (R187), atomic counters and the start of a migration (R175, R176,
R186), atomics and reductions in the owner order (R157, R165, R346), weirs (R236, R237) and exact accumulators (R239).
-/

namespace Sys2Proof.Machine

/-! ## Migrations -/

/-- A physical address after the frame at `old` has become the frame at `new`. -/
def moveAddr (old new size a : Nat) : Nat := if old ≤ a && a < old + size then new + (a - old) else a

/-- An outbox entry's addresses after a frame has moved. -/
def OutEntry.moved (f : Nat → Nat) (e : OutEntry) : OutEntry :=
  if e.shm then e
  else { e with kind := match e.kind with
      | .write cells => .write (cells.map (fun c => (f c.1, c.2)))
      | .red a t v x => .red (f a) t v x
      | .amo a t op v e n q => .amo (f a) t op v e n q }

/-- What waits on a block follows its frame. -/
def WaitOn.moved (f : Nat → Nat) : WaitOn → WaitOn
  | .signal h r t => .signal (f h) r t
  | w => w

/-- FRAME of a level-4 entry replaced (R120, R176). -/
def withFrame (e : Word) (frame : Nat) : Word :=
  (e &&& ~~~(0x7FFFFFFF0000#64)) ||| BitVec.ofNat 64 (frame / 65536 % 2 ^ 31 * 65536)

/-- What a load keeps of its pages after a frame has moved. -/
def Pending.moved (f : Nat → Nat) (p : Pending) : Pending :=
  { p with pages := p.pages.map (fun e => (e.1, withFrame e.2 (f ((bits e.2 16 31).toNat * 65536)))) }

/-- An activation's addresses after a frame has moved. -/
def Act.moved (f : Nat → Nat) (a : Act) : Act :=
  { a with outbox := a.outbox.map (OutEntry.moved f), late := a.late.map (Pending.moved f), wait := a.wait.map (fun w => { w with on := w.on.moved f }) }

/-- An ownership message's line after a frame has moved. -/
def OMsg.moved (f : Nat → Nat) : OMsg → OMsg
  | .leaseGrant l d v => .leaseGrant (f (64 * l) / 64) d v
  | .leaseRecall l d => .leaseRecall (f (64 * l) / 64) d
  | .leaseReturn l d v => .leaseReturn (f (64 * l) / 64) d v
  | m => m

/-- The contents of a frame, and all that the part keeps by its addresses, at a new frame (R176 step 5): leases and exact
accumulators there are those of the new owner. -/
def State.moveFrame (s : State) (old new size : Nat) : State :=
  let inOld (a : Nat) : Bool := old ≤ a && a < old + size
  let f := moveAddr old new size
  let moved := s.glb.filter (fun c => inOld c.1)
  let kept := s.glb.filter (fun c => !(new ≤ c.1 && c.1 < new + size))
  { s with
    glb := mput (moved.map (fun c => (f c.1, c.2))) kept
    flight := s.flight.map (fun w => { w with cells := w.cells.map (fun c => (f c.1, c.2)) })
    acts := s.acts.map (fun e => (e.1, e.2.moved f))
    framed := s.framed.map (fun e => (e.1, e.2.moved f))
    sigs := s.sigs.foldl (fun t e => tset [] (f e.1) e.2 t) []
    homeOps := s.homeOps.map (fun o => { o with home := f o.home })
    poisoned := s.poisoned.map (fun g => match g with | .glb a => .glb (f a) | g => g)
    leases := s.leases.map (fun e => (f (64 * e.1) / 64, e.2))
    leaseFor := s.leaseFor.map (fun e => (f (64 * e.1) / 64, e.2))
    omsgs := s.omsgs.map (OMsg.moved f)
    exacts := s.exacts.map (fun e => (16 * f (e.1 / 16) + e.1 % 16, e.2)) }

/-- Lines under lease of a stretch of physical addresses. -/
def State.leasedLines (s : State) (a n : Nat) : List Nat :=
  (s.leases.filter (fun e => e.2.isSome && a ≤ 64 * e.1 && 64 * e.1 < a + n)).map (·.1)

/-- The old owner of a page has completed what it had accepted, has its leases and copies back, and becomes the stub
(R176 steps 1 to 3); the page's exact accumulators close (R239). -/
def State.settle (s : State) (o k : Nat) : State :=
  match tget none k (s.die o).outgoing with
  | none => s
  | some g =>
    let (frame, entry) := match s.walk (asidOfKey k) (vaOfKey k) with | .ok p => (p.frame, p.raw) | .error _ => (0, 0)
    let inside (a : Nat) : Bool := frame ≤ a && a < frame + pageSpan g.size
    let busy := !(s.leasedLines frame (pageSpan g.size)).isEmpty || s.copiesOut k ||
      s.omsgs.any (fun m => match m with | .leaseGrant l _ _ => inside (64 * l) | _ => false) ||
      s.acts.any (fun a => a.2.outbox.any (fun e => !e.shm && (e.drained || e.dupWait) && s.homeOf e.page == k))
    if g.quiet || busy then s
    else
      let s := s.modDie o (fun x =>
        { x with
          outgoing := tset none k (some { g with quiet := true }) x.outgoing
          stubs := tset none k (some { target := g.new, frame := frame, since := s.cycle }) x.stubs })
      { s with
        omsgs := s.omsgs ++ [.begin_ k o g.new frame g.newFrame g.size entry, .update k g.new true]
        exacts := s.exacts.filter (fun e => !inside (e.1 / 16)) }

/-- Whether a message of a page's last move is still on its way to the home, or the move is not over (R175, R183). -/
def State.moveOpen (s : State) (k o : Nat) : Bool :=
  (s.home k).moving || (tget none k (s.die o).outgoing).isSome || (tget none k (s.die o).incoming).isSome ||
    (tget none k (s.die o).stubs).isSome || s.omsgs.any (fun m => match m with | .update p _ _ => p == k | _ => false)

/-- A migration of the page of a key to a die starts, if R175 allows it. One entry of the destination's pool serves as the
frame of a page or of a group, and holds its first physical address (log entry 107). -/
def State.startMigration (s : State) (k dest : Nat) : Option State :=
  let h := s.home k
  match s.walk (asidOfKey k) (vaOfKey k) with
  | .error _ => none
  | .ok p =>
    let va := vaOfKey k
    let span := pageSpan h.size
    let inWeir := s.weirs.any (fun e => e.2.valid && e.2.base < va + span && va < e.2.base + e.2.length)
    match (s.die dest).pool with
    | [] => none
    | f :: rest =>
      if !h.valid || !p.mig || !p.path.owned || h.pinned || inWeir || dest == h.owner || s.moveOpen k h.owner then none
      else
        let s := s.modDie dest (fun x => { x with pool := rest })
        let s := s.modDie h.owner (fun x =>
          { x with outgoing := tset none k (some { new := dest, newFrame := f, size := h.size }) x.outgoing
                   counters := tset [] k [] x.counters })
        let s := (s.leasedLines p.frame span).foldl State.recallLease s
        some ((s.dupRecall k).settle h.owner k)

/-- A slice holds counters for 4,096 pages (R186): for a further page, one of them, which the spec leaves open (log entry
7), loses its counters. -/
def State.counterRoom (s : State) (o k : Nat) : State :=
  let l := (s.die o).counters
  if l.length < 4096 || l.any (fun e => e.1 == k) then s
  else
    let i := (Config.freeValue s.fresh).toNat % 4096
    { (s.modDie o (fun x => { x with counters := dropNth x.counters i })) with fresh := s.fresh + 1 }

/-- An atomic of die `d` arrives at the owner's home slice of a page: it is counted in normal mode, and the counters may
start a migration (R186). -/
def State.countAtomic (s : State) (p : Part) (d k : Nat) : State :=
  let o := (s.home k).owner
  if p.hint then s
  else
    let s := s.counterRoom o k
    let l := tget [] k (s.die o).counters
    let get (x : Nat) : Nat := ((l.find? (fun e => e.1 == x)).map (·.2)).getD 0
    let n := min 255 (get d + 1)
    let s' := s.modDie o (fun x => { x with counters := tset [] k ((d, n) :: l.filter (fun e => e.1 != d)) x.counters })
    if d != o && p.thresh != 0 && get o + p.thresh ≤ n then (s'.startMigration k d).getD s' else s'

/-! ## Values at the owner -/

/-- The new value of an atomic (R346): operation, TYPE, old value, operand. -/
def amoVal (op : Nat) (t : Ty) (old x : Word) : Word :=
  match op with
  | 0 => x
  | 1 => if t.isFloat then (faddVal' t old x) else old + x
  | 2 => old &&& x
  | 3 => old ||| x
  | 4 => old ^^^ x
  | 5 => if t.isFloat then minmax t false old x else if t.value old.toNat ≤ t.value x.toNat then old else x
  | _ => if t.isFloat then minmax t true old x else if t.value x.toNat ≤ t.value old.toNat then old else x
where
  /-- One rounding to nearest even, denormals kept, no flags. -/
  faddVal' (t : Ty) (a b : Word) : Word :=
    BitVec.ofNat 64 (t.fmt.add .rne false (t.fmt.decode false a.toNat) (t.fmt.decode false b.toNat)).1
  /-- minimumNumber and maximumNumber. -/
  minmax (t : Ty) (ismax : Bool) (a b : Word) : Word := BitVec.ofNat 64 (t.fmt.minmax ismax false a.toNat b.toNat).1

/-- An update of a weir element by contributions, several where they have merged: the state of the window after it, and the
word to write (R236, R237). -/
def State.weirUpdate (s : State) (i pa : Nat) (xs : List Word) : State × Word :=
  let e := tget {} i s.weirs
  let terms := xs.map (weirTerm e.ty e.expb)
  let t := (terms.map (·.1)).foldl (· + ·) (s.weirTotal i pa)
  let status := (terms.map (·.2)).foldl (· ||| ·) (tget 0 i s.weirStat)
  let (w, ovr) := weirWord e.ty e.expb (status.getLsbD 2) t
  ({ s with weirTot := tset none (16 * pa + i) (some t) s.weirTot
            weirStat := tset 0 i (status ||| (if ovr then 2 else 0)) s.weirStat }, w)

/-- A value in units of the least unit of an exact accumulator, or its special mark: 1 +∞, 2 −∞, 4 NaN (R239). -/
def exactTerm (t : Ty) (x : Word) : Int × Nat :=
  match t.fmt.decode false x.toNat with
  | .nan _ => (0, 4)
  | .inf n => (0, if n then 2 else 1)
  | .fin n m e => (signed n (m * 2 ^ (e - (t.fmt.emin - t.fmt.fbits)).toNat), 0)

/-- The value of an exact total with its special marks, rounded once (R239). -/
def exactWord (t : Ty) (total : Int) (sp : Nat) : Word :=
  BitVec.ofNat 64
    (if 4 ≤ sp || sp == 3 then t.fmt.qnan
    else if sp == 1 then t.fmt.infBits false
    else if sp == 2 then t.fmt.infBits true
    else (t.fmt.round .rne false (total < 0) total.natAbs (t.fmt.emin - t.fmt.fbits)).1)

/-- Places that an accumulator takes of its slice's 16,384: one for .f32, eight for .f64 (R239). -/
def exactCost (key : Nat) : Nat := if key % 16 = 8 then 8 else 1

/-- The least recently used of some accumulators on a die. -/
def oldestExact (d : Nat) : Tab (Option Exact) → Option (Nat × Nat)
  | [] => none
  | (k, some e) :: r =>
    match oldestExact d r with
    | some o => if e.die = d && e.used < o.2 then some (k, e.used) else some o
    | none => if e.die = d then some (k, e.used) else none
  | (_, none) :: r => oldestExact d r

/-- Places in use on a die's slice. -/
def exactUse (d : Nat) (l : Tab (Option Exact)) : Nat :=
  l.foldl (fun n e => match e.2 with | some x => if x.die = d then n + exactCost e.1 else n | none => n) 0

/-- Least recently used accumulators close until a slice has room for one more (R239). -/
def exactRoom (d cost : Nat) (l : Tab (Option Exact)) : Nat → Tab (Option Exact)
  | 0 => l
  | fuel + 1 =>
    if exactUse d l + cost ≤ 16384 then l
    else match oldestExact d l with
      | some o => exactRoom d cost (l.filter (fun e => e.1 != o.1)) fuel
      | none => l

/-- An addition to an exact accumulator at the home slice of die `o`: the state, and the word to write (R239). -/
def State.exactUpdate (s : State) (o pa : Nat) (t : Ty) (x : Word) : State × Word :=
  let key := 16 * pa + t.bytes
  let s := s.closeExact pa t.bytes (some key)
  let (t0, sp0) := match tget none key s.exacts with
    | some v => (v.total, v.sp)
    | none => exactTerm t (BitVec.ofNat 64 (leNat (mread pa t.bytes s.glb)))
  let (d, m) := exactTerm t x
  let total := t0 + d
  let sp := sp0 ||| m
  let rest := exactRoom o (exactCost key) (s.exacts.filter (fun e => e.1 != key)) 8
  ({ s with exacts := tset none key (some { total := total, sp := sp, die := o, used := s.nextWid }) rest
            nextWid := s.nextWid + 1 }, exactWord t total sp)

/-- A write of GLB bytes in the owner order on behalf of die `d` (R157, R158, R165). -/
def State.writeGlb (s : State) (d wid pa : Nat) (dup : Bool) (bs : List Byte) (merged : List (Nat × Nat) := []) : State :=
  (s.unpoison glbGranule pa bs.length).drainCells d wid (cellsAt pa bs) dup merged

/-! ## Outbox entries at the owner -/

/-- The first address of an outbox entry. -/
def OutEntry.first (e : OutEntry) : Nat :=
  match e.kind with | .write cells => (cells.headD (0, 0)).1 | .red a _ _ _ => a | .amo a _ _ _ _ _ _ => a

/-- An outbox entry removed. -/
def State.dropEntry (s : State) (k i : Nat) : State := s.modAct k (fun a => { a with outbox := dropNth a.outbox i })

/-- An outbox entry marked. -/
def State.markEntry (s : State) (k i : Nat) (f : OutEntry → OutEntry) : State :=
  s.modAct k (fun a => { a with outbox := a.outbox.mapIdx (fun j e => if j = i then f e else e) })

/-- A write leaves for its place in the owner order. -/
def State.drainWrite (s : State) (k i : Nat) (e : OutEntry) (cells : List (Nat × Byte)) : State :=
  let s := (s.dropEntry k i).sealWeir e.page cells
  let s := cells.foldl (fun s c => s.closeExact c.1 1) s
  let s := if s.poisoned.isEmpty then s else { s with poisoned := s.poisoned.filter (fun g =>
    !(cells.any (fun c => glbGranule c.1 == g && (from_ (c.1 / 8 * 8) 8).all (fun y => cells.any (fun d => d.1 == y))))) }
  s.drainCells (dieOf (coreOf k)) e.wid cells e.dup

end Sys2Proof.Machine
end

