-- ==== Sys2Proof/Machine/Access.lean ====
section
/-!
DEFINITION. One access of an activation to LOC, SHM or GLB: its checks in the order of R104, R107, R112, R125 and R347, the
bytes that a load binds (R105, R157), and the writes that a store issues (R105, R157, R158, R327).
-/

namespace Sys2Proof.Machine

/-- Where a stretch of bytes lies. -/
inductive Loca where | loc | shm | glb | host | mmio
  deriving DecidableEq, Repr

/-- A stretch of bytes of one access that lies in one page, or in LOC or SHM. `key` is the key of its first byte in that
memory, `va` its address as the program sees it, `pkey` its page key. -/
structure Piece where
  at_  : Loca
  key  : Nat
  va   : Nat := 0
  n    : Nat
  page : Page := {}
  pkey : Nat := 0
  deriving DecidableEq, Repr

/-- The outcome of an access's checks. -/
inductive ARes where
  | ok (s : State) (ps : List Piece)
  | stall (s : State)
  | fault (f : FaultReq) (s : State)
  deriving DecidableEq, Repr

/-- Step 1 of R104: the range of a space. -/
def rangeFault (sp : Nat) (a : Word) : Option FaultReq :=
  match sp with
  | 1 => if 2 ^ 15 ≤ a.toNat then some { code := 0x08, space := 1, addr := a } else none
  | 2 => if 0x6000000 ≤ a.toNat then some { code := 0x09, space := 2, addr := a } else none
  | _ => glbRange a 1

/-- Whether a LOC byte lies in a firing's token window, which the firing reads (R84). -/
def State.windowed (s : State) (off : Nat) : Bool := s.me.origin == .firing && inWindow off

/-- The GLB piece of a page check's outcome. -/
def pieceOf (asid : Nat) (x : Page × Nat × Nat × Nat) : Piece :=
  let (p, va, pa, n) := x
  { at_ := match p.path with | .host => .host | .mmio => .mmio | _ => .glb
    key := pa, va := va, n := n, page := p, pkey := pageKey asid (va / 65536) }

/-- Step 3 of R104: the space's own checks. -/
def State.access (s : State) (sp : Nat) (u : Use) (va n : Nat) (extra : Nat → Page → Option FaultReq) : ARes :=
  match sp with
  | 1 =>
    let ok := (from_ va n).all (fun o => if u == .load then s.me.locRead o else s.me.locWrite o)
    if ok then .ok s [{ at_ := .loc, key := 32768 * s.myCore + va, va := va, n := n }]
    else .fault { code := 0x08, space := 1, addr := BitVec.ofNat 64 va } s
  | 2 =>
    let p := s.myPart
    if p.shmBase s.myDie ≤ va && va + n ≤ p.shmBase s.myDie + p.shmSize s.myDie then
      .ok s [{ at_ := .shm, key := 2 ^ 27 * s.myDie + va, va := va, n := n }]
    else .fault { code := 0x09, space := 2, addr := BitVec.ofNat 64 va } s
  | _ =>
    if s.myPart.pushMeets va n then .fault { code := 0x0E, space := 4, addr := BitVec.ofNat 64 va } s
    else
      let asid := s.myPart.asid
      match s.useGlb s.myDie s.cur asid va n u extra s.wordId with
      | .stall s => .stall s
      | .fault f s => .fault f s
      | .ok s l => .ok s (l.map (pieceOf asid))

/-- FORMAT_MISMATCH on an SB or T4 page (R122). -/
def packedFault (va : Nat) (p : Page) : Option FaultReq :=
  if p.fmt.packed then some { code := 0x0D, space := 4, addr := BitVec.ofNat 64 va, info := BitVec.ofNat 64 p.fmt.code } else none

/-- WEIR_ACCESS in a valid weir (R167). -/
def State.weirFault (s : State) (va : Nat) : Option FaultReq :=
  (s.weirAt va).map (fun i => { code := 0x0F, space := 4, addr := BitVec.ofNat 64 va, info := BitVec.ofNat 64 i })

/-- The first of two faults. -/
def orFault (a b : Option FaultReq) : Option FaultReq := match a with | some f => some f | none => b

/-! ## Loads -/

/-- Whether a write of the activation to GLB bytes has drained and is not yet applied in its die's view (R159). -/
def State.ownPending (s : State) (a n : Nat) : Bool :=
  s.flight.any (fun w => w.dies.contains s.myDie && cellsMeet a n w.cells && s.me.own.any (fun o => w.has o.1))

/-- Whether a write came from the slot of the word in execution: from its activation, or from one that has ended there. -/
def State.slotWrote (s : State) (w : Flight) : Bool :=
  s.me.own.any (fun o => w.has o.1) || (s.core s.myCore).ended.any (fun e => e.1 == s.cur && w.has e.2)

/-- The first physical address, and the bytes, of the page or group that an address's level-4 entry belongs to (R119). -/
def Piece.unit (p : Piece) : Nat × Nat :=
  if p.page.size then (p.page.frame - p.va % 2 ^ 21 / 65536 * 65536, 2 ^ 21) else (p.page.frame, 65536)

/-- Whether a load of a stretch may bind: no reduction of the slot to its bytes waits, the activation's own writes to
them are in its outbox or its die's view (R159), and no write of the slot to a read-duplicable page waits (R158). -/
def State.bindable (s : State) (p : Piece) : Bool :=
  match p.at_ with
  | .glb => !redMeets false p.key p.n s.me.outbox && !s.ownPending p.key p.n &&
      !(p.page.dup && (s.me.outbox.any (fun e => !e.shm && e.dup && s.homeOf e.page == s.homeOf p.pkey) ||
        s.flight.any (fun w => w.dup && cellsMeet p.unit.1 p.unit.2 w.cells && s.slotWrote w)))
  | .shm => !redMeets true p.key p.n s.me.outbox
  | _ => true

/-- Bytes of the granules that the slot's outbox does not wholly supply. -/
def uncovered (shm : Bool) (a n : Nat) (l : List OutEntry) : List Nat :=
  (from_ a n).filter (fun x => !((from_ (x / 8 * 8) 8).all (fun y => (outByte shm y l).isSome)))

/-- Whether a load of a stretch meets poison (R215), or a host read that fails (R327, R328). -/
def State.spoilt (s : State) (p : Piece) : Bool :=
  match p.at_ with
  | .loc => !s.windowed p.va && s.poisonAt locGranule p.key p.n
  | .shm => !s.poisoned.isEmpty && (uncovered true p.key p.n s.me.outbox).any (fun x => s.poisoned.contains (shmGranule x))
  | .glb => !s.poisoned.isEmpty && (uncovered false p.key p.n s.me.outbox).any (fun x => s.poisoned.contains (glbGranule x))
  | .host => s.hlDown || s.me.hostFail
  | .mmio => false

/-- SPACE of R204 for a stretch. -/
def Loca.space : Loca → Nat | .loc => 1 | .shm => 2 | _ => 4

/-- POISON_CONSUMED at the first spoilt stretch, with the state after it: a failed host read is counted in HLERR. -/
def State.poisonFault (s : State) (ps : List Piece) : Option (FaultReq × State) :=
  (ps.find? s.spoilt).map (fun p =>
    ({ code := 0x15, space := p.at_.space, addr := BitVec.ofNat 64 p.va },
     if p.at_ == .host then s.hostReadFailed s.cur else s))

/-- The word of a firing's token window at an offset (R84): a token, a push address, zero, or a free value where the
spec leaves the entry undefined. -/
def State.windowWord (s : State) (off : Nat) : Word × Bool :=
  let a := s.me
  let i := (off - 0x7BC0) / 8
  if i < 128 then
    match (a.tokens.getD (i / 16) [])[i % 16]? with
    | some v => (v, false)
    | none => (Config.freeValue (s.fresh + i), true)
  else
    let outs := ((s.myPart.stages[a.stage.toNat]?).map (fun g => g.decl.outs)).getD []
    match outs[i - 128]? with
    | some o => (s.myPart.pushBase + BitVec.ofNat 64 (8 * o.1), false)
    | none => (0, false)

/-- A host read that takes its time begins (R327): the word has not issued, and is taken again when the read is over. -/
def State.startHostRead (s : State) (ps : List Piece) : Option State :=
  if s.later && s.me.hostRead != some s.wordId && ps.any (fun p => p.at_ == .host) then
    some (s.modMe (fun a => { a with hostRead := some s.wordId }))
  else none

/-- The bytes that a load of a stretch binds, and the state after it. -/
def State.loadPiece (s : State) (p : Piece) : List Byte × State :=
  match p.at_ with
  | .loc =>
    if s.windowed p.va then
      let (w, free) := s.windowWord p.va
      (leBytes p.n (w.toNat / 256 ^ (p.va % 8)), if free then { s with fresh := s.fresh + 144 } else s)
    else (mread p.key p.n s.loc, s)
  | .shm => (s.loadShm s.cur p.key p.n, s)
  | .glb => (s.loadGlb s.cur p.key p.n, s.noteIds s.cur (s.readIds s.myDie p.key p.n))
  | .host => (mread p.key p.n s.host, s.modMe (fun a => { a with hostRead := none }))
  | .mmio =>
    let bs := (upTo p.n).map (fun i => BitVec.ofNat 8 ((Config.freeValue (s.fresh + i / 8)).toNat / 256 ^ (i % 8)))
    (bs, { s with fresh := s.fresh + (p.n + 7) / 8,
                  devices := s.devices ++ [{ write := false, addr := p.key, bytes := bs }] })

/-- The bytes that a load of several stretches binds, in order. -/
def State.loadPieces (s : State) : List Piece → List Byte × State
  | [] => ([], s)
  | p :: r =>
    let (a, s) := s.loadPiece p
    let (b, s) := s.loadPieces r
    (a ++ b, s)

/-- Faults on which a .spec load defers (R195). -/
def specFault (code : Nat) : Bool :=
  [0x08, 0x09, 0x0A, 0x0B, 0x0D, 0x10, 0x11, 0x12, 0x13, 0x14, 0x15].contains code

/-- Whether an address lies on a page of PATH host-uncached or MMIO, on which a .spec load defers (R195). -/
def State.specPath (s : State) (va n : Nat) : Bool :=
  [va, va + n - 1].any (fun a => match s.walk s.myPart.asid a with | .ok p => !p.path.owned | .error _ => false)

/-! ## Stores -/

/-- The bytes of a store paired with the stretches that they go to. -/
def spread : List Piece → List Byte → List (Piece × Nat × Byte)
  | [], _ => []
  | p :: r, bs => (cellsAt p.key (bs.take p.n)).map (fun c => (p, c.1, c.2)) ++ spread r (bs.drop p.n)

/-- The cells of one line: the newest value of each byte, in the order of the first write to it. -/
def putCell (c : Nat × Byte) : List (Nat × Byte) → List (Nat × Byte)
  | [] => [c]
  | d :: r => if d.1 = c.1 then c :: r else d :: putCell c r

/-- The pieces of a store with the bytes that go to each. -/
def cutPieces : List Piece → List Byte → List (Piece × List Byte)
  | [], _ => []
  | p :: r, bs => (p, bs.take p.n) :: cutPieces r (bs.drop p.n)

/-- Whether an access to a stretch is performed as it issues, once and unmerged (R125). -/
def Piece.direct (p : Piece) : Bool := p.at_ == .host || p.at_ == .mmio

/-- One access to host space or to a device (R125, R327). -/
def State.storeDirect (s : State) (p : Piece) (bs : List Byte) : State :=
  if p.at_ == .mmio then { s with devices := s.devices ++ [{ write := true, addr := p.key, bytes := bs }] }
  else s.hostWrite p.key bs

/-- Cells gathered by line, in the order in which the lines are first touched (R157). -/
def putLine (p : Piece) (c : Nat × Byte) : List (Piece × List (Nat × Byte)) → List (Piece × List (Nat × Byte))
  | [] => [(p, [c])]
  | (q, l) :: r =>
    if q.at_ = p.at_ && (l.headD c).1 / 64 = c.1 / 64 then (q, putCell c l) :: r else (q, l) :: putLine p c r

/-- A store's writes to LOC, SHM and GLB, one a line (R157): LOC at once, SHM and GLB into the outbox. -/
def State.storeCells (s : State) (sc : Scope) (l : List (Piece × Nat × Byte)) : State :=
  let lines := l.foldl (fun acc x => putLine x.1 x.2 acc) []
  let now := lines.filter (fun x => x.1.at_ == .loc)
  let later := lines.filter (fun x => x.1.at_ == .shm || x.1.at_ == .glb)
  let s := now.foldl (fun s x =>
    let s := { s with loc := mput x.2 s.loc }
    if s.poisoned.isEmpty then s
    else { s with poisoned := s.poisoned.filter (fun g =>
      !(x.2.any (fun c => locGranule c.1 == g && (from_ (c.1 / 8 * 8) 8).all (fun y => x.2.any (fun d => d.1 == y)))) ) }) s
  s.issueEntries s.cur (later.map (fun x =>
    ({ kind := .write x.2, shm := x.1.at_ == .shm, page := x.1.pkey, scope := sc, dup := x.1.page.dup },
     if x.1.at_ == .shm then [] else x.2.map (fun c => vaOf x.1.pkey c.1))))

/-- The accesses of a store, in order: its stretches with their bytes. Host space and devices take each access by itself
(R125); the rest is written line by line. -/
def State.storeAll (s : State) (sc : Scope) (l : List (List Piece × List Byte)) : State :=
  let direct := (l.flatMap (fun x => cutPieces x.1 x.2)).filter (fun x => x.1.direct)
  (direct.foldl (fun s x => s.storeDirect x.1 x.2) s).storeCells sc
    ((l.flatMap (fun x => spread x.1 x.2)).filter (fun x => !x.1.direct))

/-- A store of bytes to the stretches of one access. -/
def State.storePieces (s : State) (sc : Scope) (ps : List Piece) (bs : List Byte) : State := s.storeAll sc [(ps, bs)]

/-! ## Push addresses (R85) -/

/-- The output port of the activation's stage that feeds an edge, and the edge. -/
def State.portOf (s : State) (e : Nat) : Option Nat :=
  if s.me.origin != .firing then none
  else (s.myPart.stages[s.me.stage.toNat]?).bind (fun g => findIdx (fun o : Nat × Nat => o.1 == e) g.decl.outs)

/-- EMIT units that the activation owes for an edge. -/
def State.emitOwed (s : State) (e : Nat) : Nat :=
  match s.portOf e with | some p => s.me.oblUnits .emit (emitHandle p) | none => 0

/-- One token pushed into the place that firing start reserved. -/
def State.pushToken (s : State) (e : Nat) (v : Word) : State :=
  let stamp := s.me.stamp
  let s := match s.portOf e with
    | some p => s.modMe (fun a => a.oblDischarge .emit (emitHandle p))
    | none => s
  s.modPart s.me.part (fun p =>
    { p with edges := p.edges.mapIdx (fun i x =>
        if i = e then { x with tokens := x.tokens ++ [(v, stamp)], reserved := x.reserved - 1 } else x) })

end Sys2Proof.Machine
end

