-- ==== Sys2Proof/Machine/Flags.lean ====
section
/-!
DEFINITION. Flag and result computations of scalar and lane instructions (R217 to R222, R225 to R227, R344, R384, R402):
each gives the result contents, extended to 64 bits, and the flags that it raises.
-/

namespace Sys2Proof.Machine

/-- A result and the flags that it raises. -/
abbrev Val := Word × Word

/-- The flags that a word raises are sticky (R222). -/
def State.raise (s : State) (fl : Word) : State := if fl = 0 then s else s.modMe (fun a => a.flag fl)

/-! ## Integers: sources as contents, the type giving width and signedness (R217) -/

/-- The integer that contents stand for under a type. -/
def ival (t : Ty) (x : Word) : Int := t.value x.toNat
/-- The low w bits of contents. -/
def pat (t : Ty) (x : Word) : Nat := x.toNat % 2 ^ t.width
/-- A w-bit pattern extended by type to 64 bits. -/
def ext (t : Ty) (n : Nat) : Word := BitVec.ofInt 64 (t.value n)
/-- An exact result fitted under SAT (R218). -/
def fitVal (t : Ty) (sat : Bool) (r : Int) : Val := let (v, fl) := t.fit sat r; (BitVec.ofInt 64 v, fl)

/-- ABS. -/
def absVal (t : Ty) (sat : Bool) (y : Word) : Val := fitVal t sat (ival t y).natAbs
/-- ADD. -/
def addVal (t : Ty) (sat : Bool) (x y : Word) : Val := fitVal t sat (ival t x + ival t y)
/-- SUB. -/
def subVal (t : Ty) (sat : Bool) (x y : Word) : Val := fitVal t sat (ival t x - ival t y)
/-- MUL. -/
def mulVal (t : Ty) (sat : Bool) (x y : Word) : Val := fitVal t sat (ival t x * ival t y)
/-- MADR: d + x × y, exact, fitted once. -/
def madVal (t : Ty) (sat : Bool) (d x y : Word) : Val := fitVal t sat (ival t d + ival t x * ival t y)
/-- NEG. -/
def negVal (t : Ty) (sat : Bool) (y : Word) : Val := fitVal t sat (-ival t y)
/-- AND. -/
def andVal (t : Ty) (x y : Word) : Val := (ext t (x &&& y).toNat, 0)
/-- ANDN. -/
def andnVal (t : Ty) (x y : Word) : Val := (ext t (x &&& ~~~y).toNat, 0)
/-- OR. -/
def orVal (t : Ty) (x y : Word) : Val := (ext t (x ||| y).toNat, 0)
/-- XOR. -/
def xorVal (t : Ty) (x y : Word) : Val := (ext t (x ^^^ y).toNat, 0)
/-- SEL: bits of x where the mask d is 1, of y where it is 0. -/
def selVal (t : Ty) (d x y : Word) : Val := (ext t ((d &&& x) ||| (~~~d &&& y)).toNat, 0)
/-- BSWAP. -/
def bswapVal (t : Ty) (y : Word) : Val := (ext t (leNat (leBytes t.bytes (pat t y)).reverse), 0)
/-- CLZ. -/
def clzVal (t : Ty) (y : Word) : Val := (BitVec.ofNat 64 (t.width - bitLen (pat t y)), 0)
/-- The number of trailing zeros of n, counting at most k. -/
def trailing : Nat → Nat → Nat
  | 0, _ => 0
  | k + 1, n => if n % 2 = 1 then 0 else 1 + trailing k (n / 2)
/-- CTZ. -/
def ctzVal (t : Ty) (y : Word) : Val := (BitVec.ofNat 64 (trailing t.width (pat t y)), 0)
/-- The number of ones among the low k bits of n. -/
def ones : Nat → Nat → Nat
  | 0, _ => 0
  | k + 1, n => n % 2 + ones k (n / 2)
/-- POPC. -/
def popcVal (t : Ty) (y : Word) : Val := (ext t (ones t.width (pat t y)), 0)
/-- MAX. -/
def maxVal (t : Ty) (x y : Word) : Val := (BitVec.ofInt 64 (max (ival t x) (ival t y)), 0)
/-- MIN. -/
def minVal (t : Ty) (x y : Word) : Val := (BitVec.ofInt 64 (min (ival t x) (ival t y)), 0)
/-- MULH: bits [2w − 1:w] of the exact product (R219). -/
def mulhVal (t : Ty) (x y : Word) : Val :=
  (ext t ((ival t x * ival t y) / 2 ^ t.width % 2 ^ t.width).toNat, 0)
/-- Whether a division is the most negative value by −1. -/
def divOver (t : Ty) (x y : Word) : Bool := t.isSigned && ival t x == t.minVal && ival t y == -1
/-- DIV (R219, R362). -/
def divVal (t : Ty) (sat : Bool) (x y : Word) : Val :=
  if ival t y = 0 then (ext t (2 ^ t.width - 1), flagIDZ)
  else if divOver t x y then
    if sat then (BitVec.ofInt 64 t.maxVal, flagIOVD ||| flagISAT) else (BitVec.ofInt 64 t.minVal, flagIOVD)
  else (BitVec.ofInt 64 (Int.tdiv (ival t x) (ival t y)), 0)
/-- REM (R219, R384). -/
def remVal (t : Ty) (x y : Word) : Val :=
  if ival t y = 0 then (BitVec.ofInt 64 (ival t x), flagIDZ)
  else if divOver t x y then (0, flagIOVD)
  else (BitVec.ofInt 64 (Int.tmod (ival t x) (ival t y)), 0)
/-- SHL: the count is an unsigned 64-bit value (R220). -/
def shlVal (t : Ty) (x n : Word) : Val :=
  (if t.width ≤ n.toNat then 0 else ext t (pat t x * 2 ^ n.toNat), 0)
/-- SHR. -/
def shrVal (t : Ty) (x n : Word) : Val :=
  (if t.width ≤ n.toNat then 0 else ext t (pat t x / 2 ^ n.toNat), 0)
/-- SAR: the value is read by type, so a count of w or more leaves sign copies, or 0 for an unsigned type (R402). -/
def sarVal (t : Ty) (x n : Word) : Val :=
  (if t.width ≤ n.toNat then (if ival t x < 0 then BitVec.ofInt 64 (-1) else 0)
   else BitVec.ofInt 64 (ival t x / 2 ^ n.toNat), 0)
/-- ROL: the count is taken mod w. -/
def rolVal (t : Ty) (x n : Word) : Val :=
  let k := n.toNat % t.width
  (ext t (pat t x * 2 ^ k + pat t x / 2 ^ (t.width - k)), 0)

/-! ## Bit fields (R366) -/

/-- P of a field operand. -/
def fieldP (f : Word) : Nat := f.toNat % 64
/-- N of a field operand, at most 64. -/
def fieldN (f : Word) : Nat := min (f.toNat / 64 % 128) 64
/-- EXTZ. -/
def extzVal (x f : Word) : Val := (BitVec.ofNat 64 (x.toNat / 2 ^ fieldP f % 2 ^ fieldN f), 0)
/-- EXTS. -/
def extsVal (x f : Word) : Val :=
  let n := fieldN f
  let v := x.toNat / 2 ^ fieldP f % 2 ^ n
  (if n = 0 then 0 else if 2 ^ (n - 1) ≤ v then BitVec.ofInt 64 ((v : Int) - 2 ^ n) else BitVec.ofNat 64 v, 0)
/-- INS: d is the tied destination. -/
def insVal (d x f : Word) : Val :=
  let p := fieldP f
  let m : Word := BitVec.ofNat 64 (2 ^ min (p + fieldN f) 64 - 2 ^ p)
  ((d &&& ~~~m) ||| ((x <<< p) &&& m), 0)

/-! ## Floating point: contents in the low w bits (R224, R368) -/

/-- A result of the format with its flags, zero-extended. -/
def fval (r : FRes) : Val := (BitVec.ofNat 64 r.1, r.2)
/-- The value of contents, denormals read as zeros under FTZ. -/
def fin (t : Ty) (ftz : Bool) (x : Word) : FVal := t.fmt.decode ftz x.toNat
/-- FADD. -/
def faddVal (t : Ty) (r : Rnd) (z : Bool) (x y : Word) : Val := fval (t.fmt.add r z (fin t z x) (fin t z y))
/-- FSUB. -/
def fsubVal (t : Ty) (r : Rnd) (z : Bool) (x y : Word) : Val := fval (t.fmt.add r z (fin t z x) (fin t z y).neg)
/-- FMUL. -/
def fmulVal (t : Ty) (r : Rnd) (z : Bool) (x y : Word) : Val := fval (t.fmt.mul r z (fin t z x) (fin t z y))
/-- FDIV. -/
def fdivVal (t : Ty) (r : Rnd) (z : Bool) (x y : Word) : Val := fval (t.fmt.div r z (fin t z x) (fin t z y))
/-- FFMA: d + x × y. -/
def ffmaVal (t : Ty) (r : Rnd) (z : Bool) (d x y : Word) : Val :=
  fval (t.fmt.fma r z (fin t z d) (fin t z x) (fin t z y))
/-- FSQRT. -/
def fsqrtVal (t : Ty) (r : Rnd) (z : Bool) (y : Word) : Val := fval (t.fmt.sqrt r z (fin t z y))
/-- FMAX and FMIN (R226). -/
def fminmaxVal (t : Ty) (ismax : Bool) (z : Bool) (x y : Word) : Val :=
  fval (t.fmt.minmax ismax z (pat t x) (pat t y))
/-- FABS: the sign bit cleared; a NaN is delivered unchanged (R226). -/
def fabsVal (t : Ty) (y : Word) : Val :=
  (BitVec.ofNat 64 (if (fin t false y).isNan then pat t y else pat t y % 2 ^ (t.width - 1)), 0)
/-- FNEG: the sign bit flipped; a NaN is delivered unchanged (R226). -/
def fnegVal (t : Ty) (y : Word) : Val :=
  (BitVec.ofNat 64 (if (fin t false y).isNan then pat t y else (pat t y + 2 ^ (t.width - 1)) % 2 ^ t.width), 0)
/-- Less-than and equality of two floating-point contents, with NV where either is a NaN (R369). -/
def fcmpVal (t : Ty) (z : Bool) (x y : Word) : Bool × Bool × Word :=
  let a := fin t z x
  let b := fin t z y
  if a.isNan || b.isNan then (false, false, flagNV) else (a.lt b, a.eq b, 0)

/-- One rounding of the exact sum of several values (R225): VDOT4's four products and its addend. -/
def sumVal (f : FFmt) (r : Rnd) (z : Bool) (l : List FVal) : FRes :=
  if l.any (·.isNan) then f.nanRes (l.any (·.isSig))
  else
    let infs := l.filter (fun x => match x with | .inf _ => true | _ => false)
    match infs with
    | x :: _ => if infs.all (fun y => y.sign == x.sign) then (f.infBits x.sign, 0) else f.nanRes true
    | [] =>
      let d := l.foldl (fun (acc : Dy) x => match x with | .fin n m e => Dy.add acc (signed n m, e) | _ => acc) ((0, 0) : Dy)
      let zneg := if l.all (·.isZero) && l.all (fun x => x.sign) then true
        else if l.all (·.isZero) && l.all (fun x => !x.sign) then false else zeroSign r false true
      f.roundDy r z zneg d

/-! ## Approximate functions (R431): within the bounds, the part's fixed choice is left open -/

/-- A bound to infinity for an overflow, and NX on every result not listed as exact or special. -/
def approx (neg : Bool) (r : FRes) : FRes :=
  if r.2 &&& flagOF != 0 then (Ty.f32.fmt.infBits neg, flagOF ||| flagNX) else (r.1, r.2 ||| flagNX)

/-- VRCP: the lower or the upper neighbour of 1/x. -/
def vrcpVal (z : Bool) (x : Lane) : FRes :=
  let f := Ty.f32.fmt
  match f.decode z x.toNat with
  | .nan s => f.nanRes s
  | .inf n => (f.zeroBits n, 0)
  | .fin n m e =>
    if m = 0 then (f.infBits n, flagDZ)
    else approx n (f.div (if Config.rcpUp x then .rup else .rdn) z (.fin false 1 0) (.fin n m e))

/-- VRSQ: the lower or the upper neighbour of 1/√x, from the integer part of 2^k/√m and a sticky bit. -/
def vrsqVal (z : Bool) (x : Lane) : FRes :=
  let f := Ty.f32.fmt
  match f.decode z x.toNat with
  | .nan s => f.nanRes s
  | .inf n => if n then f.nanRes true else (f.zeroBits false, 0)
  | .fin n m e =>
    if m = 0 then (f.infBits n, flagDZ)
    else if n then f.nanRes true
    else
      let m' := if e % 2 = 0 then m else 2 * m
      let e' := if e % 2 = 0 then e else e - 1
      let k : Nat := 64
      let q := isqrt (2 ^ (2 * k) / m')
      let sticky := if q * q * m' = 2 ^ (2 * k) then 0 else 1
      approx false (f.round (if Config.rsqUp x then .rup else .rdn) z false (2 * q + sticky) (-(e' / 2) - k - 1))

/-- FTZ on the result of an approximate function, and UF for a denormal one; `small` says that a result of zero comes from a value
too small for the format (R225). -/
def tinyResult (z small : Bool) (x : Lane) : FRes :=
  let n := x.toNat
  if n / 2 ^ 23 % 256 = 0 && (small || n % 2 ^ 23 != 0) then
    (if z then n / 2 ^ 31 * 2 ^ 31 else n, flagUF ||| flagNX)
  else (n, flagNX)

/-! ### The bounds of VEXP2 and VLOG2: the exact value between two numbers 2^−150 apart, compared with the part's choice -/

/-- 2^f for a fraction f of n places, in units of 2^−256, rounded down: the product of the roots of 2 that its bits select. -/
def pow2Frac : (n root f acc : Nat) → Nat
  | 0, _, _, acc => acc
  | n + 1, root, f, acc =>
    let r := isqrt (root * 2 ^ 256)
    pow2Frac n r f (if f / 2 ^ n % 2 = 1 then acc * r / 2 ^ 256 else acc)

/-- n places of the binary logarithm of a number m in [1, 2), in units of 2^−256, rounded down, by repeated squaring. -/
def logFrac : (n m acc : Nat) → Nat
  | 0, _, acc => acc
  | n + 1, m, acc =>
    let q := m * m / 2 ^ 256
    if 2 * 2 ^ 256 ≤ q then logFrac n (q / 2) (2 * acc + 1) else logFrac n q (2 * acc)

/-- The exponent of a binary32 ulp at a value that is not zero. -/
def ulpExp (y : Dy) : Int := max (y.2 + bitLen y.1.natAbs - 1) (-126) - 23

/-- Whether a binary32 number lies within a bound of a value. -/
def nearBy (y bound : Dy) (c : Lane) : Bool :=
  match Ty.f32.fmt.decode false c.toNat with
  | .fin n m e =>
    let d := Dy.add (signed n m, e) (-y.1, y.2)
    decide (0 ≤ (Dy.add bound (-(d.1.natAbs : Int), d.2)).1)
  | _ => false

/-- Whether a binary32 number lies within a bound of every value from y to y + `off`, one of which is the exact one. -/
def inBound (y off bound : Dy) (c : Lane) : Bool := nearBy y bound c && nearBy (Dy.add y off) bound c

/-- The part's choice where it lies within the bound of the exact value, the nearest number where it does not. -/
def boundedBy (y off bound : Dy) (c : Lane) : Lane :=
  if inBound y off bound c then c else BitVec.ofNat 32 (Ty.f32.fmt.roundDy .rne false false y).1

/-- 2^x for x = ±m × 2^e that is no integer, rounded down: by less than `exp2Off` of it. -/
def exp2Exact (n : Bool) (m : Nat) (e : Int) : Dy :=
  let fx : Int := (signed n m * 2 ^ (e + 150).toNat) / 2 ^ (-(e + 150)).toNat
  (((pow2Frac 150 (2 * 2 ^ 256) (fx % 2 ^ 150).toNat (2 ^ 256) : Nat) : Int), fx / 2 ^ 150 - 256)
/-- What a power of 2 may be rounded down by: 2^−240 of itself. -/
def exp2Off (y : Dy) : Dy := (1, y.2 + 16)

/-- log2 of m × 2^e, rounded down by less than 2^−150. -/
def log2Exact (m : Nat) (e : Int) : Dy :=
  let l := bitLen m
  ((e + l - 1) * 2 ^ 152 + (logFrac 152 (m * 2 ^ (257 - l)) 0 : Nat), -152)

/-- The bound of VLOG2: 2^−21 for x in [0.5, 2], elsewhere 2 ulp. -/
def log2Bound (v : FVal) (y : Dy) : Dy :=
  if !v.lt (.fin false 1 (-1)) && !(FVal.fin false 2 0).lt v then (1, -21) else (1, ulpExp y + 1)

/-- The integer that a finite value is, if it is one. -/
def fvalInt? : FVal → Option Int
  | .fin n m e =>
    if 0 ≤ e then some (signed n (m * 2 ^ e.toNat))
    else if m % 2 ^ (-e).toNat = 0 then some (signed n (m / 2 ^ (-e).toNat)) else none
  | _ => none

/-- VEXP2. -/
def vexp2Val (z : Bool) (x : Lane) : FRes :=
  let f := Ty.f32.fmt
  let v := f.decode z x.toNat
  match v with
  | .nan s => f.nanRes s
  | .inf n => (if n then f.zeroBits false else f.infBits false, 0)
  | .fin n m e =>
    if !v.lt (.fin false 128 0) then (f.infBits false, flagOF ||| flagNX)
    else if v.lt (.fin true 150 0) then (f.zeroBits false, flagUF ||| flagNX)
    else
      match fvalInt? v with
      | some i =>
        if -149 ≤ i then f.round .rne z false 1 i
        else tinyResult z true (boundedBy (1, i) (0, i) (1, ulpExp (1, i) + 1) (Config.exp2 x))
      | none =>
        let y := exp2Exact n m e
        tinyResult z true (boundedBy y (exp2Off y) (1, ulpExp y + 1) (Config.exp2 x))

/-- VLOG2. -/
def vlog2Val (z : Bool) (x : Lane) : FRes :=
  let f := Ty.f32.fmt
  let v := f.decode z x.toNat
  match v with
  | .nan s => f.nanRes s
  | .inf n => if n then f.nanRes true else (f.infBits false, 0)
  | .fin n m e =>
    if m = 0 then (f.infBits true, flagDZ)
    else if n then f.nanRes true
    else if m = 2 ^ (bitLen m - 1) then f.ofInt .rne false (e + bitLen m - 1)
    else
      let y := log2Exact m e
      tinyResult z false (boundedBy y (1, -150) (log2Bound v y) (Config.log2 x))

end Sys2Proof.Machine
end

