-- ==== Sys2Proof/Machine/Int.lean ====
section
/-!
DEFINITION. Scalar integer instructions (R343, R344, R358, R362, R365, R366, R379, R383, R384, R389, R401, R402, R445),
with queue registers in the s positions of layout AR (R448) and deferral (R196).
-/

namespace Sys2Proof.Machine

/-- Entries of a queue register as a pop leaves them; poison moves with its entry (R71, R214). -/
def State.pop (s : State) (n : Nat) (rest : List Word) : State :=
  let s := s.modMe (fun a => a.qSet n rest)
  if s.poisoned.isEmpty then s
  else
    let mine (g : Granule) : Option Nat := match g with
      | .qreg c sl m j => if c == s.myCore && sl == slotOf s.cur && m == n then some j else none
      | _ => none
    { s with poisoned := s.poisoned.filterMap (fun g => match mine g with
        | none => some g
        | some 0 => none
        | some (j + 1) => some (.qreg s.myCore (slotOf s.cur) n j)) }

/-- A source of an S word of layout AR: value, deferral, and the state with a popped queue register (R71, R448); none
where the queue register is empty. -/
def State.src (s : State) (o : Opnd) : Option (Word × Bool × State) :=
  match o with
  | .queue pk n =>
    match s.me.qGet n.toNat with
    | [] => none
    | x :: r => some (x, false, if pk then s else s.pop n.toNat r)
  | o => some (s.val o, s.dfr o, s)

/-- A push of a queue register; it stalls while the register is full (R71). -/
def State.push (s : State) (n : Nat) (v : Word) : Option State :=
  let l := s.me.qGet n
  if 8 ≤ l.length then none
  else
    let s := s.modMe (fun a => a.qSet n (l ++ [v]))
    some (if s.poisoned.isEmpty then s else
      { s with poisoned := s.poisoned.filter (· != .qreg s.myCore (slotOf s.cur) n l.length) })

/-- The result of an S word written to its destination, a queue register pushed (R448), with PEEK = 1 there as with PEEK = 0
(log entry 104: DESIGN CHOICE, the spec gives PEEK on a destination no meaning). `s0` is the state to stall in. -/
def State.put (s : State) (s0 : State) (o : Opnd) (v : Word) (fl : Word) : Res :=
  match o with
  | .queue _ n => match s.push n.toNat v with | none => .stall s0 | some s => .done (s.raise fl)
  | o => .done ((s.raise fl).modMe (fun a => a.sSet (opndNum o) v))

/-- A deferred result: zero with the bit set, or DEFERRED_USE where it would be pushed, with no queue register popped
(R196, R212, R448). `s0` is the state before the sources were read. -/
def State.putDeferred (s : State) (s0 : State) (o : Opnd) (f : FaultReq) : Res :=
  match o with
  | .queue _ _ => .fault f s0
  | o => .done (s.modMe (fun a => a.sSet (opndNum o) 0 true))

/-- The operand that field B stands for: under the pair, the register in A (R44). -/
def opndB (w : Operands) : Opnd := if w.pair.isSome then w.a else w.b

/-- Field C as an operand, the pair included. -/
def State.srcC (s : State) (w : Operands) : Option (Word × Bool × State) :=
  match w.pair with | some p => some (p.signExtend 64, false, s) | none => s.src w.c

/-- The lane-free body of the scalar AR instructions: sources in field order, deferral, result and flags. `tied` says
that A is read. -/
def arith (w : Operands) (tied : Bool) (f : (d x y : Word) → Val) (s : State) : Res :=
  match s.src (if tied then w.b else opndB w) with
  | none => .stall s
  | some (x, dx, s1) =>
    match s1.srcC w with
    | none => .stall s
    | some (y, dy, s2) =>
      let d := if tied then s.val w.a else 0
      let dd := tied && s.dfr w.a
      if dx || dy || dd then
        let n := if dd then opndNum w.a else if dx then opndNum (opndB w) else opndNum w.c
        s2.putDeferred s w.a (deferredUse false n)
      else
        let (r, fl) := f d x y
        s2.put s w.a r fl

/-- ABS. -/
def execAbs (w : Operands) (s : State) := issue 0x001 w (arith w false (fun _ _ y => absVal w.ty w.sat y)) s
/-- ADD. -/
def execAdd (w : Operands) (s : State) := issue 0x002 w (arith w false (fun _ x y => addVal w.ty w.sat x y)) s
/-- AND. -/
def execAnd (w : Operands) (s : State) := issue 0x003 w (arith w false (fun _ x y => andVal w.ty x y)) s
/-- ANDN. -/
def execAndn (w : Operands) (s : State) := issue 0x004 w (arith w false (fun _ x y => andnVal w.ty x y)) s
/-- BSWAP. -/
def execBswap (w : Operands) (s : State) := issue 0x005 w (arith w false (fun _ _ y => bswapVal w.ty y)) s
/-- CLZ. -/
def execClz (w : Operands) (s : State) := issue 0x006 w (arith w false (fun _ _ y => clzVal w.ty y)) s
/-- CTZ. -/
def execCtz (w : Operands) (s : State) := issue 0x008 w (arith w false (fun _ _ y => ctzVal w.ty y)) s
/-- DIV. -/
def execDiv (w : Operands) (s : State) := issue 0x009 w (arith w false (fun _ x y => divVal w.ty w.sat x y)) s
/-- EXTS. -/
def execExts (w : Operands) (s : State) := issue 0x00A w (arith w false (fun _ x y => extsVal x y)) s
/-- EXTZ. -/
def execExtz (w : Operands) (s : State) := issue 0x00B w (arith w false (fun _ x y => extzVal x y)) s
/-- INS. -/
def execIns (w : Operands) (s : State) := issue 0x00C w (arith w true (fun d x y => insVal d x y)) s
/-- LI. -/
def execLi (w : Operands) (s : State) :=
  issue 0x00D w (fun s => s.put s w.a (ext w.ty (s.valC w).toNat) 0) s
/-- LIH: the high 32 bits replaced (R379). -/
def execLih (w : Operands) (s : State) :=
  issue 0x00E w (fun s =>
    if s.dfr w.a then s.putDeferred s w.a (deferredUse false (opndNum w.a))
    else s.put s w.a (((s.valC w).setWidth 32 : BitVec 32) ++ ((s.val w.a).setWidth 32 : BitVec 32)) 0) s
/-- MADR. -/
def execMadr (w : Operands) (s : State) := issue 0x00F w (arith w true (fun d x y => madVal w.ty w.sat d x y)) s
/-- MAX. -/
def execMax (w : Operands) (s : State) := issue 0x010 w (arith w false (fun _ x y => maxVal w.ty x y)) s
/-- MIN. -/
def execMin (w : Operands) (s : State) := issue 0x011 w (arith w false (fun _ x y => minVal w.ty x y)) s
/-- MUL. -/
def execMul (w : Operands) (s : State) := issue 0x013 w (arith w false (fun _ x y => mulVal w.ty w.sat x y)) s
/-- MULH. -/
def execMulh (w : Operands) (s : State) := issue 0x014 w (arith w false (fun _ x y => mulhVal w.ty x y)) s
/-- NEG. -/
def execNeg (w : Operands) (s : State) := issue 0x015 w (arith w false (fun _ _ y => negVal w.ty w.sat y)) s
/-- OR. -/
def execOr (w : Operands) (s : State) := issue 0x016 w (arith w false (fun _ x y => orVal w.ty x y)) s
/-- POPC. -/
def execPopc (w : Operands) (s : State) := issue 0x017 w (arith w false (fun _ _ y => popcVal w.ty y)) s
/-- REM. -/
def execRem (w : Operands) (s : State) := issue 0x018 w (arith w false (fun _ x y => remVal w.ty x y)) s
/-- ROL. -/
def execRol (w : Operands) (s : State) := issue 0x019 w (arith w false (fun _ x y => rolVal w.ty x y)) s
/-- SAR. -/
def execSar (w : Operands) (s : State) := issue 0x01A w (arith w false (fun _ x y => sarVal w.ty x y)) s
/-- SEL. -/
def execSel (w : Operands) (s : State) := issue 0x01B w (arith w true (fun d x y => selVal w.ty d x y)) s
/-- SHL. -/
def execShl (w : Operands) (s : State) := issue 0x01C w (arith w false (fun _ x y => shlVal w.ty x y)) s
/-- SHR. -/
def execShr (w : Operands) (s : State) := issue 0x01D w (arith w false (fun _ x y => shrVal w.ty x y)) s
/-- SUB. -/
def execSub (w : Operands) (s : State) := issue 0x01E w (arith w false (fun _ x y => subVal w.ty w.sat x y)) s
/-- XOR. -/
def execXor (w : Operands) (s : State) := issue 0x01F w (arith w false (fun _ x y => xorVal w.ty x y)) s

/-- The body of CMP and FCMP: two sources into a pair of guards; a deferred source faults (R196, R358, R369). Under the
pair the register source is s0. -/
def compare (w : Operands) (f : (x y : Word) → Bool × Bool × Word) (s : State) : Res :=
  match s.src w.b with
  | none => .stall s
  | some (x, dx, s1) =>
    match s1.srcC w with
    | none => .stall s
    | some (y, dy, s2) =>
      if dx then .fault (deferredUse false (opndNum w.b)) s
      else if dy then .fault (deferredUse false (opndNum w.c)) s
      else
        let (lt, eq, fl) := f x y
        let n := opndNum w.a
        .done ((s2.raise fl).modMe (fun a => (a.gSet n (GVal.ofBool lt)).gSet (n + 1) (GVal.ofBool eq)))

/-- CMP. -/
def execCmp (w : Operands) (s : State) :=
  issue 0x007 w (compare w (fun x y => (decide (ival w.ty x < ival w.ty y), ival w.ty x == ival w.ty y, 0))) s

/-- MOV between vectors, masks and queue registers of V and E (R389). -/
def movVE (w : Operands) (s : State) : Res :=
  match w.a, w.c with
  | .reg .v _ d, .reg .v _ c =>
    if s.me.vDef c.toNat then .done (s.modMe (fun a => a.vSet d.toNat Vec.zero true))
    else .done (s.modMe (fun a => a.vSet d.toNat (a.vGet c.toNat)))
  | .reg .m _ d, .reg .m _ c => .done (s.modMe (fun a => a.mSet d.toNat (a.mGet c.toNat)))
  | a, c =>
    match s.src c with
    | none => .stall s
    | some (x, _, s1) => s1.put s a x 0

/-- MOV. -/
def execMov (w : Operands) (s : State) :=
  issue 0x012 w (if w.head.stream == .S then arith w false (fun _ _ y => (y, 0)) else movVE w) s

end Sys2Proof.Machine
end

