-- ==== Sys2Proof/Machine/Memory.lean ====
section
/-!
DEFINITION. Scalar loads and stores (R375 to R377, R412 to R414), LDZ and STZ (R378, R415), vector loads and stores
(R437, R438), gathers, scatters and VREDS (R439, R440), and PREF (R394).
-/

namespace Sys2Proof.Machine

/-- The first deferred s register of some fields, as a fault (R196). -/
def State.deferredIn (s : State) (opc : Nat) (w : Operands) (fields : List Nat) : Option FaultReq :=
  s.firstDeferred (fields.flatMap (fun i => sOf opc i (if i = 0 then w.a else if i = 1 then w.b else w.c)))

/-- Whether an ORD has a release, or an acquire. -/
def Ord_rel (o : Ord) : Bool := o == .rel || o == .acqrel
/-- Whether an ORD has an acquire. -/
def Ord_acq (o : Ord) : Bool := o == .acq || o == .acqrel

/-- Whether a release of the word in execution holds it back (R160); a load that has issued has had its release. -/
def State.releaseHeld (s : State) (w : Operands) : Bool := Ord_rel w.ord && !s.binding && !s.releaseReady w.scope

/-- .spec is FLG[0] and .raw FLG[1] (R50). -/
def isSpec (w : Operands) : Bool := w.flg.getLsbD 0
/-- .raw. -/
def isRaw (w : Operands) : Bool := w.flg.getLsbD 1

/-! ## Scalar loads (R376) -/

/-- Zero written with the deferral bit set (R195). -/
def State.deferS (s : State) (w : Operands) : Res := .done (s.unasked.modMe (fun a => a.sSet (opndNum w.a) 0 true))

/-- The value loaded, extended by TYPE; floating-point types zero-extended (R224). -/
def loadExt (t : Ty) (bs : List Byte) : Word :=
  if t.isFloat then BitVec.ofNat 64 (leNat bs) else ext t (leNat bs)

/-- A scalar load's effect in a space. -/
def effLoad (opc sp : Nat) (w : Operands) (s : State) : Res :=
  let spec := isSpec w
  let fail (f : FaultReq) (s : State) : Res := if spec && specFault f.code then s.deferS w else .fault f s
  match s.deferredIn opc w [1, 2] with
  | some f => if spec then s.deferS w else .fault f s
  | none =>
    if spec && (s.poisonHit opc w).isSome then s.deferS w else
    let a := s.eaOf opc w
    let n := w.ty.bytes
    match orFault (rangeFault sp a) (aligned sp a n) with
    | some f => fail f s
    | none =>
      let push := if sp = 4 then s.myPart.pushEdge a.toNat else none
      match push with
      | some e =>
        if n != 8 then .fault { code := 0x0E, space := 4, addr := a } s
        else if s.releaseHeld w then .stall s
        else .done (s.modMe (fun x => x.sSet (opndNum w.a) (BitVec.ofNat 64 (s.emitOwed e))))
      | none =>
        if spec && sp = 4 && s.specPath a.toNat n then s.deferS w
        else
          match s.access sp .load a.toNat n (fun va p => if isRaw w then none else packedFault va p) with
          | .stall s => .stall s
          | .fault f s => fail f s
          | .ok s ps =>
            if s.releaseHeld w then .stall s
            else if !ps.all s.bindable then .stall s
            else
              match s.startHostRead ps, s.poisonFault ps with
              | some s, _ => .stall s
              | none, some (f, s) => fail f s
              | none, none =>
                let (bs, s) := s.loadPieces ps
                .done (s.modMe (fun x => x.sSet (opndNum w.a) (loadExt w.ty bs)))

/-- LDG. -/
def execLdg (w : Operands) (s : State) := issue 0x180 w (effLoad 0x180 4 w) s
/-- LDL. -/
def execLdl (w : Operands) (s : State) := issue 0x181 w (effLoad 0x181 1 w) s
/-- LDS. -/
def execLds (w : Operands) (s : State) := issue 0x182 w (effLoad 0x182 2 w) s

/-! ## Scalar stores (R413) -/

/-- The checks of a page that a store makes beyond its permission: SB and T4 pages, then weirs (R122, R167, R347). -/
def State.storeExtra (s : State) (va : Nat) (p : Page) : Option FaultReq := orFault (packedFault va p) (s.weirFault va)

/-- The acquire of a store whose writes are those issued since `first` (R413). -/
def State.storeAcquire (s : State) (w : Operands) (first : Nat) : State :=
  if Ord_acq w.ord then s.acquireFrom s.cur first w.scope else s

/-- A scalar store's effect in a space. -/
def effStore (opc sp : Nat) (w : Operands) (s : State) : Res :=
  match s.deferredIn opc w [0, 1, 2] with
  | some f => .fault f s
  | none =>
    let a := s.eaOf opc w
    let n := w.ty.bytes
    let v := if w.b == .none then s.val w.c else s.val w.b
    match orFault (rangeFault sp a) (aligned sp a n) with
    | some f => .fault f s
    | none =>
      let push := if sp = 4 then s.myPart.pushEdge a.toNat else none
      match push with
      | some e =>
        if n != 8 then .fault { code := 0x0E, space := 4, addr := a } s
        else if s.emitOwed e = 0 then
          .fault { code := 0x1B, space := 4, addr := a, info := BitVec.ofNat 64 ((s.portOf e).getD 0) } s
        else if !s.releaseReady w.scope then .stall s
        else .done (s.pushToken e v)
      | none =>
        match s.access sp .store a.toNat n s.storeExtra with
        | .stall s => .stall s
        | .fault f s => .fault f s
        | .ok s ps =>
          if s.releaseHeld w then .stall s
          else
            let first := s.nextWid
            .done ((s.storePieces w.scope ps (leBytes n v.toNat)).storeAcquire w first)

/-- STG. -/
def execStg (w : Operands) (s : State) := issue 0x184 w (effStore 0x184 4 w) s
/-- STL. -/
def execStl (w : Operands) (s : State) := issue 0x185 w (effStore 0x185 1 w) s
/-- STS. -/
def execSts (w : Operands) (s : State) := issue 0x186 w (effStore 0x186 2 w) s

/-! ## LDZ and STZ (R115, R378, R415) -/

/-- Whether an engine command that the activation issued earlier and that names a tile is not yet complete (R115). -/
def State.tileBusy (s : State) (z : Nat) : Bool :=
  let c := s.core s.myCore
  c.matrixQ.any (fun x => x.uid == s.me.uid && x.z == z) ||
  s.earlier.any (fun p =>
    match p.fields with
    | some (opc, w) => (opc == 0x300 || opc == 0x301 || opc == 0x303) && opndNum w.a == z && p.gv != some false
    | none => false)

/-- The row operand of LDZ and STZ: its fault, or the row. -/
def State.rowOf (s : State) (opc : Nat) (w : Operands) (z : Nat) : Except FaultReq Nat :=
  match s.deferredIn opc w [2] with
  | some f => .error f
  | none =>
    let r := s.val w.c
    if 15 < r.toNat then .error { code := 0x0C, space := 3, addr := r, info := BitVec.ofNat 64 z } else .ok r.toNat

/-- LDZ's effect. A FREE tile's contents are free values (R116). -/
def effLdz (w : Operands) (s : State) : Res :=
  let z := opndNum w.b
  match s.rowOf 0x183 w z with
  | .error f => .fault f s
  | .ok r =>
    if s.tileBusy z then .stall s
    else if !s.heldTile s.myCore z then
      .done ({ s with fresh := s.fresh + 16 }.modMe (fun a =>
        a.vSet (opndNum w.a) (Vec.ofFn (fun i => (Config.freeValue (s.fresh + i)).setWidth 32))))
    else
      let key (i : Nat) : Nat := accKey s.myCore z r i
      if (upTo 16).any (fun i => s.poisoned.contains (.acc s.myCore (key i % 2048 / 2 * 2))) then
        .fault { code := 0x15, space := 3, addr := BitVec.ofNat 64 r } s
      else .done (s.modMe (fun a => a.vSet (opndNum w.a) (Vec.ofFn (fun i => s.accGet (key i)))))

/-- LDZ. -/
def execLdz (w : Operands) (s : State) := issue 0x183 w (effLdz w) s

/-- STZ's effect. -/
def effStz (w : Operands) (s : State) : Res :=
  let z := opndNum w.a
  match s.deferredIn 0x187 w [2] with
  | some f => .fault f s
  | none =>
    match s.firstDeferredV (vOf w.b) with
    | some f => .fault f s
    | none =>
      match s.rowOf 0x187 w z with
      | .error f => .fault f s
      | .ok r =>
        if s.tileBusy z then .stall s
        else
          let s := s.holdTile s.myCore z
          let v := s.vecOf w.b
          .done { s with
            acc := (upTo 16).foldl (fun m i => accSet (accKey s.myCore z r i) (v.lane i) m) s.acc
            poisoned := s.poisoned.filter (fun g => !((upTo 8).any (fun i => g == .acc s.myCore (accKey s.myCore z r (2 * i) % 2048)))) }

/-- STZ. -/
def execStz (w : Operands) (s : State) := issue 0x187 w (effStz w) s

/-! ## Vector accesses (R437 to R440) -/

/-- One lane's access: lane, address, bytes. -/
structure LaneAcc where
  lane : Nat
  addr : Word
  n    : Nat
  deriving DecidableEq, Repr

/-- What a vector memory word does: its opcode, space, whether it stores, whether it is indexed. -/
structure VMem where
  opc   : Nat
  sp    : Nat
  store : Bool
  idx   : Bool
  deriving DecidableEq, Repr

/-- Vector element Types that a decoding or encoding access accepts on a page (R122). -/
def PageFmt_accepts (f : PageFmt) (store : Bool) (t : Ty) : Bool :=
  match f with
  | .raw => store || t == .i32 || t == .n32 || t == .f32
  | .t4 => !store && (t == .f32 || t == .i32)
  | .int8 => t == .f32 || t == .i32
  | _ => t == .f32

/-- The format of the page on which a contiguous GLB access begins or, where that page does not answer and the access has no
active lane on it, of the next (R122, R438); none where no page answers. -/
def State.baseFmt (s : State) (m : VMem) (w : Operands) (a : Word) : Option PageFmt :=
  let of (va : Nat) : Option PageFmt := match s.pageOf s.myPart.asid va with | .ok p => some p.fmt | .error _ => none
  let next := (a.toNat / 65536 + 1) * 65536
  match of a.toNat, of next with
  | some f, _ => some f
  | none, some f =>
    let unit := if (f == .raw && m.store) || (isRaw w && !m.store) then w.ty.bytes else f.unit
    let reach (i : Nat) : Bool := decide (next ≤ a.toNat + unit * i)
    if f.packed && !(isRaw w && !m.store) then none
    else ((upTo 16).find? (s.active w.msk)).bind (fun i => if reach i then some f else none)
  | none, none => none

/-- The page format by which a contiguous GLB access decodes or encodes; none where it moves bytes as TYPE says, or where no page
answers (R122, R438). -/
def State.codeFmt (s : State) (m : VMem) (w : Operands) (a : Word) : Option PageFmt :=
  if m.sp != 4 || m.idx || (isRaw w && !m.store) then none
  else (s.baseFmt m w a).bind (fun f => if f == .raw && m.store then none else some f)

/-- The accesses of the lanes not yet done, in ascending order: one by lane 0 for a block or a T4 group. -/
def State.laneAccs (s : State) (m : VMem) (w : Operands) (a : Word) (fmt : Option PageFmt) (ix : Vec) (from0 : Nat) :
    List LaneAcc :=
  let on (i : Nat) : Bool := s.active w.msk i && !(m.idx && 2 ≤ (bits w.opf 3 2).toNat && 8 ≤ i)
  let act := (upTo 16).filter (fun i => from0 ≤ i && on i)
  if m.idx then act.map (fun i => { lane := i, addr := a + indexOf w ix i, n := w.ty.bytes })
  else
    match fmt with
    | some f =>
      if f.packed then (if from0 = 0 && (upTo 16).any on then [{ lane := 0, addr := a, n := f.unit }] else [])
      else act.map (fun i => { lane := i, addr := a + BitVec.ofNat 64 (f.unit * i), n := f.unit })
    | none => act.map (fun i => { lane := i, addr := a + BitVec.ofNat 64 (w.ty.bytes * i), n := w.ty.bytes })

/-- The alignment of a contiguous access (R104, R122); a page that does not answer gives none. -/
def State.vecAligned (s : State) (m : VMem) (w : Operands) (a : Word) (fmt : Option PageFmt) : Bool :=
  match fmt with
  | some .t4 => if m.store then a.toNat % 4 = 0 else a.toNat % 8 = 0
  | some f =>
    if f.packed then a.toNat % 65536 % f.unit = 0 && a.toNat % 65536 + f.unit ≤ 65536 else a.toNat % f.unit = 0
  | none =>
    let known := m.sp != 4 || (isRaw w && !m.store) || (s.baseFmt m w a).isSome
    !known || a.toNat % 4 = 0

/-- Steps 1 and 2 of R104 for one lane; a contiguous access is aligned as a whole. -/
def laneFault (m : VMem) (x : LaneAcc) : Option FaultReq :=
  (orFault (rangeFault m.sp x.addr) (if m.idx then aligned m.sp x.addr x.n else none)).map
    (fun f => { f with lane := x.lane })

/-- What stops the lanes of an access. -/
inductive LaneStop where
  | none
  | stall
  | fault (f : FaultReq)
  deriving DecidableEq, Repr

/-- The format of the page of a contiguous GLB access's first active lane, which its other pages share (R122). -/
def State.spanFmt (s : State) (m : VMem) (l : List LaneAcc) : Option PageFmt :=
  if m.sp != 4 || m.idx then none
  else l.head?.bind (fun x => match s.pageOf s.myPart.asid x.addr.toNat with | .ok p => some p.fmt | .error _ => none)

/-- The checks of step 3 lane by lane, up to the first that stops: the lanes that pass with their stretches. `span` is the
format that every page of a contiguous access has. -/
def State.checkLanes (s : State) (m : VMem) (w : Operands) (fmt span : Option PageFmt) :
    List LaneAcc → State × List (LaneAcc × List Piece) × LaneStop
  | [] => (s, [], .none)
  | x :: r =>
    let va := x.addr.toNat
    let mismatch (va : Nat) (p : Page) : Option FaultReq :=
      let bad : FaultReq := { code := 0x0D, space := 4, addr := BitVec.ofNat 64 va, info := BitVec.ofNat 64 p.fmt.code }
      if m.idx then (if isRaw w && !m.store then none else packedFault va p)
      else
        match fmt with
        | some f => if p.fmt != f || !PageFmt_accepts f m.store w.ty then some bad else none
        | none => if (m.store && p.fmt != .raw) || span.any (fun f => p.fmt != f) then some bad else none
    let extra (va : Nat) (p : Page) : Option FaultReq :=
      orFault (mismatch va p) (if m.store then s.weirFault va else none)
    match s.access m.sp (if m.store then .store else .load) va x.n extra with
    | .stall s => (s, [], .stall)
    | .fault f s => (s, [], .fault { f with lane := x.lane })
    | .ok s ps =>
      if !m.store && !ps.all s.bindable then (s, [], .stall)
      else
        match (if m.store then none else s.startHostRead ps), (if m.store && m.opc != 0x206 then none else s.poisonFault ps) with
        | some s, _ => (s, [], .stall)
        | none, some (f, s) => (s, [], .fault { f with lane := x.lane })
        | none, none =>
          let (s, l, stop) := s.checkLanes m w fmt span r
          (s, (x, ps) :: l, stop)

/-- Lanes loaded, with the bytes that each binds. -/
def State.loadLanes (s : State) : List (LaneAcc × List Piece) → List (Nat × List Byte) × State
  | [] => ([], s)
  | (x, ps) :: r =>
    let (bs, s) := s.loadPieces ps
    let (l, s) := s.loadLanes r
    ((x.lane, bs) :: l, s)

/-- A lane's bytes where it was loaded, zeros otherwise. -/
def laneBytes (l : List (Nat × List Byte)) (n i : Nat) : List Byte :=
  match l.find? (fun e => e.1 == i) with | some e => e.2 | none => List.replicate n 0

/-- The lanes that loaded bytes give (R122, R229, R231, R438). -/
def decodeLanes (w : Operands) (fmt : Option PageFmt) (tbl : List (BitVec 8)) (l : List (Nat × List Byte)) : List Lane :=
  match fmt with
  | some f =>
    if f.packed then f.lanes w.ty tbl (laneBytes l f.unit 0)
    else f.lanes w.ty tbl ((upTo 16).flatMap (laneBytes l f.unit))
  | none => (upTo 16).map (fun i => (loadExt w.ty (laneBytes l w.ty.bytes i)).setWidth 32)

/-- The bytes that a lane stores, with flags (R122, R230, R233, R438). -/
def State.encodeLane (s : State) (w : Operands) (fmt : Option PageFmt) (v : Vec) (i : Nat) : List Byte × Word :=
  match fmt with
  | some f =>
    match f.sb with
    | some t =>
      let (blk, fl) := sbQuantise t ((upTo 16).map (fun j => if s.active w.msk j then (v.lane j).toNat else 0))
      (leBytes f.unit blk, fl)
    | none => f.encode w.ty (v.lane i)
  | none => (leBytes w.ty.bytes (v.lane i).toNat, 0)

/-- The lanes of a vector store performed (R157, R440), with the acquire of `first` on. -/
def State.storeLanes (s : State) (w : Operands) (fmt : Option PageFmt) (v : Vec) (l : List (LaneAcc × List Piece)) : State :=
  let enc := l.map (fun x => (x.2, s.encodeLane w fmt v x.1.lane))
  let fl := enc.foldl (fun f x => f ||| x.2.2) 0
  (s.storeAll w.scope (enc.map (fun x => (x.1, x.2.1)))).raise fl

/-- The lanes of a VREDS sent to their banks (R114, R440). -/
def State.redLanes (s : State) (w : Operands) (v : Vec) (l : List (LaneAcc × List Piece)) : State :=
  l.foldl (fun s x => x.2.foldl (fun s p =>
    s.issueRed s.cur true 0 w.scope false none p.key w.ty ((v.lane x.1.lane).zeroExtend 64) false) s) s

/-- Progress of a part-way access forgotten (R212). -/
def State.noProgress (s : State) : State := s.modMe (fun a => { a with prog := 0, progIdx := none })

/-- The lanes of the word that a load writes: all active ones of a block, otherwise those performed. -/
def writtenLanes (s : State) (w : Operands) (fmt : Option PageFmt) (l : List (LaneAcc × List Piece)) (i : Nat) : Bool :=
  match fmt with
  | some f => if f.packed then !l.isEmpty && s.active w.msk i else l.any (fun x => x.1.lane == i)
  | none => l.any (fun x => x.1.lane == i)

/-- Loaded lanes written, deferral cleared. -/
def State.putLoaded (s : State) (w : Operands) (on : Nat → Bool) (ls : List Lane) : State :=
  s.modMe (fun a =>
    let old := a.vGet (opndNum w.a)
    a.vSet (opndNum w.a) (Vec.ofFn (fun i => if on i then ls.getD i 0 else old.lane i)))

/-- The T4 table by which a load decodes: as it stands at issue (R232). -/
def State.t4Table (s : State) : List (BitVec 8) :=
  match s.iss with
  | .queued p => if p.t4.isEmpty then (s.core s.myCore).t4 else p.t4
  | _ => (s.core s.myCore).t4

/-- The lanes that passed their checks are performed. -/
def State.performLanes (s : State) (m : VMem) (w : Operands) (fmt : Option PageFmt) (l : List (LaneAcc × List Piece)) : State :=
  if m.store then
    let v := s.vecOf w.b
    if m.opc = 0x206 then s.redLanes w v l
    else
      let first := s.nextWid
      (s.storeLanes w fmt v l).storeAcquire w first
  else
    let on := writtenLanes s w fmt l
    let (bs, s) := s.loadLanes l
    let ls := decodeLanes w fmt s.t4Table bs
    s.putLoaded w on ls

/-- A .spec vector load defers: zeros in the active lanes, and the register's bit set (R195). -/
def State.deferV (s : State) (opc : Nat) (w : Operands) : Res :=
  .done (s.unasked.noProgress.modMe (fun a =>
    let old := a.vGet (opndNum w.a)
    a.vSet (opndNum w.a) (Vec.ofFn (fun i => if s.lanesWritten opc w i then 0 else old.lane i)) true))

/-- The deferral of a vector memory word: base, displacement or index, and the data of a store (R438). -/
def State.vecDeferred (s : State) (m : VMem) (w : Operands) : Option FaultReq :=
  let regs := s.deferredIn m.opc w [if m.store then 0 else 1, 2]
  orFault regs (s.firstDeferredV ((if m.store then vOf w.b else []) ++ (if m.idx && s.me.progIdx.isNone then vOf w.c else [])))

/-- A vector access's effect. -/
def effVec (m : VMem) (w : Operands) (s : State) : Res :=
  let spec := isSpec w && !m.store
  match s.vecDeferred m w with
  | some f => if spec then s.deferV m.opc w else .fault f s
  | none =>
    if spec && (s.poisonHit m.opc w).isSome then s.deferV m.opc w else
    let base := s.val (baseOf m.opc w)
    let a := if m.idx then base else s.eaOf m.opc w
    let fail (f : FaultReq) (s : State) : Res := if spec && specFault f.code then s.deferV m.opc w else .fault f s
    let fmt := if 2 ^ 56 ≤ a.toNat then none else s.codeFmt m w a
    let ix := s.me.progIdx.getD (s.vecOf w.c)
    let accs := s.laneAccs m w a fmt ix s.me.prog
    let misaligned := !m.idx && !accs.isEmpty && !s.vecAligned m w a fmt
    let early := accs.findSome? (laneFault m)
    let first := match orFault (if misaligned then (orFault (accs.head?.bind (laneFault m))
        (some { code := 0x0B, space := m.sp, addr := a, lane := (accs.head?.map (·.lane)).getD 0 })) else none) early with
      | some f => some f
      | none => none
    let upto := match first with | some f => accs.takeWhile (fun x => x.lane < f.lane) | none => accs
    if spec && first.isNone && m.sp = 4 && accs.any (fun x => s.specPath x.addr.toNat x.n) then s.deferV m.opc w
    else
      let (s1, l, stop) := s.checkLanes m w fmt (s.spanFmt m (s.laneAccs m w a fmt ix 0)) upto
      match stop with
      | .stall => .stall s1
      | .none =>
        match first with
        | some f => fail f s1
        | none =>
          if s1.releaseHeld w then .stall s1
          else .done (s1.performLanes m w fmt l).noProgress
      | .fault f =>
        if m.sp != 4 then fail f s1
        else if spec && specFault f.code then s1.deferV m.opc w
        else if s1.releaseHeld w && !l.isEmpty then .stall s1
        else
          .fault f ((if l.isEmpty then s1 else s1.performLanes m w fmt l).modMe (fun a =>
            { a with prog := f.lane, progIdx := if m.idx then some ix else none }))

/-- VLDG. -/
def execVldg (w : Operands) (s : State) := issue 0x188 w (effVec ⟨0x188, 4, false, false⟩ w) s
/-- VLDL. -/
def execVldl (w : Operands) (s : State) := issue 0x189 w (effVec ⟨0x189, 1, false, false⟩ w) s
/-- VLDS. -/
def execVlds (w : Operands) (s : State) := issue 0x18A w (effVec ⟨0x18A, 2, false, false⟩ w) s
/-- VSTG. -/
def execVstg (w : Operands) (s : State) := issue 0x18B w (effVec ⟨0x18B, 4, true, false⟩ w) s
/-- VSTL. -/
def execVstl (w : Operands) (s : State) := issue 0x18C w (effVec ⟨0x18C, 1, true, false⟩ w) s
/-- VSTS. -/
def execVsts (w : Operands) (s : State) := issue 0x18D w (effVec ⟨0x18D, 2, true, false⟩ w) s
/-- VGTHG. -/
def execVgthg (w : Operands) (s : State) := issue 0x190 w (effVec ⟨0x190, 4, false, true⟩ w) s
/-- VGTHL. -/
def execVgthl (w : Operands) (s : State) := issue 0x191 w (effVec ⟨0x191, 1, false, true⟩ w) s
/-- VGTHS. -/
def execVgths (w : Operands) (s : State) := issue 0x192 w (effVec ⟨0x192, 2, false, true⟩ w) s
/-- VSCTG. -/
def execVsctg (w : Operands) (s : State) := issue 0x193 w (effVec ⟨0x193, 4, true, true⟩ w) s
/-- VSCTL. -/
def execVsctl (w : Operands) (s : State) := issue 0x194 w (effVec ⟨0x194, 1, true, true⟩ w) s
/-- VSCTS. -/
def execVscts (w : Operands) (s : State) := issue 0x195 w (effVec ⟨0x195, 2, true, true⟩ w) s
/-- VREDS. -/
def execVreds (w : Operands) (s : State) := issue 0x206 w (effVec ⟨0x206, 2, true, true⟩ w) s

/-! ## PREF (R394) -/

/-- PREF's effect: the owner-cache entry, and a copy of a read-duplicable page; never a fault of the access. -/
def effPref (w : Operands) (s : State) : Res :=
  match s.deferredIn 0x196 w [0, 2] with
  | some f => .fault f s
  | none =>
    let a := s.eaOf 0x196 w
    if (glbRange a 1).isSome || (s.myPart.pushEdge a.toNat).isSome then .done s
    else
      let lone := w.head.cache = 3 || w.head.cache = 4
      match s.usePage s.myDie prefKey s.myPart.asid a.toNat 1 .load with
      | .ok s' _ => .done (if lone then { s with dies := s.dies.map (fun e =>
          (e.1, { e.2 with owners := (s'.die e.1).owners })) } else s')
      | .stall s' => .done s'
      | .fault _ _ => .done s

/-- PREF. -/
def execPref (w : Operands) (s : State) := issue 0x196 w (effPref w) s

end Sys2Proof.Machine
end

