-- ==== Sys2Proof/Machine/Atomics.lean ====
section
/-!
DEFINITION. Atomics (R345 to R348, R356), reductions (R395, R396), and fences (R163, R164). An atomic enters the outbox; the
owner or bank performs it in a later step (R157, Drain.lean).
-/

namespace Sys2Proof.Machine

/-! ## Atomics -/

/-- Whether the activation's atomics are near ones (R187, R188). -/
def State.nearMode (s : State) : Bool := s.myPart.hint && s.me.near

/-- An atomic enters the slot's outbox (ISSUE of R157); its word waits for the old value, which it binds to its register at the
owner or bank (R155). -/
def State.issueAtomic (s : State) (opc : Nat) (w : Operands) (p : Piece) (op : Option Nat) (v expect : Word) : State :=
  let x := { (match s.iss with | .queued p => p | _ => s.asPending opc w) with mark := s.me.words + 1 }
  let next := match s.iss with | .queued _ => 0 | _ => 1
  (s.issueEntries s.cur
    [({ kind := .amo p.key w.ty op v expect x.seq (Ord_acq w.ord), shm := p.at_ == .shm, page := p.pkey, scope := w.scope
        dup := p.page.dup, near := s.nearMode },
      if p.at_ == .shm then [] else (from_ p.key p.n).map (vaOf p.pkey))]).modMe
    (fun a => { a with late := a.late ++ [x], seq := a.seq + next })

/-- An atomic's effect in a space: its faults in the order of R347, then its issue with an operation, or none for a
compare-and-swap, its operand and the expected value. -/
def effAtomic (opc sp : Nat) (w : Operands) (op : Option Nat) (v expect : Word) (s : State) : Res :=
  match s.deferredIn opc w [1, 0, 2] with
  | some e => .fault e s
  | none =>
    let a := s.val w.b
    let n := w.ty.bytes
    match orFault (rangeFault sp a) (aligned sp a n) with
    | some e => .fault e s
    | none =>
      match s.access sp .atomic a.toNat n s.storeExtra with
      | .stall s => .stall s
      | .fault e s => .fault e s
      | .ok s ps =>
        match s.poisonFault ps, ps with
        | some (e, s), _ => .fault e s
        | none, [] => .stall s
        | none, p :: _ =>
          if Ord_rel w.ord && !s.releaseReady w.scope then .stall s else .done (s.issueAtomic opc w p op v expect)

/-- The operation code of field C (R346). -/
def combineCode : Opnd → Nat | .imm v => v.toNat | _ => 0

/-- AMOG and AMOS: operation C applied to the old value and s[A] (R346). -/
def effAmo (opc sp : Nat) (w : Operands) (s : State) : Res := effAtomic opc sp w (some (combineCode w.c)) (s.val w.a) 0 s

/-- CASG and CASS: s[C] stored where the old bits equal those of s[A] (R356). -/
def effCas (opc sp : Nat) (w : Operands) (s : State) : Res := effAtomic opc sp w none (s.val w.c) (s.val w.a) s

/-- AMOG. -/
def execAmog (w : Operands) (s : State) := issue 0x200 w (effAmo 0x200 4 w) s
/-- AMOS. -/
def execAmos (w : Operands) (s : State) := issue 0x201 w (effAmo 0x201 2 w) s
/-- CASG. -/
def execCasg (w : Operands) (s : State) := issue 0x202 w (effCas 0x202 4 w) s
/-- CASS. -/
def execCass (w : Operands) (s : State) := issue 0x203 w (effCas 0x203 2 w) s

/-! ## Reductions (R396) -/

/-- FORMAT_MISMATCH of a reduction by a TYPE that is not its weir's (R167), once every other check has passed (R396). -/
def State.weirType (s : State) (t : Ty) (ps : List Piece) : Option FaultReq :=
  ps.findSome? (fun p => (s.weirAt p.va).bind (fun i =>
    if p.at_ == .shm || (tget {} i s.weirs).ty == t then none
    else some { code := 0x0D, space := 4, addr := BitVec.ofNat 64 p.va, info := BitVec.ofNat 64 p.page.fmt.code }))

/-- A reduction's effect: the checks of an atomic but for the weir, the release, the weir's TYPE; then it enters the outbox. -/
def effRed (opc sp : Nat) (w : Operands) (s : State) : Res :=
  match s.deferredIn opc w [0, 1, 2] with
  | some e => .fault e s
  | none =>
    let a := s.eaOf opc w
    let n := w.ty.bytes
    match orFault (rangeFault sp a) (aligned sp a n) with
    | some e => .fault e s
    | none =>
      match s.access sp .atomic a.toNat n packedFault with
      | .stall s => .stall s
      | .fault e s => .fault e s
      | .ok s ps =>
        match s.poisonFault ps with
        | some (e, s) => .fault e s
        | none =>
          if Ord_rel w.ord && !s.releaseReady w.scope then .stall s
          else
          match s.weirType w.ty ps with
          | some e => .fault e s
          | none =>
            let weir := if sp = 4 then s.weirAt a.toNat else none
            let exact := isSpec w && sp = 4 && weir.isNone && w.ty.isFloat
            .done (ps.foldl (fun s p =>
              s.issueRed s.cur (p.at_ == .shm) p.pkey w.scope p.page.dup weir p.key w.ty (s.val w.b) exact
                (s.nearMode && weir.isNone)) s)

/-- REDG. -/
def execRedg (w : Operands) (s : State) := issue 0x204 w (effRed 0x204 4 w) s
/-- REDS. -/
def execReds (w : Operands) (s : State) := issue 0x205 w (effRed 0x205 2 w) s

/-! ## Fences -/

/-- FENCE's effect (R163). -/
def effFence (w : Operands) (s : State) : Res := if s.fenceDone w.ord w.scope none then .done s else .stall s

/-- FENCE. -/
def execFence (w : Operands) (s : State) := issue 0x208 w (effFence w) s

/-- FENCER's effect (R164). -/
def effFencer (w : Operands) (s : State) : Res :=
  match s.deferredIn 0x209 w [0, 2] with
  | some f => .fault f s
  | none =>
    let b := s.val w.a
    let n := s.val w.c
    if n = 0 then .done s
    else if 2 ^ 56 ≤ b.toNat || 2 ^ 56 ≤ (b + n - 1).toNat then .fault { code := 0x0A, space := 4, addr := b } s
    else if s.fenceDone w.ord w.scope (some (b.toNat, n.toNat)) then .done s else .stall s

/-- FENCER. -/
def execFencer (w : Operands) (s : State) := issue 0x209 w (effFencer w) s

end Sys2Proof.Machine
end

