-- ==== Sys2Proof/Machine/Frames.lean ====
section
/-!
DEFINITION. The context frame (R198 to R200), saving a slot and restoring a frame (R202, R208, R213), and a slot going
FREE. What the frame has no place for stays in State.framed, under the frame's key.
-/

namespace Sys2Proof.Machine

/-! ## Rotation (R260) -/

/-- A field of a body word with its number rotated and ROT cleared. -/
def rotateField (base : Nat) (f : BitVec 21) : BitVec 21 :=
  if kindOf f = 0 && rotOf f then
    let size := match fileCode f with | 0 => 64 | 1 => 32 | _ => 8
    let num := BitVec.ofNat 21 (((numOf f).toNat + base) % size * 512)
    (f &&& ~~~ 0xFE00#21) ||| num
  else f

/-- A body word as the pass of a given rotation issues it. -/
def rotateWord (base : Nat) (w : IWord) : IWord :=
  let put (lo : Nat) (f : BitVec 21) (w : IWord) : IWord :=
    (w &&& ~~~ ((0x1FFFFF#96) <<< lo)) ||| ((f.zeroExtend 96) <<< lo)
  let w := put 42 (rotateField base (fieldA w)) w
  if pairField w then w else put 0 (rotateField base (fieldC w)) (put 21 (rotateField base (fieldB w)) w)

/-! ## Pending words of a frame (R201, R261) -/

/-- The RPT word that stands for the passes not yet placed (R261). -/
def rptWord (r : Rpt) : IWord :=
  encodeWord 0x308 .NONE
    { head := { r.head with stream := r.strm }
      c := .imm (BitVec.ofNat 19 (r.base % 64 * 8192 + r.stagger % 32 * 256 + r.left % 256)) }

/-- The pending words of an activation with their captured values, the RPT word last. -/
def Act.pendingWords (a : Act) : List (Word × IWord × List Word) :=
  a.pend.map (fun p => (p.pc, p.word, p.caps.map (·.val))) ++
    (match a.rpt with | some r => [(r.pc, rptWord r, [])] | none => [])

/-! ## The frame's image (R199, R200) -/

/-- REASON of R200. -/
def SaveWhy.code : SaveWhy → Nat | .fault => 0 | .preempt => 1 | .forMessage => 2 | .host => 3
/-- WREL of R200. -/
def WRel.code : WRel → Nat | .none => 0 | .released => 1 | .orphaned => 2 | .poisoned => 3

/-- Two bits a guard (R200). -/
def GVal.code : GVal → Nat | .f => 0 | .t => 1 | .unres => 2

/-- A number from digits of some width, digit i at bit width × i. -/
def digits (width : Nat) (l : List Nat) : Nat := l.foldr (fun x acc => x + 2 ^ width * acc) 0

/-- Whether the part-way vector access of the oldest V word is the first pending word (R200, R212). -/
def Act.partFirst (a : Act) : Bool := match a.pend with | p :: _ => p.strm == .V | [] => false

/-- The 16 header words (R200). -/
def headerWords (core : Nat) (a : Act) (why : SaveWhy) (code : Nat) : List Word :=
  let ps := a.pendingWords
  let f := a.faultInfo
  let pcf := match ps with | [] => a.pc | p :: _ => p.1
  let m (n : Nat) : Nat := (tget 0 n a.m).toNat
  [wordOf [(56, code), (52, why.code), (47, ps.length), (42, ((ps.map (fun p => p.2.2.length)).foldl (· + ·) 0)),
      (41, if a.partFirst && a.progIdx.isSome then 1 else 0), (36, if a.partFirst then a.prog else 0), (28, (bits f 56 8).toNat), (20, (bits f 48 8).toNat),
      (15, (bits f 8 5).toNat), (13, (bits f 6 2).toNat), (11, (bits f 4 2).toNat), (8, a.wrel.code)],
   wordOf [(39, coreAddr core), (32, a.inline), (16, a.stage.toNat), (10, a.origin.code), (8, a.cls.code)],
   a.pc, pcf, a.stamp,
   wordOf [(63, if a.hostFrame.isSome then 1 else 0), (62, if a.inh.isSome then 1 else 0), (32, a.hostFrame.getD 0),
      (0, (a.inh.getD 0).toNat)],
   wordOf [(32, (bits a.fpctl 0 32).toNat), (0, (bits a.fpflags 0 32).toNat)],
   wordOf [(0, m 1), (16, m 2), (32, m 3), (48, m 4)],
   wordOf [(56, a.vl), (48, if a.near then 1 else 0), (0, m 5), (16, m 6), (32, m 7)],
   BitVec.ofNat 64 (digits 2 (0 :: (from_ 1 31).map (fun n => (tget .f n a.g).code))),
   BitVec.ofNat 64 (digits 1 (0 :: (from_ 1 63).map (fun n => if tget false n a.defS then 1 else 0))),
   wordOf [(32, digits 4 ((upTo 8).map (fun n => (a.qGet n).length))),
      (0, digits 1 ((upTo 32).map (fun n => if tget false n a.defV then 1 else 0)))],
   wordOf [(0, (tget 0 0 a.regions).toNat), (32, (tget 0 1 a.regions).toNat)],
   wordOf [(0, (tget 0 2 a.regions).toNat), (32, (tget 0 3 a.regions).toNat)],
   BitVec.ofNat 64 (digits 4 ((upTo 16).map (fun n => tget 0 n a.gcnt))),
   BitVec.ofNat 64 (digits 4 ((from_ 16 16).map (fun n => tget 0 n a.gcnt)))]

/-- Bytes of words, lowest first (R8). -/
def bytesOf (ws : List Word) : List Byte := ws.flatMap (fun w => leBytes 8 w.toNat)
/-- The 64 bytes of a vector. -/
def bytesOfVec (v : Vec) : List Byte := v.flatMap (fun l => leBytes 4 l.toNat)
/-- A list of bytes filled with zeros to a length. -/
def padTo (n : Nat) (bs : List Byte) : List Byte := bs ++ List.replicate (n - bs.length) 0

/-- A spill-map entry in the frame: LOC when parked, and FALL (R199). -/
def spillBytes (e : Spill) : List Byte := leBytes 2 (if e.place == .none then 0 else 32768 + e.fall)

/-- The frame's 4,096 bytes. -/
def frameImage (core : Nat) (a : Act) (why : SaveWhy) (code : Nat) : List Byte :=
  let ps := a.pendingWords
  let pcf := match ps with | [] => a.pc | p :: _ => p.1
  bytesOf (headerWords core a why code) ++
  bytesOf ((upTo 64).map a.sGet) ++
  (upTo 32).flatMap (fun n => bytesOfVec (a.vGet n)) ++
  (upTo 8).flatMap (fun n => padTo 64 (bytesOf (a.qGet n))) ++
  (upTo 16).flatMap (fun n => bytesOf [(a.obl n).word false, (a.obl n).word true]) ++
  (upTo 64).flatMap (fun n => spillBytes (a.spillOf false n)) ++
  (upTo 32).flatMap (fun n => spillBytes (a.spillOf true n)) ++
  bytesOfVec ((if a.partFirst then a.progIdx else none).getD Vec.zero) ++
  padTo 128 (bytesOf (ps.flatMap (fun p => p.2.2))) ++
  padTo 256 (ps.flatMap (fun p => leBytes 12 p.2.1.toNat ++ leBytes 4 ((p.1 - pcf).toNat % 2 ^ 32)))

/-! ## A slot going FREE -/

/-- The slot of k becomes FREE: what it had issued stays in its outbox, and its unperformed writes, with those whose values its
loads returned, stay known to the core, since an end and a departure are releases (R102, R160; DEDUCED, log entry 128); its spill-map entries are
cleared (R118). -/
def State.freeSlot (s : State) (k : Nat) : State :=
  let a := s.act k
  let left := ((a.own.map (·.1) ++ a.deps).filter (s.unperformed k)).map (fun i => (k, i))
  let s := s.cleanSlot k
  let s := s.setAct k { outbox := a.outbox, cls := a.cls }
  if left.isEmpty then s else s.modCore (coreOf k) (fun c => { c with ended := c.ended ++ left })

/-- Waiters of signal blocks named anew, when an activation moves between slot and frame. -/
def State.renameWaiter (s : State) (p : Waiter → Bool) (f : Waiter → Waiter) : State :=
  { s with sigs := s.sigs.map (fun e => (e.1, e.2.map (fun w => if p w then f w else w))) }

/-- Whether an activation is being saved, or has been, for a fault or a pre-emption. -/
def Act.setAside (a : Act) : Bool := match a.save with | some v => v.why == .preempt || v.why == .fault | none => false

/-- The target of an LTWAIT that has not completed (R309). -/
def Act.timeTarget (a : Act) : Option Nat :=
  match a.wait with | some { on := .time x, .. } => if a.wrel == .none then some x.toNat else none | _ => none

/-- Whether an activation counts as the core's running event activation (R293): it waits for no time, or it has been saved for a
fault or pre-emption. -/
def Act.runsEvent (a : Act) : Bool := a.event && (a.timeTarget.isNone || a.setAside)

/-- Saves awaiting restoration counted at a core (R293, R299). -/
def Core.countSaved (c : Core) (a : Act) (in_ : Bool) : Core :=
  let t := a.timeTarget.toList
  let upd (n : Nat) : Nat := if in_ then n + 1 else n - 1
  { c with
    savedEvents := if a.runsEvent then upd c.savedEvents else c.savedEvents
    savedOthers := if a.runsEvent then c.savedOthers else upd c.savedOthers
    savedTargets := if in_ then c.savedTargets ++ t else t.foldl (fun l x => l.erase x) c.savedTargets }

/-- Where a granule of a register stands in a frame at a physical address (R199, R200). -/
def granuleInFrame (pa : Nat) : Granule → Granule
  | .sreg _ _ n => .glb (pa + 0x80 + 8 * n)
  | .vreg _ _ n i => .glb (pa + 0x280 + 64 * n + 8 * i)
  | .qreg _ _ n j => .glb (pa + 0xA80 + 64 * n + 8 * j)
  | .mreg _ _ n => .glb (pa + (if n ≤ 4 then 56 else 64))
  | g => g

/-- Places, in the frame's list of captured values, of those that are poisoned. -/
def Act.capturedPoison (a : Act) : List Nat :=
  let caps := a.pend.flatMap (·.caps)
  (upTo caps.length).filter (fun i => (caps[i]?.map (·.poison)).getD false)

/-- The save of slot k into frame n of its partition, its accesses performed (R199, R202): parked values go to LOC, the
frame is written, and the activation leaves the slot. -/
def State.saveInto (s : State) (k n : Nat) (why : SaveWhy) (code : Nat) : State :=
  let core := coreOf k
  let s := s.evictSlot k (fun _ => true)
  let a := { s.act k with deps := [], acq := [], own := [], outbox := [], savedOn := some core, savedSlot := slotOf k }
  let p := s.part a.part
  let va := p.frameVa n
  let s := s.pokeVirt p.asid va (frameImage core a why code)
  let s := if s.poisoned.isEmpty then s else
    match s.physOfVirt p.asid va with
    | none => s
    | some pa =>
      let s := s.unpoison glbGranule pa 4096
      { s with poisoned := (a.capturedPoison.map (fun i => .glb (pa + 0xE80 + 8 * i))) ++
          s.poisoned.map (fun g => if granuleOfSlot core (slotOf k) g then granuleInFrame pa g else g) }
  let s := { s with framed := tset {} (frameKey a.part n) a s.framed }
  let s := s.modPart a.part (fun p => { p with framesOut := p.framesOut ++ [n] })
  let s := s.renameWaiter (fun w => w.slot == some k) (fun w => { w with slot := none, frame := n, part := a.part, core := core })
  let s := s.modCore core (fun c => c.countSaved a true)
  s.freeSlot k

/-! ## Reading a frame -/

/-- The word at an offset of a frame. -/
def fw (bs : List Byte) (off : Nat) : Word := BitVec.ofNat 64 (leNat ((bs.drop off).take 8))
/-- n bits of header word w from a bit on. -/
def hf (bs : List Byte) (w lo n : Nat) : Nat := (fw bs (8 * w)).toNat / 2 ^ lo % 2 ^ n

/-- The i-th pending word of a frame: its address and its bits. -/
def framePend (bs : List Byte) (i : Nat) : Word × IWord :=
  let o := 0xF00 + 16 * i
  let d : BitVec 32 := BitVec.ofNat 32 (leNat ((bs.drop (o + 12)).take 4))
  (fw bs 24 + d.signExtend 64, BitVec.ofNat 96 (leNat ((bs.drop o).take 12)))

/-- The opcode and fields of a word that is an instruction. -/
def wordFields (w : IWord) : Option (Nat × Operands) :=
  match entryOf (opcField w) with
  | none => none
  | some e => if (encodingFault false w).isSome then none else some (opcField w, decodeOperands e.layout w)

/-- s sources of a pending word; a word that is no instruction counts none (R202). -/
def pendSources (w : IWord) : List (BitVec 6) :=
  match wordFields w with | some (opc, x) => sSources opc x | none => []

/-- The codes of R191. -/
def faultCodes : List Nat :=
  [0, 0x01, 0x02, 0x03, 0x04, 0x05, 0x06, 0x08, 0x09, 0x0A, 0x0B, 0x0C, 0x0D, 0x0E, 0x0F, 0x10, 0x11, 0x12, 0x13, 0x14, 0x15,
   0x16, 0x18, 0x19, 0x1A, 0x1B, 0x20, 0x21, 0x22, 0x23, 0x24, 0x25, 0x26, 0x27, 0x28, 0x29, 0x2A, 0x2B, 0x30, 0x31, 0x32,
   0x33]

/-- The checks that a restoration makes of a frame (R202). -/
def State.frameValid (s : State) (part : Nat) (bs : List Byte) : Bool :=
  let n := hf bs 0 47 5
  let words := (upTo n).map (fun i => (framePend bs i).2)
  let core := coreOfAddr (hf bs 1 39 25)
  n ≤ 16 && hf bs 0 42 5 ≤ 16 &&
  hf bs 0 0 8 = 0 && hf bs 1 35 4 = 0 && hf bs 1 12 4 = 0 && hf bs 1 0 8 = 0 && hf bs 5 60 2 = 0 && hf bs 8 49 7 = 0 &&
  hf bs 9 0 2 = 0 && hf bs 10 0 1 = 0 && hf bs 6 35 29 = 0 && hf bs 6 11 21 = 0 && hf bs 6 5 3 = 0 &&
  hf bs 0 36 5 ≤ 15 && (hf bs 0 15 5 ≤ 15 || hf bs 0 15 5 = 31) && hf bs 0 52 4 ≤ 3 && hf bs 0 8 3 ≤ 3 && hf bs 1 8 2 ≤ 2 && hf bs 8 56 8 ≤ 16 &&
  faultCodes.contains (hf bs 0 56 8) && faultCodes.contains (hf bs 0 28 8) &&
  (from_ 1 31).all (fun g => hf bs 9 (2 * g) 2 ≤ 2) && (upTo 8).all (fun q => hf bs 11 (32 + 4 * q) 4 ≤ 8) &&
  (upTo 4).all (fun r =>
    let x := hf bs (12 + r / 2) (32 * (r % 2)) 32
    x / 4 % 2048 = 0 && x / 2 ^ 23 + x / 8192 % 1024 ≤ 512) &&
  (upTo 16).all (fun e => let x := (fw bs (0xC80 + 16 * e)).toNat; x / 2 ^ 28 % 16 ≤ 7 && x / 2 ^ 24 % 8 = 0) &&
  (upTo 96).all (fun e => leNat ((bs.drop (0xD80 + 2 * e)).take 2) / 4096 % 8 = 0) &&
  hf bs 0 42 5 = ((words.map (fun w => (pendSources w).length)).foldl (· + ·) 0) &&
  words.all (fun w => match wordFields w with | some (_, x) => x.head.stream != .S | none => true) &&
  (match core with | some c => (s.core c).part == some part && !(s.core c).left | none => false)

/-- A table of register values read from a frame. -/
def tabOf {α : Type} [DecidableEq α] (d : α) (n : Nat) (f : Nat → α) : Tab α :=
  (upTo n).foldl (fun t i => tset d i (f i) t) []

/-- A vector read from bytes. -/
def vecAt (bs : List Byte) (off : Nat) : Vec := Vec.ofFn (fun i => BitVec.ofNat 32 (leNat ((bs.drop (off + 4 * i)).take 4)))

/-- Pending words put back into their queues, each with its captured values in order; what travels with a word and has
no place in the frame comes from `keep`. -/
def readPend (bs : List Byte) (defs : Tab Bool) (gen : Nat) : List Pending → List (Word × IWord) → Nat → Nat → List Pending
  | _, [], _, _ => []
  | keep, (pc, w) :: r, at_, i =>
    let ss := pendSources w
    let old : Option Pending := keep.head?
    let st := if Stream.ofCode (streamField w) == some .E then Stream.E else .V
    let caps := (ss.zip (from_ at_ ss.length)).map (fun x =>
      ({ num := x.1, val := fw bs (0xE80 + 8 * x.2),
         dfr := match old with
           | some o => (o.caps.find? (fun c => c.num == x.1)).elim (tget false x.1.toNat defs) (·.dfr)
           | none => tget false x.1.toNat defs } : Cap))
    let p : Pending :=
      { pc := pc, word := w, strm := st, caps := caps,
        gv := match old with | some o => o.gv | none => some true,
        vl := match old with | some o => o.vl | none => hf bs 8 56 8,
        vlGen := match old with | some o => o.vlGen | none => gen,
        fpctl := match old with | some o => o.fpctl | none => BitVec.ofNat 64 (hf bs 6 32 32)
        stamp := match old with | some o => o.stamp | none => fw bs 32
        seq := i
        gold := match old with | some o => o.gold | none => [] }
    p :: readPend bs defs gen keep.tail r (at_ + ss.length) (i + 1)

/-- GVal of a code. -/
def GVal.ofCode : Nat → GVal | 0 => .f | 1 => .t | _ => .unres

/-- The activation of a frame (R199, R200, R202), `keep` being what the frame has no place for, the place inside a pass of a
repetition among it (DESIGN CHOICE, log entries 90 and 131). -/
def actOfFrame (bs : List Byte) (keep : Act) : Act :=
  let n := hf bs 0 47 5
  let all := (upTo n).map (framePend bs)
  let isRpt (x : Word × IWord) : Bool := opcField x.2 == 0x308 && (encodingFault false x.2).isNone
  let defs := tabOf false 64 (fun i => hf bs 10 i 1 == 1)
  let rpt : Option Rpt := (all.find? isRpt).map (fun x =>
    let c := (immOf (fieldC x.2)).toNat
    { strm := (Stream.ofCode (streamField x.2)).getD .E, head := decodeHead x.2, pc := x.1, base := c / 8192 % 64, stagger := c / 256 % 32,
      left := c % 256, scan := some (x.1 + 12),
      at_ := match keep.rpt with | some r => r.at_ | none => 0
      closed := match keep.rpt with | some r => r.closed | none => false })
  let pend := readPend bs defs keep.vlGen keep.pend (all.filter (fun x => !isRpt x)) 0 0
  let partFirst := match pend with | p :: _ => p.strm == .V | [] => true
  { keep with
    st := .running
    s := tabOf 0 64 (fun i => fw bs (0x80 + 8 * i))
    v := tabOf Vec.zero 32 (fun i => vecAt bs (0x280 + 64 * i))
    m := tabOf 0 8 (fun i =>
      if i = 0 then 0 else if i ≤ 4 then BitVec.ofNat 16 (hf bs 7 (16 * (i - 1)) 16) else BitVec.ofNat 16 (hf bs 8 (16 * (i - 5)) 16))
    g := tabOf .f 32 (fun i => GVal.ofCode (hf bs 9 (2 * i) 2))
    q := tabOf [] 8 (fun i => (upTo (hf bs 11 (32 + 4 * i) 4)).map (fun j => fw bs (0xA80 + 64 * i + 8 * j)))
    defS := defs
    defV := tabOf false 32 (fun i => hf bs 11 i 1 == 1)
    vl := hf bs 8 56 8
    near := hf bs 8 48 1 == 1
    fpctl := BitVec.ofNat 64 (hf bs 6 32 32)
    fpflags := BitVec.ofNat 64 (hf bs 6 0 32)
    regions := tabOf 0 4 (fun r => BitVec.ofNat 32 (hf bs (12 + r / 2) (32 * (r % 2)) 32))
    tumbler := tabOf {} 16 (fun e => Obl.ofWords (fw bs (0xC80 + 16 * e)) (fw bs (0xC88 + 16 * e)))
    gcnt := tabOf 0 32 (fun i => hf bs (14 + i / 16) (4 * (i % 16)) 4)
    spill := tabOf {} 96 (fun e =>
      let x := leNat ((bs.drop (0xD80 + 2 * e)).take 2)
      if x < 32768 then {} else { tget {} e keep.spill with place := .loc, fall := x % 4096, index := 0 })
    inh := if hf bs 5 62 1 = 1 then some (BitVec.ofNat 32 (hf bs 5 0 32)) else none
    stamp := fw bs 32
    pc := fw bs 16
    inline := hf bs 1 32 3
    stage := BitVec.ofNat 16 (hf bs 1 16 16)
    origin := match hf bs 1 10 2 with | 0 => .firing | 1 => .handler | 2 => .spawn | _ => .child
    cls := match hf bs 1 8 2 with | 0 => .system | 1 => .handler | _ => .firing
    faultInfo := wordOf [(56, hf bs 0 28 8), (48, hf bs 0 20 8), (8, hf bs 0 15 5), (6, hf bs 0 13 2), (4, hf bs 0 11 2)]
    pend := pend
    seq := pend.length
    rpt := rpt
    prog := if partFirst then hf bs 0 36 5 else keep.prog
    progIdx := if !partFirst then keep.progIdx else if hf bs 0 41 1 = 1 then some (vecAt bs 0xE40) else none
    hostFrame := if hf bs 5 63 1 = 1 then some (hf bs 5 32 28) else none
    wrel := match hf bs 0 8 3 with | 1 => .released | 2 => .orphaned | 3 => .poisoned | _ => .none
    save := none }

/-! ## Restoring (R202, R208, R213) -/

/-- The frame's number goes onto the free stack of the die that restored it, or back to the OS (R202). -/
def State.returnFrame (s : State) (core part n : Nat) : State :=
  let d := dieOf core
  let s := s.modPart part (fun p => { p with framesOut := p.framesOut.erase n })
  if 1024 ≤ (s.die d).frames.length then s.note 0x89 (s.part part).asid core (BitVec.ofNat 64 n) 0
  else s.modDie d (fun x => { x with frames := n :: x.frames })

/-- The wait record's object and rank, for the faults of a wait that ended while the activation was saved. -/
def waitFault (w : Wait) (poisoned : Bool) : FaultReq :=
  let obj : Word := match w.on with
    | .signal _ r _ => r
    | .group _ g _ => BitVec.ofNat 64 g
    | .tile _ i _ => BitVec.ofNat 64 i
    | _ => 0
  if poisoned then sigPoisoned obj else orphanWait obj w.rank

/-- A queued wait of a restored activation: released, failed, or checked again at step 2 of R143 (R213). An LTWAIT goes on waiting
with the place that it has among those of its target, and completes where its condition holds (R293, R309). -/
def State.resumeWait (s : State) (k : Nat) : State :=
  let a := s.act k
  match a.wait with
  | none => s
  | some w =>
    match a.wrel with
    | .released =>
      let again := match w.on with | .tile _ _ .source => true | _ => false
      s.modAct k (fun a => { a with wait := none, wrel := .none, pc := if again then a.pc else a.pc + 12 })
    | .orphaned => (s.modAct k (fun a => { a with wait := none, wrel := .none })).takeFaultAt k (waitFault w false) a.pc
    | .poisoned => (s.modAct k (fun a => { a with wait := none, wrel := .none })).takeFaultAt k (waitFault w true) a.pc
    | .none =>
      match w.on with
      | .time _ => s.modAct k (fun a => { a with st := .waiting })
      | .room => s.modAct k (fun a => { a with wait := none, asked := none })
      | on =>
        let skip := match on with | .group _ g _ => some g | _ => none
        if s.rankLegal (coreOf k) a skip w.rank then s.modAct k (fun a => { a with st := .waiting })
        else
          let leave (s : State) : State :=
            { s with sigs := s.sigs.map (fun e => (e.1, e.2.filter (fun x => x.slot != some k))) }
          let f : FaultReq := { waitFault w false with
            code := 0x20, info := wordOf [(32, w.rank.toNat), (0, (bits (s.oblFloor (coreOf k) a) 0 32).toNat)] }
          ((leave s).modAct k (fun a => { a with wait := none })).takeFaultAt k f a.pc

/-- What a resume operation does to the activation restored in slot k (R152, R208): nothing; past the S word that
faulted, or without the first pending word; or a restart at the recovery entry, where the guards that the dropped words left
unresolved become false. -/
def State.resumeAs (s : State) (k : Nat) (sv : Option SaveReq) (how : ResumeHow) (entry : Word) (ws : List Word) (code : Nat) :
    State :=
  let resolve (s : State) (l : List (Nat × Bool)) : State :=
    { l.foldl (fun s g => s.resolveGuard g.1 g.2) { s with cur := k } with cur := s.cur }
  match how with
  | .atWord => s
  | .afterWord =>
    match (match sv with | some { fault := some _, at_ := none, .. } => none | _ => (s.act k).pend.head?) with
    | none => s.modAct k (fun a => { a with pc := a.pc + 12, wait := none, wrel := .none, asked := none })
    | some p =>
      resolve (s.modAct k (fun a =>
        { a with pend := dropSeq p.seq a.pend
                 prog := if p.strm == .V then 0 else a.prog, progIdx := if p.strm == .V then none else a.progIdx })) p.gold
  | .recovery =>
    let left := ((s.act k).g.filter (fun e => e.2 == GVal.unres)).map (fun e => (e.1, false))
    (resolve s left).modAct k (fun a =>
      a.recover entry code (nth 0 ws 1) (nth 0 ws 2) (nth 0 ws 3))

/-- The outcome of restoring a frame on a slot. -/
inductive Restored where
  | ok (s : State)
  | refused (s : State)
  deriving DecidableEq, Repr

/-- The frame of a key restored on slot k, which is free for it (R202). -/
def State.restoreInto (s : State) (k part n : Nat) (how : ResumeHow) : Restored :=
  let core := coreOf k
  let keep := tget {} (frameKey part n) s.framed
  let p := s.part part
  let va := p.frameVa n
  let bs := s.peekVirt p.asid va 4096
  let bad := match s.physOfVirt p.asid va with | some pa => s.poisonAt glbGranule pa 4096 | none => false
  if bad then .refused (s.noteFrame 0x87 p.asid core n)
  else if !s.frameValid part bs then .refused (s.noteFrame 0x88 p.asid core n)
  else
    let f : FaultReq := (keep.save.bind (·.fault)).getD { code := 0 }
    let pc := match keep.save with | some r => r.pc | none => fw bs 16
    let ws := recordWords f p.asid false pc (some n) (keep.savedOn.getD core) keep.savedSlot keep.stamp
    let code := hf bs 0 56 8
    match how, p.handler 0xFFF with
    | .recovery, none => .refused s
    | how, e =>
      let a := actOfFrame bs keep
      let out := (s.act k).outbox
      let s := s.clearBank k
      let s := s.setAct k { a with outbox := out, part := part, savedOn := none }
      let s := { s with framed := tset {} (frameKey part n) {} s.framed }
      let s := s.renameWaiter (fun w => w.slot == none && w.frame == n && w.part == part)
        (fun w => { w with slot := some k, frame := 0, core := core })
      let s := s.resumeAs k keep.save how (e.getD 0) ws code
      let s := if (s.act k).wait.isSome then s else
        { s with sigs := s.sigs.map (fun e => (e.1, e.2.filter (fun x => x.slot != some k))) }
      let s := (s.returnFrame core part n).modCore (keep.savedOn.getD core) (fun c => c.countSaved keep false)
      .ok (s.resumeWait k)

/-- An inline child has ended: its host is restored on the slot and resumes after its SPAWN (R81, R202). -/
def State.hostReturn (s : State) (k part n : Nat) : State :=
  match (s.freeSlot k).restoreInto k part n .atWord with | .ok s => s | .refused s => s

/-- The activation of slot k has ended (R70, R81, R364). -/
def State.endSlot (s : State) (k : Nat) : State :=
  let a := s.act k
  match a.hostFrame with
  | some n => s.hostReturn k a.part n
  | none => s.freeSlot k

end Sys2Proof.Machine
end

