-- ==== Sys2Proof/Machine/Signals.lean ====
section
/-!
DEFINITION. Signal blocks (R135, R136): the one operation at a block's home that every signal instruction, engine
discharge and poisoned discharge uses, the release of waiters (R147, R148, R153), and SIGADD, SIGFREE, SIGNEW, SIGSET,
SIGWAIT (R403 to R408), WAITA, WAKEA (R442 to R444), OBLGIVE, OBLQRY and OBLTAKE (R137, R138, R391, R392).
-/

namespace Sys2Proof.Machine

/-! ## Waiters -/

/-- A waiter reference (R135). -/
def Waiter.word (w : Waiter) : Nat :=
  match w.slot with
  | some k => 2 ^ 31 + (coreAddr (coreOf k)) % 2 ^ 15 * 8 + dieOf (coreOf k) * 2 ^ 18 + Config.moduleNumber * 2 ^ 23 + slotOf k
  | none => 2 ^ 31 + 2 ^ 30 + w.frame % 2 ^ 28

/-- WREL of a saved waiter is written in its frame; one saved under R148 is queued for restoration (R148, R200, R213). -/
def State.releaseFrame (s : State) (part n core : Nat) (r : WRel) : State :=
  let key := frameKey part n
  let a := tget {} key s.framed
  let p := s.part part
  let va := p.frameVa n
  let b1 := (s.peekVirt p.asid (va + 1) 1).headD 0
  let s := s.pokeVirt p.asid (va + 1) [(b1 &&& 0xF8) ||| BitVec.ofNat 8 r.code]
  let s := { s with framed := tset {} key { a with wrel := r } s.framed }
  let mine := match a.save with | some (v : SaveReq) => v.why == SaveWhy.forMessage | none => false
  if mine then s.modCore core (fun c => { c with restores := c.restores ++ [(key, ResumeHow.atWord)] }) else s

/-- A waiter leaves its queue: satisfied, orphaned or poisoned (R147). -/
def State.wakeWaiter (s : State) (w : Waiter) (r : WRel) : State :=
  match w.slot with
  | none => s.releaseFrame w.part w.frame w.core r
  | some k =>
    match r with
    | .released => s.releaseAt k
    | .none => s
    | r =>
      match (s.act k).wait with
      | some x => s.failAt k r (waitFault x (r == .poisoned))
      | none => s

/-! ## The block and its home (R135, R136) -/

/-- The home key of an SHM block; a GLB block's is its physical address. -/
def shmHome (shmKey : Nat) : Nat := 2 ^ 48 + shmKey

/-- The four words of a block at its home. -/
structure Block where
  value   : Word
  rank    : Rank
  holders : BitVec 32
  poison  : Bool
  live    : Bool
  /-- a nonzero reserved bit -/
  bad     : Bool
  /-- word 2 as it stands -/
  word2   : Word
  deriving DecidableEq, Repr

/-- The bytes of a block at its home. -/
def State.blockBytes (s : State) (home : Nat) : List Byte :=
  if 2 ^ 48 ≤ home then mread (home - 2 ^ 48) 32 s.shm else mread home 32 s.glb

/-- A block read at its home. -/
def State.block (s : State) (home : Nat) : Block :=
  let bs := s.blockBytes home
  let w1 := fw bs 8
  let w2 := fw bs 16
  { value := fw bs 0, rank := bits w1 32 32, holders := bits w1 0 32, poison := w2.getLsbD 33, live := w2.getLsbD 32,
    bad := bits w2 34 30 != 0, word2 := w2 }

/-- SIG_STATE (R191). -/
def sigState (ref : Word) (b : Block) : FaultReq := { code := 0x28, addr := ref, info := b.word2 }

/-- The queue of waiters of a block. -/
def State.waiters (s : State) (home : Nat) : List Waiter := tget [] home s.sigs

/-- A block's 32 bytes with the queue's WAITERS, HEAD and TAIL (R135). -/
def blockImage (b : Block) (l : List Waiter) : List Byte :=
  let head := (l.head?.map Waiter.word).getD 0
  let tail := (l.getLast?.map Waiter.word).getD 0
  bytesOf [b.value, wordOf [(32, b.rank.toNat), (0, b.holders.toNat)],
    wordOf [(33, if b.poison then 1 else 0), (32, if b.live then 1 else 0), (0, l.length)],
    wordOf [(32, head), (0, tail)]]

/-- A block written at its home on behalf of a die, as one write of the owner order or of the bank's (R136). -/
def State.putBlock (s : State) (d wid home : Nat) (dup : Bool) (b : Block) : State :=
  let bs := blockImage b (s.waiters home)
  if 2 ^ 48 ≤ home then { s with shm := mwrite (home - 2 ^ 48) bs s.shm }
  else (s.closeExact home 32).writeGlb d wid home dup bs

/-- The first n elements that a test accepts, as a test by position. -/
def firstN {α : Type} (p : α → Bool) : Nat → List α → List α
  | _, [] => []
  | 0, _ => []
  | n + 1, x :: r => if p x then x :: firstN p n r else firstN p (n + 1) r

/-- The write that releases waiters of a GLB block is part of their acquires: no later access of theirs binds or issues until it is
performed at the scope of the wait (R156, R160). -/
def State.acquireWaiters (s : State) (wid : Nat) (out : List Waiter) : State :=
  out.foldl (fun s w =>
    let put (a : Act) : Act := match a.wait with | some x => { a with acq := a.acq ++ [(x.scope, wid)] } | none => a
    match w.slot with
    | some k => s.modAct k put
    | none =>
      let key := frameKey w.part w.frame
      { s with framed := tset {} key (put (tget {} key s.framed)) s.framed }) s

/-- What follows an operation at a block's home: waiters in `out` are released in queue order; if HOLDERS is 0 then, the
others are orphaned, and where the block was poisoned by a discharge all take SIG_POISONED (R136, R153); the block is
written. -/
def State.closeBlock (s : State) (d wid home : Nat) (dup : Bool) (b : Block) (out : List Waiter) (poisoned : Bool) : State :=
  let q := s.waiters home
  let rest := q.filter (fun w => !out.contains w)
  let gone := poisoned || b.holders == 0
  let s := { s with sigs := tset [] home (if gone then [] else rest) s.sigs }
  let s := s.putBlock d wid home dup b
  let s := if 2 ^ 48 ≤ home || poisoned then s else s.acquireWaiters wid out
  let s := out.foldl (fun s w => s.wakeWaiter w (if poisoned then .poisoned else .released)) s
  if gone then rest.foldl (fun s w => s.wakeWaiter w (if poisoned then .poisoned else .orphaned)) s else s

/-- SIGWAIT waiters whose target a value meets, in queue order (R136). -/
def State.metWaiters (s : State) (home : Nat) (v : Word) : List Waiter :=
  (s.waiters home).filter (fun w => match w.target with | some t => t.toNat ≤ v.toNat | none => false)

/-- SIGADD of x and SIGSET to x at the home, discharging some units (R136, R406). -/
def State.sigUpdate (s : State) (d wid home : Nat) (dup : Bool) (set : Bool) (x : Word) (units : Nat) : State :=
  let b := s.block home
  let v := if set then x else if b.value.toNat + x.toNat < 2 ^ 64 then b.value + x else BitVec.ofNat 64 (2 ^ 64 - 1)
  s.closeBlock d wid home dup { b with value := v, holders := b.holders - BitVec.ofNat 32 units } (s.metWaiters home v) false

/-- A poisoned discharge of units at the home (R153). -/
def State.sigPoison (s : State) (d wid home : Nat) (dup : Bool) (units : Nat) : State :=
  let b := s.block home
  s.closeBlock d wid home dup { b with poison := true, holders := b.holders - BitVec.ofNat 32 units } (s.waiters home) true

/-! ## References (R135, R404) -/

/-- The outcome of a reference's checks. -/
inductive SigRes where
  | ok (s : State) (p : Piece) (home : Nat)
  | stall (s : State)
  | fault (f : FaultReq) (s : State)
  deriving DecidableEq, Repr

/-- The checks of a reference by a slot or command of key `key`, of an address space, on a die (R135). -/
def State.checkRef (s : State) (d key : Nat) (p : Part) (r : Word) (word : Nat := 0) : SigRes :=
  if r.getLsbD 63 then
    let a := (bits r 0 27).toNat
    if bits r 27 36 != 0 || 0x6000000 < a + 32 then .fault { code := 0x09, space := 2, addr := r } s
    else if a % 32 != 0 then .fault { code := 0x0B, space := 2, addr := r } s
    else if p.shmBase d ≤ a && a + 32 ≤ p.shmBase d + p.shmSize d then
      .ok s { at_ := .shm, key := 2 ^ 27 * d + a, va := a, n := 32 } (shmHome (2 ^ 27 * d + a))
    else .fault { code := 0x09, space := 2, addr := BitVec.ofNat 64 a } s
  else
    match orFault (glbRange r 32) (aligned 4 r 32) with
    | some f => .fault f s
    | none =>
      match s.usePage d key p.asid r.toNat 32 .signal (fun va _ => s.weirFault va) word with
      | .stall s => .stall s
      | .fault f s => .fault f s
      | .ok s pg =>
        let pa := pg.frame + r.toNat % 65536
        .ok s { at_ := .glb, key := pa, va := r.toNat, n := 32, page := pg, pkey := pageKey p.asid (r.toNat / 65536) } pa

/-- The checks of the issuer's reference, and what it meets at the home before the operation (R404). -/
def State.reach (s : State) (r : Word) : SigRes :=
  if s.myPart.pushMeets r.toNat 32 && !r.getLsbD 63 && r.toNat < 2 ^ 56 && r.toNat % 32 = 0 then
    .fault { code := 0x0E, space := 4, addr := r } s
  else s.checkRef s.myDie s.cur s.myPart r s.wordId

/-- SCOPE as a signal operation performs it: no wider than .die on an SHM block (R403). -/
def sigScope (w : Operands) (p : Piece) : Scope :=
  if p.at_ == .shm then (match w.scope with | .mod => .die | .dom => .die | x => x) else w.scope

/-- Whether a signal operation may be performed at its block's home: the slot's own entries that cover the block have drained
(R157), and at a page's owner the copies and the lease are back (R185, R187). -/
def State.ownerReady (s : State) (p : Piece) (near : Bool) : Bool × State :=
  let shm := p.at_ == .shm
  if s.me.outbox.any (outMeets shm p.key p.n) then (false, s)
  else if shm then (true, s)
  else
    let (go, s) := s.dupReady p.page.dup (s.homeOf p.pkey) s.cur
    if !go then (false, s) else s.lineReady s.myDie s.cur p.key near

/-- A signal operation of the issuer: deferral, reference, its own check, its release, and the step at the home. `before`
is checked before anything leaves the core. -/
def State.signalOp (s : State) (opc : Nat) (w : Operands) (fields : List Nat) (r : Word) (rel : Bool)
    (before : Option FaultReq) (at_ : State → Piece → Nat → Res) : Res :=
  match s.deferredIn opc w fields with
  | some f => .fault f s
  | none =>
    match s.reach r with
    | .stall s => .stall s
    | .fault f s => .fault f s
    | .ok s p home =>
      match before with
      | some f => .fault f s
      | none =>
        if rel && !s.releaseReady (sigScope w p) then .stall s
        else
          let (go, s) := s.ownerReady p false
          if !go then .stall s
          else if (if p.at_ == .shm then s.poisonAt shmGranule p.key 32 else s.poisonAt glbGranule p.key 32) then
            .fault { code := 0x15, space := p.at_.space, addr := r } s
          else at_ (s.noteIds s.cur (if p.at_ == .shm then [] else s.ownerIds p.key 32)) p home

/-- The identity of a signal operation's write, noted among the activation's own writes. -/
def State.sigWid (s : State) (p : Piece) : Nat × State :=
  let s' := { s with nextWid := s.nextWid + 1 }
  (s.nextWid, if p.at_ == .shm then s' else s'.noteOwn s.cur s.nextWid (from_ p.va 32))

/-- Later accesses of the issuer wait until a signal operation's write is performed at its scope (R156, R160). -/
def State.sigAcquire (s : State) (p : Piece) (wid : Nat) (sc : Scope) : State :=
  if p.at_ == .shm then s else s.modMe (fun a => { a with acq := a.acq ++ [(sc, wid)] })

/-- SIG_STATE unless the block is live with its reserved bits zero (R136). -/
def liveFault (r : Word) (b : Block) : Option FaultReq := if !b.live || b.bad then some (sigState r b) else none

/-! ## SIGADD, SIGSET, SIGFREE, SIGNEW (R405, R406, R408) -/

/-- SIGADD's and SIGSET's effect; with .acq, later accesses wait until the write is performed at its scope (R156, R160). -/
def effSigUpdate (opc : Nat) (set : Bool) (w : Operands) (s : State) : Res :=
  let r := s.val w.a
  s.signalOp opc w [0, 2] r true none (fun s p home =>
    match liveFault r (s.block home) with
    | some f => .fault f s
    | none =>
      let u := if s.me.oblUnits .signal r = 0 then 0 else 1
      let (wid, s) := s.sigWid p
      let s := s.modMe (fun a => if u = 1 then a.oblDischarge .signal r else a)
      let s := if Ord_acq w.ord then s.sigAcquire p wid w.scope else s
      .done (s.sigUpdate s.myDie wid home p.page.dup set (s.val w.c) u))

/-- SIGADD. -/
def execSigadd (w : Operands) (s : State) := issue 0x213 w (effSigUpdate 0x213 false w) s
/-- SIGSET. -/
def execSigset (w : Operands) (s : State) := issue 0x216 w (effSigUpdate 0x216 true w) s

/-- SIGFREE's effect. -/
def effSigfree (w : Operands) (s : State) : Res :=
  let r := s.val w.a
  s.signalOp 0x214 w [0] r (Ord_rel w.ord) none (fun s p home =>
    let b := s.block home
    if !b.live || b.bad || b.holders != 0 || !(s.waiters home).isEmpty then .fault (sigState r b) s
    else
      let (wid, s) := s.sigWid p
      .done (s.putBlock s.myDie wid home p.page.dup { b with live := false }))

/-- SIGFREE. -/
def execSigfree (w : Operands) (s : State) := issue 0x214 w (effSigfree w) s

/-- SIGNEW's draw (R134): the fault, or the rank and the class table after it. -/
def Part.draw (p : Part) (mode : Nat) (x : Word) : Except FaultReq (Rank × Part) :=
  if mode = 3 then
    let r : Rank := x.setWidth 32
    let cls := (bits r 24 8).toNat
    if cls = 0 || !(tget {} cls p.classes).valid || reservedRank r then
      .error { code := 0x22, addr := r.zeroExtend 64 }
    else .ok (r, p)
  else
    let cls := x.toNat % 256
    match drawRank (tget {} cls p.classes) cls mode with
    | .error f => .error f
    | .ok (r, c) => .ok (r, { p with classes := tset {} cls c p.classes })

/-- SIGNEW's effect. -/
def effSignew (w : Operands) (s : State) : Res :=
  let r := s.val w.b
  let owe := w.flg.getLsbD 2
  let full := owe && (s.me.oblAcquire .signal r 0 1).isNone
  s.signalOp 0x215 w [1, 2] r (Ord_rel w.ord) (if full then some { code := 0x24, addr := r } else none) (fun s p home =>
    let b := s.block home
    if b.live || b.bad then .fault (sigState r b) s
    else
      match s.myPart.draw (bits w.flg 0 2).toNat (s.val w.c) with
      | .error f => .fault f s
      | .ok (rank, part) =>
        let (wid, s) := s.sigWid p
        let s := s.modPart s.me.part (fun _ => part)
        let s := s.closeBlock s.myDie wid home p.page.dup
          { b with value := 0, rank := rank, holders := if owe then 1 else 0, poison := false, live := true } [] false
        .done (s.modMe (fun a =>
          let a := if owe then (a.oblAcquire .signal r rank 1).getD a else a
          a.sSet (opndNum w.a) (rank.zeroExtend 64))))

/-- SIGNEW. -/
def execSignew (w : Operands) (s : State) := issue 0x215 w (effSignew w) s

/-! ## SIGWAIT, WAITA, WAKEA (R143, R407, R443, R444) -/

/-- Steps 2 to 6 of R143 at a block: RANK_ORDER, poison, satisfaction, orphan, and the queue. A satisfied wait is an operation
that writes the block back, and leaves its queue as HOLDERS says (R135, R136). -/
def State.waitAt (s : State) (p : Piece) (home : Nat) (sc : Scope) (r : Word) (target : Option Word) : Res :=
  let b := s.block home
  match liveFault r b with
  | some f => .fault f s
  | none =>
    if !s.rankLegal s.myCore s.me none b.rank then .fault (s.rankOrder r b.rank) s
    else if b.poison then .fault (sigPoisoned r) s
    else if (match target with | some t => decide (t.toNat ≤ b.value.toNat) | none => false) then
      let (wid, s) := s.sigWid p
      .done ((s.sigAcquire p wid sc).closeBlock s.myDie wid home p.page.dup b [] false)
    else if b.holders == 0 then .fault (orphanWait r b.rank) s
    else
      let (wid, s) := s.sigWid p
      let q := s.waiters home ++ [{ slot := some s.cur, part := s.me.part, core := s.myCore, target := target }]
      let s := { s with sigs := tset [] home q s.sigs }
      .halt ((s.putBlock s.myDie wid home p.page.dup b).enterWait (.signal home r target) b.rank sc)

/-- SIGWAIT's effect. -/
def effSigwait (w : Operands) (s : State) : Res :=
  let r := s.val w.a
  s.signalOp 0x217 w [0, 2] r false none (fun s p home => s.waitAt p home w.scope r (some (s.val w.c)))

/-- SIGWAIT: it serialises (R143 step 1). -/
def execSigwait (w : Operands) (s : State) := issueSerial 0x217 w (effSigwait w) s

/-- WAITA's effect. -/
def effWaita (w : Operands) (s : State) : Res :=
  let r := s.val w.a
  s.signalOp 0x20A w [0] r false none (fun s p home => s.waitAt p home w.scope r none)

/-- WAITA: it serialises (R143 step 1). -/
def execWaita (w : Operands) (s : State) := issueSerial 0x20A w (effWaita w) s

/-- WAKEA's effect. -/
def effWakea (w : Operands) (s : State) : Res :=
  let r := s.val w.a
  s.signalOp 0x20B w [0, 2] r true none (fun s p home =>
    let b := s.block home
    match liveFault r b with
    | some f => .fault f s
    | none =>
      let (wid, s) := s.sigWid p
      let q := s.waiters home
      let out := firstN (fun w : Waiter => w.target.isNone) (min (s.val w.c).toNat q.length) q
      .done (s.closeBlock s.myDie wid home p.page.dup b out false))

/-- WAKEA. -/
def execWakea (w : Operands) (s : State) := issue 0x20B w (effWakea w) s

/-! ## Obligations (R137, R138, R392) -/

/-- The count of OBLGIVE and OBLTAKE: an immediate, or [23:0] of a register (R391). -/
def State.oblCountOf (s : State) (w : Operands) : Nat :=
  if opndIsImm w.c then (s.val w.c).toNat else (s.val w.c).toNat % 2 ^ 24

/-- OBLGIVE's effect. -/
def effOblgive (w : Operands) (s : State) : Res :=
  match s.deferredIn 0x210 w [0, 2] with
  | some f => .fault f s
  | none =>
    let h := s.val w.a
    let n := s.oblCountOf w
    if n = 0 then .fault { code := 0x25, addr := h } s
    else if s.cmdAhead then .stall s
    else
      match s.me.oblGive h n with
      | .error f => .fault f s
      | .ok a => .done (s.modMe (fun _ => a))

/-- OBLGIVE. -/
def execOblgive (w : Operands) (s : State) := issue 0x210 w (effOblgive w) s

/-- OBLQRY's effect. -/
def effOblqry (w : Operands) (s : State) : Res :=
  match s.deferredIn 0x211 w [2] with
  | some f => .fault f s
  | none =>
    let sel := (s.val w.c).toNat % 32
    .done (s.modMe (fun a => a.sSet (opndNum w.a) ((a.obl (sel % 16)).word (sel / 16 = 1))))

/-- OBLQRY. -/
def execOblqry (w : Operands) (s : State) := issue 0x211 w (effOblqry w) s

/-- OBLTAKE's effect; HOLDERS, of 32 bits, goes on from 0 past its largest value (log entry 116). -/
def effObltake (w : Operands) (s : State) : Res :=
  let r := s.val w.a
  let n := s.oblCountOf w
  let before : Option FaultReq :=
    if n = 0 then some { code := 0x25, addr := r }
    else if (s.me.oblAcquire .signal r 0 n).isNone then some { code := 0x24, addr := r } else none
  s.signalOp 0x212 w [0, 2] r false before (fun s p home =>
    let b := s.block home
    match liveFault r b with
    | some f => .fault f s
    | none =>
      if b.poison then .fault (sigPoisoned r) s
      else
        let (wid, s) := s.sigWid p
        let b' : Block := { b with holders := b.holders + BitVec.ofNat 32 n }
        let s := if b'.holders == 0 then s.closeBlock s.myDie wid home p.page.dup b' [] false
          else s.putBlock s.myDie wid home p.page.dup b'
        .done (s.modMe (fun a => (a.oblAcquire .signal r b.rank n).getD a)))

/-- OBLTAKE. -/
def execObltake (w : Operands) (s : State) := issue 0x212 w (effObltake w) s

end Sys2Proof.Machine
end

