-- ==== Sys2Proof/Machine/Groups.lean ====
section
/-!
DEFINITION. Groups and barriers: BARA, BARW (R87 to R89, R144, R350, R351), GRPQRY (R373), and the events by which a phase
combines and releases (R88).
-/

namespace Sys2Proof.Machine

/-! ## Waking by object -/

/-- The core whose slot a frame's activation left, from the frame's header (R200). -/
def State.frameCore (s : State) (part n : Nat) : Nat :=
  let p := s.part part
  (coreOfAddr (hf (s.peekVirt p.asid (p.frameVa n) 16) 1 39 25)).getD 0

/-- Whether an activation waits on an object that a test accepts, with no outcome yet. -/
def Act.waitsOn (a : Act) (p : WaitOn → Bool) : Bool :=
  a.wrel == .none && (match a.wait with | some w => p w.on | none => false)

/-- An item put behind those of no larger measure. -/
def insertBy {α : Type} (f : α → Nat) (x : α) : List α → List α
  | [] => [x]
  | y :: r => if f x < f y then x :: y :: r else y :: insertBy f x r
/-- A list in rising order of a measure, equal ones in the order in which they stand. -/
def sortBy {α : Type} (f : α → Nat) (l : List α) : List α := l.foldl (fun r x => insertBy f x r) []

/-- Slots that wait on an object, in order of entering their waits, then frames. -/
def State.waitersOn (s : State) (p : WaitOn → Bool) : List Waiter :=
  let since (a : Act) : Nat := match a.wait with | some w => w.since | none => 0
  let slots := sortBy (fun x => since x.2) (s.acts.filter (fun e => e.2.waitsOn p))
  let frames := sortBy (fun x => since x.2) (s.framed.filter (fun e => e.2.waitsOn p))
  slots.map (fun e => { slot := some e.1, part := e.2.part, core := coreOf e.1 }) ++
    frames.map (fun e =>
      let part := e.1 / 2 ^ 28
      let n := e.1 % 2 ^ 28
      { slot := none, frame := n, part := part, core := s.frameCore part n })

/-- Every wait on an object ends with one outcome (R147). -/
def State.wakeAll (s : State) (p : WaitOn → Bool) (r : WRel) : State :=
  (s.waitersOn p).foldl (fun s w => s.wakeWaiter w r) s

/-! ## BARA, BARW, GRPQRY -/

/-- A group of the executing activation's partition. -/
def State.group (s : State) (g : Nat) : Group := tget {} g s.myPart.groups

/-- Whether the executing core is a member of a valid group. -/
def State.inGroup (s : State) (g : Nat) : Bool := (s.group g).valid && (s.group g).members.contains s.myCore

/-- BARRIER_PHASE (R191): the group, and a phase or all ones. -/
def barrierPhase (g : Nat) (info : Word) : FaultReq := { code := 0x2A, addr := BitVec.ofNat 64 g, info := info }

/-- The number of the group that field C names. -/
def State.groupNum (s : State) (w : Operands) : Nat := (s.val w.c).toNat % 256

/-- BARA's effect. -/
def effBara (w : Operands) (s : State) : Res :=
  match s.deferredIn 0x218 w [2] with
  | some f => .fault f s
  | none =>
    let g := s.groupNum w
    let x := s.group g
    if !s.inGroup g then .fault (barrierPhase g (BitVec.ofNat 64 (2 ^ 64 - 1))) s
    else if tget 0 g (s.core s.myCore).arrived == x.phase + 1 then .fault (barrierPhase g (BitVec.ofNat 64 x.phase)) s
    else if !s.releaseReady w.scope then .stall s
    else
      let c := s.myCore
      .done ((s.modCore c (fun y => { y with arrived := tset 0 g (x.phase + 1) y.arrived })).modPart s.me.part
        (fun p => { p with groups := tset {} g { x with here := x.here ++ [c] } p.groups }))

/-- BARA. -/
def execBara (w : Operands) (s : State) := issue 0x218 w (effBara w) s

/-- TIME_WAIT_HELD (R191, R303, R309). -/
def State.timeWaitHeld (s : State) : FaultReq :=
  { code := 0x31, info := s.oblCount s.myCore s.me }

/-- BARW's effect. -/
def effBarw (w : Operands) (s : State) : Res :=
  if s.myPart.lt then .fault (s.timeWaitHeld) s
  else
    match s.deferredIn 0x219 w [2] with
    | some f => .fault f s
    | none =>
      let g := s.groupNum w
      let x := s.group g
      if !s.inGroup g then .fault (barrierPhase g (BitVec.ofNat 64 (2 ^ 64 - 1))) s
      else
        let last := tget 0 g (s.core s.myCore).arrived
        let p := if last = 0 then x.phase else last - 1
        if !s.rankLegal s.myCore s.me (if last = 0 then none else some g) x.rank then
          .fault (s.rankOrder (BitVec.ofNat 64 g) x.rank) s
        else if x.poisoned.contains p then .fault (sigPoisoned (BitVec.ofNat 64 g)) s
        else if p < x.phase then .done s
        else .halt (s.enterWait (.group s.me.part g p) x.rank)

/-- BARW: it serialises (R143 step 1). -/
def execBarw (w : Operands) (s : State) := issueSerial 0x219 w (effBarw w) s

/-- The dies that hold members of a group. -/
def Group.dieMask (g : Group) : Nat := (upTo numDies).foldl (fun m d => if g.members.any (fun c => dieOf c == d) then m + 2 ^ d else m) 0

/-- GRPQRY's items as a core reads them. -/
def Group.item (x : Group) (core last item : Nat) : Word :=
  if !x.valid then 0
  else
    match item with
    | 0 => wordOf [(63, 1), (62, if x.members.contains core then 1 else 0), (61, if last == x.phase + 1 then 1 else 0),
        (60, if 0 < x.phase && x.poisoned.contains (x.phase - 1) then 1 else 0), (0, x.phase % 2 ^ 32)]
    | 1 => x.rank.zeroExtend 64
    | 2 => x.listAt
    | _ => wordOf [(32, x.dieMask), (0, x.members.length)]

/-- GRPQRY's effect. -/
def effGrpqry (w : Operands) (s : State) : Res :=
  match s.deferredIn 0x21A w [2] with
  | some f => .fault f s
  | none =>
    let sel := (s.val w.c).toNat
    let g := sel % 256
    .done (s.modMe (fun a => a.sSet (opndNum w.a) ((s.group g).item s.myCore (tget 0 g (s.core s.myCore).arrived) (sel / 256 % 4))))

/-- GRPQRY. -/
def execGrpqry (w : Operands) (s : State) := issue 0x21A w (effGrpqry w) s

/-! ## Combining and release (R88) -/

/-- The clusters that hold members of a group. -/
def Group.clusters (g : Group) : List Nat := (g.members.map clusterOf).dedup

/-- A cluster's team combiner sends its arrival on when all its members have arrived. -/
def execBarrierArrival (part group cluster : Nat) (s : State) : Host.Outcome State Fault Refusal :=
  let x := tget {} group (s.part part).groups
  let mine := x.members.filter (fun c => clusterOf c == cluster)
  if x.valid && !mine.isEmpty && mine.all x.here.contains && !x.teams.contains cluster then
    .next (s.modPart part (fun p => { p with groups := tset {} group { x with teams := x.teams ++ [cluster] } p.groups }))
  else .next s

/-- A phase of a group releases: it counts as released, its waiters are satisfied or poisoned, and the next phase begins
(R88, R153). -/
def State.releasePhase (s : State) (part group : Nat) (poisoned : Bool) : State :=
  let x := tget {} group (s.part part).groups
  let x' := { x with phase := x.phase + 1, here := [], teams := [], poisoned := x.poisoned ++ (if poisoned then [x.phase] else []) }
  (s.modPart part (fun p => { p with groups := tset {} group x' p.groups })).wakeAll
    (fun w => match w with | .group p g n => p == part && g == group && n == x.phase | _ => false)
    (if poisoned then .poisoned else .released)

/-- The release of a phase in which every team has arrived runs down the tree. -/
def execBarrierRelease (part group : Nat) (s : State) : Host.Outcome State Fault Refusal :=
  let x := tget {} group (s.part part).groups
  if x.valid && x.clusters.all x.teams.contains then .next (s.releasePhase part group false) else .next s

end Sys2Proof.Machine
end

