-- ==== Sys2Proof/Machine/Router.lean ====
section
/-!
DEFINITION. The routers of a die: a core's router, the way from one to another, and their waking (R15, R21, R279, R280).
-/

namespace Sys2Proof.Machine

/-- The router of a core on its die (R15, R279). -/
def routerOf (core : Nat) : Nat := physOf core / 256

/-- The links of the way from one router of a die to another: along the row to the column, then along the column (R279). -/
def routeLinks (a b : Nat) : List (Nat × Nat) :=
  let corner := 12 * (a / 12) + b % 12
  (if a = corner then [] else [(a, corner)]) ++ (if corner = b then [] else [(corner, b)])

/-- A router of a die carries a flit: a gated one wakes (R280). -/
def State.carry (s : State) (d r : Nat) : State :=
  s.modDie d (fun x => { x with lastFlit := tset 0 r s.cycle x.lastFlit, gated := tset false r false x.gated })

/-- The routers of a die on the way from one of its cores to another, those of the cores included. -/
def wayRouters (a b : Nat) : List Nat := routerOf a :: (routeLinks (routerOf a) (routerOf b)).map (·.2)

/-- Something travels from a core to another: the routers of its way on a die carry it, and where the cores are of two dies those of
the cores do. -/
def State.carryWay (s : State) (a b : Nat) : State :=
  if dieOf a == dieOf b then (wayRouters a b).foldl (fun s r => s.carry (dieOf a) r) s
  else (s.carry (dieOf a) (routerOf a)).carry (dieOf b) (routerOf b)

end Sys2Proof.Machine
end

