-- ==== Sys2Proof/Machine/LocalTime.lean ====
section
/-!
DEFINITION. Local-time mode (R287 to R311): links and their clocks, announcements, null events and demands, and LTADV,
LTANN, LTGET, LTLOOK, LTNULL, LTSET and LTWAIT.
-/

namespace Sys2Proof.Machine

/-- The stamp that stands for never (R288). -/
def never : Nat := 2 ^ 64 - 1
/-- sat_add (R288). -/
def satAdd (x y : Nat) : Nat := min (x + y) never

/-! ## Clocks and bounds -/

/-- The bound of an input link (R290). -/
def InLink.bound (l : InLink) : Nat := satAdd l.clock l.look
/-- SAFE of a core (R288, R290); all ones outside local-time mode. -/
def State.safe (s : State) (c : Nat) : Nat := (s.core c).ins.foldl (fun m l => min m l.bound) never

/-- Whether a message is an event at a core of its partition (R291). -/
def Msg.isEvent (m : Msg) : Bool :=
  match m.kind with
  | .wakeup => true
  | .plain => (m.vn == .request || m.vn == .reply) && !m.poison
  | _ => false

/-- Whether a core's partition is in local-time mode. -/
def State.ltCore (s : State) (c : Nat) : Bool := match (s.core c).part with | some p => (s.part p).lt | none => false

/-- The order of events (R292): stamp, then source core address. -/
def Msg.before (a b : Msg) : Bool := a.stamp.toNat < b.stamp.toNat || (a.stamp == b.stamp && a.src < b.src)

/-- The first of some events in the order of R292, with its place; equal ones keep the order of the list. -/
def headEvent : List (Msg × Nat) → Option (Msg × Nat)
  | [] => none
  | x :: r => match headEvent r with | none => some x | some y => if y.1.before x.1 then some y else some x

/-- The head of a core's input buffer (R292): the event and its place in the buffer. -/
def State.head (s : State) (c : Nat) : Option (Msg × Nat) :=
  headEvent (((s.core c).inQ.zipIdx).filter (fun x => x.1.isEvent))

/-- The head's stamp; all ones with an empty buffer. -/
def State.headStamp (s : State) (c : Nat) : Nat := match s.head c with | some (m, _) => m.stamp.toNat | none => never

/-- Whether an event activation runs on a core, in a slot or saved (R293). -/
def State.eventRuns (s : State) (c : Nat) : Bool :=
  (slotsOf c).any (fun k => (s.act k).st != .free && (s.act k).runsEvent) || (s.core c).savedEvents != 0

/-- Whether the head of a core may be dispatched by its time (R292, R293). -/
def State.headDue (s : State) (c : Nat) : Bool :=
  match s.head c with
  | none => false
  | some (m, _) => ((s.core c).ins.isEmpty || m.stamp.toNat < s.safe c) && !s.eventRuns c

/-- Whether the condition of an LTWAIT for a target holds on a core (R309). -/
def State.timeMet (s : State) (c t : Nat) : Bool := t ≤ s.safe c && ((s.head c).isNone || t ≤ s.headStamp c)

/-- Targets of the LTWAITs on a core (R299). -/
def State.targets (s : State) (c : Nat) : List Nat :=
  (slotsOf c).filterMap (fun k => (s.act k).timeTarget) ++ (s.core c).savedTargets

/-- Whether a core is idle (R299). -/
def State.idle (s : State) (c : Nat) : Bool :=
  (slotsOf c).all (fun k => (s.act k).st == .free || (s.act k).timeTarget.isSome) &&
    (s.core c).savedEvents == 0 && (s.core c).savedOthers == 0

/-! ## Clock messages (R297, R298) -/

/-- CC of an output link (R297). -/
def OutLink.cc (l : OutLink) (lvt : Nat) : Nat := max lvt (l.floor - l.look)

/-- The core at the other end of a link changed, while it belongs to the partition whose link it is (R99, R289). -/
def State.modPeer (s : State) (c other : Nat) (f : Core → Core) : State :=
  if (s.core other).part == (s.core c).part then s.modCore other f else s

/-- A clock message leaves on output link j of a core and replaces an unapplied one of its link (R297): what stands as held at the
other end is the one on its way or come. LASTCC follows it, and a demand that the promise now exceeds is met (R298, R299). -/
def State.clockMsg (s : State) (c j : Nat) (null : Bool) : State :=
  match (s.core c).outs[j]? with
  | none => s
  | some l =>
    let cc := l.cc (s.core c).lvt
    let met : Bool := match l.demand with | some d => decide (d < satAdd cc l.look) | none => true
    let m : ClockMsg := { null := null, cc := cc, sent := l.sent, stamp := (s.core c).lvt }
    let s := s.modCore c (fun x => { x with outs := setNth x.outs j { l with lastCC := cc, demand := if met then none else l.demand } })
    (s.modPeer c l.dst (fun x =>
      { x with ins := x.ins.map (fun i => if i.link = l.link then { i with held := some m } else i) })).carryWay c l.dst

/-- Announcements on the output links that are due (R298). -/
def State.announceDue (s : State) (c : Nat) : State :=
  let p := match (s.core c).part with | some p => s.part p | none => {}
  (upTo (s.core c).outs.length).foldl (fun s j =>
    match (s.core c).outs[j]? with
    | some l => if satAdd l.lastCC p.quantum ≤ (s.core c).lvt then s.clockMsg c j false else s
    | none => s) s

/-- LVT rises to a value, and what is due is announced (R292, R298, R305, R309). -/
def State.raiseLvt (s : State) (c v : Nat) : State :=
  if v ≤ (s.core c).lvt then s else (s.modCore c (fun x => { x with lvt := v })).announceDue c

/-! ## Waits for time (R148, R213, R293, R309) -/

/-- Frames of a core that wait for time, saved under R148 so that they are restored when their condition holds, with their
targets. One that was pre-empted is checked again when the OS restores it (R213). -/
def State.framedTimers (s : State) (core : Nat) : List (Nat × Nat × Act) :=
  s.framed.filterMap (fun e =>
    match e.2.timeTarget, e.2.save with
    | some t, some v => if e.2.savedOn == some core && v.why == .forMessage then some (e.1, t, e.2) else none
    | _, _ => none)

/-- A frame that waits for time is queued for restoration, where its LTWAIT is checked again (R148, R213, R309). -/
def State.restoreTimer (s : State) (core key : Nat) : State :=
  if (s.core core).restores.any (fun r => r.1 == key) then s
  else s.modCore core (fun c => { c with restores := c.restores ++ [(key, .atWord)] })

/-- An LTWAIT in slot k completes, and LVT rises to its target. -/
def State.endTimeWait (s : State) (core k t : Nat) : State := (s.releaseAt k).raiseLvt core t

/-- The target of an LTWAIT that may complete in its slot: not one that is being saved, which is checked again on its
restoration (R213). -/
def Act.liveTarget (a : Act) : Option Nat := if a.st == .saving then none else a.timeTarget

/-- LTWAITs of activations that are no event activations complete, or are restored, when their condition holds (R309). -/
def State.freeTimers (s : State) (core : Nat) : State :=
  let s := (slotsOf core).foldl (fun s k =>
    match (s.act k).liveTarget with
    | some t => if !(s.act k).event && s.timeMet core t then s.endTimeWait core k t else s
    | none => s) s
  (s.framedTimers core).foldl (fun s x =>
    if !x.2.2.event && s.timeMet core x.2.1 then s.restoreTimer core x.1 else s) s

/-- The event activation in LTWAIT on a core whose condition holds, with the lowest target, the one that has waited
longest first: its target, and its slot or frame. -/
def State.eventTimer (s : State) (core : Nat) : Option (Nat × Nat × Bool) :=
  let since (a : Act) : Nat := match a.wait with | some w => w.since | none => 0
  let slots := (slotsOf core).filterMap (fun k => (s.act k).liveTarget.bind (fun t =>
    if (s.act k).event && s.timeMet core t then some (t, since (s.act k), k, false) else none))
  let frames := ((s.framedTimers core).filter (fun x => x.2.2.event && s.timeMet core x.2.1)).map
    (fun x => (x.2.1, since x.2.2, x.1, true))
  ((slots ++ frames).foldl (fun b x => match b with
    | none => some x
    | some y => if x.1 < y.1 || (x.1 == y.1 && x.2.1 < y.2.1) then some x else some y) none).map (fun x => (x.1, x.2.2.1, x.2.2.2))

/-- The event activation in LTWAIT that goes on before the head of a core (R293): none while an event activation runs. -/
def State.firstTimer (s : State) (core : Nat) : Option (Nat × Nat × Bool) :=
  if s.eventRuns core then none
  else (s.eventTimer core).filter (fun x => !s.headDue core || decide (x.1 ≤ s.headStamp core))

/-- An LTWAIT of an event activation completes in its slot, or is restored from its frame. -/
def State.endEventWait (s : State) (core t k : Nat) (framed : Bool) : State :=
  if framed then s.restoreTimer core k else s.endTimeWait core k t

/-- LTWAITs of a core complete where a step has met their condition (R293, R309). -/
def State.completeTimers (s : State) (core : Nat) : State :=
  let s := s.freeTimers core
  match s.firstTimer core with
  | some (t, k, framed) => s.endEventWait core t k framed
  | none => s

/-! ## Clock messages that have come (R297) -/

/-- A held clock message takes effect once RCVD has reached its count (R297), and LTWAITs whose condition it meets complete (R309). -/
def State.applyClock (s : State) (c i : Nat) (null : Bool) : State :=
  match (s.core c).ins[i]? with
  | none => s
  | some l =>
    match l.held with
    | none => s
    | some m =>
      if m.null != null || 2 ^ 31 ≤ (l.rcvd + 2 ^ 32 - m.sent % 2 ^ 32) % 2 ^ 32 then s
      else (s.modCore c (fun x => { x with ins := setNth x.ins i { l with clock := max l.clock m.cc, held := none } })).completeTimers c

/-- ANNOUNCEMENT (R297): the message held on an input link. -/
def execAnnouncement (core link : Nat) (s : State) : Host.Outcome State Fault Refusal := .next (s.applyClock core link false)

/-- NULL_EVENT (R297): the message held on an input link. -/
def execNullEvent (core link : Nat) (s : State) : Host.Outcome State Fault Refusal := .next (s.applyClock core link true)

/-! ## Demands (R299) -/

/-- A core sends demand d on each input link whose bound is at or below d, once for each larger stamp: it stands at the
link's source, unless the promise there exceeds it already. -/
def State.demandAll (s : State) (c d : Nat) : State :=
  (upTo (s.core c).ins.length).foldl (fun s i =>
    match (s.core c).ins[i]? with
    | none => s
    | some l =>
      let told := match l.demanded with | some x => d ≤ x | none => false
      if d < l.bound || told then s
      else
        let s := s.modCore c (fun x => { x with ins := setNth x.ins i { l with demanded := some d } })
        s.modPeer c l.src (fun x =>
          { x with outs := x.outs.map (fun o =>
              if o.link = l.link && satAdd o.lastCC o.look ≤ d then { o with demand := some (max d (o.demand.getD 0)) } else o) })
          |>.carryWay c l.src) s

/-- Step 1: a core whose head is held by SAFE demands its stamp, and one with an LTWAIT above SAFE its target less 1. -/
def State.demandHeld (s : State) (c : Nat) : State :=
  let s := match s.head c with
    | some (m, _) => if (s.core c).ins.isEmpty || m.stamp.toNat < s.safe c then s else s.demandAll c m.stamp.toNat
    | none => s
  (s.targets c).foldl (fun s t => if s.safe c < t then s.demandAll c (t - 1) else s) s

/-- DEMAND: an idle core with no dispatchable head answers the demand that stands on an output link (steps 2 and 3); a
core that is not idle keeps it (step 4). -/
def execDemand (core link : Nat) (s : State) : Host.Outcome State Fault Refusal :=
  match (s.core core).outs[link]? with
  | none => .next s
  | some l =>
    match l.demand with
    | none => .next s
    | some d =>
      if !s.idle core || s.headDue core then .next s
      else
        let c := max (s.core core).lvt ((s.targets core).foldl min (min (s.headStamp core) (s.safe core)))
        let l' := { l with floor := max l.floor (satAdd c l.look) }
        let s := s.modCore core (fun x => { x with outs := setNth x.outs link l' })
        let cc := l'.cc (s.core core).lvt
        let s := if l.lastCC < cc then s.clockMsg core link true else s
        .next (if satAdd cc l.look ≤ d then s.demandAll core (d - l.look) else s)

/-! ## Links (R289, R290, R301, R308) -/

/-- The cores that zero-lookahead links reach from some cores. -/
def zeroReach (ls : List Link) : Nat → List Nat → List Nat
  | 0, l => l
  | n + 1, l => zeroReach ls n (l ++ ((ls.filter (fun x => x.look == 0 && l.contains x.src && !l.contains x.dst)).map (·.dst)).dedup)

/-- A new zero-lookahead link from `src` to `dst` would close a cycle (R301): the number of the cycle's first link that
leaves the target, all ones where the link is the cycle by itself; of several cycles, the lowest such link (DESIGN CHOICE, log
entry 134). -/
def zeroCycle (ls : List Link) (src dst : Nat) : Option Word :=
  if src = dst then some (BitVec.ofNat 64 never)
  else
    (findIdx (fun x : Link => x.look == 0 && x.src == dst && (zeroReach ls ls.length [x.dst]).contains src) ls).map
      (BitVec.ofNat 64)

/-- A link inserted with the values of R290; at launch FLOOR is L. -/
def State.insertLink (s : State) (part : Nat) (l : Link) (floor : Nat) : State :=
  let n := (s.part part).links.length
  let cc := floor - l.look
  let s := s.modPart part (fun p => { p with links := p.links ++ [l] })
  let s := s.modCore l.src (fun x =>
    { x with outs := x.outs ++ [{ link := n, dst := l.dst, eng := l.eng, look := l.look, floor := floor, lastCC := cc }] })
  s.modCore l.dst (fun x => { x with ins := x.ins ++ [{ link := n, src := l.src, eng := l.eng, look := l.look, clock := cc }] })

/-- The output link of a kind from a core to another: its place and its record. -/
def State.linkTo (s : State) (src dst : Nat) (eng : Bool) : Option (Nat × OutLink) :=
  (((s.core src).outs.zipIdx).find? (fun x => x.1.dst == dst && x.1.eng == eng)).map (fun x => (x.2, x.1))

/-- The lowest stamp that a link may carry (R296, R302). -/
def State.lowestStamp (s : State) (src : Nat) (l : OutLink) : Nat := max (satAdd (s.core src).lvt l.look) l.floor

/-- SENT of an output link rises by one (R296, R302). -/
def State.countSent (s : State) (src j : Nat) : State :=
  s.modCore src (fun x => { x with outs := x.outs.mapIdx (fun i l => if i = j then { l with sent := (l.sent + 1) % 2 ^ 32 } else l) })

/-- LOOKAHEAD_VIOLATION (R191). -/
def lookaheadViolation (stamp low : Word) : FaultReq := { code := 0x32, addr := stamp, info := low }

/-! ## The instructions -/

/-- LTADV's effect. -/
def effLtadv (w : Operands) (s : State) : Res :=
  match s.deferredIn 0x288 w [2] with
  | some f => .fault f s
  | none => .done (if s.myPart.lt then s.raiseLvt s.myCore (s.val w.c).toNat else s)

/-- LTADV. -/
def execLtadv (w : Operands) (s : State) := issue 0x288 w (effLtadv w) s

/-- LTANN's effect. -/
def effLtann (s : State) : Res :=
  .done (if s.myPart.lt then (upTo (s.core s.myCore).outs.length).foldl (fun s j => s.clockMsg s.myCore j false) s else s)

/-- LTANN. -/
def execLtann (w : Operands) (s : State) := issue 0x289 w effLtann s

/-- An item of LTGET (R307). -/
def State.ltItem (s : State) (sel : Nat) : Word :=
  let c := s.core s.myCore
  let link (eng : Bool) (other look : Nat) : Word := wordOf [(63, 1), (62, if eng then 1 else 0), (32, coreAddr other), (0, look)]
  let i := sel % 16
  if sel = 0x40 then s.me.stamp
  else if !s.myPart.lt then 0
  else if sel = 0x41 then BitVec.ofNat 64 (s.headStamp s.myCore)
  else
    match sel / 16 with
    | 0 => ((c.ins[i]?).map (fun l => link l.eng l.src l.look)).getD 0
    | 1 => ((c.ins[i]?).map (fun l => BitVec.ofNat 64 l.clock)).getD 0
    | 2 => ((c.outs[i]?).map (fun l => link l.eng l.dst l.look)).getD 0
    | 3 => ((c.outs[i]?).map (fun l => BitVec.ofNat 64 l.floor)).getD 0
    | _ => 0

/-- LTGET's effect. -/
def effLtget (w : Operands) (s : State) : Res :=
  match s.deferredIn 0x28A w [2] with
  | some f => .fault f s
  | none => .done (s.modMe (fun a => a.sSet (opndNum w.a) (s.ltItem ((s.val w.c).toNat % 256))))

/-- LTGET. -/
def execLtget (w : Operands) (s : State) := issue 0x28A w (effLtget w) s

/-- LTLOOK's effect: the controller answers in the step of issue. -/
def effLtlook (w : Operands) (s : State) : Res :=
  match s.deferredIn 0x28B w [1, 2] with
  | some f => .fault f s
  | none =>
    let t := s.val w.b
    let look := (s.val w.c).toNat
    let eng := t.getLsbD 63
    let src := s.myCore
    let put (s : State) (v : Word) : Res := .done (s.modMe (fun a => a.sSet (opndNum w.a) v))
    let refuse : Res := put s (BitVec.ofNat 64 never)
    match coreOfAddr (bits t 0 25).toNat with
    | none => refuse
    | some dst =>
      if !s.myPart.lt || (s.core dst).part != some s.me.part || (s.core dst).left || (s.linkTo src dst eng).isSome ||
          16 ≤ (s.core src).outs.length || 16 ≤ (s.core dst).ins.length || 4096 ≤ s.myPart.links.length || 2 ^ 32 ≤ look then refuse
      else
        match (if look = 0 then zeroCycle s.myPart.links src dst else none) with
        | some a => .fault { code := 0x33, addr := a } s
        | none =>
          let n := s.myPart.links.length
          let j := (s.core src).outs.length
          put (s.insertLink s.me.part { src := src, dst := dst, eng := eng, look := look }
            (max (satAdd (s.core src).lvt look) (s.core dst).lvt)) (wordOf [(16, j), (0, n)])

/-- LTLOOK. -/
def execLtlook (w : Operands) (s : State) := issue 0x28B w (effLtlook w) s

/-- LTNULL on one output link. -/
def State.promise (s : State) (c j b : Nat) : State :=
  match (s.core c).outs[j]? with
  | none => s
  | some l =>
    (s.modCore c (fun x => { x with outs := setNth x.outs j { l with floor := max l.floor b } })).clockMsg c j true

/-- LTNULL's effect. -/
def effLtnull (w : Operands) (s : State) : Res :=
  match s.deferredIn 0x28C w [0, 2] with
  | some f => .fault f s
  | none =>
    let sel := s.val w.a
    let b := (s.val w.c).toNat
    let js := if sel.getLsbD 63 then upTo (s.core s.myCore).outs.length else [sel.toNat % 16]
    .done (if s.myPart.lt then js.foldl (fun s j => s.promise s.myCore j b) s else s)

/-- LTNULL. -/
def execLtnull (w : Operands) (s : State) := issue 0x28C w (effLtnull w) s

/-- LTSET's effect. -/
def effLtset (w : Operands) (s : State) : Res :=
  match s.deferredIn 0x28D w [2] with
  | some f => .fault f s
  | none =>
    let v := s.val w.c
    .done (if s.myPart.lt then s.modMe (fun a => { a with stamp := if a.stamp.toNat < v.toNat then v else a.stamp }) else s)

/-- LTSET. -/
def execLtset (w : Operands) (s : State) := issue 0x28D w (effLtset w) s

/-- LTWAITs of event activations on a core that have not completed: targets. -/
def State.eventTargets (s : State) (c : Nat) : List Nat :=
  (slotsOf c).filterMap (fun k => if (s.act k).event then (s.act k).timeTarget else none) ++
    (s.framed.filter (fun e => e.2.event && e.2.savedOn == some c)).filterMap (fun e => e.2.timeTarget)

/-- LTWAIT's effect (R293, R294, R309). -/
def effLtwait (w : Operands) (s : State) : Res :=
  if !s.myPart.lt then
    match s.deferredIn 0x28E w [2] with | some f => .fault f s | none => .done s
  else
    match s.deferredIn 0x28E w [2] with
    | some f => .fault f s
    | none =>
      let c := s.myCore
      let t := (s.val w.c).toNat
      let others := (slotsOf c).any (fun k => k != s.cur && (s.act k).st != .free && (s.act k).runsEvent) || (s.core c).savedEvents != 0
      if !s.me.oblUsed.isEmpty then .fault s.timeWaitHeld s
      else if s.me.event && !s.releaseReady .core then .stall s
      else if s.timeMet c t && !(s.me.event && (others || (s.eventTargets c).any (· ≤ t))) then .done (s.raiseLvt c t)
      else .halt ((s.enterWait (.time (s.val w.c)) 0).demandHeld c)

/-- LTWAIT: it serialises (R143 step 1). -/
def execLtwait (w : Operands) (s : State) := issueSerial 0x28E w (effLtwait w) s

end Sys2Proof.Machine
end

