-- ==== Sys2Proof/Machine/Engine.lean ====
section
/-!
DEFINITION. What every engine command shares (R109, R139, R162, R210, R240, R254, R263): queues, acceptance, the engines'
own accesses, parking and serving, the discharge of given obligations, tile states and the waits on them (R110), and the
sequence numbers of messages (R282).
-/

namespace Sys2Proof.Machine

/-! ## Sequence numbers -/

/-- The code of a virtual network (R265). -/
def vnNum : VN → Nat | .request => 0 | .reply => 1 | .clock => 2 | .system => 3

/-- The key of the stream of a core's messages on a network to a die. -/
def streamKey (vn : VN) (die : Nat) : Nat := 32 * vnNum vn + die

/-- The die to which a message counts in its sender's streams: a multicast's copies leave from its own. -/
def Msg.stream (m : Msg) : Nat := if m.mcast then m.src / 2 ^ 15 % 32 else m.dest / 2 ^ 15 % 32

/-- The die to which a message goes next: of a multicast, that of its next router. -/
def Msg.goal (m : Msg) : Nat :=
  if m.mcast && !m.spread then (m.at_.map (·.1)).getD m.here
  else match coreOfAddr m.dest with | some c => dieOf c | none => m.here

/-- Whether a message of a stream that was counted has yet to be acknowledged by its destination's interface (R282). -/
def State.unacknowledged (s : State) (core k : Nat) : Bool :=
  s.msgs.any (fun m => m.numbered && m.src == coreAddr core && streamKey m.vn m.stream == k && (m.here != m.goal || m.stream == dieOf core))

/-- SEQ of the next message of a core on a network to a die, whether it is the first of its stream, and the state that
has counted it. A 65th stream takes the counter of the lowest one that R282 lets be reclaimed (log entry 113), or waits. -/
def State.takeSeq (s : State) (core : Nat) (vn : VN) (die : Nat) : Option (Nat × Bool × State) :=
  let k := streamKey vn die
  let l := (s.core core).seqs
  let n := tget 0 k l
  let count (l : Tab Nat) : State := s.modCore core (fun c => { c with seqs := tset 0 k (if n = 0 then 2 else n + 1) l })
  if n != 0 || l.length < 64 then some ((n - 1) % 2 ^ 16, n == 0, count l)
  else (l.find? (fun e => !s.unacknowledged core e.1)).map (fun e => (0, true, count (tset 0 e.1 0 l)))

/-- A message enters its send queue or its sending unit's buffer (R265, R267). -/
def State.postMsg (s : State) (core : Nat) (m : Msg) : State :=
  { s with msgs := s.msgs ++ [{ m with src := coreAddr core, sent := s.cycle, here := dieOf core }] }

/-! ## Tiles -/

/-- A tile entry of a core. -/
def State.tile (s : State) (core i : Nat) : Tile := tget {} i (s.core core).tiles
/-- A tile entry replaced. -/
def State.setTile (s : State) (core i : Nat) (t : Tile) : State := s.modCore core (fun c => { c with tiles := tset {} i t c.tiles })

/-- The code of a tile state (R108). -/
def TileState.code : TileState → Nat | .empty => 0 | .filling => 1 | .ready => 2 | .draining => 3

/-- A tile entry as TLQRY reads it (R108); an undefined entry reads 0. -/
def Tile.word (t : Tile) : Word :=
  if t.size = 0 then 0
  else wordOf [(32, t.rank.toNat), (23, t.base), (13, t.size), (3, if t.owed then 1 else 0), (0, t.state.code)]

/-- TILE_BUSY (R191). -/
def tileBusyFault (i : Nat) (t : Tile) : FaultReq := { code := 0x19, addr := BitVec.ofNat 64 i, info := t.word }
/-- TILE_UNDEFINED. -/
def tileUndefined (i : Nat) : FaultReq := { code := 0x18, addr := BitVec.ofNat 64 i }
/-- TILE_STATE. -/
def tileStateFault (i req : Nat) : FaultReq := { code := 0x1A, addr := BitVec.ofNat 64 i, info := BitVec.ofNat 64 req }

/-- A copy that waits for its source is taken again (R110). -/
def State.wakeSource (s : State) (w : Waiter) : State :=
  match w.slot with
  | none => s.wakeWaiter w .released
  | some k => if (s.act k).st == .waiting then s.retryAt k else s.wakeWaiter w .released

/-- What a waiter wants of a tile. -/
def State.wants (s : State) (w : Waiter) : TileWant :=
  let a := match w.slot with | some k => s.act k | none => tget {} (frameKey w.part w.frame) s.framed
  match a.wait with | some { on := .tile _ _ x, .. } => x | _ => .empty

/-- The waits on a tile that has gone ready, in order of entering them (R110, R147): each takes the tile from the state in
which it finds it, is taken again, or is orphaned. -/
def State.serveTile (s : State) (core i : Nat) : List Waiter → State
  | [] => s
  | w :: r =>
    let t := s.tile core i
    let s := match s.wants w, t.state with
      | .source, .ready => s.wakeSource w
      | .draining, .ready => (s.setTile core i { t with state := .draining }).wakeWaiter w .released
      | .empty, .ready => (s.setTile core i { t with state := .empty }).wakeWaiter w .released
      | .empty, .draining => (s.setTile core i { t with state := .empty }).wakeWaiter w .released
      | _, _ => s.wakeWaiter w .orphaned
    s.serveTile core i r

/-- A filling tile goes ready (R109); by a poisoned discharge, the waits on it take SIG_POISONED (R153). -/
def State.tileReady (s : State) (core i : Nat) (poisoned : Bool) : State :=
  let s := s.setTile core i { s.tile core i with state := .ready, owed := false }
  let on (w : WaitOn) : Bool := match w with | .tile c j _ => c == core && j == i | _ => false
  if poisoned then s.wakeAll on .poisoned else s.serveTile core i (s.waitersOn on)

/-! ## Queues -/

/-- The three engine queues of a core (R240). -/
inductive Eng where | matrix | copy | col
  deriving DecidableEq, Repr

/-- The key under which an engine of a core asks for pages. -/
def engKey (core : Nat) (e : Eng) : Nat := 2 ^ 32 + 4 * core + (match e with | .matrix => 0 | .copy => 1 | .col => 2)

/-- A queue. -/
def Core.queue (c : Core) : Eng → List Cmd | .matrix => c.matrixQ | .copy => c.copyQ | .col => c.colQ
/-- A queue replaced; the row-progress records follow the matrix queue (R247). -/
def Core.setQueue (c : Core) (e : Eng) (l : List Cmd) : Core :=
  match e with | .matrix => { c with matrixQ := l }.syncRows | .copy => { c with copyQ := l } | .col => { c with colQ := l }
/-- Commands that a queue holds (R240). -/
def Eng.room : Eng → Nat | .matrix => 16 | .copy => 16 | .col => 4

/-- A command of a queue replaced. -/
def State.setCmd (s : State) (core : Nat) (e : Eng) (i : Nat) (c : Cmd) : State :=
  s.modCore core (fun x => x.setQueue e (setNth (x.queue e) i c))
/-- A command of a queue removed. -/
def State.dropCmd (s : State) (core : Nat) (e : Eng) (i : Nat) : State :=
  s.modCore core (fun x => x.setQueue e (dropNth (x.queue e) i))

/-- The bids for a tile that stand: of SLOPENs and of engine commands, each with its cycle and source core (R111, R278). -/
def State.bids (s : State) (addr tile : Nat) : List (Nat × Nat) :=
  s.acts.filterMap (fun e => match e.2.asked with
    | some (.slopen _ a t (some c)) => if a == addr && t == tile then some (c, coreOf e.1) else none
    | _ => none) ++
  s.cores.flatMap (fun e => (e.2.matrixQ ++ e.2.copyQ).filterMap (fun c => match c.bid with
    | some (n, a, t) => if a == addr && t == tile && c.parked.isNone then some (n, e.1) else none
    | none => none))

/-- Whether a bid of a core for a tile, made in a cycle, wins it: the cycle is over, and no bid of an earlier cycle or, in the same
one, of a lower-numbered core stands (R111, R264, R278; log entry 115). -/
def State.bidWins (s : State) (core addr tile c : Nat) : Bool :=
  decide (c < s.cycle) && !(s.bids addr tile).any (fun b => decide (b.1 < c) || (b.1 == c && decide (b.2 < core)))

/-- A fill by command i of a queue bids for its tile, or waits for its bid to be decided; none once it is. -/
def State.bidding (s : State) (core : Nat) (e : Eng) (i : Nat) (c : Cmd) (addr tile : Nat) : Option State :=
  match c.bid with
  | none => some (s.setCmd core e i { c with bid := some (s.cycle, addr, tile) })
  | some (n, _, _) => if s.bidWins core addr tile n then none else some s

/-- Whether a command has started (R162). -/
def Cmd.started (c : Cmd) : Bool := match c.phase with | .running => true | .closing => true | _ => false

/-- Whether a command of a queue may move: it is not parked, its guard is resolved, and those before it have started and are
not parked (R162, R210, R240). -/
def Core.mayMove (x : Core) (e : Eng) (i : Nat) : Bool :=
  match (x.queue e)[i]? with
  | none => false
  | some c =>
    c.parked.isNone && c.guard.isSome && ((x.queue e).take i).all (fun d => d.started && d.parked.isNone)

/-- The engine that serves a core (R240): the copy engine of its cluster, the collective engine of its router. -/
def engineOf (e : Eng) (core : Nat) : Nat :=
  match e with | .col => 2 * (2 ^ 16 * dieOf core + physOf core / 256) + 1 | _ => 2 * (2 ^ 16 * dieOf core + physOf core / 64)

/-- Whether a command of a queue runs and may move. -/
def Core.inProgress (x : Core) (e : Eng) : Bool := (x.queue e).zipIdx.any (fun c => c.1.phase == .running && x.mayMove e c.2)

/-- Whether the next line that an engine takes is of a core: no other with a command in progress comes before it in
round-robin order (R240). -/
def State.engTurn (s : State) (e : Eng) (core : Nat) : Bool :=
  let last := tget 0 (engineOf e core) s.turns
  let far (c : Nat) : Nat := (c + numCores - last) % numCores
  s.cores.all (fun x => x.1 == core || !x.2.inProgress e || engineOf e x.1 != engineOf e core || decide (far core < far x.1))

/-- An engine has taken a core's line. -/
def State.passTurn (s : State) (e : Eng) (core : Nat) : State := { s with turns := tset 0 (engineOf e core) (core + 1) s.turns }

/-! ## Parking and serving (R203, R210, R263) -/

/-- Command i of a queue, as it now is, parks with a record. -/
def State.parkCmd (s : State) (core : Nat) (e : Eng) (i : Nat) (c : Cmd) (f : FaultReq) : State :=
  let f := { f with strm := 2 }
  let frame := (s.framed.find? (fun x => x.2.uid == c.uid)).map (fun x => x.1 % 2 ^ 28)
  let ws := recordWords f c.asid true c.pc frame core (slotOf c.key) c.stamp
  let s := (s.forgetKey (engKey core e)).setCmd core e i { c with parked := some f }
  let (s, n, lead) := s.coalJoin (dieOf core) c.asid f (.cmd core c.id) ws
  match n with
  | some n => if lead then s.coalRecord (dieOf core) n c.asid f.code ws else s
  | none => s

/-- A parked command is served: it takes again the access that faulted. -/
def State.unparkCmd (s : State) (core id : Nat) : State :=
  let up (l : List Cmd) : List Cmd := l.map (fun c => if c.id = id then { c with parked := none } else c)
  s.modCore core (fun x => { x with matrixQ := up x.matrixQ, copyQ := up x.copyQ, colQ := up x.colQ }.syncRows)

/-! ## Accesses of an engine -/

/-- The checks of an engine's access to a run of GLB bytes that lies in one page (R104, R125, R167, R215). -/
def State.engPage (s : State) (core : Nat) (e : Eng) (c : Cmd) (va n : Nat) (u : Use) : ARes :=
  if (s.part c.part).pushMeets va n then .fault { code := 0x0E, space := 4, addr := BitVec.ofNat 64 va } s
  else
    match s.useGlb (dieOf core) (engKey core e) c.asid va n u (fun va _ => if u == .load then none else s.weirFault va) c.id with
    | .stall s => .stall s
    | .fault f s => .fault f s
    | .ok s l =>
      let ps := l.map (pieceOf c.asid)
      let bad (p : Piece) : Bool := match p.at_ with
        | .glb => u == .load && s.poisonAt glbGranule p.key p.n
        | .host => u == .load && (s.hlDown || (s.act (engKey core e)).hostFail)
        | _ => false
      match ps.find? bad with
      | some p => .fault { code := 0x15, space := 4, addr := BitVec.ofNat 64 p.va } (if p.at_ == .host then s.hostReadFailed (engKey core e) else s)
      | none => .ok s ps

/-- The checks of an engine's access to a run of GLB bytes, page by page. -/
def State.engAccess (s : State) (core : Nat) (e : Eng) (c : Cmd) (va n : Nat) (u : Use) : ARes :=
  match glbRange (BitVec.ofNat 64 va) n with
  | some f => .fault f s
  | none =>
    let n1 := min n (65536 - va % 65536)
    match s.engPage core e c va n1 u with
    | .stall s => .stall s
    | .fault f s => .fault f s
    | .ok s ps =>
      if n1 = n then .ok s ps
      else
        match s.engPage core e c (va + n1) (n - n1) u with
        | .stall s => .stall s
        | .fault f s => .fault f s
        | .ok s qs => .ok s (ps ++ qs)

/-- The bytes that an engine on a die reads at a stretch (R162), and the state after it. -/
def State.engLoad (s : State) (d : Nat) (p : Piece) : List Byte × State :=
  match p.at_ with
  | .glb => (s.viewBytes d p.key p.n, s)
  | .shm => (mread p.key p.n s.shm, s)
  | .loc => (mread p.key p.n s.loc, s)
  | .host => (mread p.key p.n s.host, s)
  | .mmio =>
    let bs := (upTo p.n).map (fun i => BitVec.ofNat 8 ((Config.freeValue (s.fresh + i / 8)).toNat / 256 ^ (i % 8)))
    (bs, { s with fresh := s.fresh + (p.n + 7) / 8, devices := s.devices ++ [{ write := false, addr := p.key, bytes := bs }] })

/-- The bytes of several stretches. -/
def State.engLoads (s : State) (d : Nat) : List Piece → List Byte × State
  | [] => ([], s)
  | p :: r =>
    let (a, s) := s.engLoad d p
    let (b, s) := s.engLoads d r
    (a ++ b, s)

/-- Whether an engine's write to a stretch may take its place in the owner order: copies and leases are back (R185,
R187). -/
def State.engReady (s : State) (d key : Nat) (p : Piece) : Bool × State :=
  if p.at_ != .glb then (true, s)
  else
    let (go, s) := s.dupReady p.page.dup (s.homeOf p.pkey) key
    if !go then (false, s) else s.linesReady d key p.key p.n

/-- Whether all of some stretches may be written. -/
def State.engReadies (s : State) (d key : Nat) : List Piece → Bool × State
  | [] => (true, s)
  | p :: r =>
    let (a, s) := s.engReady d key p
    let (b, s) := s.engReadies d key r
    (a && b, s)

/-- Bytes written to LOC by an engine or a sluice (R105): whole granules lose their poison. -/
def State.locPut (s : State) (key : Nat) (bs : List Byte) : State :=
  { s.unpoison locGranule key bs.length with loc := mwrite key bs s.loc }

/-- An engine's write to a stretch (R157): the identities of its writes, and the state. -/
def State.engStore (s : State) (d : Nat) (p : Piece) (bs : List Byte) : List Nat × State :=
  match p.at_ with
  | .glb =>
    let wid := s.nextWid
    let s := { s.closeExact p.key p.n with nextWid := wid + 1 }
    ([wid], s.writeGlb d wid p.key p.page.dup bs)
  | .shm => ([], { s.unpoison shmGranule p.key p.n with shm := mwrite p.key bs s.shm })
  | .loc => ([], s.locPut p.key bs)
  | .host =>
    ([], s.hostWrite p.key bs)
  | .mmio => ([], { s with devices := s.devices ++ [{ write := true, addr := p.key, bytes := bs }] })

/-- The writes of bytes to several stretches. -/
def State.engStores (s : State) (d : Nat) : List Piece → List Byte → List Nat × State
  | [], _ => ([], s)
  | p :: r, bs =>
    let (a, s) := s.engStore d p (bs.take p.n)
    let (b, s) := s.engStores d r (bs.drop p.n)
    (a ++ b, s)

/-! ## Signal blocks and given obligations (R139, R254) -/

/-- An engine at a signal block's home. -/
def State.engBlock (s : State) (core : Nat) (e : Eng) (c : Cmd) (ref : Word) : SigRes :=
  match s.checkRef (dieOf core) (engKey core e) (s.part c.part) ref c.id with
  | .stall s => .stall s
  | .fault f s => .fault f s
  | .ok s p home =>
    let (go, s) := s.engReady (dieOf core) (engKey core e) p
    if !go then .stall s
    else if (if p.at_ == .shm then s.poisonAt shmGranule p.key 32 else s.poisonAt glbGranule p.key 32) then
      .fault { code := 0x15, space := p.at_.space, addr := ref } s
    else
      match liveFault ref (s.block home) with
      | some f => .fault f s
      | none => .ok s p home

/-- The outcome of a part of a command's work. -/
inductive ERes where
  | ok (s : State) (c : Cmd)
  | stall (s : State) (c : Cmd)
  | fault (f : FaultReq) (s : State) (c : Cmd)
  deriving DecidableEq, Repr

/-- Units of a block discharged as a SIGADD of x by a command. -/
def State.engSignal (s : State) (core : Nat) (e : Eng) (c : Cmd) (ref x : Word) (units : Nat) : ERes :=
  match s.engBlock core e c ref with
  | .stall s => .stall s c
  | .fault f s => .fault f s c
  | .ok s p home =>
    let wid := s.nextWid
    .ok ({ s with nextWid := wid + 1 }.sigUpdate (dieOf core) wid home p.page.dup false x units) c

/-- Units of a block discharged by a command, each as a SIGADD of 1 (R139): the outcome, and the units left. -/
def State.payUnits (s : State) (core : Nat) (e : Eng) (c : Cmd) (ref : Word) : Nat → ERes × Nat
  | 0 => (.ok s c, 0)
  | n + 1 =>
    match s.engSignal core e c ref 1 1 with
    | .ok s c => s.payUnits core e c ref n
    | r => (r, n + 1)

/-- The obligations that a command holds, discharged in order; the command keeps what it could not discharge. -/
def State.payAll (s : State) (core : Nat) (e : Eng) (c : Cmd) : List Obl → ERes
  | [] => .ok s { c with obls := [] }
  | o :: r =>
    match o.kind with
    | .tile =>
      let i := o.handle.toNat % 16
      let s := if (s.tile core i).state == .filling then s.tileReady core i false else s
      s.payAll core e c r
    | .signal =>
      match s.payUnits core e c o.handle o.count with
      | (.ok s c, _) => s.payAll core e c r
      | (.stall s c, n) => .stall s { c with obls := { o with count := n } :: r }
      | (.fault f s c, n) => .fault f s { c with obls := { o with count := n } :: r }
    | _ => s.payAll core e c r

/-- Whether the writes of a command's release step are performed at its scope (R162). -/
def State.cmdReleased (s : State) (core : Nat) (c : Cmd) : Bool :=
  !Ord_rel c.ord || c.wids.all (s.appliedAt (dieOf core) c.scope)

/-- Whether a command's acquire step is taken (R162). -/
def State.cmdAcquired (s : State) (c : Cmd) : Bool := c.acq.all (s.wrote c.key c.scope)

/-- The end of command i of a queue: its obligations, then `last`, and it leaves. -/
def State.finishCmd (s : State) (core : Nat) (e : Eng) (i : Nat) (c : Cmd) (last : State → State := fun s => s) : State :=
  match s.payAll core e c c.obls with
  | .ok s _ => last (s.dropCmd core e i)
  | .stall s c => s.setCmd core e i c
  | .fault f s c => s.parkCmd core e i c f

/-! ## Acceptance (R138, R232, R240, R263) -/

/-- The address of the word in execution. -/
def State.wordPc (s : State) : Word := match s.iss with | .queued p => p.pc | _ => s.me.pc
/-- The stamp at the word in execution. -/
def State.wordStamp (s : State) : Word := match s.iss with | .queued p => p.stamp | _ => s.me.stamp

/-- Whether an earlier word of the activation that has not issued holds back the acceptance of a command: a TBLLD (R232),
an access that its acquire step covers (R162), an LDZ or STZ of its tile (R115). -/
def State.acceptHeld (s : State) (w : Operands) (z : Option Nat) : Bool :=
  (Ord_acq w.ord && s.earlierAccess (fun _ _ => true)) ||
  s.earlier.any (fun p =>
    p.gv != some false &&
    match p.fields with
    | some (0x310, _) => true
    | some (0x183, v) => z == some (opndNum v.b)
    | some (0x187, v) => z == some (opndNum v.a)
    | _ => false)

/-- A command enters its queue: `check` gives its own faults, `fill` its own fields, `after` what acceptance does. -/
def State.accept (s : State) (opc : Nat) (w : Operands) (e : Eng) (op : CmdOp) (z : Option Nat) (check : Option FaultReq)
    (fill : Cmd → Cmd) (after : State → Cmd → State) : Res :=
  let core := s.myCore
  let gv := s.guardOf w.head
  if e.room ≤ ((s.core core).queue e).length || s.acceptHeld w z then .stall s
  else
    let deferred := orFault (s.firstDeferred (sSources opc w)) check
    let bad := s.me.badStaged OblKind.toEngine
    match (if gv == some false then none else orFault deferred bad) with
    | some f => .fault f s
    | none =>
      let give := if bad.isSome then [] else s.me.oblStaged
      let c : Cmd := fill
        { op := op, id := s.nextUid, pc := s.wordPc, stamp := s.wordStamp, key := s.cur, uid := s.me.uid, part := s.me.part
          asid := s.myPart.asid, scope := w.scope, ord := w.ord, ty := w.ty, gnum := w.head.guard.toNat, gneg := w.head.neg
          guard := gv, z := z.getD 0, vals := s.captures opc w, obls := give
          acq := if Ord_acq w.ord then s.me.own.map (·.1) ++ s.me.deps else [] }
      let s := { s with nextUid := s.nextUid + 1 }
      let s := if bad.isSome then s else s.modMe Act.dropStaged
      .done (after (s.modCore core (fun x => x.setQueue e (x.queue e ++ [c]))) c)

end Sys2Proof.Machine
end

