-- ==== Sys2Proof/Machine/Matrix.lean ====
section
/-!
DEFINITION. The matrix unit (R234, R242 to R249, R257, R302, R388): MMA, MMZ, MMDRAIN, MMROW, and the events by which it
works.
-/

namespace Sys2Proof.Machine

/-! ## Issue -/

/-- MMA's effect: acceptance with the table's snapshot (R232, R388). -/
def effMma (w : Operands) (s : State) : Res :=
  s.accept 0x300 w .matrix .mma (some (opndNum w.a)) none
    (fun c => { c with t4 := (s.core s.myCore).t4 })
    (fun s _ => s)

/-- MMA. -/
def execMma (w : Operands) (s : State) := issue 0x300 w (effMma w) s

/-- MMZ's effect. -/
def effMmz (w : Operands) (s : State) : Res :=
  s.accept 0x303 w .matrix .mmz (some (opndNum w.a)) none (fun c => c) (fun s _ => s)

/-- MMZ. -/
def execMmz (w : Operands) (s : State) := issue 0x303 w (effMmz w) s

/-- MISALIGNED_ENTRY at a target that names an entry (R58, R249, R269): bit 63 set names a message type. -/
def badEntry (t : Word) : Option FaultReq :=
  if !t.getLsbD 63 && (bits t 56 7 != 0 || bits t 0 2 != 0) then some { code := 0x02, addr := t } else none

/-- The engine link of an MMDRAIN is judged at acceptance: the lowest legal stamp is recorded, and SENT rises (R302). -/
def State.drainLink (s : State) (core : Nat) (c : Cmd) : State :=
  if !(s.part c.part).lt then s
  else
    match (coreOfAddr (bits (nth 0 c.vals 0) 4 25).toNat).bind (fun d => s.linkTo core d true) with
    | none => s
    | some (j, l) =>
      let low := BitVec.ofNat 64 (s.lowestStamp core l)
      (s.modCore core (fun x => { x with matrixQ := x.matrixQ.map (fun y => if y.id = c.id then { y with low := some low } else y) })).countSent core j

/-- MMDRAIN's effect. -/
def effMmdrain (w : Operands) (s : State) : Res :=
  s.accept 0x301 w .matrix .mmdrain (some (opndNum w.a)) (badEntry (nth 0 (s.captures 0x301 w) 1)) (fun c => c)
    (fun s c => s.drainLink s.myCore c)

/-- MMDRAIN. -/
def execMmdrain (w : Operands) (s : State) := issue 0x301 w (effMmdrain w) s

/-- MMROW's word (R247). -/
def RowProg.word (r : RowProg) : Word :=
  wordOf [(63, if r.busy then 1 else 0), (62, if r.parked then 1 else 0), (59, r.slot), (24, r.done), (0, r.total)]

/-- MMROW's effect (R257). -/
def effMmrow (w : Operands) (s : State) : Res :=
  match s.deferredIn 0x302 w [2] with
  | some f => .fault f s
  | none =>
    let n := s.val w.c
    if 7 < n.toNat then .fault { code := 0x0C, space := 3, addr := n } s
    else .done (s.modMe (fun a => a.sSet (opndNum w.a) (tget {} n.toNat (s.core s.myCore).rows).word))

/-- MMROW. -/
def execMmrow (w : Operands) (s : State) := issue 0x302 w (effMmrow w) s

/-! ## The arbiter (R242) -/

/-- The first place from p on, n places, whose core may start a step. -/
def arbFind (start : Nat) (ok : Nat → Bool) : Nat → Nat → Option Nat
  | _, 0 => none
  | p, n + 1 => if ok ((start + p) % 8) then some p else arbFind start ok (p + 1) n

/-- The next grant of an octet: the core's place in the octet, and the arbiter after it. The core that is granted first opens the
round (DESIGN CHOICE, log entry 130). -/
def Arb.grant (a : Arb) (ok : Nat → Bool) (weights : List Nat) : Option (Nat × Arb) :=
  let cur := (a.start + a.pos) % 8
  if 0 < a.left && ok cur then some (cur, { a with left := a.left - 1 })
  else
    match arbFind a.start ok (a.pos + 1) (7 - a.pos) with
    | some p => let j := (a.start + p) % 8; some (j, { a with pos := p, left := nth 0 a.weights j })
    | none =>
      let st := (a.opener + 1) % 8
      (arbFind st ok 0 8).map (fun p =>
        let j := (st + p) % 8
        (j, { start := st, pos := p, left := nth 0 weights j, opener := j, weights := weights }))

/-- WEIGHT of MMWGT (R243). -/
def Core.weight (c : Core) : Nat := (bits c.mmwgt 0 4).toNat

/-- Whether the head of a core's matrix queue can start or go on with a step (R242). -/
def State.stepReady (s : State) (core : Nat) : Bool :=
  match (s.core core).matrixQ with
  | [] => false
  | c :: _ =>
    c.parked.isNone && c.guard.isSome && (c.guard == some false || s.cmdAcquired c) &&
    (match c.op, c.phase with
      | .mmdrain, .queued => (tget none (octetOf core) s.drainPort).isNone
      | .mmdrain, _ => false
      | _, .closing => false
      | _, _ => true)

/-- The core to which the arbiter of an octet grants the next step, and the state with the arbiter moved; a step that has been
granted and waits for its operands' pages goes on first. -/
def State.grantStep (s : State) (octet : Nat) : Option (Nat × State) :=
  let ok (j : Nat) : Bool := s.stepReady (8 * octet + j)
  let arb : Arb := tget {} octet s.arbiter
  let mma (j : Nat) : Bool := match (s.core (8 * octet + j)).matrixQ with | c :: _ => c.op == .mma | [] => false
  match arb.held.filter (fun j => ok j && mma j) with
  | some j => some (8 * octet + j, { s with arbiter := tset {} octet { arb with held := none } s.arbiter })
  | none =>
  (Arb.grant { arb with held := none } ok ((upTo 8).map (fun j => (s.core (8 * octet + j)).weight))).map
    (fun g => (8 * octet + g.1, { s with arbiter := tset {} octet g.2 s.arbiter }))

/-- A granted step that could not be made whole yet: the unit stays with it. -/
def State.holdStep (s : State) (core : Nat) : State :=
  let o := octetOf core
  { s with arbiter := tset {} o { (tget {} o s.arbiter : Arb) with held := some (core % 8) } s.arbiter }

/-- Heads of an octet's queues whose work is done go on with their completion. -/
def State.closeHeads (s : State) (octet : Nat) (op : CmdOp) : State :=
  (from_ (8 * octet) 8).foldl (fun s core =>
    match (s.core core).matrixQ with
    | c :: _ => if c.op == op && c.phase == .closing && c.parked.isNone then s.finishCmd core .matrix 0 c else s
    | [] => s) s

/-! ## Accumulator tiles -/

/-- Poison of an accumulator tile's granules cleared. -/
def State.accClean (s : State) (core tile : Nat) : State :=
  { s with poisoned := s.poisoned.filter (fun g => match g with | .acc c i => !(c == core && i / 256 == tile) | _ => true) }

/-- POISON_CONSUMED at the first row of a tile that holds poison (R215). -/
def State.accPoison (s : State) (core tile : Nat) : Option FaultReq :=
  ((upTo 16).find? (fun r => s.poisoned.any (fun g => match g with
    | .acc c i => c == core && i / 16 == 16 * tile + r | _ => false))).map
    (fun r => { code := 0x15, space := 3, addr := BitVec.ofNat 64 r })

/-- The 256 elements of a tile, rows first, and the state after reading them: a FREE tile's are free values (R116). -/
def State.tileElems (s : State) (core tile : Nat) : List Lane × State :=
  if s.heldTile core tile then ((upTo 256).map (fun i => s.accGet (2048 * core + 256 * tile + i)), s)
  else ((upTo 256).map (fun i => (Config.freeValue (s.fresh + i)).setWidth 32), { s with fresh := s.fresh + 256 })

/-- All 256 elements of a tile written. -/
def State.putTile (s : State) (core tile : Nat) (l : List Lane) : State :=
  { s with acc := (upTo 256).foldl (fun m i => accSet (2048 * core + 256 * tile + i) (nth 0 l i) m) s.acc }

/-! ## MMA steps (R234, R244 to R246) -/

/-- Base and stride of operand A (0) or B (1). -/
def Cmd.operand (c : Cmd) (o : Nat) : Nat × Int :=
  ((nth 0 c.vals (2 * o)).toNat, ((nth 0 c.vals (2 * o + 1)).setWidth 32 : BitVec 32).toInt)

/-- The start of a line (R244). -/
def Cmd.lineAt (c : Cmd) (o l : Nat) : Nat := (BitVec.ofInt 64 ((c.operand o).1 + l * (c.operand o).2)).toNat

/-- FORMAT_MISMATCH of an engine at an address of a page. -/
def formatMismatch (va : Nat) (f : PageFmt) : FaultReq :=
  { code := 0x0D, space := 4, addr := BitVec.ofNat 64 va, info := BitVec.ofNat 64 f.code }

/-- FMT and GEOM of an operand, found at its base. -/
def State.operandFmt (s : State) (core : Nat) (c : Cmd) (o : Nat) : Except (Option FaultReq × State) (PageFmt × Nat × State) :=
  match s.engAccess core .matrix c (c.operand o).1 1 .load with
  | .stall s => .error (none, s)
  | .fault f s => .error (some f, s)
  | .ok s ps =>
    match ps with
    | p :: _ => .ok (p.page.fmt, p.page.geom, s)
    | [] => .error (none, s)

/-- The formats of both operands, and the faults of R245. -/
def State.bothFmts (s : State) (core : Nat) (c : Cmd) : Except (Option FaultReq × State) (List Nat × State) :=
  match c.fmts with
  | _ :: _ => .ok (c.fmts, s)
  | [] =>
    match s.operandFmt core c 0 with
    | .error e => .error e
    | .ok (fa, ga, s) =>
      match s.operandFmt core c 1 with
      | .error e => .error e
      | .ok (fb, gb, s) =>
        let int (f : PageFmt) : Bool := f == .int8 || f == .t4
        if fa == .raw then .error (some (formatMismatch (c.operand 0).1 fa), s)
        else if fb == .raw || int fa != int fb then .error (some (formatMismatch (c.operand 1).1 fb), s)
        else .ok ([fa.code, ga, fb.code, gb], s)

/-- The 16 elements of a line from position p on, as lanes (R244). -/
def State.lineLanes (s : State) (core : Nat) (c : Cmd) (f : PageFmt) (geom start p : Nat) :
    Except (Option FaultReq × State) (List Lane × State) :=
  let off := if f.packed then p / 16 * f.unit else p * f.unit
  let inPage := start % 65536
  let bad := match f.sb with
    | some _ => inPage % f.unit != 0 || 65536 < inPage + off + f.unit
    | none => start % f.unit != 0
  if bad then .error (some { code := 0x0B, space := 4, addr := BitVec.ofNat 64 start }, s)
  else
    match s.engAccess core .matrix c ((start + off) % 2 ^ 64) f.span .load with
    | .stall s => .error (none, s)
    | .fault e s => .error (some e, s)
    | .ok s ps =>
      match ps.find? (fun q => q.page.fmt != f || q.page.geom != geom) with
      | some q => .error (some (formatMismatch start q.page.fmt), s)
      | none =>
        let (bs, s) := s.engLoads (dieOf core) ps
        .ok (f.lanes (if f == .int8 || f == .t4 then .i32 else .f32) c.t4 bs, s)

/-- Sixteen lines of an operand for chunk k, line by line. -/
def State.linesFrom (s : State) (core : Nat) (c : Cmd) (o : Nat) (f : PageFmt) (geom k : Nat) (along : Bool) :
    Nat → Except (Option FaultReq × State) (List (List Lane) × State)
  | 0 => .ok ([], s)
  | n + 1 =>
    match s.linesFrom core c o f geom k along n with
    | .error e => .error e
    | .ok (l, s) =>
      match s.lineLanes core c f geom (c.lineAt o (if along then n else 16 * k + n)) (if along then 16 * k else 0) with
      | .error e => .error e
      | .ok (x, s) => .ok (l ++ [x], s)

/-- One accumulator element after a chunk (R234). -/
def chunkElem (int : Bool) (z : Lane) (as bs : List Lane) : Lane :=
  if int then
    let p := ((as.zip bs).map (fun x => x.1.toInt * x.2.toInt)).foldl (· + ·) (0 : Int)
    BitVec.ofInt 32 (max (-(2 ^ 31)) (min (2 ^ 31 - 1) (z.toInt + p)))
  else
    let d (x : Lane) : FVal := Ty.f32.fmt.decode false x.toNat
    BitVec.ofNat 32 (sumVal Ty.f32.fmt .rne false (d z :: (as.zip bs).map (fun x => (d x.1).mulExact (d x.2)))).1

/-- Chunk k of an MMA added to its tile, or why it cannot be. -/
def State.chunk (s : State) (core : Nat) (c : Cmd) (k : Nat) : ERes :=
  let fail (e : Option FaultReq × State) : ERes := match e with | (some f, s) => .fault f s c | (none, s) => .stall s c
  match s.bothFmts core c with
  | .error e => fail e
  | .ok (fm, s) =>
    let fmt (i : Nat) : PageFmt := (PageFmt.ofCode (nth 0 fm i)).getD .raw
    let alongA := nth 0 fm 1 == 0
    let alongB := nth 0 fm 3 != 0
    match s.linesFrom core c 0 (fmt 0) (nth 0 fm 1) k alongA 16 with
    | .error e => fail e
    | .ok (a, s) =>
      match s.linesFrom core c 1 (fmt 2) (nth 0 fm 3) k alongB 16 with
      | .error e => fail e
      | .ok (b, s) =>
        let s := s.holdTile core c.z
        match s.accPoison core c.z with
        | some f => .fault f s c
        | none =>
          let (z, s) := s.tileElems core c.z
          let pick (m : List (List Lane)) (byRow : Bool) (i : Nat) : List Lane :=
            if byRow then nth [] m i else m.map (fun r => nth 0 r i)
          let int := fmt 0 == .int8 || fmt 0 == .t4
          let out := (upTo 256).map (fun e => chunkElem int (nth 0 z e) (pick a alongA (e / 16)) (pick b alongB (e % 16)))
          let s := s.putTile core c.z out
          let s := s.modCore core (fun x => { x with rows := tset {} c.z { tget {} c.z x.rows with done := k + 1 } x.rows })
          .ok s { c with done := k + 1, fmts := fm, phase := .running }

/-- A granted step of an MMA at the head of a queue: the chunks left of its step, and its completion after the last. -/
def State.mmaGrant (s : State) (core : Nat) (c : Cmd) : State :=
  if c.guard == some false then s.finishCmd core .matrix 0 { c with phase := .closing }
  else if c.steps = 0 then (s.holdTile core c.z).finishCmd core .matrix 0 { c with phase := .closing }
  else
    match s.chunk core c c.done with
    | .stall s c => (s.setCmd core .matrix 0 c).holdStep core
    | .fault f s c => s.parkCmd core .matrix 0 c f
    | .ok s c =>
      let second : ERes := if c.done % 2 = 1 then s.chunk core c c.done else .ok s c
      match second with
      | .stall s c => (s.setCmd core .matrix 0 c).holdStep core
      | .fault f s c => s.parkCmd core .matrix 0 c f
      | .ok s c => if 2 * c.steps ≤ c.done then s.finishCmd core .matrix 0 { c with phase := .closing } else s.setCmd core .matrix 0 c

/-- MMA_STEP: the arbiter of an octet grants a step to a core whose head is an MMA. -/
def execMmaStep (octet : Nat) (s : State) : Host.Outcome State Fault Refusal :=
  let s := s.closeHeads octet .mma
  match s.grantStep octet with
  | none => .next s
  | some (core, s') =>
    match (s.core core).matrixQ with
    | c :: _ => .next (if c.op == .mma then s'.mmaGrant core c else s)
    | [] => .next s

/-! ## MMZ (R248) -/

/-- MMZ_EXEC: the arbiter grants a step to a core whose head is an MMZ. -/
def execMmzExec (octet : Nat) (s : State) : Host.Outcome State Fault Refusal :=
  let s := s.closeHeads octet .mmz
  match s.grantStep octet with
  | none => .next s
  | some (core, s') =>
    match (s.core core).matrixQ with
    | c :: _ =>
      if c.op != .mmz then .next s
      else
        let s' := if c.guard == some false then s'
          else ((s'.holdTile core c.z).accClean core c.z).putTile core c.z (List.replicate 256 0)
        .next (s'.finishCmd core .matrix 0 { c with phase := .closing })
    | [] => .next s

/-! ## MMDRAIN (R248, R249, R302) -/

/-- Bytes of a row as an MMDRAIN writes it (R248). -/
def rowBytes : Ty → Nat | .f16 => 32 | .bf16 => 32 | .sb4 => 8 | .sb6 => 12 | .sb9 => 18 | _ => 64

/-- A row's 16 elements as the bytes that an MMDRAIN writes. -/
def drainRow (t : Ty) (l : List Lane) : List Byte :=
  match t with
  | .f16 => l.flatMap (fun x => leBytes 2 (Ty.f16.fmt.ofFVal .rne false (Ty.f32.fmt.decode false x.toNat)).1)
  | .bf16 => l.flatMap (fun x => leBytes 2 (Ty.bf16.fmt.ofFVal .rne false (Ty.f32.fmt.decode false x.toNat)).1)
  | .sb4 => leBytes 8 (sbQuantise .sb4 (l.map (·.toNat))).1
  | .sb6 => leBytes 12 (sbQuantise .sb6 (l.map (·.toNat))).1
  | .sb9 => leBytes 18 (sbQuantise .sb9 (l.map (·.toNat))).1
  | _ => l.flatMap (fun x => leBytes 4 x.toNat)

/-- Destination core address and tile index of an MMDRAIN. -/
def Cmd.dest (c : Cmd) : Nat × Nat := ((bits (nth 0 c.vals 0) 4 25).toNat, (bits (nth 0 c.vals 0) 0 4).toNat)

/-- The wake-up of an MMDRAIN (R249). -/
def Cmd.wakeup (core : Nat) (c : Cmd) : Msg :=
  let t := nth 0 c.vals 1
  { dest := c.dest.1, src := coreAddr core, sslot := slotOf c.key, vn := .reply, byType := t.getLsbD 63
    type := if t.getLsbD 63 then (bits t 0 12).toNat else 0, stamp := c.stamp, entry := if t.getLsbD 63 then 0 else bits t 0 56 |>.zeroExtend 64
    args := [nth 0 c.vals 2, wordOf [(25, c.z), (0, coreAddr core)], BitVec.ofNat 64 c.dest.2, 0], kind := .wakeup, part := c.part }

/-- The core of a partition that a core address names. -/
def State.coreIn (s : State) (part addr : Nat) : Option Nat :=
  (coreOfAddr addr).bind (fun d => if (s.core d).part == some part then some d else none)

/-- LOOKAHEAD_VIOLATION of an MMDRAIN whose stamp lies below the lowest legal one, or which has no engine link (R302). -/
def State.drainTime (s : State) (c : Cmd) : Option FaultReq :=
  if !(s.part c.part).lt then none
  else
    match c.low with
    | none => some (lookaheadViolation c.stamp (BitVec.ofNat 64 never))
    | some l => if c.stamp.toNat < l.toNat || c.stamp.toNat = never then some (lookaheadViolation c.stamp l) else none

/-- A tile claimed for a fill by an engine (R109, R111): the tile, or TILE_BUSY. -/
def State.claim (s : State) (part addr i : Nat) : Except FaultReq (Nat × State) :=
  match s.coreIn part addr with
  | none => .error (tileBusyFault i {})
  | some d =>
    let t := s.tile d i
    if t.size = 0 || t.state != .empty then .error (tileBusyFault i t)
    else .ok (d, s.setTile d i { t with state := .filling, owed := true, by_ := .engine })

/-- The last step of an MMDRAIN: its obligations, then the wake-up. -/
def State.endDrain (s : State) (core : Nat) (c : Cmd) : State :=
  s.finishCmd core .matrix 0 { c with phase := .closing } (fun s => s.postMsg core (c.wakeup core))

/-- The rows of an MMDRAIN that holds its claim are written into the tile, and it holds the drain port. They are written in
one step, as a copy's line is: a load that overlaps them sees all of them or none (log entry 117). -/
def State.drainRows (s : State) (core d : Nat) (c : Cmd) : State :=
  let t := s.tile d c.dest.2
  let n := rowBytes c.ty
  if 64 * t.size < 16 * n then s.parkCmd core .matrix 0 c { code := 0x08, space := 1, addr := BitVec.ofNat 64 (64 * t.base) }
  else
    match s.accPoison core c.z with
    | some f => s.parkCmd core .matrix 0 c f
    | none =>
      let (z, s) := s.tileElems core c.z
      let bs := (upTo 16).flatMap (fun r => drainRow c.ty ((z.drop (16 * r)).take 16))
      let s := s.locPut (32768 * d + 64 * t.base) bs
      { s.setCmd core .matrix 0 { c with phase := .running } with drainPort := tset none (octetOf core) (some core) s.drainPort }

/-- An MMDRAIN at the head of a queue starts (R249 steps 1 to 3, R302). -/
def State.startDrain (s : State) (core : Nat) (c : Cmd) : State :=
  match s.drainTime c with
  | some f => s.parkCmd core .matrix 0 c f
  | none =>
    if c.guard == some false then s.endDrain core c
    else if c.claimed then
      match s.coreIn c.part c.dest.1 with | some d => s.drainRows core d c | none => s
    else
      match s.claim c.part c.dest.1 c.dest.2 with
      | .error f => s.parkCmd core .matrix 0 { c with bid := none } f
      | .ok (d, s) => s.drainRows core d { c with claimed := true, bid := none }

/-- An MMDRAIN that is yet to win its tile bids for it, or waits (R111, R264); none where it needs no bid or has won. -/
def State.drainBid (s : State) (core : Nat) (c : Cmd) : Option State :=
  if (s.drainTime c).isSome || c.guard == some false || c.claimed then none
  else s.bidding core .matrix 0 c c.dest.1 c.dest.2

/-- DRAIN_START: the arbiter grants the start of a drain to a core. -/
def execDrainStart (core : Nat) (s : State) : Host.Outcome State Fault Refusal :=
  match (s.core core).matrixQ with
  | c :: _ =>
    if c.op != .mmdrain then .next s
    else
      match s.grantStep (octetOf core) with
      | some (g, s') => .next (if g = core then (s.drainBid core c).getD (s'.startDrain core c) else s)
      | none => .next s
  | [] => .next s

/-- DRAIN_COMPLETE: steps 4 and 5 of R249. -/
def execDrainComplete (core : Nat) (s : State) : Host.Outcome State Fault Refusal :=
  match (s.core core).matrixQ with
  | c :: _ =>
    if c.op != .mmdrain || c.parked.isSome then .next s
    else if c.phase == .closing then .next (s.endDrain core c)
    else if c.phase != .running then .next s
    else
      let s := match s.coreIn c.part c.dest.1 with | some d => s.tileReady d c.dest.2 false | none => s
      let s := s.modCore core (fun x => { x with held := tset false c.z false x.held })
      let s := { s with drainPort := tset none (octetOf core) none s.drainPort }
      .next (s.endDrain core c)
  | [] => .next s

end Sys2Proof.Machine
end

