-- ==== Sys2Proof/Machine/Copy.lean ====
section
/-!
DEFINITION. The copy engine (R250, R251, R255, R360): CPY, CPYG, COPY_LINE and COPY_COMPLETE.
-/

namespace Sys2Proof.Machine

/-! ## Descriptors (R250) -/

/-- One end of a copy. -/
inductive CopyEnd where
  | glb (addr : Nat)
  | shm (addr : Nat)
  | tile (core idx : Nat)
  deriving DecidableEq, Repr

/-- The end that a descriptor names, or the fault of its nonzero bits. -/
def copyEnd (d : Word) : Except FaultReq CopyEnd :=
  match d.getLsbD 63, d.getLsbD 62 with
  | false, false => if 2 ^ 56 ≤ d.toNat then .error { code := 0x0A, space := 4, addr := d } else .ok (.glb d.toNat)
  | true, false => if bits d 27 35 != 0 then .error { code := 0x09, space := 2, addr := d } else .ok (.shm (bits d 0 27).toNat)
  | false, true => if bits d 29 33 != 0 then .error { code := 0x08, space := 1, addr := d } else .ok (.tile (bits d 4 25).toNat (bits d 0 4).toNat)
  | true, true => .error { code := 0x0A, space := 4, addr := d }

/-- Rows, bytes of a row, source stride and destination stride of a copy (R251). -/
def Cmd.shape (c : Cmd) : Nat × Nat × Int × Int :=
  let v := nth 0 c.vals 2
  if c.op == .cpy then (1, (bits v 0 32).toNat, 0, 0)
  else
    let p := nth 0 c.vals 3
    ((bits v 32 32).toNat, (bits v 0 32).toNat, (bits p 32 32).toInt, (bits p 0 32).toInt)

/-- Lines of 64 bytes in a row. -/
def Cmd.perRow (c : Cmd) : Nat := (c.shape.2.1 + 63) / 64
/-- Lines of the whole copy; none for an empty one. -/
def Cmd.lines (c : Cmd) : Nat := c.shape.1 * c.perRow

/-- Offset of a line from an end's base, with its length: line `done` of the copy. -/
def Cmd.lineOff (c : Cmd) (stride : Int) : Int × Nat :=
  let k := c.done % c.perRow
  (c.done / c.perRow * stride + 64 * k, min 64 (c.shape.2.1 - 64 * k))

/-! ## Issue (R110, R360) -/

/-- The tile of the issuing core that a source descriptor names, when it is defined. -/
def State.sourceTile (s : State) (w : Operands) : Option Nat :=
  match copyEnd (s.val w.b) with
  | .ok (.tile a i) => if coreOfAddr a == some s.myCore && (s.tile s.myCore i).size != 0 then some i else none
  | _ => none

/-- A copy's effect: acceptance, and before it the ranked wait on a LOC source. -/
def effCopy (opc : Nat) (op : CmdOp) (w : Operands) (s : State) : Res :=
  let go (drains : Option Nat) : Res :=
    s.accept opc w .copy op none none (fun c => { c with drains := drains.isSome })
      (fun s _ => match drains with
        | some i => s.setTile s.myCore i { s.tile s.myCore i with state := .draining }
        | none => s)
  if s.guardOf w.head != some true then go none
  else
    match s.firstDeferred (sSources opc w), s.sourceTile w with
    | some _, _ => go none
    | none, none => go none
    | none, some i =>
      let t := s.tile s.myCore i
      if !s.rankLegal s.myCore s.me none t.rank then .fault (s.rankOrder (BitVec.ofNat 64 i) t.rank) s
      else
        match t.state with
        | .ready => go (some i)
        | .filling => .wait (s.enterWait (.tile s.myCore i .source) t.rank)
        | _ => .fault (orphanWait (BitVec.ofNat 64 i) t.rank) s

/-- Whether a copy is a waiting instruction, which serialises (R143, R360). -/
def State.copyWaits (s : State) (w : Operands) : Bool := (s.sourceTile w).isSome

/-- CPY. -/
def execCpy (w : Operands) (s : State) : Host.Outcome State Fault Refusal :=
  .next (issueWord 0x304 w (s.copyWaits w) (effCopy 0x304 .cpy w) s)

/-- CPYG. -/
def execCpyg (w : Operands) (s : State) : Host.Outcome State Fault Refusal :=
  .next (issueWord 0x305 w (s.copyWaits w) (effCopy 0x305 .cpyg w) s)

/-! ## Work -/

/-- A stretch at an offset of a copy's end: its checks, for a read or a write. -/
def State.endAccess (s : State) (core : Nat) (c : Cmd) (e : CopyEnd) (off : Int) (n : Nat) (wr : Bool) : ARes :=
  match e with
  | .glb a => s.engAccess core .copy c (BitVec.ofInt 64 (a + off)).toNat n (if wr then .store else .load)
  | .shm a =>
    let x := (BitVec.ofInt 64 (a + off)).toNat
    let p := s.part c.part
    if x < p.shmBase (dieOf core) || p.shmBase (dieOf core) + p.shmSize (dieOf core) < x + n then .fault { code := 0x09, space := 2, addr := BitVec.ofNat 64 x } s
    else
      let q : Piece := { at_ := .shm, key := 2 ^ 27 * dieOf core + x, va := x, n := n }
      if !wr && s.poisonAt shmGranule q.key n then .fault { code := 0x15, space := 2, addr := BitVec.ofNat 64 x } s else .ok s [q]
  | .tile a i =>
    match (if wr then s.coreIn c.part a else coreOfAddr a) with
    | none => .fault { code := 0x08, space := 1, addr := BitVec.ofInt 64 off } s
    | some d =>
      let t := s.tile d i
      let x := BitVec.ofInt 64 (64 * t.base + off)
      if !wr && d != core then .fault { code := 0x08, space := 1, addr := x } s
      else if !wr && t.size = 0 then .fault (tileUndefined i) s
      else if off < 0 || 64 * t.size < off + n then .fault { code := 0x08, space := 1, addr := x } s
      else
        let q : Piece := { at_ := .loc, key := 32768 * d + x.toNat, va := x.toNat, n := n }
        if !wr && s.poisonAt locGranule q.key n then .fault { code := 0x15, space := 1, addr := x } s else .ok s [q]

/-- The next line of a copy that runs. -/
def State.copyLine (s : State) (core i : Nat) (c : Cmd) : State :=
  let (_, _, ss, ds) := c.shape
  match copyEnd (nth 0 c.vals 1), copyEnd (nth 0 c.vals 0) with
  | .error f, _ => s.parkCmd core .copy i c f
  | _, .error f => s.parkCmd core .copy i c f
  | .ok src, .ok dst =>
    let (so, n) := c.lineOff ss
    let (dof, _) := c.lineOff ds
    match s.endAccess core c src so n false with
    | .stall s => s
    | .fault f s => s.parkCmd core .copy i c f
    | .ok s ps =>
      match s.endAccess core c dst dof n true with
      | .stall s => s
      | .fault f s => s.parkCmd core .copy i c f
      | .ok s qs =>
        let (go, s) := s.engReadies (dieOf core) (engKey core .copy) qs
        if !go then s
        else
          let (bs, s) := s.engLoads (dieOf core) ps
          let (ids, s) := s.engStores (dieOf core) qs bs
          let c := { c with done := c.done + 1, wids := c.wids ++ ids }
          s.setCmd core .copy i (if c.lines ≤ c.done then { c with phase := .closing } else c)

/-- A copy starts: it bids for a LOC destination and claims it (R111, R249 step 2, R250). -/
def State.startCopy (s : State) (core i : Nat) (c : Cmd) : State :=
  if c.guard == some false || c.lines = 0 then s.setCmd core .copy i { c with phase := .closing }
  else if !s.cmdAcquired c then s
  else
    match copyEnd (nth 0 c.vals 0) with
    | .error f => s.parkCmd core .copy i c f
    | .ok (.tile a t) =>
      match s.bidding core .copy i c a t with
      | some s => s
      | none =>
        match s.claim c.part a t with
        | .error f => s.parkCmd core .copy i { c with bid := none } f
        | .ok (_, s) => s.setCmd core .copy i { c with phase := .running, claimed := true, bid := none }
    | .ok _ => s.setCmd core .copy i { c with phase := .running }

/-- COPY_LINE: a command of a core's copy queue starts, or moves its next line when the engine comes to it (R240). -/
def execCopyLine (core index : Nat) (s : State) : Host.Outcome State Fault Refusal :=
  let x := s.core core
  match x.copyQ[index]? with
  | none => .next s
  | some c =>
    if !x.mayMove .copy index then .next s
    else
      match c.phase with
      | .queued => .next (s.startCopy core index c)
      | .running => .next (if s.engTurn .copy core then (s.passTurn .copy core).copyLine core index c else s)
      | _ => .next s

/-- COPY_COMPLETE: the destination tile goes ready and a source tile still draining empty (R109), then the obligations (R255). -/
def execCopyComplete (core index : Nat) (s : State) : Host.Outcome State Fault Refusal :=
  match (s.core core).copyQ[index]? with
  | none => .next s
  | some c =>
    if c.phase != .closing || c.parked.isSome || !s.cmdReleased core c then .next s
    else
      let s := match c.claimed, copyEnd (nth 0 c.vals 0) with
        | true, .ok (.tile a t) => (match s.coreIn c.part a with | some d => s.tileReady d t false | none => s)
        | _, _ => s
      let s := match c.drains, copyEnd (nth 0 c.vals 1) with
        | true, .ok (.tile _ t) => if (s.tile core t).state == TileState.draining then s.setTile core t { s.tile core t with state := .empty } else s
        | _, _ => s
      .next (s.finishCmd core .copy index { c with claimed := false, drains := false })

end Sys2Proof.Machine
end

