-- ==== Sys2Proof/Machine/Collect.lean ====
section
/-!
DEFINITION. The collective engine (R252 to R255, R359): COLAG, COLRS, COLLECTIVE_LINE and COLLECTIVE_COMPLETE.
-/

namespace Sys2Proof.Machine

/-! ## What a collective names (R252) -/

/-- Destination, source base, member stride and shard length. -/
def Cmd.colShape (c : Cmd) : Nat × Word × Int × Nat :=
  let v := nth 0 c.vals 2
  ((nth 0 c.vals 0).toNat, nth 0 c.vals 1, (bits v 32 32).toInt, (bits v 0 32).toNat)

/-- Shard length in bytes. -/
def Cmd.shard (c : Cmd) : Nat := c.colShape.2.2.2
/-- The signal base; 0 for no signals. -/
def Cmd.sigBase (c : Cmd) : Word := nth 0 c.vals 3
/-- The group that a collective names. -/
def State.colGroup (s : State) (c : Cmd) : Group := tget {} (bits (nth 0 c.vals 4) 0 8).toNat (s.part c.part).groups
/-- The issuer's rank in the group, when it is a member. -/
def State.colRank (s : State) (c : Cmd) : Option Nat := findIdx (fun m : Nat => m == coreOf c.key) (s.colGroup c).members
/-- The rank of the part at a place of the engine's order. -/
def State.partRank (s : State) (c : Cmd) (k : Nat) : Nat :=
  let n := (s.colGroup c).members.length
  match s.colRank c with | some m => (m + k) % n | none => k
/-- Whether the command reads, writes and signals at all. -/
def State.colActs (s : State) (c : Cmd) : Bool := (s.colGroup c).valid && (c.op == .colag || (s.colRank c).isSome)
/-- The signal block of a part. -/
def Cmd.sigRef (c : Cmd) (r : Nat) : Word := c.sigBase + BitVec.ofNat 64 (32 * r)

/-! ## Acceptance (R254) -/

/-- One SIGNAL unit added at a block's home. -/
def State.addUnit (s : State) (core : Nat) (c : Cmd) (ref : Word) : ERes :=
  match s.engBlock core .col c ref with
  | .stall s => .stall s c
  | .fault f s => .fault f s c
  | .ok s p home =>
    let b := s.block home
    if b.poison then .fault (sigPoisoned ref) s c
    else
      let wid := s.nextWid
      let b' : Block := { b with holders := b.holders + 1 }
      let s := { s with nextWid := wid + 1 }
      .ok (if b'.holders == 0 then s.closeBlock (dieOf core) wid home p.page.dup b' [] false
        else s.putBlock (dieOf core) wid home p.page.dup b') c

/-- Units from block n on are added, while they can be; then the acceptance is complete. -/
def State.addUnits (s : State) (core i : Nat) (c : Cmd) (n : Nat) : Nat → State
  | 0 => s.setCmd core .col i { c with phase := .queued, units := true }
  | fuel + 1 =>
    match s.addUnit core c (c.sigRef n) with
    | .ok s c => s.addUnits core i { c with phase := .accepting (n + 1) } (n + 1) fuel
    | .stall s c => s.setCmd core .col i c
    | .fault f s c => s.parkCmd core .col i c f

/-- The acceptance of a command goes on. -/
def State.acceptMore (s : State) (core i : Nat) (c : Cmd) : State :=
  match c.phase with
  | .accepting n => s.addUnits core i c n ((s.colGroup c).members.length - n)
  | _ => s

/-- Effect of a collective: it takes its units whatever its guard (R254, R359). -/
def effCol (opc : Nat) (op : CmdOp) (w : Operands) (s : State) : Res :=
  s.accept opc w .col op none none (fun c => c) (fun s c =>
    if c.sigBase == 0 || !s.colActs c then s
    else
      let i := (s.core s.myCore).colQ.length - 1
      s.acceptMore s.myCore i { c with phase := .accepting 0 })

/-- COLAG. -/
def execColag (w : Operands) (s : State) := issue 0x306 w (effCol 0x306 .colag w) s
/-- COLRS. -/
def execColrs (w : Operands) (s : State) := issue 0x307 w (effCol 0x307 .colrs w) s

/-! ## Parts -/

/-- Bytes of a part that have been read. -/
def Cmd.readOf (c : Cmd) (k : Nat) : List Byte := tget [] k c.read
/-- Whether a part is read. -/
def Cmd.isRead (c : Cmd) (k : Nat) : Bool := c.shard ≤ (c.readOf k).length
/-- Whether a part is written at the destination; a contribution of a COLRS has no write of its own. -/
def Cmd.isWritten (c : Cmd) (k : Nat) : Bool := c.op == .colrs || c.shard ≤ tget 0 k c.written
/-- Whether nothing is left to do for a part. -/
def Cmd.partDone (c : Cmd) (k : Nat) : Bool := c.isRead k && c.isWritten k && (!c.units || tget false k c.raised)

/-- The next line of a part is read. -/
def State.readLine (s : State) (core i : Nat) (c : Cmd) (k : Nat) : State :=
  let (_, src, stride, len) := c.colShape
  let r := s.partRank c k
  let own := if c.op == .colrs then ((s.colRank c).getD 0 : Int) * len else 0
  let off := (c.readOf k).length
  let a := (src + BitVec.ofInt 64 (r * stride + own + off)).toNat
  match s.engAccess core .col c a (min 64 (len - off)) .load with
  | .stall s => s
  | .fault f s => s.parkCmd core .col i c f
  | .ok s ps =>
    let (bs, s) := s.engLoads (dieOf core) ps
    s.setCmd core .col i { c with read := tset [] k (c.readOf k ++ bs) c.read }

/-- Bytes of a collective written at an address; `note` records the writes' identities. -/
def State.colWrite (s : State) (core i : Nat) (c : Cmd) (a : Nat) (bs : List Byte) (note : Cmd → List Nat → Cmd) : State :=
  match s.engAccess core .col c (a % 2 ^ 64) bs.length .store with
  | .stall s => s
  | .fault f s => s.parkCmd core .col i c f
  | .ok s ps =>
    let (go, s) := s.engReadies (dieOf core) (engKey core .col) ps
    if !go then s
    else
      let (ids, s) := s.engStores (dieOf core) ps bs
      s.setCmd core .col i (note { c with wids := c.wids ++ ids } ids)

/-- The next line of a shard that has been read is written at the destination. -/
def State.writeLine (s : State) (core i : Nat) (c : Cmd) (k : Nat) : State :=
  let (dst, _, _, len) := c.colShape
  let off := tget 0 k c.written
  let bs := ((c.readOf k).drop off).take 64
  s.colWrite core i c (dst + s.partRank c k * len + off) bs (fun c ids =>
    { c with written := tset 0 k (off + bs.length) c.written, pwids := tset [] k (tget [] k c.pwids ++ ids) c.pwids })

/-- A part is done: its signal is raised, as a release of the part's writes (R254). -/
def State.raisePart (s : State) (core i : Nat) (c : Cmd) (k : Nat) : State :=
  if !(tget [] k c.pwids).all (s.appliedAt (dieOf core) c.scope) then s
  else
    match s.engSignal core .col c (c.sigRef (s.partRank c k)) 1 1 with
    | .ok s c => s.setCmd core .col i { c with raised := tset false k true c.raised }
    | .stall s _ => s
    | .fault f s c => s.parkCmd core .col i c f

/-! ## The sum of COLRS -/

/-- One element of a COLRS result from the parts' elements: an exact sum rounded once, or a sum modulo 2^w. -/
def colSum (t : Ty) (xs : List Word) : Word :=
  if t.isFloat then
    let ts := xs.map (exactTerm t)
    exactWord t ((ts.map (·.1)).foldl (· + ·) 0) ((ts.map (·.2)).foldl (· ||| ·) 0)
  else xs.foldl (· + ·) 0

/-- Line n of the result. -/
def Cmd.resultLine (c : Cmd) (parts n : Nat) : List Byte :=
  let w := c.ty.bytes
  let len := min 64 (c.shard - 64 * n)
  let elem (j k : Nat) : Word := BitVec.ofNat 64 (leNat (((c.readOf k).drop (64 * n + w * j)).take w))
  (upTo (len / w)).flatMap (fun j => leBytes w (colSum c.ty ((upTo parts).map (elem j))).toNat)

/-- The next line of a COLRS result is written, once every contribution has arrived. -/
def State.sumLine (s : State) (core i : Nat) (c : Cmd) : State :=
  let n := (s.colGroup c).members.length
  if c.op != .colrs || !(upTo n).all c.isRead || c.shard ≤ 64 * c.done then s
  else
    s.colWrite core i c (c.colShape.1 + 64 * c.done) (c.resultLine n c.done) (fun c _ => { c with done := c.done + 1 })

/-! ## Work -/

/-- A discarded command gives back its units as SIGADDs of 0 (R254). -/
def State.giveBack (s : State) (core i : Nat) (c : Cmd) : List Nat → State
  | [] => s.setCmd core .col i { c with phase := .closing }
  | k :: r =>
    if tget false k c.raised then s.giveBack core i c r
    else
      match s.engSignal core .col c (c.sigRef (s.partRank c k)) 0 1 with
      | .ok s c => s.giveBack core i { c with raised := tset false k true c.raised } r
      | .stall s c => s.setCmd core .col i c
      | .fault f s c => s.parkCmd core .col i c f

/-- A collective starts (R253, R254). -/
def State.startCol (s : State) (core i : Nat) (c : Cmd) : State :=
  if c.guard == some false then s.giveBack core i c (if c.units then upTo (s.colGroup c).members.length else [])
  else if !s.colActs c then s.setCmd core .col i { c with phase := .closing }
  else if !s.cmdAcquired c then s
  else if c.shard % c.ty.bytes != 0 then s.parkCmd core .col i c { code := 0x0B, space := 4, addr := nth 0 c.vals 1 }
  else s.setCmd core .col i { c with phase := .running }

/-- The next piece of work of the part at a place of the engine's order: a line read once the parts before it are read, a
line written, its signal, or a line of the sum. -/
def State.colLine (s : State) (core i : Nat) (c : Cmd) (k : Nat) : State :=
  if (s.colGroup c).members.length ≤ k then s
  else if !c.isRead k then (if (upTo k).all c.isRead then s.readLine core i c k else s)
  else if !c.isWritten k then s.writeLine core i c k
  else if !c.partDone k then s.raisePart core i c k
  else s.sumLine core i c

/-- A core's turn of the engine: it ends with a line that has moved, while a signal is no line (R240). -/
def State.colTurn (s : State) (core i : Nat) (c : Cmd) (k : Nat) : State :=
  let t := s.colLine core i c k
  match (t.core core).colQ[i]? with
  | some d => if d.read == c.read && d.written == c.written && d.done == c.done then t else t.passTurn .col core
  | none => t

/-- COLLECTIVE_LINE: a command of a core's collective queue goes on with its acceptance, starts, or moves one line when
the engine comes to it (R240). -/
def execCollectiveLine (core index part : Nat) (s : State) : Host.Outcome State Fault Refusal :=
  let x := s.core core
  match x.colQ[index]? with
  | none => .next s
  | some c =>
    match c.phase with
    | .accepting _ => .next (if c.parked.isSome then s else s.acceptMore core index c)
    | .queued => .next (if x.mayMove .col index then s.startCol core index c else s)
    | .running => .next (if x.mayMove .col index && s.engTurn .col core then s.colTurn core index c part else s)
    | .closing => .next s

/-- Whether every part is done and the result written (R255). -/
def State.colDone (s : State) (c : Cmd) : Bool :=
  match c.phase with
  | .closing => true
  | .running => (upTo (s.colGroup c).members.length).all c.partDone && (c.op == .colag || c.shard ≤ 64 * c.done)
  | _ => false

/-- COLLECTIVE_COMPLETE: the given obligations, and the command leaves (R255). -/
def execCollectiveComplete (core index : Nat) (s : State) : Host.Outcome State Fault Refusal :=
  match (s.core core).colQ[index]? with
  | none => .next s
  | some c =>
    if c.parked.isSome || !s.colDone c || !s.cmdReleased core c then .next s
    else .next (s.finishCmd core .col index { c with phase := .closing })

end Sys2Proof.Machine
end

