-- ==== Sys2Proof/Machine/Control.lean ====
section
/-!
DEFINITION. Control transfers, END, NOP and YIELD (R67, R70, R353, R354, R357, R364, R374, R380, R390, R397, R446), and
the guard instructions of S (R372).
-/

namespace Sys2Proof.Machine

/-- GLB_RANGE at a transfer's target. -/
def targetRange (t : Word) : Option FaultReq :=
  if 2 ^ 56 ≤ t.toNat then some { code := 0x0A, space := 5, addr := t } else none

/-- A relative target: 4-byte units from the word (R54, R354). -/
def State.relTarget (s : State) (w : Operands) : Word := s.me.pc + 4 * s.valC w

/-- A transfer to a target that a register or an immediate gives (R58, R354, R374). -/
def State.target (s : State) (w : Operands) : Except FaultReq Word :=
  let isReg := match w.pair, w.c with | none, .reg .s _ _ => true | _, _ => false
  if isReg then
    if s.dfr w.c then .error (deferredUse false (opndNum w.c))
    else
      let t := s.val w.c
      if t.toNat % 4 != 0 then .error { code := 0x02, addr := t }
      else match targetRange t with | some f => .error f | none => .ok t
  else
    let t := s.relTarget w
    match targetRange t with | some f => .error f | none => .ok t

/-- BR's effect (R354). -/
def effBr (w : Operands) (s : State) : Res :=
  match s.target w with | .error f => .fault f s | .ok t => .goto s t

/-- BR. -/
def execBr (w : Operands) (s : State) := issue 0x090 w (effBr w) s

/-- BRL's effect (R354): the link is written after the target is read, and pushed on the return stack (R397). -/
def effBrl (w : Operands) (s : State) : Res :=
  match s.target w with
  | .error f => .fault f s
  | .ok t =>
    let link := s.me.pc + 12
    .goto (s.modMe (fun a => { (a.sSet (opndNum w.a) link) with rstack := (link :: a.rstack).take 8 })) t

/-- BRL. -/
def execBrl (w : Operands) (s : State) := issue 0x091 w (effBrl w) s

/-- CHK's effect (R197, R357): the target is checked whether or not the bit is set. -/
def effChk (w : Operands) (s : State) : Res :=
  let t := s.relTarget w
  match targetRange t with
  | some f => .fault f s
  | none => if s.dfr w.a then .goto s t else .done s

/-- CHK. -/
def execChk (w : Operands) (s : State) := issue 0x092 w (effChk w) s

/-- JMP's effect (R374). -/
def effJmp (w : Operands) (s : State) : Res :=
  match s.target w with | .error f => .fault f s | .ok t => .goto s t

/-- JMP. -/
def execJmp (w : Operands) (s : State) := issue 0x094 w (effJmp w) s

/-- RET's effect (R397): JMP's, with one prediction popped. -/
def effRet (w : Operands) (s : State) : Res :=
  match s.target w with
  | .error f => .fault f s
  | .ok t => .goto (s.modMe (fun a => { a with rstack := a.rstack.drop 1 })) t

/-- RET. -/
def execRet (w : Operands) (s : State) := issue 0x097 w (effRet w) s

/-- LOOP's effect (R380). -/
def effLoop (w : Operands) (s : State) : Res :=
  if s.dfr w.a then .fault (deferredUse false (opndNum w.a)) s
  else
    let n := s.val w.a - 1
    let put (s : State) : State := s.modMe (fun a => a.sSet (opndNum w.a) n)
    if n = 0 then .done (put s)
    else
      let t := s.relTarget w
      match targetRange t with | some f => .fault f s | none => .goto (put s) t

/-- LOOP. -/
def execLoop (w : Operands) (s : State) := issue 0x095 w (effLoop w) s

/-- NOP. -/
def execNop (w : Operands) (s : State) := issue 0x096 w .done s

/-- YIELD (R446): its port ends the slot's turn and puts it behind its class (State.turned). -/
def execYield (w : Operands) (s : State) := issue 0x098 w .done s

/-! ## END -/

/-- Profile entry n of a core with one activation's delays added (R320). -/
def Prof.add (e : Prof) (src transit qwait run : Nat) : Prof :=
  let sat (n : Nat) : Nat := min n (2 ^ 64 - 1)
  { src := src, valid := true, count := min (e.count + 1) (2 ^ 32 - 1), transit := sat (e.transit + transit),
    qwait := sat (e.qwait + qwait), run := sat (e.run + run) }

/-- The profile table with an ended activation's delays (R320): entries 0 to 62 by sender in order of first completion,
entry 63 for every other sender. -/
def Core.profiled (c : Core) (src transit qwait run : Nat) : Core :=
  if !c.trcctl.getLsbD 1 then c
  else
    let at_ (n : Nat) : Prof := tget {} n c.profile
    let n := ((upTo 63).find? (fun n => (at_ n).valid && (at_ n).src == src)).getD
      (((upTo 63).find? (fun n => !(at_ n).valid)).getD 63)
    { c with profile := tset {} n ((at_ n).add (if n = 63 then 2 ^ 25 - 1 else src) transit qwait run) c.profile }

/-- Firing-class activations in a core's slots (R80, R83). -/
def State.firingsOf (s : State) (core : Nat) : Nat :=
  ((slotsOf core).filter (fun k => (s.act k).st != .free && (s.act k).cls == .firing)).length

/-- Firings of a core that have not ended: in its slots, saved, and those that host an inline child (R86). -/
def State.ownFirings (s : State) (core : Nat) : Nat :=
  ((slotsOf core).filter (fun k => (s.act k).st != .free && (s.act k).origin == .firing)).length +
    (s.framed.filter (fun e => e.2.savedOn == some core && e.2.origin == .firing)).length

/-- A core whose last firing of its old stage has ended joins the stage that it moves to (R86). -/
def State.joinStage (s : State) (core : Nat) : State :=
  match (s.core core).moving, (s.core core).part with
  | some st, some p =>
    if s.ownFirings core != 0 then s
    else
      let s := s.modPart p (fun x =>
        { x with stages := x.stages.mapIdx (fun i g =>
            { g with cores := if i = st then g.cores.filter (· < core) ++ [core] ++ g.cores.filter (fun c => core < c) else g.cores.filter (· != core) }) })
      s.modCore core (fun c => { c with stage := some st, moving := none })
  | _, _ => s

/-! ### Departure (R99, R311) -/

/-- A core has left: the controller sends a null event of all ones on each of its output links, which LASTCC follows (R298),
and no demand is left unmet (R299). FLOOR is raised as any null event raises it, so that the promise binds a core that joins again
(DEDUCED, log entry 121). -/
def State.lastPromise (s : State) (core : Nat) : State :=
  let lvt := (s.core core).lvt
  let s := (s.core core).outs.foldl (fun s l => s.modPeer core l.dst (fun x =>
    { x with ins := x.ins.map (fun i =>
        if i.link = l.link then { i with held := some { null := true, cc := never, sent := l.sent, stamp := lvt } } else i) })) s
  s.modCore core (fun x => { x with outs := x.outs.map (fun l => { l with floor := never, lastCC := never, demand := none }) })

/-- A departing core whose slots are all FREE has left: it belongs to no stage, and its cluster is no longer granted once every
core of it has left. The partition keeps the writes of its activations that are still to be performed (R102). -/
def State.leaveIfFree (s : State) (core : Nat) : State :=
  let c := s.core core
  if c.departing.isNone || c.left || !(slotsOf core).all (fun k => (s.act k).st == .free) then s
  else
    let s := (s.lastPromise core).modCore core (fun c => { c with left := true, stage := none, moving := none })
    match c.part with
    | none => s
    | some p =>
      let gone := (coresOfCluster (clusterOf core)).all (fun x => (s.core x).left)
      s.modPart p (fun x =>
        { x with
          gone := x.gone ++ c.ended
          stages := x.stages.map (fun g => { g with cores := g.cores.filter (· != core) })
          clusters := if gone then x.clusters.filter (· != clusterOf core) else x.clusters })

/-- An activation's END completes (R364): its trace record, its profile entry, the slot, and LTWAITs that it held back (R309). -/
def State.completeEnd (s : State) (k : Nat) : State :=
  let a := s.act k
  let core := coreOf k
  let run := s.cycle - a.started
  let s := s.trace 0x02 k a (if a.sender.isSome then BitVec.ofNat 64 run else 0) 0
  let s := match a.sender with
    | some src => s.modCore core (fun c => c.profiled (coreAddr src) a.transit a.qwait run)
    | none => s
  (((s.endSlot k).joinStage core).leaveIfFree core).completeTimers core

/-- END's effect (R151, R364). -/
def effEnd (w : Operands) (s : State) : Res :=
  match s.me.oblUsed with
  | o :: _ => .fault { code := 0x27, addr := o.handle, info := o.word false } s
  | [] =>
    if s.me.event && !s.releaseReady .core then .wait s
    else .wait ((s.turned 0x093 w.head).completeEnd s.cur)

/-- END: it issues only after every earlier word has issued in V and E (R70). -/
def execEndOp (w : Operands) (s : State) := issueSerial 0x093 w (effEnd w) s

/-! ## Guards (R372) -/

/-- The value of a guard operand; none while it is unresolved. -/
def State.guardVal (s : State) (o : Opnd) : Option Bool := (s.me.gGet (opndNum o)).toBool?

/-- A guard written by S. -/
def State.putGuard (s : State) (o : Opnd) (b : Bool) : Res :=
  .done (s.modMe (fun a => a.gSet (opndNum o) (GVal.ofBool b)))

/-- GAND. -/
def execGand (w : Operands) (s : State) :=
  issue 0x0A0 w (fun s =>
    match s.guardVal w.b, s.guardVal w.c with | some b, some c => s.putGuard w.a (b && c) | _, _ => .stall s) s

/-- GNOT. -/
def execGnot (w : Operands) (s : State) :=
  issue 0x0A1 w (fun s => match s.guardVal w.c with | some c => s.putGuard w.a (!c) | none => .stall s) s

/-- GOR. -/
def execGor (w : Operands) (s : State) :=
  issue 0x0A2 w (fun s =>
    match s.guardVal w.b, s.guardVal w.c with | some b, some c => s.putGuard w.a (b || c) | _, _ => .stall s) s

end Sys2Proof.Machine
end

