-- ==== Sys2Proof/Machine/Fp.lean ====
section
/-!
DEFINITION. Scalar floating-point instructions (R367 to R370).
-/

namespace Sys2Proof.Machine

/-- The rounding mode that the word in execution rounds by (R221, R223, R225). -/
def State.rm (s : State) (w : Operands) : Rnd := w.rnd.resolve s.fpctl
/-- FTZ for the word in execution. -/
def State.ftz (s : State) : Bool := ftzOf s.fpctl

/-- FABS. -/
def execFabs (w : Operands) (s : State) := issue 0x080 w (arith w false (fun _ _ y => fabsVal w.ty y)) s
/-- FADD. -/
def execFadd (w : Operands) (s : State) := issue 0x081 w (arith w false (fun _ x y => faddVal w.ty (s.rm w) s.ftz x y)) s
/-- FCMP. -/
def execFcmp (w : Operands) (s : State) := issue 0x082 w (compare w (fun x y => fcmpVal w.ty s.ftz x y)) s
/-- The source TYPE of a conversion, in OPF of field C (R49). -/
def srcType (w : Operands) : Ty := Ty.ofCode (bits w.opf 1 4)
/-- FCVT. -/
def execFcvt (w : Operands) (s : State) :=
  issue 0x083 w (arith w false (fun _ _ y => convert (srcType w) w.ty w.sat (s.rm w) s.ftz y.toNat)) s
/-- FDIV. -/
def execFdiv (w : Operands) (s : State) := issue 0x084 w (arith w false (fun _ x y => fdivVal w.ty (s.rm w) s.ftz x y)) s
/-- FFMA. -/
def execFfma (w : Operands) (s : State) := issue 0x085 w (arith w true (fun d x y => ffmaVal w.ty (s.rm w) s.ftz d x y)) s
/-- FMAX. -/
def execFmax (w : Operands) (s : State) := issue 0x086 w (arith w false (fun _ x y => fminmaxVal w.ty true s.ftz x y)) s
/-- FMIN. -/
def execFmin (w : Operands) (s : State) := issue 0x087 w (arith w false (fun _ x y => fminmaxVal w.ty false s.ftz x y)) s
/-- FMUL. -/
def execFmul (w : Operands) (s : State) := issue 0x088 w (arith w false (fun _ x y => fmulVal w.ty (s.rm w) s.ftz x y)) s
/-- FNEG. -/
def execFneg (w : Operands) (s : State) := issue 0x089 w (arith w false (fun _ _ y => fnegVal w.ty y)) s
/-- FSQRT. -/
def execFsqrt (w : Operands) (s : State) := issue 0x08A w (arith w false (fun _ _ y => fsqrtVal w.ty (s.rm w) s.ftz y)) s
/-- FSUB. -/
def execFsub (w : Operands) (s : State) := issue 0x08B w (arith w false (fun _ x y => fsubVal w.ty (s.rm w) s.ftz x y)) s

end Sys2Proof.Machine
end

