-- ==== Sys2Proof/Machine/Vector.lean ====
section
/-!
DEFINITION. Masks (R385) and the vector instructions 0x100 to 0x11E (R423 to R436).
-/

namespace Sys2Proof.Machine

/-! ## Masks (R75, R385) -/

/-- Bits below the vector length. -/
def State.below (s : State) (m : BitVec 16) : BitVec 16 := m &&& BitVec.ofNat 16 (2 ^ s.vl - 1)
/-- A mask operand. -/
def State.mask (s : State) (o : Opnd) : BitVec 16 := s.me.mGet (opndNum o)
/-- A mask written. -/
def State.putMask (s : State) (o : Opnd) (m : BitVec 16) : Res := .done (s.modMe (fun a => a.mSet (opndNum o) m))

/-- MALL. -/
def execMall (w : Operands) (s : State) :=
  issue 0x0A3 w (fun s => .done (s.resolveGuard (opndNum w.a) (s.below (~~~(s.mask w.c)) == 0))) s
/-- MAND. -/
def execMand (w : Operands) (s : State) := issue 0x0A4 w (fun s => s.putMask w.a (s.mask w.b &&& s.mask w.c)) s
/-- MANY. -/
def execMany (w : Operands) (s : State) :=
  issue 0x0A5 w (fun s => .done (s.resolveGuard (opndNum w.a) (s.below (s.mask w.c) != 0))) s
/-- MFIRST. -/
def execMfirst (w : Operands) (s : State) :=
  issue 0x0A6 w (fun s => let c := s.below (s.mask w.c); s.putMask w.a (c &&& (~~~c + 1))) s
/-- MNOT. -/
def execMnot (w : Operands) (s : State) := issue 0x0A7 w (fun s => s.putMask w.a (s.below (~~~(s.mask w.c)))) s
/-- MOR. -/
def execMor (w : Operands) (s : State) := issue 0x0A8 w (fun s => s.putMask w.a (s.mask w.b ||| s.mask w.c)) s
/-- MPOP: the count in every lane, or pushed. -/
def execMpop (w : Operands) (s : State) :=
  issue 0x0A9 w (fun s =>
    let n := ones 16 (s.below (s.mask w.c)).toNat
    match w.a with
    | .queue _ _ => s.put s w.a (BitVec.ofNat 64 n) 0
    | a => .done (s.modMe (fun x => x.vSet (opndNum a) (List.replicate 16 (BitVec.ofNat 32 n))))) s

/-! ## The lane loop (R423, R426) -/

/-- Operand C as lane i sees it: a lane, the whole captured value, or the low w bits of an immediate, a shift count too (DESIGN
CHOICE, log entry 129). -/
def State.laneC (s : State) (t : Ty) (o : Opnd) (i : Nat) : Word :=
  match o with
  | .reg .v _ n => ((s.me.vGet n.toNat).lane i).zeroExtend 64
  | .imm v => BitVec.ofNat 64 ((v.signExtend 64).toNat % 2 ^ t.width)
  | o => s.val o

/-- A v register written in the lanes that `on` accepts, its deferral bit set or cleared. -/
def State.putLanes (s : State) (o : Opnd) (on : Nat → Bool) (f : Nat → Lane) (dfr : Bool := false) : State :=
  s.modMe (fun a =>
    let old := a.vGet (opndNum o)
    a.vSet (opndNum o) (Vec.ofFn (fun i => if on i then f i else old.lane i)) dfr)

/-- Flags of the lanes that `on` accepts. -/
def laneFlags (on : Nat → Bool) (f : Nat → Word) : Word :=
  (upTo 16).foldl (fun fl i => if on i then fl ||| f i else fl) 0

/-- A vector instruction that gives lane i a result with flags in the lanes that `on` accepts; a deferred source defers
the destination (R423). -/
def lanes (w : Operands) (deferred : Bool) (on : Nat → Bool) (f : Nat → Val) (s : State) : Res :=
  if deferred then .done (s.putLanes w.a on (fun _ => 0) true)
  else .done ((s.putLanes w.a on (fun i => (f i).1.setWidth 32)).raise (laneFlags on (fun i => (f i).2)))

/-- The lane loop of R426; `tied` says that A is a source. -/
def laneOp (w : Operands) (tied : Bool) (f : (d b c : Word) → Val) (s : State) : Res :=
  let d := s.vecOf w.a
  let b := s.vecOf w.b
  lanes w (s.dfr w.b || s.dfr w.c || (tied && s.dfr w.a)) (s.active w.msk)
    (fun i => f ((d.lane i).zeroExtend 64) ((b.lane i).zeroExtend 64) (s.laneC w.ty w.c i)) s

/-- A lane value as the loop of R426 reads it: under FTZ a denormal is the zero of its sign. -/
def flushed (t : Ty) (z : Bool) (x : Word) : Word :=
  if z && t.isFloat then
    match t.fmt.decode true (pat t x) with | .fin n 0 _ => BitVec.ofNat 64 (t.fmt.zeroBits n) | _ => x
  else x

/-- An integer or a floating-point form by TYPE. -/
def byType (t : Ty) (i f : Val) : Val := if t.isFloat then f else i

/-- VABS. -/
def execVabs (w : Operands) (s : State) :=
  issue 0x100 w (laneOp w false (fun _ _ c => byType w.ty (absVal w.ty w.sat c) (fabsVal w.ty c))) s
/-- VADD. -/
def execVadd (w : Operands) (s : State) :=
  issue 0x101 w (laneOp w false (fun _ b c => byType w.ty (addVal w.ty w.sat b c) (faddVal w.ty (s.rm w) s.ftz b c))) s
/-- VAND. -/
def execVand (w : Operands) (s : State) := issue 0x102 w (laneOp w false (fun _ b c => andVal w.ty b c)) s

/-- VCMP's effect (R428): each active lane into bit i of a pair of masks. -/
def effVcmp (w : Operands) (s : State) : Res :=
  match s.firstDeferredV (vOf w.b ++ vOf w.c), s.firstDeferred (sOf 0x103 2 w.c) with
  | some f, _ => .fault f s
  | none, some f => .fault f s
  | none, none =>
    let b := s.vecOf w.b
    let res (i : Nat) : Bool × Bool × Word :=
      let x := (b.lane i).zeroExtend 64
      let y := s.laneC w.ty w.c i
      if w.ty.isFloat then fcmpVal w.ty s.ftz x y
      else (decide (ival w.ty x < ival w.ty y), ival w.ty x == ival w.ty y, 0)
    let on := s.active w.msk
    let n := opndNum w.a
    let build (old : BitVec 16) (f : Nat → Bool) : BitVec 16 :=
      BitVec.ofNat 16 (digits 1 ((upTo 16).map (fun i => if (if on i then f i else old.getLsbD i) then 1 else 0)))
    .done ((s.modMe (fun a =>
      (a.mSet n (build (a.mGet n) (fun i => (res i).1))).mSet (n + 1) (build (a.mGet (n + 1)) (fun i => (res i).2.1)))).raise
      (laneFlags on (fun i => (res i).2.2)))

/-- VCMP. -/
def execVcmp (w : Operands) (s : State) := issue 0x103 w (effVcmp w) s
/-- VCVT. -/
def execVcvt (w : Operands) (s : State) :=
  issue 0x104 w (laneOp w false (fun _ _ c => convert (srcType w) w.ty w.sat (s.rm w) s.ftz c.toNat)) s

/-- Byte k of a lane by the signedness of a type. -/
def byteOf (t : Ty) (x : Lane) (k : Nat) : Int := t.value (x.toNat / 256 ^ k)

/-- VDOT4's lane (R430). -/
def dot4 (s : State) (w : Operands) (d b c : Vec) (i : Nat) : Val :=
  match w.ty with
  | .f32 =>
    let g := 4 * (i / 4)
    let at_ (v : Vec) (j : Nat) : FVal := if j < s.vl then Ty.f32.fmt.decode s.ftz (v.lane j).toNat else .fin false 0 0
    fval (sumVal Ty.f32.fmt (s.rm w) s.ftz
      (Ty.f32.fmt.decode s.ftz (d.lane i).toNat :: (upTo 4).map (fun k => (at_ b (g + k)).mulExact (at_ c (g + k)))))
  | t =>
    let acc : Ty := if t.isSigned then .i32 else .n32
    fitVal acc w.sat (acc.value (d.lane i).toNat +
      ((upTo 4).map (fun k => byteOf t (b.lane i) k * byteOf t (c.lane i) k)).foldl (· + ·) 0)

/-- VDOT4. -/
def execVdot4 (w : Operands) (s : State) :=
  issue 0x105 w (fun s =>
    lanes w (s.dfr w.a || s.dfr w.b || s.dfr w.c) (s.active w.msk) (dot4 s w (s.vecOf w.a) (s.vecOf w.b) (s.vecOf w.c)) s) s

/-- An approximate function of the lanes of C (R431). -/
def laneFn (w : Operands) (f : Bool → Lane → FRes) (s : State) : Res :=
  lanes w (s.dfr w.c) (s.active w.msk) (fun i => fval (f s.ftz ((s.vecOf w.c).lane i))) s

/-- VEXP2. -/
def execVexp2 (w : Operands) (s : State) := issue 0x106 w (laneFn w vexp2Val) s

/-- The lane that VEXT and VINS name. -/
def State.laneIndex (s : State) (o : Opnd) : Nat := (s.val o).toNat % 16

/-- A lane's contents extended by TYPE to 64 bits; floating-point contents zero-extended (R432). -/
def laneExt (t : Ty) (x : Word) : Word := if t.isFloat then BitVec.ofNat 64 (pat t x) else ext t x.toNat

/-- VEXT. -/
def execVext (w : Operands) (s : State) :=
  issue 0x107 w (fun s =>
    match s.firstDeferredV (vOf w.b), s.firstDeferred (sOf 0x107 2 w.c) with
    | some f, _ => .fault f s
    | none, some f => .fault f s
    | none, none => s.put s w.a (laneExt w.ty (((s.vecOf w.b).lane (s.laneIndex w.c)).zeroExtend 64)) 0) s
/-- VFMA. -/
def execVfma (w : Operands) (s : State) :=
  issue 0x108 w (laneOp w true (fun d b c => ffmaVal w.ty (s.rm w) s.ftz d b c)) s

/-- VINS's effect (R432): one lane; a deferred source defers the whole register (DEDUCED, log entry 101). -/
def effVins (w : Operands) (s : State) : Res :=
  match s.src w.b with
  | none => .stall s
  | some (x, dx, s1) =>
    let k := s.laneIndex w.c
    if dx || s.dfr w.c || s.dfr w.a then .done (s1.putLanes w.a (fun i => i == k) (fun _ => 0) true)
    else .done (s1.putLanes w.a (fun i => i == k) (fun _ => (laneExt w.ty x).setWidth 32))

/-- VINS. -/
def execVins (w : Operands) (s : State) := issue 0x109 w (effVins w) s

/-- VLGET's effect (R434). In V, the words behind it take the length, up to the next VLGET of S in program order. -/
def effVlget (w : Operands) (s : State) : Res :=
  if s.dfr w.c then .fault (deferredUse false (opndNum w.c)) s
  else
    let vl := min (s.val w.c).toNat 16
    .done (s.modMe (fun a =>
      if w.head.stream == .V then
        { (a.sSet (opndNum w.a) (BitVec.ofNat 64 vl)) with
          vl := if a.vlGen = s.vlGen then vl else a.vl
          pend := a.pend.map (fun p => if p.strm == .V && p.vlGen == s.vlGen then { p with vl := vl } else p) }
      else { (a.sSet (opndNum w.a) (BitVec.ofNat 64 vl)) with vl := vl, vlGen := a.vlGen + 1 }))

/-- VLGET. -/
def execVlget (w : Operands) (s : State) := issue 0x10A w (effVlget w) s
/-- VLOG2. -/
def execVlog2 (w : Operands) (s : State) := issue 0x10B w (laneFn w vlog2Val) s
/-- VMAX. -/
def execVmax (w : Operands) (s : State) :=
  issue 0x10C w (laneOp w false (fun _ b c => byType w.ty (maxVal w.ty b c) (fminmaxVal w.ty true s.ftz b c))) s
/-- VMIN. -/
def execVmin (w : Operands) (s : State) :=
  issue 0x10D w (laneOp w false (fun _ b c => byType w.ty (minVal w.ty b c) (fminmaxVal w.ty false s.ftz b c))) s
/-- VMOV. -/
def execVmov (w : Operands) (s : State) := issue 0x10E w (laneOp w false (fun _ _ c => (c, 0))) s
/-- VMUL. -/
def execVmul (w : Operands) (s : State) :=
  issue 0x10F w (laneOp w false (fun _ b c => byType w.ty (mulVal w.ty w.sat b c) (fmulVal w.ty (s.rm w) s.ftz b c))) s
/-- VOR. -/
def execVor (w : Operands) (s : State) := issue 0x110 w (laneOp w false (fun _ b c => orVal w.ty b c)) s

/-- VPERM. -/
def execVperm (w : Operands) (s : State) :=
  issue 0x111 w (fun s =>
    let b := s.vecOf w.b
    let c := s.vecOf w.c
    lanes w (s.dfr w.b || s.dfr w.c) (s.active w.msk)
      (fun i => let j := (c.lane i).toNat; (if j < 16 then (b.lane j).zeroExtend 64 else 0, 0)) s) s

/-- VQNT's effect (R435): inactive lanes count as +0.0; every lane is written. -/
def effVqnt (w : Operands) (s : State) : Res :=
  let c := s.vecOf w.c
  if s.dfr w.c then .done (s.putLanes w.a (fun _ => true) (fun _ => 0) true)
  else
    let (blk, fl) := sbQuantise w.ty ((upTo 16).map (fun i => if s.active w.msk i then (c.lane i).toNat else 0))
    .done ((s.putLanes w.a (fun _ => true) (fun i => BitVec.ofNat 32 (blk / 2 ^ (32 * i)))).raise fl)

/-- VQNT. -/
def execVqnt (w : Operands) (s : State) := issue 0x112 w (effVqnt w) s
/-- VRCP. -/
def execVrcp (w : Operands) (s : State) := issue 0x113 w (laneFn w vrcpVal) s

/-! ## Reductions and scans (R235, R436) -/

/-- The combining operation that field C names: 0 add, 1 min, 2 max, 3 and, 4 or, 5 xor. -/
def combineOp (w : Operands) : Nat := match w.c with | .imm v => v.toNat | _ => 0

/-- One combine of two values. -/
def combineVal (s : State) (w : Operands) (x y : Word) : Val :=
  let t := w.ty
  match combineOp w with
  | 0 => byType t (addVal t w.sat x y) (faddVal t (s.rm w) s.ftz x y)
  | 1 => byType t (minVal t x y) (fminmaxVal t false s.ftz x y)
  | 2 => byType t (maxVal t x y) (fminmaxVal t true s.ftz x y)
  | 3 => andVal t x y
  | 4 => orVal t x y
  | _ => xorVal t x y

/-- The operation's identity. -/
def identityVal (w : Operands) : Word :=
  let t := w.ty
  match combineOp w with
  | 1 => if t.isFloat then BitVec.ofNat 64 (t.fmt.infBits false) else BitVec.ofInt 64 t.maxVal
  | 2 => if t.isFloat then BitVec.ofNat 64 (t.fmt.infBits true) else BitVec.ofInt 64 t.minVal
  | 3 => BitVec.ofInt 64 (t.value (2 ^ t.width - 1))
  | _ => 0

/-- A tree node: a value that may be absent, and the flags gathered below it. -/
abbrev Node := Option Word × Word

/-- Two nodes combined (R235). -/
def combineNode (s : State) (w : Operands) (a b : Node) : Node :=
  match a.1, b.1 with
  | some x, some y => let (r, fl) := combineVal s w x y; (some r, a.2 ||| b.2 ||| fl)
  | some x, none => (some x, a.2 ||| b.2)
  | none, y => (y, a.2 ||| b.2)

/-- One level of the pairwise tree. -/
def treeLevel (s : State) (w : Operands) : List Node → List Node
  | a :: b :: r => combineNode s w a b :: treeLevel s w r
  | l => l

/-- A lane's contents as its instruction reads them, extended by type to 64 bits. -/
def laneIn (t : Ty) (x : Lane) : Word := laneExt t (x.zeroExtend 64)

/-- VRED's effect: the tree of four levels over 16 lanes; the result goes to every lane. -/
def effVred (w : Operands) (s : State) : Res :=
  let b := s.vecOf w.b
  if s.dfr w.b then .done (s.putLanes w.a (fun _ => true) (fun _ => 0) true)
  else
    let leaves : List Node := (upTo 16).map (fun i => (if s.active w.msk i then some (laneIn w.ty (b.lane i)) else none, 0))
    let root := (treeLevel s w (treeLevel s w (treeLevel s w (treeLevel s w leaves)))).headD (none, 0)
    let r := root.1.getD (identityVal w)
    .done ((s.putLanes w.a (fun _ => true) (fun _ => r.setWidth 32)).raise root.2)

/-- VRED. -/
def execVred (w : Operands) (s : State) := issue 0x114 w (effVred w) s
/-- VRSQ. -/
def execVrsq (w : Operands) (s : State) := issue 0x115 w (laneFn w vrsqVal) s
/-- VSAR. -/
def execVsar (w : Operands) (s : State) := issue 0x116 w (laneOp w false (fun _ b c => sarVal w.ty b c)) s

/-- The running results of VSCAN, lane by lane. -/
def scanFrom (s : State) (w : Operands) (b : Vec) : List Nat → Node → List Node
  | [], _ => []
  | i :: r, t =>
    let t' := if s.active w.msk i then combineNode s w t (some (laneIn w.ty (b.lane i)), 0) else t
    t' :: scanFrom s w b r t'

/-- VSCAN. -/
def execVscan (w : Operands) (s : State) :=
  issue 0x117 w (fun s =>
    let run := scanFrom s w (s.vecOf w.b) (upTo 16) (none, 0)
    lanes w (s.dfr w.b) (s.active w.msk) (fun i => let t := run.getD i (none, 0); (t.1.getD 0, t.2)) s) s

/-- VSEL's effect (R427): the mask chooses, the vector length alone limits. Its inputs are flushed as those of the other
floating-point words of the loop are, VABS and VMOV apart (R425, R426, log entry 123). -/
def effVsel (w : Operands) (s : State) : Res :=
  let b := s.vecOf w.b
  lanes w (s.dfr w.b || s.dfr w.c) (fun i => i < s.vl)
    (fun i => (flushed w.ty s.ftz (if (s.me.mGet w.msk.toNat).getLsbD i then (b.lane i).zeroExtend 64 else s.laneC w.ty w.c i), 0)) s

/-- VSEL. -/
def execVsel (w : Operands) (s : State) := issue 0x118 w (effVsel w) s
/-- VSHL. -/
def execVshl (w : Operands) (s : State) := issue 0x119 w (laneOp w false (fun _ b c => shlVal w.ty b c)) s
/-- VSHR. -/
def execVshr (w : Operands) (s : State) := issue 0x11A w (laneOp w false (fun _ b c => shrVal w.ty b c)) s

/-- VSLIDE: the count is the low 32 bits of its operand, signed (R423, R433). -/
def execVslide (w : Operands) (s : State) :=
  issue 0x11B w (fun s =>
    let b := s.vecOf w.b
    let n := ((s.val w.c).setWidth 32 : BitVec 32).toInt
    lanes w (s.dfr w.b || s.dfr w.c) (s.active w.msk)
      (fun i => let j := (i : Int) + n; (if 0 ≤ j && j < 16 then (b.lane j.toNat).zeroExtend 64 else 0, 0)) s) s

/-- VSPLAT's effect: a queue source is popped once (R426). -/
def effVsplat (w : Operands) (s : State) : Res :=
  match s.src w.c with
  | none => .stall s
  | some (x, dx, s1) => lanes w dx (s1.active w.msk) (fun _ => (flushed w.ty s.ftz (laneExt w.ty x), 0)) s1

/-- VSPLAT. -/
def execVsplat (w : Operands) (s : State) := issue 0x11C w (effVsplat w) s
/-- VSUB. -/
def execVsub (w : Operands) (s : State) :=
  issue 0x11D w (laneOp w false (fun _ b c => byType w.ty (subVal w.ty w.sat b c) (fsubVal w.ty (s.rm w) s.ftz b c))) s
/-- VXOR. -/
def execVxor (w : Operands) (s : State) := issue 0x11E w (laneOp w false (fun _ b c => xorVal w.ty b c)) s

end Sys2Proof.Machine
end

