-- ==== Sys2Proof/Machine/Tiles.lean ====
section
/-!
DEFINITION. The tile table as an activation uses it (R108 to R110, R417 to R419), repetitions as they are opened and closed
(R258 to R261, R398), and the T4 table (R231, R232, R416).
-/

namespace Sys2Proof.Machine

/-! ## TLDEF, TLQRY, TLSET -/

/-- TLDEF's effect. -/
def effTldef (w : Operands) (s : State) : Res :=
  match s.deferredIn 0x312 w [0, 2] with
  | some f => .fault f s
  | none =>
    let i := (s.val w.c).toNat % 16
    let d := s.val w.a
    let t := s.tile s.myCore i
    let base := (bits d 23 9).toNat
    let size := (bits d 13 10).toNat
    if t.state != .empty then .fault (tileBusyFault i t) s
    else if size = 0 then .done (s.setTile s.myCore i {})
    else if 512 < base + size then .fault { code := 0x08, space := 1, addr := BitVec.ofNat 64 (64 * base) } s
    else if reservedRank (bits d 32 32) then .fault { code := 0x22, addr := (bits d 32 32).zeroExtend 64 } s
    else .done (s.setTile s.myCore i { rank := bits d 32 32, base := base, size := size })

/-- TLDEF. -/
def execTldef (w : Operands) (s : State) := issue 0x312 w (effTldef w) s

/-- TLQRY's effect. -/
def effTlqry (w : Operands) (s : State) : Res :=
  match s.deferredIn 0x313 w [2] with
  | some f => .fault f s
  | none => .done (s.modMe (fun a => a.sSet (opndNum w.a) (s.tile s.myCore ((s.val w.c).toNat % 16)).word))

/-- TLQRY. -/
def execTlqry (w : Operands) (s : State) := issue 0x313 w (effTlqry w) s

/-- TLSET's tile and the state requested. -/
def State.tlArgs (s : State) (w : Operands) : Nat × Nat :=
  let v := (s.val w.c).toNat
  (v % 16, v / 16 % 4)

/-- TLSET to filling. -/
def State.tlFill (s : State) (i : Nat) : Res :=
  let t := s.tile s.myCore i
  if t.state != .empty then .fault (tileStateFault i 1) s
  else
    match s.me.oblAcquire .tile (tileHandle i) t.rank 1 with
    | none => .fault { code := 0x24, addr := tileHandle i } s
    | some a => .done ((s.modMe (fun _ => a)).setTile s.myCore i { t with state := .filling, owed := true, by_ := .act s.me.uid })

/-- TLSET to ready. -/
def State.tlReady (s : State) (i : Nat) : Res :=
  let t := s.tile s.myCore i
  if t.state != .filling || s.me.oblUnits .tile (tileHandle i) = 0 then .fault (tileStateFault i 2) s
  else .done ((s.modMe (fun a => a.oblDischarge .tile (tileHandle i))).tileReady s.myCore i false)

/-- TLSET to draining or empty: a wait at the entry's RANK. -/
def State.tlWait (s : State) (i : Nat) (empty : Bool) : Res :=
  let t := s.tile s.myCore i
  if !s.rankLegal s.myCore s.me none t.rank then .fault (s.rankOrder (BitVec.ofNat 64 i) t.rank) s
  else
    match t.state, empty with
    | .ready, _ => .done (s.setTile s.myCore i { t with state := if empty then .empty else .draining })
    | .draining, true => .done (s.setTile s.myCore i { t with state := .empty })
    | .filling, _ => .halt (s.enterWait (.tile s.myCore i (if empty then .empty else .draining)) t.rank)
    | _, _ => .fault (orphanWait (BitVec.ofNat 64 i) t.rank) s

/-- TLSET's effect. -/
def effTlset (w : Operands) (s : State) : Res :=
  match s.deferredIn 0x314 w [2] with
  | some f => .fault f s
  | none =>
    let (i, st) := s.tlArgs w
    if (s.tile s.myCore i).size = 0 then .fault (tileUndefined i) s
    else
      match st with
      | 1 => s.tlFill i
      | 2 => s.tlReady i
      | n => s.tlWait i (n == 0)

/-- Whether a TLSET is a waiting instruction: it asks for draining or empty. -/
def State.tlSerial (s : State) (w : Operands) : Bool := let st := (s.tlArgs w).2; st == 0 || st == 3

/-- TLSET. -/
def execTlset (w : Operands) (s : State) : Host.Outcome State Fault Refusal :=
  .next (issueWord 0x314 w (s.tlSerial w) (effTlset w) s)

/-! ## RPT, RPTEND -/

/-- RPT's effect: it opens a body. A false guard makes COUNT 0. -/
def effRpt (w : Operands) (s : State) : Res :=
  let off := s.guardOf w.head == some false
  match (if off then none else s.deferredIn 0x308 w [2]) with
  | some f => .fault f s
  | none =>
    let c := (s.val w.c).toNat
    .done (s.modMe (fun a =>
      { a with counted := none
               rpt := some { strm := w.head.stream, head := w.head, pc := a.pc, base := c / 8192 % 64, stagger := c / 256 % 32,
                             left := if off then 0 else c % 256 } }))

/-- An E-stream RPT held at decode adds 1 to its guard's counter, once (R130, R398). -/
def State.countRpt (s : State) (w : Operands) : State :=
  let g := w.head.guard.toNat
  if w.head.stream != .E || s.me.counted == some s.me.pc || 15 ≤ tget 0 g s.me.gcnt then s
  else s.modMe (fun a => { a with counted := some a.pc, gcnt := tset 0 g (tget 0 g a.gcnt + 1) a.gcnt })

/-- RPT at the front end: it is held at decode until its guard resolves, and faults where it stands (R398). -/
def State.rptWord (s : State) (w : Operands) : State :=
  if s.vlgetPending 0x308 w || s.lateBusy 0x308 w || !s.queueRoom 0x308 w then s
  else if (s.guardOf w.head).isNone then s.countRpt w
  else
    match s.run 0x308 w (effRpt w) with
    | .fault f s => s.takeFaultAt s.cur { f with strm := streamNum w.head.stream } s.me.pc
    | r => conclude 0x308 w false r

/-- RPT. -/
def execRpt (w : Operands) (s : State) : Host.Outcome State Fault Refusal :=
  if !s.mayIssue then .next s
  else
    match s.iss with
    | .front => .next (s.rptWord w)
    | .hold => .next s
    | .queued _ => .next s.advance

/-- RPTEND with no body open has no effect (R259). -/
def execRptend (_w : Operands) (s : State) : Host.Outcome State Fault Refusal :=
  .next (if s.mayIssue then s.advance else s)

/-! ## TBLLD, TBLX -/

/-- TBLLD's effect: it waits until every earlier E word has been accepted (R232). -/
def effTblld (w : Operands) (s : State) : Res :=
  match s.firstDeferredV (vOf w.a) with
  | some f => .fault f s
  | none =>
    if s.earlier.any (fun p => p.strm == .E && p.gv != some false) || s.accepting then .stall s
    else
      let v := s.vecOf w.a
      .done (s.modCore s.myCore (fun c => { c with t4 := (upTo 16).map (fun i => bits (v.lane (i / 4)) (8 * (i % 4)) 8) }))

/-- TBLLD. -/
def execTblld (w : Operands) (s : State) := issue 0x310 w (effTblld w) s

/-- TBLX's effect. -/
def effTblx (w : Operands) (s : State) : Res :=
  match s.firstDeferredV (vOf w.b), s.firstDeferred (sOf 0x311 2 w.c) with
  | some f, _ => .fault f s
  | none, some f => .fault f s
  | none, none =>
    let k := (s.val w.c).toNat % 8
    let b := s.vecOf w.b
    let bs := leBytes 4 (b.lane (2 * k)).toNat ++ leBytes 4 (b.lane (2 * k + 1)).toNat
    let l := PageFmt.t4.lanes w.ty (s.core s.myCore).t4 bs
    .done (s.putLanes w.a (s.active w.msk) (fun i => nth 0 l i))

/-- TBLX. -/
def execTblx (w : Operands) (s : State) := issue 0x311 w (effTblx w) s

end Sys2Proof.Machine
end

