-- ==== Sys2Proof/Machine/Messages.lean ====
section
/-!
DEFINITION. What programs do with messages: BIND and UNBIND (R271, R352), SEND (R145, R268, R269, R296), SPAWN (R81, R141,
R410), and the sluices (R277, R278); with the events that end their waits.
-/

namespace Sys2Proof.Machine

/-- A change of the state made on behalf of a slot. -/
def State.as (s : State) (k : Nat) (f : State → State) : State :=
  { f { s with cur := k, iss := .front } with cur := s.cur, iss := s.iss }

/-! ## BIND, UNBIND -/

/-- BIND's effect: S stalls until BIND_COMPLETE. -/
def effBind (w : Operands) (s : State) : Res :=
  match s.deferredIn 0x280 w [0, 2] with
  | some f => .fault f s
  | none =>
    let e := s.val w.a
    if e.toNat % 4 != 0 || bits e 56 8 != 0 then .fault { code := 0x02, addr := e } s
    else .halt (s.modMe (fun a => { a with asked := some (.bind ((s.val w.c).toNat % 4096) (some e)) }))

/-- BIND. -/
def execBind (w : Operands) (s : State) := issue 0x280 w (effBind w) s

/-- UNBIND's effect. -/
def effUnbind (w : Operands) (s : State) : Res :=
  match s.deferredIn 0x281 w [2] with
  | some f => .fault f s
  | none => .halt (s.modMe (fun a => { a with asked := some (.bind ((s.val w.c).toNat % 4096) none) }))

/-- UNBIND. -/
def execUnbind (w : Operands) (s : State) := issue 0x281 w (effUnbind w) s

/-- The word at PC that has asked for something completes, and S goes on after it. -/
def Act.answer (a : Act) : Act := { a with asked := none, pc := a.pc + 12 }

/-- BIND_COMPLETE: every dispatcher of the partition reads the new entry. -/
def execBindComplete (core slot : Nat) (s : State) : Host.Outcome State Fault Refusal :=
  let k := 8 * core + slot
  let a := s.act k
  match a.asked with
  | some (.bind t e) =>
    .next ((s.modPart a.part (fun p => { p with handlers := tset none t e p.handlers })).modAct k Act.answer)
  | _ => .next s

/-! ## Send queues (R145, R267) -/

/-- Places that a message takes in a send queue. -/
def Msg.places (m : Msg) : Nat := if m.given.isEmpty then 1 else 2

/-- Free places of a core's send queue of a network. -/
def State.sendRoom (s : State) (core : Nat) (vn : VN) : Nat :=
  16 - ((s.msgs.filter (fun m => m.queued && m.vn == vn && m.src == coreAddr core)).map Msg.places).foldl (· + ·) 0

/-- Whether the activation holds a REPLY. -/
def Act.holdsReply (a : Act) : Bool := a.oblUsed.any (fun o => o.kind == .reply)

/-- What a word does that needs some places of a send queue: `go` when they are free; otherwise the trap of a holder of a
REPLY, the ranked wait, or the reply network's wait that is not ranked. The object of a RANK_ORDER is a free value. -/
def State.whenRoom (s : State) (opc : Nat) (w : Operands) (vn : VN) (need : Nat) (dest : Word) (go : State → Res) : Res :=
  if need ≤ s.sendRoom s.myCore vn then go s
  else if vn != .request || !s.me.pend.isEmpty || !s.me.late.isEmpty || s.accepting then .stall s
  else if s.me.holdsReply then .fault { code := 0x30, addr := dest, info := BitVec.ofNat 64 (vnNum vn) } s
  else if !s.rankLegal s.myCore s.me none sendRank then
    let (x, s) := s.draw
    .fault (s.rankOrder x sendRank) s
  else .wait ((s.enterWait .room sendRank).modMe (fun a => { a with asked := some (.room opc w) }))

/-! ## SEND -/

/-- What a SEND's operands name: the destination, and for a reply the handle it discharges. -/
structure SendTo where
  dest  : Nat
  mcast : Bool := false
  reply : Option Word := none
  deriving DecidableEq, Repr

/-- Destination or REPLY handle of a SEND (R268, R269). -/
def State.sendTo (s : State) (w : Operands) : Except FaultReq SendTo :=
  let v := s.val w.a
  if w.flg.getLsbD 0 then
    let h := if v = 0 then (if s.me.oblUnits .reply s.me.reply = 0 then 0 else s.me.reply) else v
    if bits h 60 3 != 1 || s.me.oblUnits .reply h = 0 then .error { code := 0x25, addr := h, info := 1 }
    else .ok { dest := (bits h 16 25).toNat, reply := some h }
  else if v.getLsbD 63 then .ok { dest := (bits v 0 16).toNat, mcast := true }
  else .ok { dest := (bits v 0 25).toNat }

/-- The output message link to a destination, in a local-time partition. -/
def State.sendLink (s : State) (t : SendTo) : Option (Nat × OutLink) :=
  (coreOfAddr t.dest).bind (fun d => s.linkTo s.myCore d false)

/-- Part 1 of the local-time check (R296). -/
def State.sendCheck (s : State) (t : SendTo) (give : Bool) : Option FaultReq :=
  if !s.myPart.lt then none
  else if t.mcast then some (lookaheadViolation s.me.stamp (BitVec.ofNat 64 never))
  else
    match (if give then s.me.badStaged (fun _ => false) else none) with
    | some f => some f
    | none => if (s.sendLink t).isNone then some (lookaheadViolation s.me.stamp (BitVec.ofNat 64 never)) else none

/-- The checks of a SEND on the obligations that it gives (R138, R269). -/
def State.giveCheck (s : State) (t : SendTo) (give : Bool) : Option FaultReq :=
  if !give then none
  else orFault (s.me.badStaged OblKind.toMessage) (if t.mcast then s.me.badStaged (fun _ => false) else none)

/-- The four argument words of a SEND. -/
def State.sendArgs (s : State) (w : Operands) : List Word := (sOf 0x282 2 w.c).map (fun n => (s.sVal n).1)

/-- The message enters the send queue (R269, and part 2 of R296). -/
def State.sendEnter (s : State) (w : Operands) (t : SendTo) : Res :=
  let core := s.myCore
  let bad : Option FaultReq :=
    if !s.myPart.lt then none
    else (s.sendLink t).bind (fun l =>
      let low := s.lowestStamp core l.2
      if s.me.stamp.toNat < low || s.me.stamp.toNat = never then some (lookaheadViolation s.me.stamp (BitVec.ofNat 64 low)) else none)
  match bad with
  | some f => .fault f s
  | none =>
    let s := if s.myPart.lt then (match s.sendLink t with | some (j, _) => s.countSent core j | none => s) else s
    let tgt := s.val w.b
    let give := w.flg.getLsbD 1
    let h := t.reply.getD 0
    let m : Msg :=
      { dest := t.dest, src := coreAddr core, sslot := slotOf s.cur, vn := if t.reply.isSome then .reply else .request,
        byType := tgt.getLsbD 63, mcast := t.mcast, type := if tgt.getLsbD 63 then (bits tgt 0 12).toNat else 0,
        rseq := (bits h 0 16).toNat, rslot := (bits h 41 3).toNat, stamp := s.me.stamp,
        entry := if tgt.getLsbD 63 then 0 else (bits tgt 0 56).zeroExtend 64, args := s.sendArgs w,
        given := if give then s.me.oblStaged else [], part := s.me.part, queued := true }
    let s := s.postMsg core m
    .done (s.modMe (fun a =>
      let a := match t.reply with | some h => a.oblDischarge .reply h | none => a
      if give then a.dropStaged else a))

/-- SEND's effect. -/
def effSend (w : Operands) (s : State) : Res :=
  match s.deferredIn 0x282 w [0, 1, 2] with
  | some f => .fault f s
  | none =>
    let give := w.flg.getLsbD 1
    match s.sendTo w with
    | .error f => .fault f s
    | .ok t =>
      if give && s.cmdAhead then .stall s else
      match orFault (badEntry (s.val w.b)) (orFault (s.giveCheck t give) (s.sendCheck t give)) with
      | some f => .fault f s
      | none =>
        if Ord_rel w.ord && !s.releaseReady w.scope then .stall s
        else
          let need := if give && !s.me.oblStaged.isEmpty then 2 else 1
          let obj := if t.mcast then BitVec.ofNat 64 (2 ^ 63 + t.dest) else BitVec.ofNat 64 t.dest
          s.whenRoom 0x282 w (if t.reply.isSome then .reply else .request) need obj (fun s => s.sendEnter w t)

/-- SEND. -/
def execSend (w : Operands) (s : State) := issue 0x282 w (effSend w) s

/-! ## SPAWN -/

/-- The spawn request leaves, with the staged obligations (R81, R141). -/
def State.spawnEnter (s : State) (w : Operands) : Res :=
  let core := s.myCore
  let given := s.me.oblStaged
  let id := s.me.uid
  let s := s.modMe Act.dropStaged
  let inh := (lowest (s.floorRanks core s.me none)).map (BitVec.ofNat 32)
  let m : Msg :=
    { dest := (bits (s.val w.b) 0 25).toNat, src := coreAddr core, sslot := slotOf s.cur, stamp := s.me.stamp, entry := s.val w.c,
      args := (from_ 1 4).map s.me.sGet, given := given, part := s.me.part, queued := true
      kind := .spawnReq s.cur inh s.me.cls id }
  .halt ((s.postMsg core m).modMe (fun a => { a with asked := some (.spawn w given inh) }))

/-- SPAWN's effect (R410). -/
def effSpawn (w : Operands) (s : State) : Res :=
  match s.firstDeferred (sSources 0x283 w) with
  | some f => .fault f s
  | none =>
    let e := s.val w.c
    if e.toNat % 4 != 0 || bits e 56 8 != 0 then .fault { code := 0x02, addr := e } s
    else if s.cmdAhead then .stall s
    else
      match s.me.badStaged OblKind.toChild with
      | some f => .fault f s
      | none =>
        if Ord_rel w.ord && !s.releaseReady w.scope then .stall s
        else
          s.whenRoom 0x283 w .request (if s.me.oblStaged.isEmpty then 1 else 2)
            ((bits (s.val w.b) 0 25).zeroExtend 64) (fun s => s.spawnEnter w)

/-- SPAWN. -/
def execSpawn (w : Operands) (s : State) := issue 0x283 w (effSpawn w) s

/-- Frames of a core that R148 saved at a request SEND or SPAWN waiting for room are queued for restoration. -/
def State.restoreSenders (s : State) (core : Nat) : State :=
  let waits (a : Act) : Bool :=
    a.wrel == .none && (match a.wait with | some w => w.on == .room | none => false) &&
      (match a.save with | some (v : SaveReq) => v.why == .forMessage | none => false)
  let keys := (s.framed.filter (fun e => waits e.2 && s.frameCore (e.1 / 2 ^ 28) (e.1 % 2 ^ 28) == core)).map (·.1)
  let new := keys.filter (fun k => !(s.core core).restores.any (fun r => r.1 == k))
  if new.isEmpty then s
  else s.modCore core (fun c => { c with restores := c.restores ++ new.map (fun k => (k, ResumeHow.atWord)) })

/-- SEND_ENQUEUE: a SEND or SPAWN that waits for room is carried out once there is room. -/
def execSendEnqueue (core slot : Nat) (s : State) : Host.Outcome State Fault Refusal :=
  let k := 8 * core + slot
  let a := s.act k
  match a.st, a.asked with
  | .waiting, some (.room opc w) =>
    let need := if a.oblStaged.isEmpty || (opc == 0x282 && !w.flg.getLsbD 1) then 1 else 2
    if s.sendRoom core .request < need then .next s
    else
      .next (s.as k (fun s =>
        let s := s.modMe (fun a => { a with st := .running, wait := none, asked := none })
        conclude opc w false (if opc = 0x282 then effSend w s else effSpawn w s)))
  | _, _ => .next (if s.sendRoom core .request = 0 then s else s.restoreSenders core)

/-- The answer to a slot's SPAWN (R81, R410). A save that waits for it follows R81; an inline child waits for its host's
save, which FRAME_SAVE makes. -/
def State.spawnAnswered (s : State) (k : Nat) (accepted : Bool) : State :=
  let a := s.act k
  match a.asked with
  | some (.spawn w given _) =>
    if accepted then (s.modAct k (fun a => (a.sSet (opndNum w.a) 0).answer)).cleanS k [opndNum w.a]
    else if a.st == .saving then s.modAct k (fun a => { a.restage given with asked := none })
    else if a.inline = 7 then
      let target : Word := match w.b with | .reg .s _ n => (bits (a.sGet n.toNat) 0 25).zeroExtend 64 | _ => 0
      (s.modAct k (fun a => { a.restage given with asked := none })).takeFaultAt k { code := 0x2B, addr := target } a.pc
    else s.modAct k (fun a => { a with st := .saving, save := some { why := .host, pc := a.pc } })
  | _ => s

/-- The answer to a SPAWN that a message brings: the slot, its activation, and whether the child has started. -/
def Msg.spawnAnswer (m : Msg) : Option (Nat × Nat × Bool) := match m.kind with | .answer k id acc => some (k, id, acc) | _ => none

/-- SPAWN_ANSWER: the acceptance or refusal that has come to a core for a slot is taken from the input buffer (R267). -/
def execSpawnAnswer (core slot : Nat) (s : State) : Host.Outcome State Fault Refusal :=
  let k := 8 * core + slot
  match ((s.core core).inQ.zipIdx.filterMap (fun x => x.1.spawnAnswer.map (fun y => (x.2, y)))).find? (fun x => x.2.1 == k) with
  | none => .next s
  | some (i, _, id, accepted) =>
    let s := s.modCore core (fun c => { c with inQ := dropNth c.inQ i })
    .next (if (s.act k).uid == id then s.spawnAnswered k accepted else s)

/-! ## Sluices -/

/-- Sluice n of an activation. -/
def Act.sluice (a : Act) (n : Nat) : Sluice := tget {} n a.sluices
/-- The open sluices of a die, saved activations' included, as the cores at their ends (R278). -/
def State.sluicesOn (s : State) (d : Nat) : List (Nat × Nat) :=
  ((s.acts ++ s.framed).flatMap (fun e => e.2.sluices.filterMap (fun x => if x.2.isOpen then some (x.2.src, x.2.core) else none))).filter
    (fun x => dieOf x.1 == d)

/-- Whether every router link of the way between two cores has one of its 4 sluice channels free (R278), each direction
counted apart (DESIGN CHOICE, log entry 132). -/
def State.channelFree (s : State) (a b : Nat) : Bool :=
  let held := (s.sluicesOn (dieOf a)).map (fun x => routeLinks (routerOf x.1) (routerOf x.2))
  (routeLinks (routerOf a) (routerOf b)).all (fun l => (held.filter (·.contains l)).length < 4)

/-- A sluice replaced. -/
def Act.setSluice (a : Act) (n : Nat) (x : Sluice) : Act := { a with sluices := tset {} n x a.sluices }
/-- The sluice number that field C names. -/
def State.sluiceNum (s : State) (w : Operands) : Nat := (s.val w.c).toNat % 4
/-- The CLOSE handle of a destination's core address and tile index. -/
def closeOf (addr tile : Nat) : Word := wordOf [(60, 3), (4, addr), (0, tile)]

/-- OBL_NONE at a sluice that is not open: the spec states neither ADDR nor INFO. -/
def State.notOpen (s : State) : Res :=
  let (x, s) := s.draw
  let (y, s) := s.draw
  .fault { code := 0x25, addr := x, info := y } s

/-- SLOPEN's effect: it asks for a route, and S stalls until the answer. -/
def effSlopen (w : Operands) (s : State) : Res :=
  match s.deferredIn 0x284 w [1] with
  | some f => .fault f s
  | none =>
    let d := s.val w.b
    let addr := (bits d 4 25).toNat
    let tile := (bits d 0 4).toNat
    if (s.me.sluice (s.sluiceNum w)).isOpen || s.me.oblFree.isNone then .fault { code := 0x24, addr := closeOf addr tile } s
    else .halt (s.modMe (fun a => { a with asked := some (.slopen w addr tile none) }))

/-- SLOPEN. -/
def execSlopen (w : Operands) (s : State) := issue 0x284 w (effSlopen w) s

/-- SLUICE_ANSWER: the question reaches the tile, and in a later cycle the answer returns: the route is granted or refused. A granted
route wakes the routers of its way (R280). -/
def execSluiceAnswer (core slot : Nat) (returns : Bool) (s : State) : Host.Outcome State Fault Refusal :=
  let k := 8 * core + slot
  let a := s.act k
  match a.asked with
  | some (.slopen w addr tile none) =>
    .next (if returns then s else s.modAct k (fun a => { a with asked := some (.slopen w addr tile (some s.cycle)) }))
  | some (.slopen w addr tile (some c)) =>
    if !returns || !s.bidWins core addr tile c then .next s else
    let grant : Option Nat := (coreOfAddr addr).bind (fun d =>
      let t := s.tile d tile
      if dieOf d == dieOf core && (s.core d).part == some a.part && !(s.core d).left && t.size != 0 && t.state == .empty &&
          s.channelFree core d then some d else none)
    let put (v : Bool) (s : State) : State := s.modAct k (fun a => (a.gSet (opndNum w.a) (GVal.ofBool v)).answer)
    match grant with
    | none => .next (put false s)
    | some d =>
      let t := s.tile d tile
      match a.oblAcquire .close (closeOf addr tile) t.rank 1 with
      | none => .next (put false s)
      | some a' =>
        let n := (match w.c with | .imm v => v.toNat | _ => 0) % 4
        let s := s.setTile d tile { t with state := .filling, by_ := .sluice }
        .next (put true ((s.setAct k (a'.setSluice n { isOpen := true, src := core, core := d, tile := tile })).carryWay core d))
  | _ => .next s

/-- SLWR's effect. -/
def effSlwr (w : Operands) (s : State) : Res :=
  let isV := w.head.stream == .V
  match (if isV then s.firstDeferredV (vOf w.a) else s.deferredIn 0x285 w [0]) with
  | some f => .fault f s
  | none =>
    let n := s.sluiceNum w
    let x := s.me.sluice n
    if !x.isOpen then s.notOpen
    else
      let bs := if isV then (bytesOfVec (s.vecOf w.a)).take (4 * s.vl) else leBytes 8 (s.val w.a).toNat
      let t := s.tile x.core x.tile
      let at_ := 64 * t.base + x.off
      if 64 * t.size < x.off + bs.length then .fault { code := 0x08, space := 1, addr := BitVec.ofNat 64 at_ } s
      else .done ((s.locPut (32768 * x.core + at_) bs).modMe (fun a => a.setSluice n { x with off := x.off + bs.length }))

/-- SLWR. -/
def execSlwr (w : Operands) (s : State) := issue 0x285 w (effSlwr w) s

/-- SLCLOSE's effect: the closing marker leaves behind every SLWR, and S stalls until the acknowledgement. -/
def effSlclose (w : Operands) (s : State) : Res :=
  let n := s.sluiceNum w
  if s.earlier.any (fun p => p.gv != some false && opcField p.word == 0x285) then .stall s
  else if !(s.me.sluice n).isOpen then s.notOpen
  else if Ord_rel w.ord && !s.releaseReady w.scope then .stall s
  else .halt (s.modMe (fun a => { a with asked := some (.slclose n) }))

/-- SLCLOSE. -/
def execSlclose (w : Operands) (s : State) := issue 0x286 w (effSlclose w) s

/-- SLUICE_CLOSE_ACK: the marker arrives, the tile goes ready, and CLOSE is discharged. -/
def execSluiceCloseAck (core slot : Nat) (s : State) : Host.Outcome State Fault Refusal :=
  let k := 8 * core + slot
  let a := s.act k
  match a.asked with
  | some (.slclose n) =>
    let x := a.sluice n
    let s := s.modAct k (fun a => ((a.oblDischarge .close (closeOf (coreAddr x.core) x.tile)).setSluice n {}).answer)
    .next ((s.tileReady x.core x.tile false).carryWay core x.core)
  | _ => .next s

end Sys2Proof.Machine
end

