-- ==== Sys2Proof/Machine/Fabric.lean ====
section
/-!
DEFINITION. Messages on their way (R168, R169, R265, R267, R279 to R286): leaving the send queue, credits between dies,
multicast, entry into the input buffer, the dead-message queue (R273), and the fabric's own events.
-/

namespace Sys2Proof.Machine

/-! ## A message as words (R265) -/

/-- The eight words of a message. -/
def Msg.words (m : Msg) : List Word :=
  let b (x : Bool) : Nat := if x then 1 else 0
  [wordOf [(39, m.dest), (14, m.src), (11, m.sslot), (9, vnNum m.vn), (8, b m.byType), (7, b m.mcast), (6, b (!m.given.isEmpty)),
      (5, b m.poison), (4, b m.first)],
   wordOf [(52, m.type), (36, m.seq), (20, m.rseq), (17, m.rslot), (14, m.given.length)],
   m.stamp, m.entry] ++ m.args

/-- The 128 bytes of a dead-message record: the message, then its extension or zeros (R273). -/
def Msg.record (m : Msg) : List Byte :=
  padTo 128 (bytesOf (m.words ++ m.given.flatMap (fun o => [{ o with staged := false }.word false, o.word true])))

/-! ## The dead-message queue (R273) -/

/-- UNBOUND_MESSAGE and DEPARTED_CORE of R192. -/
def unboundMessage : Nat := 0x82
/-- DEPARTED_CORE. -/
def departedCore : Nat := 0x83

/-- The first free record of a partition's dead-message queue. -/
def Part.deadFree (p : Part) : Option Nat := (upTo p.deadSize).find? (fun i => (tget none i p.deadRecs).isNone)

/-- A message written to the queue's record i, with its ring record. -/
def State.writeDead (s : State) (core i : Nat) (m : Msg) (code detail : Nat) : State :=
  let p := s.part m.part
  let va := p.deadBase.toNat + 128 * i
  let s := s.pokeVirt p.asid va m.record
  let s := s.modPart m.part (fun p => { p with deadRecs := tset none i (some m) p.deadRecs })
  s.note code p.asid core (BitVec.ofNat 64 va) (BitVec.ofNat 64 m.type) detail

/-- A message goes to the dead-message queue, or waits at a core for room there with OVF reported. -/
def State.deadLetter (s : State) (core : Nat) (m : Msg) (code detail : Nat) : State :=
  let m := { m with queued := false, credit := false, numbered := true, stuck := false }
  match (s.part m.part).deadFree with
  | some i => s.writeDead core i m code detail
  | none =>
    let n := ringOf (s.part m.part).asid
    let s := { s with rings := tset {} n { (tget {} n s.rings : Ring) with ovf := true } s.rings }
    s.modCore core (fun c => { c with deadWait := c.deadWait ++ [(m, code, detail)] })

/-- DEAD_QUEUE_RETRY: the message that has waited longest at a core is written once there is room. -/
def execDeadQueueRetry (core : Nat) (s : State) : Host.Outcome State Fault Refusal :=
  match (s.core core).deadWait with
  | [] => .next s
  | (m, code, detail) :: r =>
    match (s.part m.part).deadFree with
    | none => .next s
    | some i => .next ((s.modCore core (fun c => { c with deadWait := r })).writeDead core i m code detail)

/-! ## Credits (R283, R284) -/

/-- The key of a partner and network among a die's credits. -/
def creditKey (partner : Nat) (vn : VN) : Nat := 4 * partner + vnNum vn
/-- Credits of a die in use towards a partner. -/
def State.inUse (s : State) (d partner : Nat) (vn : VN) : Nat := tget 0 (creditKey partner vn) (s.die d).credits
/-- Credits that a die owes back to a partner. -/
def State.owedTo (s : State) (d partner : Nat) (vn : VN) : Nat := tget 0 (128 + creditKey partner vn) (s.die d).credits

/-- The credits that a die owes a partner on a network return to it. -/
def State.returnCredits (s : State) (d partner : Nat) (vn : VN) : State :=
  let n := s.owedTo d partner vn
  let s := s.modDie d (fun x => { x with credits := tset 0 (128 + creditKey partner vn) 0 x.credits })
  s.modDie partner (fun x =>
    { x with credits := tset 0 (creditKey d vn) (tget 0 (creditKey d vn) x.credits - n) x.credits })

/-- A message that crosses the torus is passed on by the interface of the die that it goes to: its credit is owed back, and
what the torus age does not show of the crossing is kept (R281, R283, R319). -/
def State.passOn (s : State) (i : Nat) (m : Msg) : State :=
  let k := 128 + creditKey m.here m.vn
  let t := s.cycle - m.crossed
  let s := s.modDie m.goal (fun x => { x with credits := tset 0 k (tget 0 k x.credits + 1) x.credits })
  { s with msgs := setNth s.msgs i { m with credit := false, here := m.goal, lost := m.lost + (t - 16 * min 4095 (t / 16)) } }

/-- CREDIT_RETURN: a flit of credits alone. -/
def execCreditReturn (die partner : Nat) (vn : VN) (s : State) : Host.Outcome State Fault Refusal :=
  .next (s.returnCredits die partner vn)

/-- Messages of a die that occupy receive slots of a partner's interface. -/
def State.onTheWay (s : State) (d partner : Nat) (vn : VN) : Nat :=
  (s.msgs.filter (fun m => m.credit && m.vn == vn && m.here == d && m.goal == partner)).length

/-- Whether an audit holds a die's new sends to a partner (R284). -/
def State.auditing (s : State) (d partner : Nat) : Bool :=
  match (s.die d).audit with | some k => k / 4 == partner | none => false

/-- CREDIT_AUDIT: 65,536 cycles after its last one, an audit of a partner and network begins, in turn with the others, and new
sends to the partner are held. Once every earlier message is acknowledged and its credit back, the count is set to the slots
that the partner reports free, a difference is recorded, and the sends go on. -/
def execCreditAudit (die partner : Nat) (vn : VN) (s : State) : Host.Outcome State Fault Refusal :=
  let k := creditKey partner vn
  let due := (s.die die).audit.isNone && decide (65536 ≤ s.cycle - tget 0 k (s.die die).audited)
  let s := if due then s.modDie die (fun x => { x with audit := some k, audited := tset 0 k s.cycle x.audited }) else s
  if (s.die die).audit != some k || s.onTheWay die partner vn != 0 || s.owedTo partner die vn != 0 then .next s
  else
    let old := 32 - s.inUse die partner vn
    let s' := s.modDie die (fun x => { x with audit := none, credits := tset 0 k 0 x.credits })
    .next (if old = 32 then s'
      else s'.note 0x86 0 (coresPerDie * die) (BitVec.ofNat 64 (32 * Config.moduleNumber + partner)) (wordOf [(16, old), (0, 32)]))

/-! ## Multicast (R13, R285, R447) -/

/-- The die next to a die, by port X+, X−, Y+, Y−; none for Z. -/
def dieAt (d port : Nat) : Option Nat :=
  let x := d % 8
  let y := d / 8
  match port with
  | 0 => some (8 * y + (x + 1) % 8)
  | 1 => some (8 * y + (x + 7) % 8)
  | 2 => some (8 * ((y + 1) % 4) + x)
  | 3 => some (8 * ((y + 3) % 4) + x)
  | _ => none

/-- The router at the far end of link i of a router: the other columns of its row, then the other rows of its column. -/
def linkedRouter (r i : Nat) : Nat :=
  let col := r % 12
  let row := r / 12
  if i < 11 then 12 * row + (if i < col then i else i + 1)
  else 12 * (if i - 11 < row then i - 11 else i - 10) + col

/-- Used octets of a die before a physical octet (R96). -/
def usedBefore (d o : Nat) : Nat := ((upTo o).filter (fun i => octetUsed d (i / 8) (i % 8))).length

/-- The core at a physical place of a die, if it is visible (R15, R96). -/
def coreAtPhys (d p : Nat) : Option Nat :=
  let o := p / 8
  if octetUsed d (o / 8) (o % 8) then some (coresPerDie * d + 8 * usedBefore d o + p % 8) else none

/-- The member filter of a physical cluster: the cores that a group's copy goes to. -/
def State.membersOf (s : State) (d cluster group : Nat) : List Nat :=
  let pairs := (from_ (256 * cluster) 256).map (fun k => tget (0, 0) k (s.die d).members)
  let mask := (pairs.filter (fun p => p.1 == group)).foldl (fun m p => m ||| p.2) (0 : Word)
  (upTo 64).filterMap (fun i => if mask.getLsbD i then coreAtPhys d (64 * cluster + i) else none)

/-- A router's entry for a group. -/
def State.mcastEntry (s : State) (d r group : Nat) : Word := tget 0 (65536 * r + group) (s.die d).mcast

/-- The replication of a group's message from some routers on: the members that take a copy, and the routers of other dies
that it goes to, where `stay` keeps it on one die. A router passes it once, and a die's port leads to the router of the same
number (log entry 114); a branch ends at a router whose entry is not valid (DESIGN CHOICE, log entry 133). -/
def State.fan (s : State) (group : Nat) (stay : Bool) : Nat → List (Nat × Nat) → List (Nat × Nat) → List Nat × List (Nat × Nat)
  | 0, _, _ => ([], [])
  | _, [], _ => ([], [])
  | n + 1, (d, r) :: rest, seen =>
    let e := s.mcastEntry d r group
    if seen.contains (d, r) || !e.getLsbD 63 then s.fan group stay n rest ((d, r) :: seen)
    else
      let here := (upTo 4).flatMap (fun c => if e.getLsbD (18 + c) then s.membersOf d (4 * r + c) group else [])
      let links := (upTo 18).filterMap (fun i => if e.getLsbD i then some (d, linkedRouter r i) else none)
      let dies := (upTo 6).filterMap (fun i => if e.getLsbD (22 + i) then (dieAt d i).map (fun d' => (d', r)) else none)
      let x := s.fan group stay n (rest ++ links ++ (if stay then [] else dies)) ((d, r) :: seen)
      (here ++ x.1, (if stay then dies else []) ++ x.2)

/-- The routers that the replication of a group's message from some routers on passes, on one die: those with a valid entry (R285). -/
def State.fanRouters (s : State) (group : Nat) : Nat → List (Nat × Nat) → List (Nat × Nat) → List (Nat × Nat)
  | 0, _, _ => []
  | _, [], _ => []
  | n + 1, (d, r) :: rest, seen =>
    let e := s.mcastEntry d r group
    if seen.contains (d, r) then s.fanRouters group n rest seen
    else
      let links := (upTo 18).filterMap (fun i => if e.getLsbD 63 && e.getLsbD i then some (d, linkedRouter r i) else none)
      (d, r) :: s.fanRouters group n (rest ++ links) ((d, r) :: seen)

/-- A multicast's entry at its source router. -/
def State.sourceEntry (s : State) (m : Msg) : Word :=
  let core := (coreOfAddr m.src).getD 0
  s.mcastEntry (dieOf core) (routerOf core) m.dest

/-- Where a multicast goes first, and whether it is an ORD group's: to its source router, or unreplicated to the root; none
where its group's entry at the source router is invalid (R169, R273, R285). -/
def State.mcastStart (s : State) (m : Msg) : Option ((Nat × Nat) × Bool) :=
  let core := (coreOfAddr m.src).getD 0
  let e := s.sourceEntry m
  if !e.getLsbD 63 then none
  else some (if e.getLsbD 62 then ((bits e 56 5).toNat, (bits e 49 7).toNat) else (dieOf core, routerOf core), e.getLsbD 62)

/-- The members that a multicast on its way is yet to reach. -/
def State.yetToReach (s : State) (m : Msg) : List Nat :=
  match m.at_.orElse (fun _ => (s.mcastStart m).map (·.1)) with
  | some x => (s.fan m.dest false 65536 [x] []).1
  | none => []

/-- A multicast is replicated on the die where it stands: its members there take their copies, in its place of the order, and
other dies their own message of it; at the root, its place is fixed behind those before it (R169, R285). -/
def State.replicate (s : State) (i : Nat) (m : Msg) (x : Nat × Nat) : State :=
  let ms := s.fan m.dest true 65536 [x] []
  let l := ms.1.map (fun c => { m with dest := coreAddr c, group := m.dest, spread := true, at_ := none, rooted := true }) ++
    ms.2.map (fun y => { m with at_ := some y, rooted := true })
  let s := (s.fanRouters m.dest 65536 [x] []).foldl (fun s y => s.carry y.1 y.2) s
  if m.ord && !m.rooted then { s with msgs := dropNth s.msgs i ++ l }
  else { s with msgs := s.msgs.take i ++ l ++ s.msgs.drop (i + 1) }

/-! ## Poisoned discharge (R153) -/

/-- One obligation of a terminated process discharged as poisoned, where a core of a partition held it. A reference that
translates to nothing has no block; a poison reply carries the request's SEQ and the holder (R276); its SSLOT is 0 (DESIGN CHOICE,
log entry 127). -/
def State.poisonObl (s : State) (core part : Nat) (stamp : Word) (o : Obl) : State :=
  let p := s.part part
  let d := dieOf core
  match o.kind with
  | .signal =>
    if o.handle.getLsbD 63 then
      { s with homeOps := s.homeOps ++ [{ home := shmHome (2 ^ 27 * d + (bits o.handle 0 27).toNat), add := 0, units := o.count,
                                          poison := true, die := d }] }
    else
      match s.walk p.asid o.handle.toNat with
      | .error _ => s
      | .ok g =>
        { s with homeOps := s.homeOps ++ [{ home := g.frame + o.handle.toNat % 65536, dup := g.dup,
                                            page := pageKey p.asid (o.handle.toNat / 65536), add := 0, units := o.count,
                                            poison := true, die := d }] }
  | .reply =>
    let seq := (bits o.handle 0 16).toNat
    let m : Msg :=
      { dest := (bits o.handle 16 25).toNat, src := coreAddr core, vn := .reply, poison := true, byType := true, type := 0xFFE
        rseq := seq, rslot := (bits o.handle 41 3).toNat, stamp := stamp
        args := [BitVec.ofNat 64 seq, BitVec.ofNat 64 (coreAddr core), 0, 0], part := part }
    (upTo o.count).foldl (fun s _ => s.postMsg core m) s
  | .close =>
    match coreOfAddr (bits o.handle 4 25).toNat with
    | some c => if (s.tile c (o.handle.toNat % 16)).state == .filling then s.tileReady c (o.handle.toNat % 16) true else s
    | none => s
  | .tile => if (s.tile core (o.handle.toNat % 16)).state == .filling then s.tileReady core (o.handle.toNat % 16) true else s
  | _ => s

/-- Several obligations discharged as poisoned. -/
def State.poisonObls (s : State) (core part : Nat) (stamp : Word) (l : List Obl) : State :=
  l.foldl (fun s o => s.poisonObl core part stamp o) s

/-! ## Delivery -/

/-- The links of an on-die message's way (R279); a message from another die, and a multicast's copy, has none that the spec
gives. -/
def Msg.links (m : Msg) : List (Nat × Nat) :=
  match coreOfAddr m.src, coreOfAddr m.dest with
  | some a, some b => if !m.mcast && dieOf a == dieOf b then routeLinks (routerOf a) (routerOf b) else []
  | _, _ => []

/-- Whether two messages are in one stream on the same side of their crossing: their order there is that of SEQ (R282). -/
def Msg.sameStream (x m : Msg) : Bool :=
  x.src == m.src && (if m.numbered then x.numbered && x.here != x.goal && x.here == m.here && x.goal == m.goal
    else !x.numbered && x.stream == m.stream)

/-- Whether two messages stand on one link FIFO from a core to a core, unicast or unflagged copies, or are copies for one member
that the root has put in order (R168, R169). -/
def Msg.sameLink (x m : Msg) : Bool :=
  x.dest == m.dest && x.ord == m.ord && (if x.ord then x.group == m.group else x.src == m.src)

/-- Whether an earlier message that is to be replicated has a copy yet to come before a message on its link FIFO. -/
def State.copyBefore (s : State) (x m : Msg) : Bool :=
  let ord := if x.numbered then x.ord else (s.sourceEntry x).getLsbD 62
  ord == m.ord && (if ord then x.rooted && x.dest == m.group else x.src == m.src) &&
    (s.yetToReach x).any (fun c => coreAddr c == m.dest)

/-- The links of a die that are stopped for a network by some messages: the last of the way of one that waits for a full input buffer
and, hop by hop, the links of the way that a message has come on before a stopped one (R279; log entry 114). -/
def stoppedLinks (l : List Msg) (d : Nat) (vn : VN) : List (Nat × Nat) :=
  let on (m : Msg) : Bool := m.vn == vn && m.here == d && m.goal == d && m.numbered
  let last := (l.filter (fun m => on m && m.stuck)).flatMap (fun m => m.links.drop (m.links.length - 1))
  last ++ (l.filter (fun m => on m && !m.stuck)).flatMap (fun m => if (m.links.drop 1).any last.contains then m.links.take 1 else [])

/-- Whether messages before it in the order hold a message up on a stopped link of its way: on the die where it goes its way, or in
its send queue where its first link is stopped (R279). -/
def State.heldUp (s : State) (index : Nat) (m : Msg) : Bool :=
  let stop := stoppedLinks (s.msgs.take index) m.here m.vn
  m.here == m.goal && !m.stuck && (if m.numbered then m.links.any stop.contains else (m.links.take 1).any stop.contains)

/-- Whether an earlier message holds a later one of its network back: in its stream; before its ORD root; or on the link FIFO to one
core (R168, R169, R282). -/
def State.blocks (s : State) (x m : Msg) : Bool :=
  x.vn == m.vn &&
    (x.sameStream m ||
     (if m.mcast && !m.spread then x.mcast && !x.spread && x.ord && m.ord && !x.rooted && !m.rooted && x.src == m.src && x.dest == m.dest
      else m.numbered && m.here == m.goal && (if x.mcast && !x.spread then s.copyBefore x m else x.sameLink m)))

/-- A message enters a core's input buffer (R267); an event's first arrival is counted on its link (R290, R297). -/
def State.arrive (s : State) (core : Nat) (m : Msg) : State :=
  let event := s.ltCore core && m.isEvent
  let s := s.modCore core (fun c =>
    { c with inQ := c.inQ ++ [{ m with arrived := s.cycle, stuck := false, counted := m.counted || event }] })
  if !event || m.counted then s
  else
    let eng := match m.kind with | .wakeup => true | _ => false
    s.modCore core (fun c =>
      { c with ins := c.ins.map (fun l =>
          if l.eng == eng && some l.src == coreOfAddr m.src then { l with rcvd := (l.rcvd + 1) % 2 ^ 32 } else l) })

/-- The core of its partition that a message names, if it has not left. -/
def State.destCore (s : State) (m : Msg) : Option Nat :=
  (s.coreIn m.part m.dest).bind (fun c => if (s.core c).left then none else some c)

/-- The caller of a spawn request is answered on the reply network (R81, R267). -/
def State.answerSpawn (s : State) (core : Nat) (m : Msg) (accepted : Bool) : State :=
  match m.kind with
  | .spawnReq caller _ _ id =>
    s.postMsg core { dest := m.src, src := coreAddr core, vn := .reply, stamp := m.stamp, part := m.part
                     kind := .answer caller id accepted }
  | _ => s

/-- A message that no core can take: a spawn request is refused, any other goes to the dead-message queue. -/
def State.undeliverable (s : State) (m : Msg) : State :=
  let at_ := ((coreOfAddr m.dest).orElse (fun _ => coreOfAddr m.src)).getD 0
  match m.kind with
  | .spawnReq _ _ _ _ => s.answerSpawn at_ m false
  | .answer _ _ _ => s
  | _ => s.deadLetter at_ m departedCore 0

/-- A message goes to the die that is its goal: it is there, or takes a credit for the crossing, or waits for one where it is
(R283, R284). A crossing reply takes credits owed back along. -/
def State.cross (s : State) (i : Nat) (m : Msg) : Option State :=
  let d := m.goal
  if m.here == d then some { s with msgs := setNth s.msgs i { m with queued := false } }
  else if 32 ≤ s.inUse m.here d m.vn || s.auditing m.here d then none
  else
    let k := creditKey d m.vn
    let s := s.modDie m.here (fun x => { x with credits := tset 0 k (s.inUse m.here d m.vn + 1) x.credits })
    let s := if m.vn == .reply then [VN.request, .reply, .clock, .system].foldl (fun s v => s.returnCredits m.here d v) s else s
    some { s with msgs := setNth s.msgs i { m with queued := false, credit := true, crossed := s.cycle } }

/-- A message leaves its sending unit with its SEQ (R267, R282, R285): a multicast of an invalid group to the dead-message
queue. -/
def State.leave (s : State) (i : Nat) (m : Msg) : State :=
  let core := (coreOfAddr m.src).getD 0
  match s.takeSeq core m.vn m.stream with
  | none => s
  | some (seq, first, s') =>
    let s' := s'.carry (dieOf core) (routerOf core)
    let m := { m with seq := seq, first := first, numbered := true }
    if !m.mcast then (s'.cross i m).getD s
    else
      match s.mcastStart m with
      | none => { s' with msgs := dropNth s.msgs i }.deadLetter core m unboundMessage 1
      | some (x, ord) => (s'.cross i { m with at_ := some x, ord := ord }).getD s

/-- A message enters its destination's input buffer, or finds it full and waits in the router there (R267, R279); of a
terminated process, it vanishes, and what it gives is discharged as poisoned (R153, R154). -/
def State.deliver (s : State) (i : Nat) (m : Msg) : State :=
  let s' := { s with msgs := dropNth s.msgs i }
  if m.doomed then s'.poisonObls (((coreOfAddr m.dest).orElse (fun _ => coreOfAddr m.src)).getD 0) m.part m.stamp m.given
  else
    match s.destCore m with
    | none => s'.undeliverable m
    | some c =>
      let carried (s : State) : State := m.links.foldl (fun s l => s.carry m.here l.2) (s.carry m.here (routerOf c))
      if 32 ≤ ((s.core c).inQ.filter (fun x => x.vn == m.vn)).length then
        carried { s with msgs := setNth s.msgs i { m with stuck := true } }
      else carried (s'.arrive c m)

/-- MESSAGE_DELIVERY: a message leaves its sending unit, is passed on by a die's interface, is replicated, or enters the input
buffer of its destination, each in its order. -/
def execMessageDelivery (index : Nat) (s : State) : Host.Outcome State Fault Refusal :=
  match s.msgs[index]? with
  | none => .next s
  | some m =>
    if (s.msgs.take index).any (fun x => s.blocks x m) || s.heldUp index m then .next s
    else if !m.numbered then .next (s.leave index m)
    else if m.credit then .next (s.passOn index m)
    else if m.here != m.goal then .next ((s.cross index m).getD s)
    else
      match (if m.spread then none else m.at_) with
      | some x => .next (s.replicate index m x)
      | none => .next (s.deliver index m)

/-! ## Routers and links (R279, R280) -/

/-- Whether a message on its way stands at a router of a die or on a link of it (R280). -/
def Msg.atRouter (m : Msg) (d r : Nat) : Bool :=
  m.here == d && m.numbered &&
    (m.links.any (fun l => l.1 == r || l.2 == r) || (coreOfAddr m.dest).any (fun c => dieOf c == d && routerOf c == r) ||
     m.at_ == some (d, r))

/-- Whether an open sluice is routed through a router of a die. -/
def State.sluiceAt (s : State) (d r : Nat) : Bool :=
  (s.sluicesOn d).any (fun x => routerOf x.1 == r || (routeLinks (routerOf x.1) (routerOf x.2)).any (fun l => l.2 == r))

/-- ROUTER_GATE: a router gates itself after 64 cycles with no flit and no sluice (R280). -/
def execRouterGate (die router : Nat) (s : State) : Host.Outcome State Fault Refusal :=
  if s.cycle - tget 0 router (s.die die).lastFlit < 64 || s.msgs.any (fun m => m.atRouter die router) || s.sluiceAt die router then .next s
  else .next (s.modDie die (fun x => { x with gated := tset false router true x.gated }))

/-- ROUTER_WAKE: the wake signal that runs ahead of a packet, a message's or an access's, reaches a router (R21). -/
def execRouterWake (die router : Nat) (s : State) : Host.Outcome State Fault Refusal := .next (s.carry die router)

/-- CORRUPTED_FLIT: a flit with a bad CRC is sent again at link level and never delivered: the message keeps its place,
and nothing that a program can see changes (R279). -/
def execCorruptedFlit (_index : Nat) (s : State) : Host.Outcome State Fault Refusal := .next s

end Sys2Proof.Machine
end

