-- ==== Sys2Proof/Machine/Sched.lean ====
section
/-!
DEFINITION. The dispatcher and the stage scheduler (R63, R64, R76 to R86, R148, R272, R292, R293, R295, R309, R321, R322): how
activations start.
-/

namespace Sys2Proof.Machine

/-! ## Slots -/

/-- Whether the writes of activations that ended on a core are performed at .mod (R102). -/
def State.endedDone (s : State) (core : Nat) : Bool := (s.core core).ended.all (fun e => s.wrote e.1 .mod e.2)

/-- The cores of a partition, those that have left it included. -/
def State.coresOf (s : State) (part : Nat) : List Nat := (s.cores.filter (fun e => e.2.part == some part)).map (·.1)

/-- Whether the predecessor that a launch names lets it start (R100): its launch has ended, or each core of its partition has
triggered or left. The end and a departure cover the writes made before them, those of cores that have left included (R102). A
launch that has started activations waits no more. -/
def State.predDone (s : State) (p : Part) : Bool :=
  match (if p.started then none else p.pred) with
  | none => true
  | some q =>
    let past := (s.part q).ended || (s.part q).launchNo != p.predLaunch
    (s.coresOf q).all (fun c => if past then s.endedDone c else (s.core c).left || (s.core c).triggered) &&
      (s.part q).gone.all (fun e => s.wrote e.1 .mod e.2)

/-- Whether a core may start activations: its launch's dispatch is enabled, and it neither departs nor has left, is not held
by a precise stop, and is not in reset (R91, R99, R318, R330). -/
def State.mayStart (s : State) (core : Nat) : Bool :=
  let c := s.core core
  match c.part with
  | none => false
  | some p =>
    (s.part p).dispatch && !(s.part p).ended && s.predDone (s.part p) && c.departing.isNone && !c.left && !c.covered && s.diesOut && !s.tooHot && !c.inReset

/-- The slots that a class may use (R80). -/
def classSlots (core : Nat) (cls : Cls) : List Nat :=
  match cls with | .system => [8 * core + 7] | _ => from_ (8 * core) 7

/-- The lowest-numbered FREE slot that a class may use; at most five slots hold firing-class activations (R80). -/
def State.freeSlotFor (s : State) (core : Nat) (cls : Cls) : Option Nat :=
  if cls == .firing && 5 ≤ s.firingsOf core then none
  else (classSlots core cls).find? (fun k => (s.act k).st == .free)

/-- The WAITING slot among some that has waited longest (R148); of two that entered their waits in one cycle, the lower (log
entry 111). -/
def State.longestWaiter (s : State) (ks : List Nat) : Option Nat :=
  let since (k : Nat) : Nat := match (s.act k).wait with | some w => w.since | none => 0
  (ks.filter (fun k => (s.act k).st == .waiting)).foldl
    (fun b k => match b with | none => some k | some j => if since k < since j then some k else some j) none

/-- A waiting activation is to be saved for a pending message, unless one of the core is already being saved; with no free
frame on the die, no save is attempted (R148, R198). -/
def State.saveWaiter (s : State) (core : Nat) (ks : List Nat) : State :=
  let saving := ks.any (fun k => (s.act k).st == .saving &&
    (match (s.act k).save with | some v => v.why == .forMessage | none => false))
  if saving || (s.die (dieOf core)).frames.isEmpty then s
  else
    match s.longestWaiter ks with
    | none => s
    | some k =>
      (s.modAct k (fun a => { a with st := .saving, save := some { why := .forMessage, pc := a.pc } })).annotate k 5 (s.act k).pc

/-! ## Replay (R321, R322) -/

/-- The transit of a message that has arrived, in cycles: the torus age counts its crossings in units of 16 (R281, R319). -/
def Msg.transit (m : Msg) : Nat := min 65535 (m.arrived - m.sent - m.lost)

/-- IDENT of a message (R321). -/
def Msg.ident (m : Msg) : Word := wordOf [(39, m.src), (37, vnNum m.vn), (0, m.seq)]

/-- Whether a message is a spawn request. -/
def Msg.isSpawn (m : Msg) : Bool := match m.kind with | .spawnReq _ _ _ _ => true | _ => false

/-- A core leaves record or replay mode; the timers of R272 count from here. -/
def State.toNormal (s : State) (core : Nat) : State :=
  s.modCore core (fun c => { c with rmode := .normal, bindWait := c.bindWait.map (fun b => { b with since := s.cycle }) })

/-- A replaying core reads its log: annotations that did not occur are skipped, and with no further dispatch or refusal in it the log's
end is reached: the core returns to normal mode (R322, R323). -/
def State.readLog (s : State) (core : Nat) : State :=
  let s := s.settleNotes core
  if (s.core core).rmode != .replay || (s.logNext core).isSome then s
  else (s.toNormal core).modCore core (fun c => { c with logTail := true })

/-- The entry of a dispatch or refusal is passed in replay; at the log's end the core returns to normal mode (R322). -/
def State.passEntry (s : State) (core : Nat) : State :=
  match s.logNext core with
  | none => s.readLog core
  | some (i, _) => (s.modCore core (fun c => { c with logPos := i + 1 })).readLog core

/-- A candidate as a log knows it: its ORIGIN and IDENT (R321). -/
abbrev LogKey := Origin × Word

/-- A message as a log knows it: a spawned child, or a handler. -/
def Msg.logKey (m : Msg) : LogKey := (if m.isSpawn then .spawn else .handler, m.ident)

/-- What a replaying core's log says of a candidate: `none` it is not the next; the kind, and the slot. -/
def State.logged (s : State) (core : Nat) (key : LogKey) : Option (Nat × Nat) :=
  match s.logNext core with
  | some (_, w0, w1) =>
    if w1 == key.2 && (bits w0 55 2).toNat == key.1.code then some ((bits w0 60 4).toNat, (bits w0 57 3).toNat) else none
  | none => none

/-- Whether a candidate may start on a core as its log stands. -/
def State.replayAllows (s : State) (core : Nat) (key : LogKey) (kind : Nat) : Bool :=
  (s.core core).rmode != .replay || (match s.logged core key with | some (k, _) => k == kind | none => false)

/-- The slot for a candidate that may start: the one that the log names, in replay. -/
def State.slotFor (s : State) (core : Nat) (cls : Cls) (key : LogKey) : Option Nat :=
  if (s.core core).rmode == .replay then
    match s.logged core key with
    | some (1, n) => if (s.act (8 * core + n)).st == .free then some (8 * core + n) else none
    | _ => none
  else s.freeSlotFor core cls

/-! ## Starting an activation (R64) -/

/-- LOC region r of the 16 bytes before an entry address, each read where its own page lies (R106, R270). -/
def State.regionWord (s : State) (asid : Nat) (entry : Word) (r : Nat) : BitVec 32 :=
  BitVec.ofNat 32 (leNat (s.peekVirt asid (entry - 16 + BitVec.ofNat 64 (4 * r)).toNat 4))

/-- The LOC regions before an entry; one that breaks R106 counts as unused (R270). -/
def State.regionsAt (s : State) (asid : Nat) (entry : Word) : Tab (BitVec 32) :=
  tabOf 0 4 (fun r =>
    let x := s.regionWord asid entry r
    if bits x 2 11 != 0 || 512 < (bits x 23 9).toNat + (bits x 13 10).toNat then 0 else x)

/-- A fresh activation starts on slot k; `a` holds what its origin brings (R64, R321). -/
def State.startOn (s : State) (k : Nat) (a : Act) (args : List Word) (ident : Word) : State :=
  let core := coreOf k
  let s := s.clearBank k
  let n := (s.core core).dcount
  let old := s.act k
  let a : Act :=
    { a with
      st := .starting
      s := tabOf 0 5 (fun i => if i = 0 then 0 else nth 0 args (i - 1))
      regions := s.regionsAt (s.part a.part).asid a.entry
      pc := a.entry, outbox := old.outbox, uid := s.nextUid, dseq := n, started := s.cycle, lastIssue := s.cycle }
  let s := { s.setAct k a with nextUid := s.nextUid + 1 }
  let s := s.modPart a.part (fun p => { p with started := true })
  let s := s.modCore core (fun c => { c with dcount := n + 1, lastDisp := s.cycle })
  let s := s.trace 0x01 k a (BitVec.ofNat 64 a.qwait) (BitVec.ofNat 64 a.transit)
  let w0 := wordOf [(60, 1), (57, slotOf k), (55, a.origin.code), (0, n % 2 ^ 32)]
  match (s.core core).rmode with
  | .record => s.logEntry core w0 ident
  | .replay => s.passEntry core
  | .normal => s

/-! ## Messages -/

/-- The entry that a message names; none where its type is unbound (R270). -/
def State.entryFor (s : State) (m : Msg) : Option Word := if m.byType then (s.part m.part).handler m.type else some m.entry

/-- A message starts its activation on slot k (R64, R274, R291, R319). -/
def State.startMessage (s : State) (k : Nat) (m : Msg) (entry : Word) : State :=
  let core := coreOf k
  let event := s.ltCore core && m.isEvent
  let src := (coreOfAddr m.src).getD 0
  let measured := m.vn != .system
  let reply := wordOf [(60, 1), (41, m.sslot), (16, m.src), (0, m.seq)]
  let a : Act :=
    { origin := .handler, cls := if m.vn == .system then .system else .handler, event := event, stamp := m.stamp, entry := entry
      part := m.part, sender := if measured then some src else none, transit := if measured then m.transit else 0
      qwait := if measured then s.cycle - m.arrived else 0, traceSeq := BitVec.ofNat 16 m.seq
      traceTag := wordOf [(39, m.src), (37, vnNum m.vn), (25, m.type), (24, if m.byType then 1 else 0)] }
  let a := a.takeGiven (m.given.map (fun o => { o with staged := false }))
  let a := if m.vn == .request && !event then { ((a.oblAcquire .reply reply topRank 1).getD a) with reply := reply } else a
  s.startOn k a m.args m.ident

/-- The message that has stood longest in a full bind-wait area goes to the dead-message queue (R272). -/
def State.expelOldest (s : State) (core : Nat) : State :=
  match (s.core core).bindWait with
  | [] => s
  | b :: r => (s.modCore core (fun c => { c with bindWait := r })).deadLetter core b.msg unboundMessage 0

/-- A message whose type is unbound moves to the bind-wait area of 8 entries. -/
def State.toBindWait (s : State) (core : Nat) (m : Msg) (event : Bool) : State :=
  let s := if 8 ≤ (s.core core).bindWait.length then s.expelOldest core else s
  s.modCore core (fun c => { c with bindWait := c.bindWait ++ [{ msg := m, since := s.cycle, event := event }] })

/-- BINDWAIT_EXPIRY: the oldest unbound message of the bind-wait area that has waited BINDWAIT cycles goes to the dead-message
queue (R272). The timer does not count in a precise stop or in replay. -/
def execBindwaitExpiry (core : Nat) (s : State) : Host.Outcome State Fault Refusal :=
  let late (b : BindWaiting) : Bool := (s.part b.msg.part).bindWait ≤ s.cycle - b.since && (s.entryFor b.msg).isNone
  match (if (s.core core).covered || (s.core core).rmode == .replay then none else ((s.core core).bindWait.zipIdx.find? (fun x => late x.1))) with
  | none => .next s
  | some (b, i) =>
    .next ((s.modCore core (fun c => { c with bindWait := dropNth c.bindWait i })).deadLetter core b.msg unboundMessage 0)

/-! ## DISPATCH -/

/-- A place of a core's waiting messages: the bind-wait area, or the input buffer. -/
inductive At where
  | bind (i : Nat)
  | buf (i : Nat)
  deriving DecidableEq, Repr

/-- A message removed from where it waits. -/
def State.takeMsg (s : State) (core : Nat) : At → State
  | .bind i => s.modCore core (fun c => { c with bindWait := dropNth c.bindWait i })
  | .buf i => s.modCore core (fun c => { c with inQ := dropNth c.inQ i })

/-- The waiting messages that a core's dispatcher considers, in their order: messages of the bind-wait area whose type has
become bound, then the input buffer; in a local-time partition, events of the buffer wait for their time (R291, R293). -/
def State.candidates (s : State) (core : Nat) : List (At × Msg) :=
  let c := s.core core
  let lt := s.ltCore core
  let held := (c.bindWait.zipIdx.filter (fun x => (s.entryFor x.1.msg).isSome && !(x.1.event && s.eventRuns core))).map
    (fun x => (At.bind x.2, x.1.msg))
  let buf := (c.inQ.zipIdx.filter (fun x => (x.1.vn == .request || x.1.vn == .reply) && x.1.spawnAnswer.isNone && !(lt && x.1.isEvent))).map
    (fun x => (At.buf x.2, x.1))
  held.filter (fun x => x.2.vn != .system) ++ buf

/-- The next system message of a core: one of the bind-wait area whose type has become bound, else the first of the input buffer;
in replay, the one that the log names. -/
def State.systemNext (s : State) (core : Nat) : Option (At × Msg) :=
  let c := s.core core
  let held := (c.bindWait.zipIdx.filter (fun x => (s.entryFor x.1.msg).isSome)).map (fun x => (At.bind x.2, x.1.msg))
  let all := (held ++ c.inQ.zipIdx.map (fun x => (At.buf x.2, x.1))).filter (fun x => x.2.vn == .system)
  if c.rmode == .replay then all.find? (fun x => s.replayAllows core x.2.logKey 1 || (s.entryFor x.2).isNone) else all.head?

/-- The next candidate of a core's handler class: in replay, the one that the log names. -/
def State.candidate (s : State) (core : Nat) : Option (At × Msg) :=
  if (s.core core).rmode == .replay then (s.candidates core).find? (fun x => s.replayAllows core x.2.logKey 1)
  else (s.candidates core).head?

/-- Whether a restoration queued at a core takes a slot before handler messages (R209). -/
def State.restoreFirst (s : State) (core : Nat) : Bool :=
  match (s.core core).restores with
  | [] => false
  | (key, _) :: _ => (s.freeSlotFor core (tget {} key s.framed).cls).isSome

/-- A message at its dispatch: bound, it starts on a slot, or a waiting activation is saved for it; unbound, it moves to the
bind-wait area (R148, R272). -/
def State.dispatchMsg (s : State) (core : Nat) (at_ : At) (m : Msg) (event : Bool) : State :=
  let cls : Cls := if m.vn == .system then .system else .handler
  match s.entryFor m with
  | none => (s.takeMsg core at_).toBindWait core m event
  | some e =>
    match s.slotFor core cls m.logKey with
    | some k => (s.takeMsg core at_).startMessage k m e
    | none =>
      if (classSlots core cls).any (fun k => (s.act k).st == .free) then s else s.saveWaiter core (classSlots core cls)

/-- A core that has left gives up its waiting messages one by one (R99). -/
def State.emptyLeft (s : State) (core : Nat) : State :=
  let c := s.core core
  match c.inQ, c.bindWait with
  | m :: r, _ => (s.modCore core (fun c => { c with inQ := r })).undeliverable m
  | [], b :: r => (s.modCore core (fun c => { c with bindWait := r })).deadLetter core b.msg departedCore 0
  | [], [] => s

/-- The next message of a core's handler class starts, behind queued restorations, in order of arrival; a spawn request at the
head waits for SPAWN_REQUEST (R79, R80). -/
def State.dispatchHandler (s : State) (core : Nat) : State :=
  if s.restoreFirst core then s
  else
    match s.candidate core with
    | none => s
    | some (at_, m) =>
      if m.kind matches .spawnReq _ _ _ _ then s
      else s.dispatchMsg core at_ m (match at_ with | .bind _ => s.ltCore core && m.isEvent | .buf _ => false)

/-- DISPATCH: a system message first; where its slot is taken, or none waits, a handler message or wake-up (R79, R80). -/
def execDispatch (core : Nat) (s : State) : Host.Outcome State Fault Refusal :=
  if (s.core core).left then .next (s.emptyLeft core)
  else if !s.mayStart core then .next s
  else
    let s := s.readLog core
    match s.systemNext core with
    | some (at_, m) =>
      let goes := (s.entryFor m).isNone || (s.slotFor core .system m.logKey).isSome
      let s := s.dispatchMsg core at_ m false
      .next (if goes then s else s.dispatchHandler core)
    | none => .next (s.dispatchHandler core)

/-! ## SPAWN_REQUEST (R81, R322, R410) -/

/-- A spawn request is refused, with its entry in the log. -/
def State.refuseSpawn (s : State) (core i : Nat) (m : Msg) : State :=
  let s := (s.takeMsg core (.buf i)).answerSpawn core m false
  match (s.core core).rmode with
  | .record => s.logEntry core (wordOf [(60, 2), (55, Origin.spawn.code), (0, (s.core core).dcount % 2 ^ 32)]) m.ident
  | .replay => if s.replayAllows core m.logKey 2 then s.passEntry core else s
  | .normal => s

/-- A spawn request is accepted: the child starts on slot k (R64, R141). -/
def State.acceptSpawn (s : State) (core i k : Nat) (m : Msg) (inh : Option Rank) (cls : Cls) : State :=
  let s := (s.takeMsg core (.buf i)).answerSpawn core m true
  let a : Act :=
    { origin := .spawn, cls := cls, stamp := m.stamp, entry := m.entry, part := m.part, inh := inh
      sender := coreOfAddr m.src, transit := m.transit, qwait := s.cycle - m.arrived, traceSeq := BitVec.ofNat 16 m.seq
      traceTag := wordOf [(39, m.src)] }
  s.startOn k (a.takeGiven (m.given.map (fun o => { o with staged := false }))) m.args m.ident

/-- SPAWN_REQUEST: the first spawn request in a core's input buffer starts its child on a free slot, or is refused. On a
departing core it waits until the core has left (R99); a precise stop lets it wait while a slot is free (R318). -/
def execSpawnRequest (core : Nat) (s : State) : Host.Outcome State Fault Refusal :=
  let s := s.readLog core
  let replay := (s.core core).rmode == .replay
  let wanted (m : Msg) : Bool := m.isSpawn && (!replay || (s.logged core m.logKey).isSome)
  match ((s.core core).inQ.zipIdx).find? (fun x => wanted x.1) with
  | none => .next s
  | some (m, i) =>
    match m.kind with
    | .spawnReq _ inh cls _ =>
      if (s.core core).left || (replay && s.replayAllows core m.logKey 2) then .next (s.refuseSpawn core i m)
      else if (s.core core).departing.isSome then .next s
      else
        match s.slotFor core cls m.logKey with
        | none => .next (if replay then s else s.refuseSpawn core i m)
        | some k =>
          let first := match s.candidate core with | some (_, x) => x == m | none => true
          if s.mayStart core && (first || replay) && !s.restoreFirst core then .next (s.acceptSpawn core i k m inh cls) else .next s
    | _ => .next s

/-! ## EVENT_DISPATCH (R292, R293, R309) -/

/-- The head of a core's input buffer is dispatched where a slot is free, or a waiting activation is saved for it: LVT rises to
its stamp (R148, R292). -/
def State.dispatchHead (s : State) (core : Nat) : State :=
  match s.head core with
  | none => s
  | some (m, i) =>
    let ks := classSlots core .handler
    if (s.slotFor core .handler m.logKey).isSome then (s.dispatchMsg core (.buf i) m true).raiseLvt core m.stamp.toNat
    else if ks.any (fun k => (s.act k).st == .free) then s else s.saveWaiter core ks

/-- EVENT_DISPATCH: on a core of a local-time partition, LTWAITs whose condition holds complete, and the lowest of the event
activations in LTWAIT and the head goes on; a head or target held by SAFE makes its demands (R293, R299). -/
def execEventDispatch (core : Nat) (s : State) : Host.Outcome State Fault Refusal :=
  if !s.ltCore core then .next s
  else
    let s := (s.readLog core).freeTimers core
    let s := s.demandHeld core
    if s.eventRuns core then .next s
    else
      let allowed := match s.head core with | some (m, _) => s.replayAllows core m.logKey 1 | none => false
      match s.firstTimer core with
      | some (t, k, framed) => .next (s.endEventWait core t k framed)
      | none =>
        if s.headDue core && s.mayStart core && allowed && !s.restoreFirst core then .next (s.dispatchHead core) else .next s

/-! ## Slots' own events -/

/-- SLOT_START_DONE: the initial state of a STARTING slot is written (R63). -/
def execSlotStartDone (core slot : Nat) (s : State) : Host.Outcome State Fault Refusal :=
  .next (s.modAct (8 * core + slot) (fun a => if a.st == .starting then { a with st := .running, lastIssue := s.cycle } else a))

/-- STARVATION_PROMOTION: a slot of a lower class that has been ready in a port without issuing for 256 cycles is treated as
system class for its next turn there (R77). -/
def execStarvationPromotion (core slot : Nat) (port : Stream) (s : State) : Host.Outcome State Fault Refusal :=
  let starved := match tget none slot (s.port core port).ready with | some t => 256 ≤ s.cycle - t | none => false
  .next (s.modAct (8 * core + slot) (fun a =>
    if a.cls != .system && starved && !a.promoted.contains port then { a with promoted := a.promoted ++ [port] } else a))

/-- Entries that an operand pops from a queue register (R71). -/
def popsOf (n : Nat) : Opnd → Nat | .queue peek m => if m.toNat = n && !peek then 1 else 0 | _ => 0
/-- The queue register that an operand names. -/
def queueNum : Opnd → Option Nat | .queue _ m => some m.toNat | _ => none

/-- The queue registers on which a word is stalled: a source without the entries that B and then C read, or a destination that
is full once they have popped theirs (R71). -/
def Act.stuckOn (a : Act) (w : Operands) : List Nat :=
  let len (n : Nat) : Nat := (a.qGet n).length
  let b := ((queueNum w.b).filter (fun n => len n = 0)).toList
  let c := ((queueNum w.c).filter (fun n => len n ≤ popsOf n w.b)).toList
  if b.isEmpty && c.isEmpty then ((queueNum w.a).filter (fun n => 8 ≤ len n - popsOf n w.b - popsOf n w.c)).toList
  else (b ++ c).take 1

/-- The word that the front end of a slot is to decode next: the next word of a repetition whose body is whole, or the word
at PC (R260). -/
def State.frontWord (s : State) (k : Nat) : Option IWord :=
  let a := s.act k
  let fetched := (s.physOfVirt (s.part a.part).asid a.pc.toNat).map (fun pa =>
    (BitVec.ofNat 96 (leNat (s.viewBytes (dieOf (coreOf k)) pa 12)) : IWord))
  match a.rpt with
  | none => fetched
  | some r =>
    if r.scan.isSome then none
    else if r.closed then (r.body[r.at_]?).map (fun x => rotateWord r.base x.2)
    else fetched

/-- What the front end of a slot stands at: a queue register on which its S word is stalled, a full decode queue, or neither. -/
def State.frontStuck (s : State) (k : Nat) : Option (List Nat) :=
  let s := { s with cur := k, iss := Iss.front }
  let a := s.me
  match (s.frontWord k).bind wordFields with
  | none => none
  | some (opc, x) =>
    if x.head.stream == .S then
      (if s.guardOf x.head == some true && !(a.stuckOn x).isEmpty then some (a.stuckOn x) else none)
    else if !s.queueRoom opc x then some [] else none

/-- The oldest words that wait in a slot's decode queues, by stream. -/
def Act.streamHeads (a : Act) : List Pending := [Stream.V, .E].filterMap (fun st => a.pend.find? (fun p => p.strm == st))

/-- The queue registers on which a word in a decode queue is stalled. -/
def Act.stuckAt (a : Act) (p : Pending) : List Nat :=
  match p.fields with | some (_, w) => if p.gv == some true then a.stuckOn w else [] | none => []

/-- Some queue registers as a mask (R191). -/
def queueMask (qs : List Nat) : Nat := (upTo 8).foldl (fun n q => if qs.contains q then n + 2 ^ q else n) 0

/-- STREAM_DEADLOCK: every stream of a slot with words left to issue is stalled on a queue register (R72). -/
def execStreamDeadlock (core slot : Nat) (s : State) : Host.Outcome State Fault Refusal :=
  let k := 8 * core + slot
  let a := s.act k
  match (if a.st == .running && a.asked.isNone && a.late.isEmpty then s.frontStuck k else none) with
  | none => .next s
  | some qs =>
    if a.streamHeads.any (fun p => (a.stuckAt p).isEmpty) || (qs.isEmpty && a.streamHeads.isEmpty) then .next s
    else
      let f : FaultReq := { code := 0x04, info := BitVec.ofNat 64 (queueMask (qs ++ a.streamHeads.flatMap a.stuckAt)) }
      match a.pend with
      | p :: _ => .next (s.takeFaultAt k { f with strm := streamNum p.strm } p.pc (some p.seq))
      | [] => .next (s.takeFaultAt k f a.pc)

/-! ## FIRING_START (R83, R84, R295) -/

/-- IDENT of a firing (R321). -/
def firingIdent (stage n : Nat) : Word := wordOf [(48, stage), (0, n % 2 ^ 32)]

/-- A firing as a log knows it. -/
def firingKey (stage n : Nat) : LogKey := (.firing, firingIdent stage n)

/-- Whether a stage's queues let it fire (R83). -/
def Part.queuesReady (p : Part) (g : Stage) : Bool :=
  g.decl.ins.all (fun x => match p.edges[x.1]? with | some e => decide (x.2 ≤ e.tokens.length) | none => false) &&
  g.decl.outs.all (fun x => match p.edges[x.1]? with
    | some e => decide (e.tokens.length + e.reserved + x.2 ≤ e.decl.depth) | none => false)

/-- Whether a firing may start on a core: a slot is there for it, and no handler message or restoration goes before it. -/
def State.firingOn (s : State) (core : Nat) (key : LogKey) : Bool :=
  s.mayStart core && (s.core core).moving.isNone && s.replayAllows core key 1 && (s.slotFor core .firing key).isSome &&
    !s.restoreFirst core && ((s.core core).rmode == .replay || (s.candidates core).isEmpty)

/-- The core that takes a firing: the fewest firing-class activations, then the lowest address. -/
def State.firingCore (s : State) (cores : List Nat) : Option Nat :=
  cores.foldl (fun b c => match b with
    | none => some c
    | some d => if s.firingsOf c < s.firingsOf d || (s.firingsOf c == s.firingsOf d && c < d) then some c else some d) none

/-- Tokens popped from the input queues and places reserved in the output queues. -/
def Part.fire (p : Part) (g : Stage) : Part :=
  let pop (l : List Edge) (x : Nat × Nat) : List Edge :=
    l.mapIdx (fun i e => if i = x.1 then { e with tokens := e.tokens.drop x.2 } else e)
  let keep (l : List Edge) (x : Nat × Nat) : List Edge :=
    l.mapIdx (fun i e => if i = x.1 then { e with reserved := e.reserved + x.2 } else e)
  { p with edges := g.decl.outs.foldl keep (g.decl.ins.foldl pop p.edges) }

/-- A firing starts on a core. -/
def State.startFiring (s : State) (part stage core k : Nat) (g : Stage) : State :=
  let p := s.part part
  let toks := g.decl.ins.map (fun x => match p.edges[x.1]? with | some e => e.tokens.take x.2 | none => [])
  let source := g.decl.ins.isEmpty
  let stamp : Word := if source then (if p.lt then 0 else s.time)
    else BitVec.ofNat 64 ((toks.flatten.map (fun x => x.2.toNat)).foldl max 0)
  let a : Act :=
    { origin := .firing, cls := .firing, stage := BitVec.ofNat 16 stage, stamp := stamp, entry := g.decl.entry, part := part
      tokens := toks.map (fun l => l.map (·.1)), traceSeq := BitVec.ofNat 16 g.next, traceTag := wordOf [(48, stage)] }
  let a := g.decl.outs.zipIdx.foldl (fun a x => (a.oblAcquire .emit (emitHandle x.2) topRank x.1.2).getD a) a
  let s := s.modPart part (fun p =>
    let p := p.fire g
    { p with stages := p.stages.mapIdx (fun i y =>
        if i = stage then { y with next := y.next + 1, fired := if source && p.lt then y.fired ++ [core] else y.fired } else y) })
  s.startOn k a [BitVec.ofNat 64 g.next, 0, 0, 0] (firingIdent stage g.next)

/-- FIRING_START: the stage scheduler starts a firing of a stage, if R83 allows one. -/
def execFiringStart (part stage : Nat) (s : State) : Host.Outcome State Fault Refusal :=
  let p := s.part part
  match p.stages[stage]? with
  | none => .next s
  | some g =>
    let source := g.decl.ins.isEmpty
    let s := g.cores.foldl (fun s c => s.readLog c) s
    let key := firingKey stage g.next
    let cores := g.cores.filter (fun c => s.firingOn c key && !(source && p.lt && g.fired.contains c))
    if !p.live || (source && p.closed) || !p.queuesReady g then .next s
    else
      match s.firingCore cores with
      | none => .next s
      | some c =>
        match s.slotFor c .firing key with
        | none => .next s
        | some k => .next (s.startFiring part stage c k g)

/-! ## REBALANCE_TICK (R86) -/

/-- A fraction: numerator and denominator. -/
abbrev Frac := Nat × Nat
/-- Order of fractions. -/
def Frac.lt (a b : Frac) : Bool := a.1 * b.2 < b.1 * a.2

/-- The largest tokens ÷ depth over some edges. -/
def Part.occupancy (p : Part) (es : List (Nat × Nat)) : Frac :=
  es.foldl (fun m x => match p.edges[x.1]? with
    | some e => let f : Frac := (e.tokens.length, e.decl.depth); if Frac.lt m f then f else m
    | none => m) (0, 1)

/-- Cores that a stage counts as its own: those that have joined it and do not move away, and those that move to it. -/
def State.stageCount (s : State) (part stage : Nat) : Nat :=
  let p := s.part part
  let own := match p.stages[stage]? with | some g => (g.cores.filter (fun c => (s.core c).moving.isNone)).length | none => 0
  own + ((p.stages.flatMap (·.cores)).filter (fun c => (s.core c).moving == some stage)).length

/-- The recipient of a move. -/
def State.recipient (s : State) (part : Nat) : Option Nat :=
  let p := s.part part
  let occ (i : Nat) : Frac := match p.stages[i]? with | some g => p.occupancy g.decl.ins | none => (0, 1)
  let fits (i : Nat) : Bool := match p.stages[i]? with
    | none => false
    | some g =>
      g.decl.ins.any (fun x => match p.edges[x.1]? with | some e => Frac.lt (e.decl.high, e.decl.depth) (occ i) | none => false) &&
      g.decl.outs.all (fun x => match p.edges[x.1]? with
        | some e => Frac.lt (p.occupancy g.decl.outs) (e.decl.low, e.decl.depth) | none => true) &&
      decide (s.stageCount part i < g.decl.hi)
  ((upTo p.stages.length).filter fits).foldl (fun b i => match b with
    | none => some i | some j => if Frac.lt (occ j) (occ i) then some i else some j) none

/-- The donor of a move. -/
def State.donor (s : State) (part recipient : Nat) : Option Nat :=
  let p := s.part part
  let occ (i : Nat) : Frac := match p.stages[i]? with | some g => p.occupancy g.decl.ins | none => (0, 1)
  let fits (i : Nat) : Bool := match p.stages[i]? with
    | none => false
    | some g => i != recipient && !g.decl.ins.isEmpty && decide (g.decl.lo < s.stageCount part i)
  ((upTo p.stages.length).filter fits).foldl (fun b i => match b with
    | none => some i | some j => if Frac.lt (occ i) (occ j) then some i else some j) none

/-- The donor core that moves: the fewest firings, then the lowest logical number. -/
def State.moveCore (s : State) (part donor : Nat) : Option Nat :=
  match (s.part part).stages[donor]? with
  | none => none
  | some g =>
    let before (c d : Nat) : Bool :=
      s.ownFirings c < s.ownFirings d ||
        (s.ownFirings c == s.ownFirings d && (logicalOf c < logicalOf d || (logicalOf c == logicalOf d && c < d)))
    (g.cores.filter (fun c => (s.core c).moving.isNone)).foldl (fun b c => match b with
      | none => some c | some d => if before c d then some c else some d) none

/-- REBALANCE_TICK: one move of a partition's pipeline is considered. -/
def execRebalanceTick (part : Nat) (s : State) : Host.Outcome State Fault Refusal :=
  let p := s.part part
  let held := (p.stages.flatMap (·.cores)).any (fun c => (s.core c).covered)
  if !p.live || s.cycle - p.lastRebal < 4096 || held then .next s
  else
    let s := s.modPart part (fun p => { p with lastRebal := s.cycle })
    match (s.recipient part).bind (fun r => (s.donor part r).bind (fun d => (s.moveCore part d).map (fun c => (r, c)))) with
    | none => .next s
    | some (r, c) => .next ((s.modCore c (fun x => { x with moving := some r })).joinStage c)

/-! ## REPLAY_TIMEOUT (R322) -/

/-- Firings that a core's stages could start, as a log knows them: their stages' queues let them. -/
def State.readyFirings (s : State) (core : Nat) : List LogKey :=
  match (s.core core).part with
  | none => []
  | some p =>
    ((s.part p).stages.zipIdx.filter (fun x => x.1.cores.contains core && (s.part p).queuesReady x.1)).map (fun x => firingKey x.2 x.1.next)

/-- What waits at a core to be started: messages and firings; an answer to a spawn request does not. -/
def State.waitingKeys (s : State) (core : Nat) : List LogKey :=
  ((s.core core).inQ.filter (fun m => m.spawnAnswer.isNone)).map Msg.logKey ++ (s.core core).bindWait.map (fun b => b.msg.logKey) ++
    s.readyFirings core

/-- REPLAY_TIMEOUT: the logged candidate has not come 2^24 cycles after the last dispatch while others wait. A precise stop holds
the count (R325). -/
def execReplayTimeout (core : Nat) (s : State) : Host.Outcome State Fault Refusal :=
  let s := s.readLog core
  match (s.core core).rmode, s.logNext core with
  | .replay, some (_, _, w1) =>
    let there := (s.waitingKeys core).any (fun x => (s.logged core x).isSome)
    if s.cycle - (s.core core).lastDisp < 2 ^ 24 || (s.core core).covered || there || (s.waitingKeys core).isEmpty then .next s
    else .next ((s.divergeCore core 0x01 w1).toNormal core)
  | _, _ => .next s

/-! ## Dead messages dispatched again (R139) -/

/-- DEAD_MESSAGE_REDISPATCH without poison: the record's message is sent again. -/
def State.redispatch (s : State) (part i : Nat) (m : Msg) : State :=
  { (s.modPart part (fun p => { p with deadRecs := tset none i none p.deadRecs })) with
    msgs := s.msgs ++ [{ m with here := m.goal, numbered := m.spread || !m.mcast }] }

end Sys2Proof.Machine
end

