-- ==== Sys2Proof/Machine/Ownership.lean ====
section
/-!
DEFINITION. Ownership messages and what each does where it arrives (R173 to R183), read-duplicable pages (R184, R185),
line leases (R187), atomic counters (R186), MIGCTL and ATMMODE.HINT as the home and the partition take them (R188, R189),
and the change of a page entry (R121). A message that its link holds behind another stays where it is.
-/

namespace Sys2Proof.Machine

/-- The message at a place, with the state that no longer holds it. -/
def State.takeOMsg (s : State) (i : Nat) : Option (OMsg × State) :=
  s.omsgs[i]?.map (fun m => (m, { s with omsgs := dropNth s.omsgs i }))

/-- A message sent. -/
def State.sendOMsg (s : State) (m : OMsg) : State := { s with omsgs := s.omsgs ++ [m] }

/-- The pages of a die that are quiescing become stubs where they may (R176). -/
def State.settleAll (s : State) (d : Nat) : State :=
  ((s.die d).outgoing.map (·.1)).foldl (fun s k => s.settle d k) s

/-- The owners of pages whose quiescing may have ended. -/
def State.settleOwners (s : State) : State := (s.dies.map (·.1)).foldl State.settleAll s

/-- A die's owner cache without a page, where its entry passes a test. -/
def State.dropOwner (s : State) (d k : Nat) (p : Nat → Bool := fun _ => true) : State :=
  s.modDie d (fun x => { x with owners := x.owners.filter (fun e => !(e.1 == k && p e.2.1)) })

/-- A frame goes back into a die's pool (R175). -/
def State.poolFrame (s : State) (d f : Nat) : State := s.modDie d (fun x => { x with pool := x.pool ++ [f] })

/-! ## Finding the owner (R173) -/

/-- OWNER_QUERY: the home answers with OWNER as it stands, and READERS gains the die where it lies in the home's module. -/
def execOwnerQuery (index : Nat) (s : State) : Host.Outcome State Fault Refusal :=
  match s.takeOMsg index with
  | some (.query d k, s) =>
    let h := s.home k
    let near := homeModule Config.domainModules k == Config.moduleNumber
    let readers := if near then h.readers ||| (1#32 <<< d) else h.readers
    .next ({ s with homes := tset {} k { h with readers := readers } s.homes }.sendOMsg (.reply d k h.owner h.size))
  | _ => .next s

/-- OWNER_REPLY: the requester installs the entry; the requests that it held find it there. -/
def execOwnerReply (index : Nat) (s : State) : Host.Outcome State Fault Refusal :=
  match s.takeOMsg index with
  | some (.reply d k o size, s) => .next (s.modDie d (fun x => { x with owners := installOwner k o size x.owners }))
  | _ => .next s

/-- REDIRECT: the requester's entry names the forward target (R179). -/
def execRedirect (index : Nat) (s : State) : Host.Outcome State Fault Refusal :=
  match s.takeOMsg index with
  | some (.redirect d k t, s) =>
    .next (s.modDie d (fun x => { x with owners := installOwner k t (s.home k).size x.owners }))
  | _ => .next s

/-- Whether a die's becoming owner of a page is on its way to it, ahead of what is relayed to it. -/
def State.beginning (s : State) (d k : Nat) : Bool :=
  s.omsgs.any (fun m => match m with | .begin_ p _ n _ _ _ _ => p == k && n == d | _ => false)

/-- NOT_OWNER (R179, R182): a die that is neither owner nor stub returns the request; the requester, when it comes back,
drops its entry and sends it again before the requests that it holds. -/
def execNotOwner (index : Nat) (s : State) : Host.Outcome State Fault Refusal :=
  match s.omsgs[index]? with
  | some (.request r) =>
    if s.owns r.at_ r.who.page || (tget none r.who.page (s.die r.at_).stubs).isSome || s.beginning r.at_ r.who.page then .next s
    else .next { s with omsgs := setNth s.omsgs index (.notOwner r) }
  | some (.notOwner r) => .next (({ s with omsgs := dropNth s.omsgs index }.dropOwner r.who.die r.who.page).holdFirst r.who)
  | _ => .next s

/-- STUB_RELAY (R178, R180): the request that has waited longest at a stub goes on to the forward target, behind all that was
sent before, and a first relay sends REDIRECT; a fourth stub returns it with CHAIN_LIMIT. -/
def execStubRelay (index : Nat) (s : State) : Host.Outcome State Fault Refusal :=
  match s.omsgs[index]? with
  | some (.request r) =>
    let k := r.who.page
    let earlier := (s.omsgs.take index).any (fun m => match m with | .request q => q.at_ == r.at_ && q.who.page == k | _ => false)
    match tget none k (s.die r.at_).stubs with
    | none => .next s
    | some (st : Stub) =>
      if earlier then .next s
      else if 3 ≤ r.count then .next { s with omsgs := setNth s.omsgs index (.chainLimit r) }
      else
        let s := { s with omsgs := dropNth s.omsgs index ++ [OMsg.request { r with at_ := st.target, count := r.count + 1 }] }
        let s := s.modDie r.at_ (fun x => { x with stubs := tset none k (some { st with since := s.cycle }) x.stubs })
        .next (if r.count = 0 then s.sendOMsg (.redirect r.who.die k st.target) else s)
  | _ => .next s

/-- CHAIN_LIMIT (R180): the requester drops its entry, and the word or command that asked faults when it is taken again; a
write that has left its activation has no word to fault, and is sent again through the home (log entry 108). -/
def execChainLimit (index : Nat) (s : State) : Host.Outcome State Fault Refusal :=
  match s.takeOMsg index with
  | some (.chainLimit r, s) =>
    let s := s.dropOwner r.who.die r.who.page
    .next (if drainKey 0 ≤ r.who.key then s.holdFirst r.who
      else (s.unhold r.who).modAct r.who.key (fun a => { a with chain := some { die := r.at_, page := r.who.page, word := r.who.word } }))
  | _ => .next s

/-! ## Moving a page (R176, R177, R183) -/

/-- A stub that a die holds on a page goes, and its frame is in the pool again. -/
def State.dropStub (s : State) (d k : Nat) : State :=
  match tget none k (s.die d).stubs with
  | some (st : Stub) => (s.modDie d (fun x => { x with stubs := tset none k none x.stubs })).poolFrame d st.frame
  | none => s

/-- The idle time of a stub that a die holds on a page begins anew (R181). -/
def State.touchStub (s : State) (d k : Nat) : State :=
  match tget none k (s.die d).stubs with
  | some (st : Stub) => s.modDie d (fun x => { x with stubs := tset none k (some { st with since := s.cycle }) x.stubs })
  | none => s

/-- MIGRATE_BEGIN: the new owner drops a stub that it holds on the page, whose frame goes back to its pool, and becomes
owner with no line valid. -/
def execMigrateBegin (index : Nat) (s : State) : Host.Outcome State Fault Refusal :=
  match s.takeOMsg index with
  | some (.begin_ k old new frame newFrame size _, s) =>
    let inc : Incoming := { source := old, frame := frame, newFrame := newFrame, size := size }
    .next ((s.dropStub new k).modDie new (fun x => { x with incoming := tset none k (some inc) x.incoming }))
  | _ => .next s

/-- The lines of a page or group (R177). -/
def pageLines (size : Bool) : Nat := if size then 32768 else 1024

/-- Whether a line of a page has been sent to its new owner. -/
def State.lineSent (s : State) (k new next n : Nat) : Bool :=
  n < next || (match tget none k (s.die new).incoming with | some i => tget false n i.lines | none => false) ||
    s.omsgs.any (fun m => match m with | .line p d x _ => p == k && d == new && x == n | _ => false)

/-- The first line from n on that has not been sent. -/
def State.firstUnsent (s : State) (k new : Nat) : Nat → Nat → Nat
  | 0, n => n
  | fuel + 1, n => if s.lineSent k new 0 n then s.firstUnsent k new fuel (n + 1) else n

/-- The lines of a page that a die has asked for and that have not come. -/
def State.awaitedAt (s : State) (d k : Nat) : List Nat :=
  match tget none k (s.die d).incoming with | some i => i.awaited | none => []

/-- A line of a page as it stands at the old owner's frame. -/
def State.pageLine (s : State) (die page n : Nat) : List Byte :=
  match tget none page (s.die die).stubs with | some (st : Stub) => s.lineValue (st.frame / 64 + n) | none => []

/-- PAGE_LINE_SEND (R176 steps 4 and 5): the old owner sends the line that the new owner awaits, else the next one; after
the last it sends MIGRATE_DONE. -/
def execPageLineSend (die page : Nat) (s : State) : Host.Outcome State Fault Refusal :=
  match tget none page (s.die die).outgoing with
  | none => .next s
  | some (g : Outgoing) =>
    if !g.quiet then .next (s.settle die page)
    else
      let total := pageLines g.size
      match (s.awaitedAt g.new page).find? (fun n => !s.lineSent page g.new g.next n) with
      | some n => .next (s.sendOMsg (.line page g.new n (s.pageLine die page n)))
      | none =>
        let n := s.firstUnsent page g.new (total - g.next) g.next
        if n < total then
          .next ((s.sendOMsg (.line page g.new n (s.pageLine die page n))).modDie die (fun x =>
            { x with outgoing := tset none page (some { g with next := n + 1 }) x.outgoing }))
        else
          .next ((s.sendOMsg (.done page die g.new)).modDie die (fun x => { x with outgoing := tset none page none x.outgoing }))

/-- PAGE_LINES (R177): a line becomes valid at the new owner. Its value is the one that has stood there since the stub was set,
for no access reaches the line before. -/
def execPageLines (index : Nat) (s : State) : Host.Outcome State Fault Refusal :=
  match s.omsgs[index]? with
  | some (.line k new n _) =>
    match tget none k (s.die new).incoming with
    | none => .next s
    | some (i : Incoming) =>
      let i := { i with lines := tset false n true i.lines, awaited := i.awaited.filter (· != n) }
      .next ({ s with omsgs := dropNth s.omsgs index }.modDie new (fun x => { x with incoming := tset none k (some i) x.incoming }))
  | _ => .next s

/-- The level-4 entry, or the 32 of a group, name the new frame, as one atomic update. -/
def State.reframe (s : State) (k frame : Nat) (size : Bool) : State :=
  match s.walkTables (asidOfKey k) (vaOfKey k) with
  | .error _ => s
  | .ok at_ =>
    (upTo (if size then 32 else 1)).foldl (fun s j =>
      s.pokeWord (at_ + 8 * j) (withFrame (mword (at_ + 8 * j) s.glb) (frame + 65536 * j))) s

/-- MIGRATE_DONE: the page stands in its new frame, the entry names it, and the home is told. The stub's time begins. -/
def execMigrateDone (index : Nat) (s : State) : Host.Outcome State Fault Refusal :=
  match s.omsgs[index]? with
  | some (.done k old new) =>
    match tget none k (s.die new).incoming with
    | none => .next s
    | some (i : Incoming) =>
      if s.omsgs.any (fun m => match m with | .line p d _ _ => p == k && d == new | _ => false) then .next s
      else
        let s := { s with omsgs := dropNth s.omsgs index }
        let s := (s.moveFrame i.frame i.newFrame (pageSpan i.size)).reframe k i.newFrame i.size
        let s := s.modDie new (fun x => { x with incoming := tset none k (some { i with whole := true, awaited := [] }) x.incoming })
        .next ((s.touchStub old k).sendOMsg (.update k new false))
  | _ => .next s

/-- OWNER_UPDATE: the home records the owner and MOVING, the two updates of one move in their order. -/
def execOwnerUpdate (index : Nat) (s : State) : Host.Outcome State Fault Refusal :=
  match s.omsgs[index]? with
  | some (.update k o moving) =>
    if (s.omsgs.take index).any (fun m => match m with | .update p _ _ => p == k | _ => false) then .next s
    else
      let s := { s with omsgs := dropNth s.omsgs index
                        homes := tset {} k { s.home k with owner := o, moving := moving } s.homes }
      .next (if moving then s else s.modDie o (fun x => { x with incoming := tset none k none x.incoming }))
  | _ => .next s

/-! ## Reclaiming a stub (R181) -/

/-- STUB_EXPIRY: 2^22 cycles after MIGRATE_DONE or its last relay a stub asks the home to be retired. -/
def execStubExpiry (die page : Nat) (s : State) : Host.Outcome State Fault Refusal :=
  match tget none page (s.die die).stubs with
  | none => .next s
  | some (st : Stub) =>
    let streaming := (tget none page (s.die die).outgoing).isSome ||
      s.omsgs.any (fun m => match m with | .done p o _ => p == page && o == die | _ => false)
    if st.retiring || streaming || s.cycle - st.since < 2 ^ 22 then .next s
    else
      .next ((s.modDie die (fun x => { x with stubs := tset none page (some { st with retiring := true }) x.stubs })).sendOMsg
        (.retire page die))

/-- STUB_RETIRE: the home tells every die of READERS; with none, it answers the stub at once. -/
def execStubRetire (index : Nat) (s : State) : Host.Outcome State Fault Refusal :=
  match s.takeOMsg index with
  | some (.retire k d, s) =>
    let rs := (upTo numDies).filter (fun r => (s.home k).readers.getLsbD r)
    .next (if rs.isEmpty then s.sendOMsg (.retireOk k d) else { s with omsgs := s.omsgs ++ rs.map (fun r => .inval k r d) })
  | _ => .next s

/-- OWNER_INVAL: a reader drops an entry that names the stub, and acknowledges once its requests are acknowledged. -/
def execOwnerInval (index : Nat) (s : State) : Host.Outcome State Fault Refusal :=
  match s.omsgs[index]? with
  | some (.inval k r d) =>
    let asking := s.asking r k
    let s := s.dropOwner r k (· == d)
    .next (if asking then s else { s with omsgs := setNth s.omsgs index (.invalAck k r d) })
  | _ => .next s

/-- OWNER_INVAL_ACK: with the last acknowledgement the home sends RETIRE_OK. -/
def execOwnerInvalAck (index : Nat) (s : State) : Host.Outcome State Fault Refusal :=
  match s.takeOMsg index with
  | some (.invalAck k _ d, s) =>
    let more := s.omsgs.any (fun m => match m with
      | .inval p _ x => p == k && x == d | .invalAck p _ x => p == k && x == d | _ => false)
    .next (if more then s else s.sendOMsg (.retireOk k d))
  | _ => .next s

/-- RETIRE_OK: the stub is freed, and its frame goes back to the pool. -/
def execRetireOk (index : Nat) (s : State) : Host.Outcome State Fault Refusal :=
  match s.takeOMsg index with
  | some (.retireOk k d, s) =>
    match tget none k (s.die d).stubs with
    | some (st : Stub) =>
      .next (if st.retiring then (s.modDie d (fun x => { x with stubs := tset none k none x.stubs })).poolFrame d st.frame else s)
    | none => .next s
  | _ => .next s

/-! ## Read-duplicable pages (R184, R185) -/

/-- DUP_INVAL: the holder drops its copy, whose frame is free again, and acknowledges. -/
def execDupInval (index : Nat) (s : State) : Host.Outcome State Fault Refusal :=
  match s.omsgs[index]? with
  | some (.dupInval k d) =>
    let s := { s with omsgs := setNth s.omsgs index (.dupAck k d) }
    match tget none k (s.die d).copyFrames with
    | some f => .next ((s.modDie d (fun x => { x with copyFrames := tset none k none x.copyFrames })).poolFrame d f)
    | none => .next s
  | _ => .next s

/-- What waits for a read-duplicable page's copies is performed (R158, R185): a write takes its place in the owner order, and an
atomic may be executed there. -/
def State.dupPerform (s : State) (k i : Nat) : State :=
  match (s.act k).outbox[i]? with
  | none => s
  | some e =>
    match e.kind with
    | .write cells => s.drainWrite k i e cells
    | _ => s.markEntry k i (fun e => { e with drained := true, dupWait := false })

/-- DUP_INVAL_ACK: the mask loses the holder, and with the last acknowledgement the owner performs the write that waits. -/
def execDupInvalAck (index : Nat) (s : State) : Host.Outcome State Fault Refusal :=
  match s.takeOMsg index with
  | some (.dupAck k d, s) =>
    let s := { s with copies := tset 0 k (tget 0 k s.copies &&& ~~~(1#32 <<< d)) s.copies }
    let more := s.omsgs.any (fun m => match m with | .dupInval p _ => p == k | .dupAck p _ => p == k | _ => false)
    if more || s.copiesOut k then .next s
    else
      match s.dupWaiter k with
      | some (key, i) => .next ((s.dupPerform key i).settleOwners)
      | none => .next s.settleOwners
  | _ => .next s

/-! ## Leases (R187) -/

/-- The partition of an address space. -/
def State.partOfAsid (s : State) (asid : Nat) : Option Nat := (s.parts.find? (fun p => p.2.live && p.2.asid == asid)).map (·.1)

/-- Whether a line must come back as soon as it is granted: its page is quiescing (R176), or its partition has left hint mode
(R187). -/
def State.leaseUnwanted (s : State) (line : Nat) : Bool :=
  match s.lineHome line with
  | none => false
  | some k => s.quiescing (s.home k).owner k ||
      (match s.partOfAsid (asidOfKey k) with | some p => !(s.part p).hint | none => false)

/-- Whether near atomics of a die on a line are at its slice. One whose bytes are poisoned is none (log entry 106). -/
def State.nearThere (s : State) (line d : Nat) : Bool :=
  s.acts.any (fun a => dieOf (coreOf a.1) == d && a.2.outbox.any (fun e =>
    e.drained && e.near && !e.shm && e.first / 64 == line &&
      (match e.kind with | .amo p t _ _ _ _ _ => !s.poisonAt glbGranule p t.bytes | _ => true)))

/-- LEASE_GRANT: the die holds the line; where it is unwanted there, it is recalled at once. -/
def execLeaseGrant (index : Nat) (s : State) : Host.Outcome State Fault Refusal :=
  match s.takeOMsg index with
  | some (.leaseGrant line d _, s) =>
    let s := { s with leases := tset none line (some d) s.leases }
    .next (if s.leaseUnwanted line then s.recallLease line else s)
  | _ => .next s

/-- LEASE_RECALL: once the near atomics at the leaseholder's slice are complete, the line goes back. -/
def execLeaseRecall (index : Nat) (s : State) : Host.Outcome State Fault Refusal :=
  match s.omsgs[index]? with
  | some (.leaseRecall line d) =>
    .next (if s.nearThere line d then s else { s with omsgs := setNth s.omsgs index (.leaseReturn line d (s.lineValue line)) })
  | _ => .next s

/-- LEASE_RETURN: the owner has the line back, and the access that waits for it may be served. -/
def execLeaseReturn (index : Nat) (s : State) : Host.Outcome State Fault Refusal :=
  match s.takeOMsg index with
  | some (.leaseReturn line _ _, s) => .next { s with leases := tset none line none s.leases }.settleOwners
  | _ => .next s

/-- The code or TYPE of a kind. -/
def fabricCode : FabricKind → Nat | .ownership c => c | .clock t => t

/-- Whether a kind is reserved: ownership codes 0x13 to 0xFF (R174), clock TYPEs 0x004 to 0xFFF (R297). -/
def reservedFabric : FabricKind → Bool
  | .ownership c => 0x13 ≤ c && c ≤ 0xFF
  | .clock t => 0x004 ≤ t && t ≤ 0xFFF

/-- RESERVED_KIND: an ownership message of a reserved kind (R174), or a clock message of a reserved type (R297), is discarded,
and a record names its kind. -/
def execReservedKind (kind : FabricKind) (src dst : Nat) (s : State) : Host.Outcome State Fault Refusal :=
  if reservedFabric kind then
    .next (s.note 0x85 0 (coresPerDie * (dst % numDies)) (BitVec.ofNat 64 (fabricCode kind)) (BitVec.ofNat 64 src))
  else .next s

/-! ## Counters (R186) -/

/-- The dies whose counter for a page exceeds the owner's by the margin, in order. -/
def overMargin (o thresh : Nat) (l : List (Nat × Nat)) : List Nat :=
  let own := ((l.find? (fun e => e.1 == o)).map (·.2)).getD 0
  (l.filter (fun e => e.1 != o && own + thresh ≤ e.2)).map (·.1)

/-- The counters of a page halved; those at 0 go. -/
def halfCounters (l : List (Nat × Nat)) : List (Nat × Nat) := (l.map (fun e => (e.1, e.2 / 2))).filter (fun e => e.2 != 0)

/-- The counters of a die halved. -/
def State.halveCounters (s : State) (die : Nat) : State :=
  s.modDie die (fun x =>
    { x with halved := s.cycle, counters := (x.counters.map (fun e => (e.1, halfCounters e.2))).filter (fun e => !e.2.isEmpty) })

/-- A page whose counters meet the margin moves to the first die that exceeds it, where the partition lets counters move pages. -/
def State.moveCounted (s : State) (die k : Nat) (l : List (Nat × Nat)) : State :=
  match s.partOfAsid (asidOfKey k) with
  | none => s
  | some p =>
    let t := (s.part p).thresh
    if (s.part p).hint || t = 0 then s
    else match overMargin die t l with
      | d :: _ => (s.startMigration k d).getD s
      | [] => s

/-- COUNTER_HALVING: every 2^20 cycles a die's atomic counters halve; a page whose counters meet the margin then moves. -/
def execCounterHalving (die : Nat) (s : State) : Host.Outcome State Fault Refusal :=
  if s.cycle - (s.die die).halved < 2 ^ 20 then .next s
  else .next (((s.halveCounters die).die die).counters.foldl (fun s e => s.moveCounted die e.1 e.2) (s.halveCounters die))

/-! ## MIGCTL and ATMMODE.HINT (R188, R189) -/

/-- The home-directory key of a page of a partition. -/
def State.partHome (s : State) (part page : Nat) : Nat := s.homeKey (s.part part).asid page

/-- A MIGCTL operation is refused. -/
def State.migRefuse (s : State) (part : Nat) : State := s.modPart part (fun p => { p with refused := true })

/-- Pages of an address space that are pinned. -/
def State.pinnedPages (s : State) (asid : Nat) : Nat := (s.homes.filter (fun h => asidOfKey h.1 == asid && h.2.valid && h.2.pinned)).length

/-- Pin PAGE: refused with PINFULL where 256 pages are pinned. -/
def State.pinPage (s : State) (part page : Nat) : State :=
  let k := s.partHome part page
  let h := s.home k
  if !h.valid then s.migRefuse part
  else if !h.pinned && 256 ≤ s.pinnedPages (s.part part).asid then
    s.modPart part (fun p => { p with refused := true, pinFull := true })
  else { s with homes := tset {} k { h with pinned := true } s.homes }

/-- Unpin PAGE. -/
def State.unpinPage (s : State) (part page : Nat) : State :=
  let k := s.partHome part page
  let h := s.home k
  if !h.valid then s.migRefuse part else { s with homes := tset {} k { h with pinned := false } s.homes }

/-- Move PAGE to a die of a module: refused where R175 fails, or beyond the domain's modules, of which the model has one. -/
def State.movePage (s : State) (part page dest destMod : Nat) : State :=
  let k := s.partHome part page
  if !(s.home k).valid || destMod != Config.moduleNumber || numDies ≤ dest then s.migRefuse part
  else (s.startMigration k dest).getD (s.migRefuse part)

/-- HINT written; on leaving hint mode the leases on the partition's pages are recalled. -/
def State.setHint (s : State) (part : Nat) (hint : Bool) : State :=
  let was := (s.part part).hint
  let s := s.modPart part (fun p => { p with hint := hint })
  if was && !hint then
    let asid := (s.part part).asid
    (s.homes.filter (fun h => asidOfKey h.1 == asid && h.2.valid)).foldl (fun s h =>
      match s.walk asid (vaOfKey h.1) with
      | .ok p => (s.leasedLines p.frame (pageSpan h.2.size)).foldl State.recallLease s
      | .error _ => s) s
  else s

/-- MIGCTL_PIN. -/
def execMigctlPin (part page : Nat) (s : State) : Host.Outcome State Fault Refusal := .next (s.pinPage part page)
/-- MIGCTL_UNPIN. -/
def execMigctlUnpin (part page : Nat) (s : State) : Host.Outcome State Fault Refusal := .next (s.unpinPage part page)
/-- MIGCTL_MOVE. -/
def execMigctlMove (part page dest destMod : Nat) (s : State) : Host.Outcome State Fault Refusal :=
  .next (s.movePage part page dest destMod)
/-- ATMMODE_HINT_WRITE. -/
def execAtmmodeHintWrite (part : Nat) (hint : Bool) (s : State) : Host.Outcome State Fault Refusal := .next (s.setHint part hint)

/-! ## Page entries (R121, R183) -/

/-- Whether a migration of a page whose level-4 entry stands at an address is in progress. -/
def State.entryMoving (s : State) (addr : Nat) : Bool :=
  s.homes.any (fun h =>
    let span := if h.2.size then 256 else 8
    (h.2.moving || (tget none h.1 (s.die h.2.owner).outgoing).isSome || (tget none h.1 (s.die h.2.owner).incoming).isSome ||
      s.omsgs.any (fun m => match m with | .update p _ _ => p == h.1 | _ => false)) &&
    (match s.walkTables (asidOfKey h.1) (vaOfKey h.1) with
      | .ok a => a ≤ addr && addr < a + span | .error _ => false))

/-- PAGE_ENTRY_INVALIDATION: the OS's change of an entry completes; during a migration of its page, only after it. -/
def execPageEntryInvalidation (addr : Nat) (entry : Word) (s : State) : Host.Outcome State Fault Refusal :=
  .next (if s.entryMoving addr then s else s.pokeWord (addr / 8 * 8) entry)

end Sys2Proof.Machine
end

