-- ==== Sys2Proof/Machine/Drain.lean ====
section
/-!
DEFINITION. The steps of the ordering machine that follow an issue (R157, R158): outbox entries drain, atomics are executed
at their owner or bank, writes are applied in die views; signal operations that the part sends to a block's home (R136,
R153); the weir table (R166, R237).
-/

namespace Sys2Proof.Machine

/-- An entry at its page's owner: a line under lease comes back first (R187), then a read-duplicable page's copies (R185); a near
atomic whose line is recalled is not accepted any more. -/
def State.drainAtOwner (s : State) (k i : Nat) (e : OutEntry) : State :=
  let h := s.homeOf e.page
  let recalled := s.omsgs.any (fun m => match m with | .leaseRecall l _ => l == e.first / 64 | _ => false)
  if (e.dup && s.dupTaken h (drainKey e.wid)) || (e.near && recalled) then s
  else
    let (go, s) := match e.kind with
      | .write _ => s.lineReady (dieOf (coreOf k)) (drainKey e.wid) e.first false
      | _ => (true, s)
    if !go then s
    else if e.dup && s.copiesOut h then (s.markEntry k i (fun e => { e with dupWait := true })).dupRecall h
    else
      match e.kind with
      | .write cells => s.drainWrite k i e cells
      | _ => s.markEntry k i (fun e => { e with drained := true })

/-- DRAIN: an entry with no older entry of overlapping bytes before it. A page that the OS has unmapped since the issue
was translated then (R121). -/
def execDrain (core slot index : Nat) (s : State) : Host.Outcome State Fault Refusal :=
  let k := 8 * core + slot
  let l := (s.act k).outbox
  match l[index]? with
  | none => .next s
  | some (e : OutEntry) =>
    if e.drained || e.dupWait || outBlocked l index then .next s
    else if e.shm then
      match e.kind with
      | .write cells =>
        let s := if s.poisoned.isEmpty then s else { s with poisoned := s.poisoned.filter (fun g =>
          !(cells.any (fun c => shmGranule c.1 == g && (from_ (c.1 / 8 * 8) 8).all (fun y => cells.any (fun d => d.1 == y))))) }
        .next { s.dropEntry k index with shm := mput cells s.shm }
      | _ => .next (s.markEntry k index (fun e => { e with drained := true }))
    else
      match s.route (dieOf core) (drainKey e.wid) 0 (asidOfKey e.page) (vaOf e.page e.first) 1 with
      | .unmapped => .next (s.drainAtOwner k index e)
      | .held s => .next s
      | .ready s => .next (s.drainAtOwner k index e)

/-- APPLY. -/
def execApply (die index : Nat) (s : State) : Host.Outcome State Fault Refusal :=
  .next (if s.mayApply die index then s.applyAt die index else s)

/-- Whether a drained reduction may be executed at its owner. A near one is performed under a lease, but where the page is
quiescing the owner completes it (R176). -/
def State.redReady (s : State) (d : Nat) (e : OutEntry) : Bool × State :=
  let h := s.homeOf e.page
  if e.shm then (true, s)
  else
    let (go, s) := s.dupReady e.dup h (drainKey e.wid)
    let owner := (s.home h).owner
    if !go then (false, s)
    else s.lineReady d (drainKey e.wid) e.first (e.near && (!s.quiescing owner h || tget none (e.first / 64) s.leases == some d))

/-- Drained reductions into the same weir element as an entry, slot and place of each, which a router may have merged with it
(R167). -/
def State.mergeable (s : State) (k i : Nat) (e : OutEntry) (a : Nat) : List (Nat × Nat) :=
  (s.acts.flatMap (fun x => x.2.outbox.zipIdx.map (fun o => (x.1, o.2, o.1)))).filterMap (fun x =>
    match x.2.2.kind with
    | .red b _ _ _ => if x.2.2.drained && !x.2.2.shm && x.2.2.weir == e.weir && b == a && (x.1, x.2.1) != (k, i) then some (x.1, x.2.1) else none
    | _ => none)

/-- The entries, each by its slot and place, leave their outboxes: the last places first. -/
def State.dropEntries (s : State) (l : List (Nat × Nat)) : State :=
  { s with acts := s.acts.map (fun x =>
      (x.1, { x.2 with outbox := (x.2.outbox.zipIdx.filter (fun o => !l.contains (x.1, o.2))).map (·.1) })) }

/-- The contribution of an outbox entry: its die, identity and operand. -/
def State.contribution (s : State) (x : Nat × Nat) : List (Nat × Nat × Word) :=
  match (s.act x.1).outbox[x.2]? with
  | some { kind := .red _ _ v _, wid := w, .. } => [(dieOf (coreOf x.1), w, v)]
  | _ => []

/-- A reduction into a valid weir is applied, with those that have merged with it, as one write (R167, R236, R237). Which have
merged is a free choice (log entry 7). -/
def State.weirExecute (s : State) (k i : Nat) (e : OutEntry) (n a : Nat) (v : Word) : State :=
  let others := s.mergeable k i e a
  let chosen := (others.zipIdx.filter (fun x => (Config.freeValue s.fresh).getLsbD x.2)).map (·.1)
  let parts := chosen.flatMap s.contribution
  let s := if others.isEmpty then s else { s with fresh := s.fresh + 1 }
  let s := (s.dropEntries ((k, i) :: chosen)).closeExact a (tget ({} : WeirEntry) n s.weirs).ty.bytes
  let (s, w) := s.weirUpdate n a (v :: parts.map (·.2.2))
  s.writeGlb (dieOf (coreOf k)) e.wid a e.dup (leBytes (tget ({} : WeirEntry) n s.weirs).ty.bytes w.toNat)
    (parts.map (fun x => (x.1, x.2.1)))

/-- An atomic arrives at the owner's home slice of its page (R186). -/
def State.countEntry (s : State) (d : Nat) (e : OutEntry) : State :=
  match s.partOfAsid (asidOfKey e.page) with
  | some p => if e.near then s else s.countAtomic (s.part p) d (s.homeOf e.page)
  | none => s

/-- A reduction executed at its owner or bank: the sum by its window, its accumulator, or one rounding (R165, R236, R239).
A poisoned granule keeps its poison, and nothing is read from it (R215). -/
def State.redExecute (s : State) (k i : Nat) (e : OutEntry) (a : Nat) (t : Ty) (v : Word) (exact : Bool) : State :=
  let d := dieOf (coreOf k)
  if e.shm then
    let s := s.dropEntry k i
    if s.poisonAt shmGranule a t.bytes then s
    else
      let old := BitVec.ofNat 64 (leNat (mread a t.bytes s.shm))
      { s.unpoison shmGranule a t.bytes with shm := mwrite a (leBytes t.bytes (amoVal 1 t old v).toNat) s.shm }
  else
    let s := s.countEntry d e
    if s.poisonAt glbGranule a t.bytes then s.dropEntry k i
    else
      match e.weir.filter (fun n => (tget ({} : WeirEntry) n s.weirs).valid) with
      | some n => s.weirExecute k i e n a v
      | none =>
        let s := (s.dropEntry k i).sealRun a (vaOf e.page a) t.bytes
        let (s, w) :=
          if exact then s.exactUpdate (s.home (s.homeOf e.page)).owner a t v
          else (s.closeExact a t.bytes, amoVal 1 t (BitVec.ofNat 64 (leNat (mread a t.bytes s.glb))) v)
        s.writeGlb d e.wid a e.dup (leBytes t.bytes w.toNat)

/-- The new value of an atomic, if it writes: its operation applied to the old value, or, for a compare-and-swap, its operand
where the old bits are as expected (R346, R356). -/
def atomicNew (t : Ty) (op : Option Nat) (v expect old : Word) : Option Word :=
  match op with
  | some o => some (amoVal o t old v)
  | none => if pat t old = pat t expect then some v else none

/-- The old value reaches the word of an atomic, which it binds (R155, R347): the register is written, and later accesses wait
for an acquire until its write is performed (R156, R160). -/
def State.bindAtomic (s : State) (k seq : Nat) (t : Ty) (old : Word) (acq : List (Scope × Nat)) : State :=
  match ((s.act k).late.find? (fun p => p.seq == seq)).bind (·.fields) with
  | none => s
  | some (_, w) =>
    let n := opndNum w.a
    let s := if s.poisoned.isEmpty then s else { s with poisoned := s.poisoned.filter (· != .sreg (coreOf k) (slotOf k) n) }
    s.modAct k (fun x => { x.sSet n (loadExt t (leBytes t.bytes old.toNat)) with late := dropSeq seq x.late, acq := x.acq ++ acq })

/-- An atomic executed at its owner or bank, at one place of the owner order (R157, R165, R347). -/
def State.amoExecute (s : State) (k i : Nat) (e : OutEntry) (a : Nat) (t : Ty) (op : Option Nat) (v expect : Word) (seq : Nat)
    (acq : Bool) : State :=
  let d := dieOf (coreOf k)
  let s := s.dropEntry k i
  let put (s : State) (old : Word) (s' : State) (wrote : Bool) : State :=
    (if wrote then s' else s).bindAtomic k seq t old (if acq && wrote then [(e.scope, e.wid)] else [])
  if e.shm then
    let old := BitVec.ofNat 64 (leNat (mread a t.bytes s.shm))
    match atomicNew t op v expect old with
    | none => put s old s false
    | some x => put s old { s.unpoison shmGranule a t.bytes with shm := mwrite a (leBytes t.bytes x.toNat) s.shm } true
  else
    let old := BitVec.ofNat 64 (leNat (mread a t.bytes s.glb))
    let s := (((s.countEntry d e).noteIds k (s.ownerIds a t.bytes)).sealRun a (vaOf e.page a) t.bytes).closeExact a t.bytes
    match atomicNew t op v expect old with
    | none => put s old s false
    | some x => put s old (s.writeGlb d e.wid a e.dup (leBytes t.bytes x.toNat)) true

/-- An atomic that meets poison at its owner or bank (R215): it is not performed, and its word faults where nothing of the
activation has issued since (R161, R193); otherwise it waits (log entry 106). -/
def State.amoPoisoned (s : State) (k i : Nat) (e : OutEntry) (a seq : Nat) : State :=
  match (s.act k).late.find? (fun p => p.seq == seq) with
  | none => s
  | some p =>
    if (s.act k).lastIssued p then
      let s := (s.dropEntry k i).modAct k (fun x => { x with own := x.own.filter (fun o => o.1 != e.wid) })
      s.lateFault k p { code := 0x15, space := if e.shm then 2 else 4
                        addr := BitVec.ofNat 64 (if e.shm then a % 2 ^ 27 else vaOf e.page a) }
    else s

/-- ATOMIC_AT_OWNER: a drained reduction or atomic takes its place in the owner order, or meets poison there. -/
def execAtomicAtOwner (core slot index : Nat) (s : State) : Host.Outcome State Fault Refusal :=
  let k := 8 * core + slot
  match (s.act k).outbox[index]? with
  | some (e : OutEntry) =>
    if !e.drained then .next s
    else
      let (go, s) := s.redReady (dieOf core) e
      if !go then .next s
      else
        match e.kind with
        | .red a t v exact => .next (s.redExecute k index e a t v exact).settleOwners
        | .amo a t op v expect seq acq =>
          if s.poisonAt (if e.shm then shmGranule else glbGranule) a t.bytes then .next (s.amoPoisoned k index e a seq).settleOwners
          else .next (s.amoExecute k index e a t op v expect seq acq).settleOwners
        | .write _ => .next s
  | none => .next s

/-! ## Signal operations that the part sends (R136, R153) -/

/-- Whether an operation may be performed at its block's home. One that comes to a page on the move waits there (R176,
R177). -/
def State.homeOpReady (s : State) (o : HomeOp) : Bool × State :=
  if 2 ^ 48 ≤ o.home then (true, s)
  else
    let k := s.homeOf o.page
    let h := s.home k
    let n := lineOf h.size (vaOf o.page o.home)
    if s.quiescing h.owner k || !s.linesHere h.owner k n n then (false, s.awaitLines h.owner k n n)
    else
      let (go, s) := s.dupReady o.dup k (homeOpKey o.home)
      if !go then (false, s) else s.lineReady o.die (homeOpKey o.home) o.home false

/-- SIGNAL_HOME_OP: the operation is performed at the block's home; on a block that no operation may use, and which has no
issuer to fault, it changes nothing. -/
def execSignalHomeOp (index : Nat) (s : State) : Host.Outcome State Fault Refusal :=
  match s.homeOps[index]? with
  | none => .next s
  | some (o : HomeOp) =>
    let (go, s) := s.homeOpReady o
    if !go then .next s
    else
      let s := { s with homeOps := dropNth s.homeOps index }
      let b := s.block o.home
      if !b.live || b.bad then .next s
      else
        let wid := s.nextWid
        let s := { s with nextWid := wid + 1 }
        .next (if o.poison then s.sigPoison o.die wid o.home o.dup o.units
          else s.sigUpdate o.die wid o.home o.dup false o.add o.units)

/-! ## The weir table (R166, R237, R238) -/

/-- Whether every page of a stretch of GLB that is mapped in an address space has a path that a compute die owns. -/
def State.stretchOwned (s : State) (asid base n : Nat) : Bool :=
  (upTo ((base + n - 1) / 65536 - base / 65536 + 1)).all (fun j =>
    match s.walk asid ((base / 65536 + j) * 65536) with | .ok p => p.path.owned | .error _ => true)

/-- The rules of R166 for an entry that is to be valid. -/
def State.weirLegal (s : State) (index : Nat) (e : WeirEntry) : Bool :=
  e.base % 64 = 0 && e.length % 64 = 0 && 64 ≤ e.length && e.length ≤ 2 ^ 39 && e.base + e.length ≤ 2 ^ 56 &&
  (e.ty == .f32 || e.ty == .f64 || e.ty == .i64) && -(2 ^ 15) ≤ e.expb && e.expb < 2 ^ 15 &&
  !(s.weirs.any (fun x => x.1 != index && x.2.valid && x.2.base < e.base + e.length && e.base < x.2.base + x.2.length)) &&
  (s.parts.filter (fun p => p.2.live)).all (fun p => s.stretchOwned p.2.asid e.base e.length) &&
  !(s.homes.any (fun h => h.2.valid && vaOfKey h.1 < e.base + e.length && e.base < vaOfKey h.1 + pageSpan h.2.size &&
    (h.2.moving || (tget none h.1 (s.die h.2.owner).outgoing).isSome)))

/-- WEIR_TABLE_WRITE: a legal entry is written; one that becomes valid takes its totals from memory, and its status is
cleared. -/
def execWeirTableWrite (index : Nat) (entry : WeirEntry) (s : State) : Host.Outcome State Fault Refusal :=
  if 16 ≤ index || (entry.valid && !s.weirLegal index entry) then .next s
  else
    let s' := { s with
      weirs := tset {} index entry s.weirs
      weirTot := s.weirTot.filter (fun e => e.1 % 16 != index) }
    .next (if entry.valid then { s' with weirStat := tset 0 index 0 s'.weirStat } else s')

end Sys2Proof.Machine
end

