-- ==== Sys2Proof/Machine/System.lean ====
section
/-!
DEFINITION. The system words: BRK, MFC, MTC, PARK, UNPARK, STAMP, TRACE, TRAP, TRIG (R51, R355, R386, R387, R393, R411,
R420 to R422), and the control registers.
-/

namespace Sys2Proof.Machine

/-! ## BRK and TRAP -/

/-- BRK's effect: BREAKPOINT at the word (R355). -/
def effBrk (w : Operands) (s : State) : Res := .fault { code := 0x05, addr := s.val w.c } s
/-- BRK. -/
def execBrk (w : Operands) (s : State) := issue 0x380 w (effBrk w) s

/-- TRAP's effect: TRAP_REQUEST at the word (R420). -/
def effTrap (w : Operands) (s : State) : Res := .fault { code := 0x06, addr := s.val w.c } s
/-- TRAP. -/
def execTrap (w : Operands) (s : State) := issue 0x387 w (effTrap w) s

/-! ## Control registers -/

/-- SELF (R266). -/
def selfReg (core : Nat) : Word := wordOf [(32, physOf core), (0, coreAddr core)]

/-- SLOT (R65). -/
def slotReg (slot : Nat) (a : Act) : Word :=
  wordOf [(32, a.inline), (16, a.stage.toNat), (10, a.origin.code), (8, a.cls.code), (0, slot)]

/-- PART (R93). -/
def partReg (n : Nat) (p : Part) : Word :=
  wordOf [(48, p.clusters.length), (32, p.launchNo), (12, if p.lt then 1 else 0), (0, n)]

/-- LTMODE (R287). -/
def ltmodeReg (p : Part) (c : Core) (a : Act) : Word :=
  wordOf [(32, p.quantum), (17, c.outs.length), (12, c.ins.length), (1, if a.event then 1 else 0), (0, if p.lt then 1 else 0)]

/-- Used octets of the first n physical clusters of a die (R96). -/
def usedOctets (d : Nat) : Nat → Nat
  | 0 => 0
  | n + 1 => usedOctets d n + ((upTo 8).filter (octetUsed d n)).length

/-- HMAPn as the core reads it (R96): QPASS and MMPASS, with FIRSTLOG and SPARE counted from them. -/
def hmapReg (d n : Nat) : Word :=
  let spare := ((upTo 8).filter (octetSpare d n)).foldl (fun m k => m + 2 ^ k) 0
  wordOf [(32, if (upTo 8).any (octetUsed d n) then 8 * usedOctets d n else 0x7FFF), (24, spare), (0, (passBits d n).toNat)]

/-- TRCCTL as it reads (R317). -/
def State.trcctlReg (s : State) (core : Nat) : Word :=
  let c := s.core core
  c.trcctl ||| wordOf [(6, c.rmode.code), (4, s.capFsel), (3, if s.capOn (dieOf core) then 1 else 0)]

/-- MIGCTL as it reads (R189). -/
def migctlReg (p : Part) : Word :=
  wordOf [(8, p.thresh), (2, if p.pinFull then 1 else 0), (1, if p.refused then 1 else 0)]

/-- A control register as the word in execution reads it (R51). -/
def State.ctlRead (s : State) (n : Nat) : Word :=
  let core := s.myCore
  let a := s.me
  let p := s.myPart
  match n with
  | 0x00 => selfReg core
  | 0x01 => slotReg (slotOf s.cur) a
  | 0x02 => partReg a.part p
  | 0x03 => BitVec.ofNat 64 p.asid
  | 0x04 => s.oblFloor core a
  | 0x05 => s.oblCount core a
  | 0x06 => if p.lt then BitVec.ofNat 64 (s.core core).lvt else 0
  | 0x07 => BitVec.ofNat 64 (if p.lt then s.safe core else never)
  | 0x08 => ltmodeReg p (s.core core) a
  | 0x09 => 0x2010
  | 0x0A => a.fpctl
  | 0x0B => a.fpflags
  | 0x0C => (s.core core).mmwgt
  | 0x0D => s.trcctlReg core
  | 0x0E => s.lptBase
  | 0x0F => a.faultInfo
  | 0x10 => wordOf [(1, if a.near then 1 else 0), (0, if p.hint then 1 else 0)]
  | 0x11 => migctlReg p
  | n => if 0x100 ≤ n && n ≤ 0x24F then hmapReg (dieOf core) (n - 0x100) else 0

/-- Whether the activation is privileged (R335). -/
def Act.privileged (a : Act) : Bool := a.cls == .system

/-- The profile table of a core cleared (R317, R320). -/
def State.clearProfile (s : State) (core : Nat) : State := s.modCore core (fun c => { c with profile := [] })

/-- TRCCTL written (R317). -/
def State.trcctlWrite (s : State) (core : Nat) (v : Word) : State :=
  let s := s.modCore core (fun c => { c with trcctl := v &&& 0xFF00000003 })
  if v.getLsbD 2 then s.clearProfile core else s

/-- MIGCTL written (R189): THRESH and the RW1C bits, then the operation. -/
def State.migctlWrite (s : State) (part : Nat) (v : Word) : State :=
  let s := s.modPart part (fun p =>
    { p with thresh := (bits v 8 8).toNat, pinFull := p.pinFull && !v.getLsbD 2, refused := p.refused && !v.getLsbD 1 })
  let page := (bits v 16 40).toNat
  match (bits v 62 2).toNat with
  | 0 => s
  | 1 => s.pinPage part page
  | 2 => s.unpinPage part page
  | _ => s.movePage part page (bits v 57 5).toNat (bits v 3 5).toNat

/-- LPTBASE as a write leaves it (R97). -/
def lptMask : Word := 0x00FFFFFFFFFFF001

/-- A control register written by the word in execution (R387); read-only ones ignore it. -/
def State.ctlWrite (s : State) (n : Nat) (v : Word) : State :=
  let core := s.myCore
  let priv := s.me.privileged
  match n with
  | 0x0A => s.modMe (fun a => { a with fpctl := v &&& 7 })
  | 0x0B => s.modMe (fun a => { a with fpflags := v &&& 0x71F })
  | 0x0C => s.modCore core (fun c => { c with mmwgt := v &&& 0xF })
  | 0x0D => s.trcctlWrite core v
  | 0x0E => if priv then { s with lptBase := v &&& lptMask } else s
  | 0x10 =>
    let s := s.modMe (fun a => { a with near := v.getLsbD 1 })
    if priv then s.setHint s.me.part (v.getLsbD 0) else s
  | 0x11 => s.migctlWrite s.me.part v
  | _ => s

/-- The number of the register that the word names. -/
def State.ctlNum (s : State) (w : Operands) : Nat := (s.val w.c).toNat

/-- Whether a write of FPCTL or FPFLAGS, or a read of FPFLAGS, waits for the earlier V words of the activation (R223, R387). -/
def State.flagsWait (s : State) (n : Nat) : Bool := (n == 0x0A || n == 0x0B) && (s.me.pend ++ s.me.late).any (fun p => p.strm == .V)

/-- MFC's effect (R387). -/
def effMfc (w : Operands) (s : State) : Res :=
  if s.ctlNum w = 0x0B && s.flagsWait 0x0B then .stall s
  else .done (s.modMe (fun a => a.sSet (opndNum w.a) (s.ctlRead (s.ctlNum w))))

/-- MFC. -/
def execMfc (w : Operands) (s : State) := issue 0x381 w (effMfc w) s

/-- MTC's effect (R387). -/
def effMtc (w : Operands) (s : State) : Res :=
  let n := s.ctlNum w
  let v := s.val w.a
  match s.deferredIn 0x382 w [0] with
  | some f => .fault f s
  | none =>
    if n = 0x11 && !s.me.privileged then .fault { code := 0x03, addr := 0x11, info := v } s
    else if s.flagsWait n then .stall s
    else .done (s.ctlWrite n v)

/-- MTC. -/
def execMtc (w : Operands) (s : State) := issue 0x382 w (effMtc w) s

/-! ## PARK and UNPARK -/

/-- Whether some slot of a core has a register parked in a place that a test accepts. -/
def State.parkedIn (s : State) (core : Nat) (p : Bool → Spill → Bool) : Bool :=
  (slotsOf core).any (fun k => (s.act k).spill.any (fun e => p (64 ≤ e.1) e.2))

/-- A free column of a FREE tile of a core's window: 16 × tile + column (R117). -/
def State.freeColumn (s : State) (core : Nat) : Option Nat :=
  (upTo 128).find? (fun i => !s.heldTile core (i / 16) && !s.parkedIn core (fun _ e => e.place == .acc && e.index == i))

/-- A free register in the bank of a FREE slot of a core: 32 × slot + register (R117). Register 0 of the s file holds no
value. -/
def State.freeCell (s : State) (core : Nat) (isV : Bool) : Option Nat :=
  (upTo 256).find? (fun i =>
    let b := s.act (8 * core + i / 32)
    b.st == .free && !(i % 32 = 0 && !isV) && !s.parkedIn core (fun v e => v == isV && e.place == .bank && e.index == i))

/-- Whether earlier words that write a register have not issued (R393). -/
def State.parkWaits (s : State) (isV : Bool) (n : Nat) : Bool :=
  (s.me.pend ++ s.me.late).any (fun p =>
    p.gv != some false &&
    if isV then p.strm == .V
    else match p.fields with | some (opc, x) => sDest opc x == some (BitVec.ofNat 6 n) | none => false)

/-- A register's value placed under R117 with its deferral bit and poison; its own granule is then clean. -/
def State.parkAt (s : State) (k : Nat) (isV : Bool) (n fall : Nat) : State :=
  let core := coreOf k
  let a := s.act k
  let v := if isV then a.vGet n else wordLanes (a.sGet n)
  let dfr := if isV then a.vDef n else a.sDef n
  let gs := regGranules core (slotOf k) isV n
  let bad := granuleMask s.poisoned.contains gs
  let s := if bad = 0 then s else { s with poisoned := s.poisoned.filter (fun g => !gs.contains g) }
  let put (s : State) (e : Spill) : State := s.modAct k (fun a => { a with spill := tset {} (spillKey isV n) e a.spill })
  match s.freeColumn core with
  | some i =>
    let kept (j : Nat) : Bool := s.poisoned.contains (.acc core (256 * (i / 16) + 16 * j + i % 16 / 2 * 2))
    let stays := (upTo (parkBytes isV / 8)).foldl (fun n j => if kept (2 * j) || kept (2 * j + 1) then n + 2 ^ j else n) 0
    put (s.colSet core (i / 16) (i % 16) v)
      { place := .acc, fall := fall / 8, index := i, dfr := dfr, poison := bad ||| BitVec.ofNat 8 stays }
  | none =>
    match s.freeCell core isV with
    | some i =>
      let cell := regGranules core (i / 32) isV (i % 32)
      let s := if s.poisoned.isEmpty then s else { s with poisoned := s.poisoned.filter (fun g => !cell.contains g) }
      put (s.modAct (8 * core + i / 32) (fun b => if isV then b.vSet (i % 32) v else b.sSet (i % 32) (lanesWord v)))
        { place := .bank, fall := fall / 8, index := i, dfr := dfr, poison := bad }
    | none => put (s.toFall core isV (fall / 8) v bad) { place := .loc, fall := fall / 8, dfr := dfr }

/-- PARK's effect (R393). -/
def effPark (w : Operands) (s : State) : Res :=
  let isV := match w.a with | .reg .v _ _ => true | _ => false
  let n := opndNum w.a
  let size := parkBytes isV
  match s.deferredIn 0x383 w [2] with
  | some f => .fault f s
  | none =>
    let fall := s.val w.c
    if s.parkWaits isV n then .stall s
    else if (s.me.spillOf isV n).place != .none then .done s
    else if fall.toNat % size != 0 || 2 ^ 15 ≤ fall.toNat || !(from_ fall.toNat size).all s.me.locWrite then
      .fault { code := 0x08, space := 1, addr := fall } s
    else .done (s.parkAt s.cur isV n fall.toNat)

/-- PARK. -/
def execPark (w : Operands) (s : State) := issue 0x383 w (effPark w) s

/-- UNPARK's effect (R422). -/
def effUnpark (w : Operands) (s : State) : Res :=
  .done (s.unparkAt s.cur (match w.a with | .reg .v _ _ => true | _ => false) (opndNum w.a))

/-- UNPARK. -/
def execUnpark (w : Operands) (s : State) := issue 0x384 w (effUnpark w) s

/-! ## STAMP and TRACE -/

/-- STAMP's effect (R411): the time base, or the activation's stamp. -/
def effStamp (w : Operands) (s : State) : Res :=
  match s.deferredIn 0x385 w [2] with
  | some f => .fault f s
  | none => .done (s.modMe (fun a => a.sSet (opndNum w.a) (if (s.val w.c).getLsbD 0 then a.stamp else s.time)))

/-- STAMP. -/
def execStamp (w : Operands) (s : State) := issue 0x385 w (effStamp w) s

/-- TRACE's effect (R316, R420). -/
def effTrace (w : Operands) (s : State) : Res :=
  match s.deferredIn 0x386 w [0] with
  | some f => .fault f s
  | none =>
    let c := s.core s.myCore
    if c.trcctl.getLsbD 0 then
      .done (s.trace 0x05 s.cur s.me (s.val w.a)
        (wordOf [(32, (bits c.trcctl 32 8).toNat), (0, (bits (s.val w.c) 0 19).toNat)]))
    else .done s

/-- TRACE. -/
def execTrace (w : Operands) (s : State) := issue 0x386 w (effTrace w) s

/-! ## TRIG (R100, R102, R421) -/

/-- TRIG's effect: a release at .mod, then the core counts as triggered. -/
def effTrig (s : State) : Res :=
  if !s.releaseReady .mod || !s.endedDone s.myCore then .stall s
  else .done (s.modCore s.myCore (fun c => { c with triggered := true, ended := [] }))

/-- TRIG. -/
def execTrig (w : Operands) (s : State) := issue 0x388 w effTrig s

end Sys2Proof.Machine
end

