-- ==== Sys2Proof/Machine/Faults.lean ====
section
/-!
DEFINITION. Saves and restorations as events (R148, R161, R193, R198, R202, R213), the OS's service of faults (R203, R207 to
R209, R216), termination (R153), ECC events (R214), and dead messages dispatched again (R139).
-/

namespace Sys2Proof.Machine

/-! ## Saving -/

/-- What the save of a slot waits for: its accesses are performed (R161), and what the word at PC has asked for is answered;
a host's save follows its SPAWN's refusal (R81). -/
def State.saveReady (s : State) (k : Nat) : Bool :=
  let a := s.act k
  let host := match a.save with | some (v : SaveReq) => v.why == .host | none => false
  s.performed k .mod && a.late.isEmpty &&
    (match a.asked with | none => true | some (.room _ _) => true | some (.spawn _ _ _) => host | some _ => false)

/-- A parked item renamed in a die's coalescing table. -/
def State.renameParked (s : State) (d : Nat) (old new : Parked) : State :=
  s.modDie d (fun x => { x with coal := x.coal.map (fun e =>
    (e.1, e.2.map (fun c => { c with items := c.items.map (fun i => if i == old then new else i) }))) })

/-- A restoration queued at the dispatcher of the core that a frame names, unless one is queued for it already (R209, R216). -/
def State.queueRestore (s : State) (part n : Nat) (how : ResumeHow) : State :=
  let key := frameKey part n
  if s.cores.any (fun e => e.2.restores.any (fun r => r.1 == key)) then s
  else s.modCore (s.frameCore part n) (fun c => { c with restores := c.restores ++ [(key, how)] })

/-- An inline child starts on its host's slot: it takes the given obligations and the host's class, stamp and dispatch number,
and inherits the host's floor (R81, R141, R321). -/
def State.startChild (s : State) (k n : Nat) (host : Act) (entry : Word) (args : List Word) (given : List Obl)
    (inh : Option Rank) : State :=
  let s := s.clearBank k
  let a : Act :=
    { st := .starting, s := tabOf 0 5 (fun i => if i = 0 then 0 else nth 0 args (i - 1))
      regions := s.regionsAt (s.part host.part).asid entry, pc := entry, entry := entry, origin := .child
      inline := host.inline + 1, cls := host.cls, stamp := host.stamp, part := host.part, inh := inh, hostFrame := some n
      dseq := host.dseq, outbox := (s.act k).outbox, uid := s.nextUid, started := s.cycle
      lastIssue := s.cycle, traceTag := wordOf [(39, coreAddr (coreOf k))] }
  let a := a.takeGiven (given.map (fun o => { o with staged := false }))
  ({ s.setAct k a with nextUid := s.nextUid + 1 }).trace 0x01 k a 0 0

/-- The SAVE record of a frame (R316). -/
def State.traceSave (s : State) (k n : Nat) (why : SaveWhy) (code : Nat) : State :=
  s.trace 0x03 k (s.act k) (wordOf [(56, code), (52, why.code)]) (BitVec.ofNat 64 n)

/-- The host of an inline child is saved behind its SPAWN, and the child starts (R81). -/
def State.saveHost (s : State) (k n : Nat) (w : Operands) (given : List Obl) (inh : Option Rank) : State :=
  let a := s.act k
  let entry := { s with cur := k, iss := .front }.val w.c
  let args := (from_ 1 4).map a.sGet
  let s := (s.modAct k (fun a => (a.sSet (opndNum w.a) 1).answer)).cleanS k [opndNum w.a]
  let host := s.act k
  ((s.traceSave k n .host 0).saveInto k n .host 0).startChild k n host entry args given inh

/-- The frame of a faulting activation is complete: the item takes the slot's place, its record is written, and a wait that
the save was for, or an entry already served, queues the restoration (R203, R205, R209). -/
def State.afterSave (s : State) (k n : Nat) (a : Act) (v : SaveReq) : State :=
  let core := coreOf k
  let d := dieOf core
  let asid := (s.part a.part).asid
  match v.fault with
  | none =>
    if v.why == .forMessage && a.wrel != .none then s.queueRestore a.part n .atWord else s
  | some f =>
    let ws := recordWords f asid false v.pc (some n) core (slotOf k) a.stamp
    if delivOf f.code != .parked then s.post asid ws
    else
      let s := s.renameParked d (.slot k) (.frame core n)
      let s := s.modDie d (fun x => { x with overflow := x.overflow.map (fun o =>
        if o.1 == .slot k then (.frame core n, o.2.1, o.2.2.1, ws) else o) })
      if v.served then s.queueRestore a.part n .atWord
      else
        match v.coal with
        | some i => if v.lead then s.coalRecord d i asid f.code ws else s
        | none => s

/-- The save of a slot into a frame (R202). -/
def State.saveNow (s : State) (k n : Nat) (v : SaveReq) : State :=
  let s := s.forgetKey k
  let a := s.act k
  let s := s.modCore (coreOf k) (fun c => if c.covered && v.why != SaveWhy.host then { c with stopSaved := c.stopSaved ||| (1#8 <<< slotOf k) } else c)
  match v.why, a.asked with
  | .host, some (.spawn w given inh) => s.saveHost k n w given inh
  | why, _ =>
    let code := match v.fault with | some f => f.code | none => 0
    (((s.traceSave k n why code).saveInto k n why code).afterSave k n a v).leaveIfFree (coreOf k)

/-- An R148 save that finds no free frame is not carried out: the activation waits on, with what its wait has come to
(R198). -/
def State.unsave (s : State) (k : Nat) : State :=
  (s.modAct k (fun a => { a with st := .running, save := none })).resumeWait k

/-- The save of a slot goes on: once it is ready, the die's next free frame takes it; with none, FRAME_EMPTY is reported
once (R198). -/
def State.trySave (s : State) (k : Nat) : State :=
  let a := s.act k
  let core := coreOf k
  match a.st, a.save with
  | .saving, some v =>
    if !s.saveReady k then s
    else
      match (s.die (dieOf core)).frames with
      | n :: r => (s.modDie (dieOf core) (fun x => { x with frames := r })).saveNow k n v
      | [] =>
        if v.why == .forMessage then s.unsave k
        else if v.noted then s
        else (s.modAct k (fun a => { a with save := some { v with noted := true } })).note 0x84 (s.part a.part).asid core 0 0
  | _, _ => s

/-- FRAME_SAVE. -/
def execFrameSave (core slot : Nat) (s : State) : Host.Outcome State Fault Refusal := .next (s.trySave (8 * core + slot))

/-- PREEMPT's effect on one slot (R213, R216): a save in progress stays one save, one for a pending message with REASON 0x1 from
then on; a SPAWN refused for want of a slot is taken back (R81). -/
def State.preemptSlot (s : State) (k : Nat) : State :=
  let a := s.act k
  match a.st with
  | .free => s
  | .saving =>
    match a.save, a.asked with
    | some { why := .host, .. }, some (.spawn _ given _) =>
      (s.modAct k (fun a => { a.restage given with asked := none, save := some { why := .preempt, pc := a.pc } })).annotate k 5 a.pc
    | some { why := .forMessage, .. }, _ => s.modAct k (fun a => { a with save := a.save.map (fun v => { v with why := .preempt }) })
    | _, _ => s
  | _ => (s.modAct k (fun a => { a with st := .saving, save := some { why := .preempt, pc := a.pc } })).annotate k 5 a.pc

/-- PREEMPT: the system message names slots of a core. -/
def execPreempt (core : Nat) (mask : BitVec 8) (s : State) : Host.Outcome State Fault Refusal :=
  .next ((upTo 8).foldl (fun s n => if mask.getLsbD n then s.preemptSlot (8 * core + n) else s) s)

/-! ## Restoring -/

/-- CLASS of a frame's header. -/
def State.frameCls (s : State) (part n : Nat) : Cls :=
  let p := s.part part
  match hf (s.peekVirt p.asid (p.frameVa n) 16) 1 8 2 with | 0 => .system | 1 => .handler | _ => .firing

/-- Whether a restoration of a class may go on at a core: it is not held by a precise stop, in reset or shut down, and no system
message waits there for the slot of its class (R209, R318). -/
def State.mayRestore (s : State) (core : Nat) (cls : Cls) : Bool :=
  let c := s.core core
  !c.covered && !c.inReset && s.diesOut && !s.tooHot && !(cls == .system && c.inQ.any (fun m => m.vn == .system))

/-- FRAME_RESTORE: the restoration that has been queued longest at a core takes a free slot that its class may use, or waits
(R202, R209, R216). -/
def execFrameRestore (core : Nat) (s : State) : Host.Outcome State Fault Refusal :=
  match (s.core core).restores with
  | [] => .next s
  | (key, how) :: r =>
    let part := key / 2 ^ 28
    let n := key % 2 ^ 28
    let cls := s.frameCls part n
    match (if s.mayRestore core cls then s.freeSlotFor core cls else none) with
    | none => .next s
    | some k =>
      match (s.modCore core (fun c => { c with restores := r })).restoreInto k part n how with
      | .refused s => .next s
      | .ok s => .next ((s.trace 0x04 k (s.act k) 0 (BitVec.ofNat 64 n)).completeTimers core)

/-! ## The OS's service through FSVC (R208, R209) -/

/-- A parked item is served. -/
def State.serveItem (s : State) (part : Nat → Nat → Option Nat) : Parked → State
  | .frame core n => match part core n with | some p => s.queueRestore p n .atWord | none => s
  | .cmd core id => s.unparkCmd core id
  | .slot k => s.modAct k (fun a => { a with save := a.save.map (fun v => { v with served := true }) })

/-- A coalescing entry is served: its items in parking order, and it is freed. -/
def State.serveEntry (s : State) (d n : Nat) : State :=
  match tget none n (s.die d).coal with
  | none => s
  | some (c : Coal) =>
    let s := s.coalSet d n none
    (c.items.foldl (fun s i => s.serveItem (s.partOfFrame c.asid) i) s).fromOverflow d n ((s.die d).overflow.length + c.items.length)

/-- PAGE_READY: the entry of a die that holds the address space and page, if there is one, is served. -/
def execPageReady (die asid page : Nat) (s : State) : Host.Outcome State Fault Refusal :=
  match s.coalFind die asid page with
  | some n => .next (s.serveEntry die n)
  | none => .next s

/-- RELEASE_ENTRY. -/
def execReleaseEntry (die entry : Nat) (s : State) : Host.Outcome State Fault Refusal := .next (s.serveEntry die entry)

/-- The slots of a die's cores. -/
def slotsOfDie (acts : Tab Act) (d : Nat) : List Nat := (acts.filter (fun e => e.1 < 8 * numCores && dieOf (coreOf e.1) == d)).map (·.1)

/-- PUSH_FREE_FRAME: the frame number goes onto the die's stack of at most 1,024, and a save that waits for one completes. -/
def execPushFreeFrame (die frame : Nat) (s : State) : Host.Outcome State Fault Refusal :=
  if 1024 ≤ (s.die die).frames.length then .next s
  else
    let s := s.modDie die (fun x => { x with frames := frame :: x.frames })
    let waits (k : Nat) : Bool := (s.act k).st == .saving &&
      (match (s.act k).save with | some (v : SaveReq) => v.noted | none => false)
    match (slotsOfDie s.acts die).find? waits with
    | some k => .next (s.trySave k)
    | none => .next s

/-- An item leaves every coalescing entry. -/
def State.leaveEntries (s : State) (p : Parked → Bool) : State :=
  { s with dies := s.dies.map (fun e => (e.1,
      { e.2 with
        coal := (e.2.coal.map (fun x => (x.1, x.2.map (fun c => { c with items := c.items.filter (fun i => !p i) }))))
        overflow := e.2.overflow.filter (fun o => !p o.1) })) }

/-- Whether the OS may resume a frame: it holds a saved activation that is no host of an inline child. -/
def State.resumable (s : State) (part n : Nat) : Bool :=
  let host := match (tget {} (frameKey part n) s.framed).save with | some (v : SaveReq) => v.why == .host | none => false
  (s.part part).framesOut.contains n && !host

/-- The entry bound to the recovery type of a partition. -/
def State.recovery (s : State) (part : Nat) : Option Word := (s.part part).handler 0xFFF

/-- A resume operation on a frame (R208): the restoration is queued at the core that the frame names; a frame of a core
outside the partition is reported, and a recovery without an entry is refused. -/
def State.resumeFrame (s : State) (part n : Nat) (how : ResumeHow) : State :=
  if !s.resumable part n || (how == .recovery && (s.recovery part).isNone) then s
  else
    let core := s.frameCore part n
    let s := s.leaveEntries (fun i => i == .frame core n)
    if (s.core core).part != some part then s.noteFrame 0x88 (s.part part).asid core n
    else s.queueRestore part n how

/-- A resume operation on an activation PARKED at its END (R152). -/
def State.resumeParked (s : State) (k : Nat) (how : ResumeHow) : State :=
  let a := s.act k
  if a.st != .parked then s
  else
    match how with
    | .atWord => s.modAct k (fun a => { a with st := .running })
    | .afterWord => s
    | .recovery =>
      match s.recovery a.part, a.oblUsed with
      | some e, o :: _ =>
        let f : FaultReq := { code := 0x27, addr := o.handle, info := o.word false }
        let ws := recordWords f (s.part a.part).asid false a.pc none (coreOf k) (slotOf k) a.stamp
        (s.modAct k (fun a => a.recover e 0x27 (nth 0 ws 1) (nth 0 ws 2) (nth 0 ws 3))).cleanS k [1, 2, 3, 4]
      | _, _ => s

/-- A resume operation on what it names. -/
def State.resume (s : State) (t : ResumeTarget) (how : ResumeHow) : State :=
  match t with
  | .frame part _ n => s.resumeFrame part n how
  | .parked core slot => s.resumeParked (8 * core + slot) how

/-- RESUME_AT_WORD. -/
def execResumeAtWord (target : ResumeTarget) (s : State) : Host.Outcome State Fault Refusal := .next (s.resume target .atWord)
/-- RESUME_AFTER_WORD. -/
def execResumeAfterWord (target : ResumeTarget) (s : State) : Host.Outcome State Fault Refusal := .next (s.resume target .afterWord)
/-- RESUME_WITH_RECOVERY. -/
def execResumeWithRecovery (target : ResumeTarget) (s : State) : Host.Outcome State Fault Refusal := .next (s.resume target .recovery)

/-- RING_TAIL_WRITE: the OS consumes records of a ring; waiting ones are written into the room (R206, R207). -/
def execRingTailWrite (ring : Nat) (tail : BitVec 32) (s : State) : Host.Outcome State Fault Refusal :=
  let s := { s with rings := tset {} ring { (tget {} ring s.rings : Ring) with tail := tail } s.rings }
  .next (s.flushRing ring s.ringWait.length)

/-! ## Termination (R153, R154, R216) -/

/-- The obligations of a SPAWN on its way that are with the part: the refusal is on its way or has come. -/
def State.refusedGiven (s : State) (k : Nat) (a : Act) : List Obl :=
  match a.asked with
  | some (.spawn _ given _) =>
    let mine (m : Msg) : Bool := match m.kind with | .spawnReq c _ _ id => c == k && id == a.uid | _ => false
    let accepted (m : Msg) : Bool := m.spawnAnswer == some (k, a.uid, true)
    let away := s.msgs.any mine || s.cores.any (fun e => e.2.inQ.any mine) ||
      s.msgs.any accepted || s.cores.any (fun e => e.2.inQ.any accepted)
    if away then [] else given
  | _ => []

/-- The signal units that a collective has taken and not given back (R254). -/
def State.unitsOf (s : State) (c : Cmd) : List Obl :=
  let n := (s.colGroup c).members.length
  let taken := match c.phase with | .accepting i => i | _ => if c.units then n else 0
  let raised := ((upTo n).filter (fun k => tget false k c.raised)).map (s.partRank c)
  ((upTo taken).filter (fun r => !raised.contains r)).map (fun r => { kind := .signal, count := 1, handle := c.sigRef r })

/-- Obligations that a partition's activations and commands hold, with the core and stamp of each holder. -/
def State.heldBy (s : State) (part : Nat) : List (Nat × Word × List Obl) :=
  (s.acts.filter (fun e => e.2.st != .free && e.2.part == part)).map
    (fun e => (coreOf e.1, e.2.stamp, e.2.oblUsed ++ s.refusedGiven e.1 e.2)) ++
  (s.framed.filter (fun e => e.1 / 2 ^ 28 == part)).map (fun e => (s.frameCore part (e.1 % 2 ^ 28), e.2.stamp, e.2.oblUsed)) ++
  s.cores.flatMap (fun e =>
    ((e.2.matrixQ ++ e.2.copyQ ++ e.2.colQ).filter (fun c => c.part == part)).map (fun c => (e.1, c.stamp, c.obls ++ s.unitsOf c))) ++
  s.cores.flatMap (fun e =>
    ((e.2.inQ ++ e.2.bindWait.map (·.msg) ++ e.2.deadWait.map (·.1)).filter (fun m => m.part == part)).map
      (fun m => (e.1, m.stamp, m.given))) ++
  (s.part part).deadRecs.filterMap (fun e => e.2.map (fun m => ((coreOfAddr m.dest).getD 0, m.stamp, m.given)))

/-- A core of a terminated partition keeps none of its work. -/
def Core.terminated (c : Core) (part : Nat) : Core :=
  { c with
    inQ := c.inQ.filter (fun m => m.part != part)
    bindWait := c.bindWait.filter (fun b => b.msg.part != part)
    deadWait := c.deadWait.filter (fun m => m.1.part != part)
    restores := c.restores.filter (fun r => r.1 / 2 ^ 28 != part)
    rows := (c.setQueue Eng.matrix (c.matrixQ.filter (fun x => x.part != part))).rows
    matrixQ := c.matrixQ.filter (fun x => x.part != part)
    copyQ := c.copyQ.filter (fun x => x.part != part)
    colQ := c.colQ.filter (fun x => x.part != part)
    savedEvents := if c.part == some part then 0 else c.savedEvents
    savedOthers := if c.part == some part then 0 else c.savedOthers
    savedTargets := if c.part == some part then [] else c.savedTargets }

/-- Waiters of a partition leave the queues of signal blocks. -/
def State.dropWaiters (s : State) (part : Nat) : State :=
  let homes := (s.sigs.filter (fun e => e.2.any (fun w => w.part == part))).map (·.1)
  homes.foldl (fun s h =>
    let wid := s.nextWid
    let d := dieOf (((s.waiters h).head?.map (·.core)).getD 0)
    let b := s.block h
    ({ s with nextWid := wid + 1, sigs := tset [] h ((s.waiters h).filter (fun w => w.part != part)) s.sigs }).putBlock d wid h false b) s

/-- The slots, frames, entries and commands of a partition are freed without restoration. -/
def State.clearPart (s : State) (part : Nat) : State :=
  let slots := (s.acts.filter (fun e => e.1 < 8 * numCores && e.2.st != .free && e.2.part == part)).map (·.1)
  let ids (core : Nat) : List Nat := (((s.core core).matrixQ ++ (s.core core).copyQ ++ (s.core core).colQ).filter (fun c => c.part == part)).map (·.id)
  let frames := (s.part part).framesOut
  let asid := (s.part part).asid
  let mine (i : Parked) : Bool := match i with
    | .slot k => slots.contains k
    | .cmd core id => (ids core).contains id
    | .frame core n => frames.contains n && s.partOfFrame asid core n == some part
  let s := s.leaveEntries mine
  let keepEntry (x : Nat × Option Coal) : Bool := match x.2 with | some c => !c.items.isEmpty || c.asid != asid | none => true
  let freed := s.dies.flatMap (fun e => (e.2.coal.filter (fun x => !keepEntry x)).map (fun x => (e.1, x.1)))
  let s : State := { s with dies := s.dies.map (fun (e : Nat × Die) => (e.1, { e.2 with coal := e.2.coal.filter keepEntry })) }
  let s := freed.foldl (fun s x => s.fromOverflow x.1 x.2 (s.die x.1).overflow.length) s
  let s := slots.foldl State.forgetKey s
  let s := { s with
    drainPort := s.drainPort.filter (fun e => match e.2 with | some c => !(s.core c).matrixQ.any (fun x => x.part == part) | none => true) }
  let s := s.dropWaiters part
  let s := slots.foldl (fun s k => s.freeSlot k) s
  { s with
    framed := s.framed.filter (fun (e : Nat × Act) => e.1 / 2 ^ 28 != part)
    cores := s.cores.map (fun (e : Nat × Core) => (e.1, e.2.terminated part)) }

/-- PROCESS_TERMINATE: every obligation of the partition's process is discharged as poisoned, the current phase of its groups
is released as poisoned, what is on its way is discharged on arrival, and the partition holds nothing more. -/
def execProcessTerminate (part : Nat) (s : State) : Host.Outcome State Fault Refusal :=
  let s := (s.heldBy part).foldl (fun s h => s.poisonObls h.1 part h.2.1 h.2.2) s
  let groups := ((s.part part).groups.filter (fun g => g.2.valid)).map (·.1)
  let s := groups.foldl (fun s g => s.releasePhase part g true) s
  let s := { s with msgs := s.msgs.map (fun (m : Msg) => if m.part == part && !m.poison then { m with doomed := true } else m) }
  let s := (s.clearPart part).modPart part (fun p =>
    { p with live := false, dispatch := false, ended := true, framesOut := [], deadRecs := [] })
  .next ((s.coresOf part).foldl (fun s c => s.leaveIfFree c) s)

/-! ## ECC (R214) -/

/-- What an ECC record says of a granule: ADDR, SPACE, and the core and slot of word 3; of a granule that no core holds, the core is
the first of its die. -/
structure GranuleName where
  addr  : Word
  space : Nat
  core  : Nat
  slot  : Nat := 0
  deriving DecidableEq, Repr

/-- ADDR of a register granule: the register's number in [7:0], its 64-bit piece or queue entry in [15:8], and its file in [17:16]: s, v,
q and m in this order (DESIGN CHOICE, log entry 125). -/
def registerGranule (file n piece : Nat) : Word := wordOf [(16, file), (8, piece), (0, n)]

/-- The name of a granule in its record (R204, R214). -/
def State.granuleOf (s : State) : Granule → GranuleName
  | .glb a => { addr := BitVec.ofNat 64 (a / 8 * 8), space := 4, core := coresPerDie * s.lineOwner (a / 64) }
  | .shm d a => { addr := BitVec.ofNat 64 (a / 8 * 8), space := 2, core := coresPerDie * d }
  | .loc c a => { addr := BitVec.ofNat 64 (a / 8 * 8), space := 1, core := c }
  | .acc c i => { addr := BitVec.ofNat 64 (i / 2 * 2), space := 3, core := c }
  | .sreg c sl n => { addr := registerGranule 0 n 0, space := 6, core := c, slot := sl }
  | .vreg c sl n j => { addr := registerGranule 1 n j, space := 6, core := c, slot := sl }
  | .qreg c sl n j => { addr := registerGranule 2 n j, space := 6, core := c, slot := sl }
  | .mreg c sl n => { addr := registerGranule 3 n 0, space := 6, core := c, slot := sl }
  | .other x i => { addr := wordOf [(32, x), (0, i)], space := 0, core := 0 }

/-- An ECC record: its address space is that of the core that holds the granule, and none for SHM, GLB and the rest. -/
def State.eccNote (s : State) (code : Nat) (g : Granule) : State :=
  let x := s.granuleOf g
  let asid := match g with
    | .glb _ | .shm _ _ | .other _ _ => 0
    | _ => (s.core x.core).part.elim 0 (fun p => (s.part p).asid)
  s.post asid (recordWords { code := code, space := x.space, strm := 3, addr := x.addr } asid false 0 none x.core x.slot 0)

/-- ECC_CORRECTED: the granule is repaired in place and a record is written. An error in a register strikes its activation; one in a
core's LOC or accumulators strikes the core, and is logged with its last dispatch (R321; log entry 66). -/
def execEccCorrected (granule : Granule) (s : State) : Host.Outcome State Fault Refusal :=
  let s := s.eccNote 0x80 granule
  let x := s.granuleOf granule
  let k := 8 * x.core + x.slot
  match x.space with
  | 6 => .next (if (s.act k).st == .free then s else s.annotate k 4 x.addr)
  | 1 | 3 =>
    .next (s.annotateCore x.core (wordOf [(60, 4), (0, ((s.core x.core).dcount - 1) % 2 ^ 32)]) x.addr
      (fun s => s.divergeCore x.core 0x03 x.addr))
  | _ => .next s

/-- A granule as poison marks it: 8-byte addresses, accumulator elements in pairs. -/
def alignGranule : Granule → Granule
  | .glb a => .glb (a / 8 * 8)
  | .shm d a => .shm d (a / 8 * 8)
  | .loc c a => .loc c (a / 8 * 8)
  | .acc c i => .acc c (i / 2 * 2)
  | g => g

/-- Parked values that lie in a granule take its poison with them: one 64-bit piece of each. -/
def State.poisonParked (s : State) (g : Granule) : State :=
  let hit (core piece : Nat) (p : Spill → Bool → Bool) : State :=
    { s with acts := s.acts.map (fun e => if coreOf e.1 == core && e.1 < 8 * numCores then
        (e.1, { e.2 with spill := e.2.spill.map (fun x => if p x.2 (64 ≤ x.1) then
          (x.1, { x.2 with poison := x.2.poison ||| (1#8 <<< piece) }) else x) }) else e) }
  match g with
  | .acc c i =>
    hit c (i % 256 / 32) (fun e v => e.place == .acc && e.index / 16 == i / 256 && (e.index % 16 / 2 == i % 16 / 2) &&
      (v || i % 256 < 32))
  | .sreg c sl n => if (s.act (8 * c + sl)).st == .free then hit c 0 (fun e v => e.place == .bank && !v && e.index == 32 * sl + n) else s
  | .vreg c sl n j => if (s.act (8 * c + sl)).st == .free then hit c j (fun e v => e.place == .bank && v && e.index == 32 * sl + n) else s
  | _ => s

/-- Whether a partition has a mapped page that holds a physical address. -/
def State.mapsTo (s : State) (p : Part) (a : Nat) : Bool :=
  s.homes.any (fun h => asidOfKey h.1 == p.asid && h.2.valid &&
    (match s.walk p.asid (vaOfKey h.1) with | .ok g => g.frame ≤ a && a < g.frame + pageSpan h.2.size | .error _ => false))

/-- Whether a granule belongs to a partition: it lies in one of its cores, its SHM grant or its pages. -/
def State.inPart (s : State) (part : Nat) (g : Granule) : Bool :=
  let p := s.part part
  match g with
  | .glb a => s.mapsTo p a
  | .shm d a => p.shmBase d ≤ a && a < p.shmBase d + p.shmSize d
  | .loc c _ => (s.core c).part == some part
  | .acc c _ => (s.core c).part == some part
  | .sreg c _ _ => (s.core c).part == some part
  | .vreg c _ _ _ => (s.core c).part == some part
  | .qreg c _ _ _ => (s.core c).part == some part
  | .mreg c _ _ => (s.core c).part == some part
  | .other _ _ => false

/-- Replay stops on every core of the partitions that an uncorrectable error strikes: one DIVERGE record on the reporting die
(R323). -/
def State.eccReplay (s : State) (g : Granule) : State :=
  let hit := s.cores.filter (fun e => e.2.rmode == .replay && (match e.2.part with | some p => s.inPart p g | none => false))
  if hit.isEmpty then s
  else (hit.foldl (fun s e => s.toNormal e.1) s).divergeCore (s.granuleOf g).core 0x04 0

/-- ECC_UNCORRECTED: the granule is poisoned and a record is written. -/
def execEccUncorrected (granule : Granule) (s : State) : Host.Outcome State Fault Refusal :=
  let g := alignGranule granule
  let s := (s.eccNote 0x81 g).poisonParked g
  let s := if s.poisoned.contains g then s else { s with poisoned := g :: s.poisoned }
  .next (s.eccReplay g)

/-! ## Dead messages (R139, R273) -/

/-- DEAD_MESSAGE_REDISPATCH: the OS sends a record's message again, or discharges its obligations as poisoned. -/
def execDeadMessageRedispatch (part index : Nat) (poison : Bool) (s : State) : Host.Outcome State Fault Refusal :=
  match tget none index (s.part part).deadRecs with
  | none => .next s
  | some (m : Msg) =>
    if poison then
      .next ((s.modPart part (fun p => { p with deadRecs := tset none index none p.deadRecs })).poisonObls
        ((coreOfAddr m.dest).getD 0) part m.stamp m.given)
    else .next (s.redispatch part index m)

end Sys2Proof.Machine
end

