-- ==== Sys2Proof/Machine/Launch.lean ====
section
/-!
DEFINITION. Launches, their close and end (R61, R91, R92, R101), and the resizing of a partition (R98, R99, R449).
-/

namespace Sys2Proof.Machine

/-! ## Checks of a launch (R61, R87, R91) -/

/-- Whether a list rises strictly. -/
def rising : List Nat → Bool
  | x :: y :: r => x < y && rising (y :: r)
  | _ => true

/-- Whether a cluster exists and may be granted to a partition: each of its cores belongs to none, has left, or is of a
partition that no longer lives. -/
def State.grantable (s : State) (part cl : Nat) : Bool :=
  64 * cl < numCores && (coresOfCluster cl).all (fun c =>
    match (s.core c).part with | none => true | some p => p == part || (s.core c).left || !(s.part p).live)

/-- The clusters of a partition after a grant, in ascending order. -/
def Part.granted (p : Part) (cls : List Nat) : List Nat :=
  sortBy (fun x => x) ((if p.live then p.clusters else []) ++ cls.filter (fun x => !(p.live && p.clusters.contains x))).dedup

/-- The members that a group's table entry names: its COUNT of words of the list at MEMBERS, in an address space (R87). -/
def State.memberWords (s : State) (asid : Nat) (g : GroupDecl) : List Nat :=
  (upTo (bits (nth 0 g.entry 2) 0 32).toNat).map (fun i => leNat (s.peekVirt asid ((nth 0 g.entry 1).toNat + 4 * i) 4))

/-- The group of a declaration: its entry has VALID and no reserved bit set, a rank that is not reserved, and an ascending list
that is that of the cores of the declared indices (R37, R87). -/
def State.groupOf (s : State) (asid : Nat) (cores : List Nat) (g : GroupDecl) : Option Group :=
  let w0 := nth 0 g.entry 0
  let words := s.memberWords asid g
  let members := words.filterMap coreOfAddr
  let declared := g.ranges.flatMap (fun r => (from_ r.1 (r.2 + 1 - r.1)).map (fun i => cores[i]?))
  let ok := g.id < 256 && nth 0 g.entry 3 == 1 && bits w0 32 32 == 0 && !reservedRank (bits w0 0 32) &&
    !words.isEmpty && words.length ≤ 655360 && words.all (· < 2 ^ 20) && rising words && declared.all Option.isSome &&
    members == sortBy (fun x => x) (declared.filterMap (fun x => x)).dedup
  if ok then some { valid := true, members := members, rank := bits w0 0 32, listAt := nth 0 g.entry 1 } else none

/-- Whether no core is in more than four of some groups. -/
def atMostFour (cores : List Nat) (gs : List Group) : Bool :=
  cores.all (fun c => (gs.filter (fun g => g.members.contains c)).length ≤ 4)

/-- The groups of a launch by number, or the first declaration that makes it fail. -/
def State.groupsOf (s : State) (asid : Nat) (cores : List Nat) : List GroupDecl → List (Nat × Group) →
    Except LaunchFailure (List (Nat × Group))
  | [], acc => .ok acc
  | g :: r, acc =>
    match s.groupOf asid cores g with
    | none => .error (.group g.id)
    | some x =>
      if atMostFour x.members (x :: acc.map (·.2)) then s.groupsOf asid cores r (acc ++ [(g.id, x)]) else .error (.group g.id)

/-- Whether a code word is an experimental opcode (R61). -/
def experimental (w : IWord) : Bool := 0x3C0 ≤ opcField w

/-- Whether an entry address, or the LOC regions before it, make the launch fail (R58, R106, R270). -/
def State.badEntryAt (s : State) (asid : Nat) (e : Word) : Option LaunchFailure :=
  if e.toNat % 4 != 0 then some (.misalignedEntry e)
  else if (upTo 4).any (fun r =>
      let x := s.regionWord asid e r
      512 < (bits x 23 9).toNat + (bits x 13 10).toNat) then some (.regions e)
  else none

/-- Whether the SHM grants of an image are whole units of 64 KiB inside SHM, and each die of some holds the shm blocks (R111, R112,
R449). -/
def Image_grantsHold (im : Image) (dies : List Nat) : Bool :=
  im.shmGrants.all (fun g => g.2.1 % 65536 == 0 && g.2.2 % 65536 == 0 && decide (g.2.1 + g.2.2 ≤ 0x6000000)) &&
    dies.all (fun d => im.shmBytes.all (fun c => c.1 < ((im.shmGrants.find? (fun g => g.1 == d)).elim 0 (·.2.2))))

/-! ## Parameters and patches (R24, R39) -/

/-- An operator on 64-bit values; a division by zero and a shift of 64 or more have none. -/
def patchOp (op : POp) (a b : Word) : Option Word :=
  match op with
  | .mul => some (a * b) | .add => some (a + b) | .sub => some (a - b)
  | .and => some (a &&& b) | .xor => some (a ^^^ b) | .or => some (a ||| b)
  | .div => if b = 0 then none else some (a.sdiv b)
  | .rem => if b = 0 then none else some (a.srem b)
  | .shl => if 64 ≤ b.toNat then none else some (a <<< b.toNat)
  | .shr => if 64 ≤ b.toNat then none else some (a.sshiftRight b.toNat)

/-- The value of an expression. A shift to the right is arithmetic (log entry 109). -/
def patchValue (env : Nat → Option Word) : PExpr → Option Word
  | .lit v => some v
  | .par n => env n
  | .neg a => (patchValue env a).map (fun x => -x)
  | .inv a => (patchValue env a).map (fun x => ~~~x)
  | .bin op a b => match patchValue env a, patchValue env b with | some x, some y => patchOp op x y | _, _ => none

/-- The parameters of an expression, in order. -/
def patchParams : PExpr → List Nat
  | .lit _ => []
  | .par n => [n]
  | .neg a => patchParams a
  | .inv a => patchParams a
  | .bin _ a b => patchParams a ++ patchParams b

/-- The value of a parameter: the one given at launch, else its default. -/
def paramValue (im : Image) (n : Nat) : Option Word :=
  match im.given.find? (fun p => p.1 == n) with
  | some p => if im.params.any (fun q => q.1 == n) then some p.2 else none
  | none => (im.params.find? (fun p => p.1 == n)).map (·.2)

/-- The parameters of a patch. -/
def Patch_params (p : Patch) : List Nat := (p.expr :: p.more).flatMap patchParams

/-- Whether a patch depends on a parameter for which the launching software gives a new value. -/
def Patch_renewed (im : Image) (p : Patch) : Bool := (Patch_params p).any (fun n => im.given.any (fun g => g.1 == n))

/-- The parameter that a refusal on account of a patch names: the first in it that has a new value, else the first (log entry
109). -/
def Patch_named (im : Image) (p : Patch) : Nat :=
  (((Patch_params p).find? (fun n => im.given.any (fun g => g.1 == n))).orElse (fun _ => (Patch_params p).head?)).getD 0

/-- Bytes of the loader with n of them at an address replaced: `width` bits from bit `lo` by those of a value. -/
def putBits (cells : List (Nat × Byte)) (addr n lo width : Nat) (v : Nat) : List (Nat × Byte) :=
  let old := leNat (mread addr n (mput cells []))
  let field := old / 2 ^ lo % 2 ^ width
  cells ++ cellsAt addr (leBytes n (old - field * 2 ^ lo + v % 2 ^ width * 2 ^ lo))

/-- An image with a field of its bytes in a data space replaced. -/
def Image_put (im : Image) (sp : DataSpace) (addr n lo width v : Nat) : Image :=
  match sp with
  | .glb => { im with bytes := putBits im.bytes addr n lo width v }
  | .loc => { im with locBytes := putBits im.locBytes addr n lo width v }
  | .shm => { im with shmBytes := putBits im.shmBytes addr n lo width v }

/-- A value as a data item of a type stores it; none out of its range (R38). -/
def itemBits (t : Ty) (v : Word) : Option Word :=
  if t.isFloat then some (BitVec.ofNat 64 (t.fmt.round .rne false (v.toInt < 0) v.toInt.natAbs 0).1)
  else if t == .n64 || (t.minVal ≤ v.toInt && v.toInt ≤ t.maxVal) then some v else none

/-- The SB block that 16 values quantise to, as an sbblock item stores it (R38, R230). -/
def sbItem (t : Ty) (vs : List Word) : Nat :=
  (sbQuantise t (vs.map (fun v => ((itemBits .f32 v).getD 0).toNat))).1

/-- The i-th element of a list changed, if there is one. -/
def change {α : Type} (l : List α) (i : Nat) (f : α → α) : List α := l.mapIdx (fun j x => if j = i then f x else x)

/-- An image with an item of a directive replaced by a number. -/
def Image_setItem (im : Image) (t : PatchTarget) (n : Nat) : Image :=
  match t with
  | .clusters => { im with need := n }
  | .stageCores i => { im with stages := change im.stages i (fun g => { g with count := n }) }
  | .stageMin i => { im with stages := change im.stages i (fun g => { g with lo := n }) }
  | .stageMax i => { im with stages := change im.stages i (fun g => { g with hi := n }) }
  | .inRate i p => { im with stages := change im.stages i (fun g => { g with ins := change g.ins p (fun x => (x.1, n)) }) }
  | .outRate i p => { im with stages := change im.stages i (fun g => { g with outs := change g.outs p (fun x => (x.1, n)) }) }
  | .edgeDepth i => { im with edges := change im.edges i (fun e => { e with depth := n }) }
  | .edgeHigh i => { im with edges := change im.edges i (fun e => { e with high := n }) }
  | .edgeLow i => { im with edges := change im.edges i (fun e => { e with low := n }) }
  | .linkSrc i => { im with links := change im.links i (fun l => { l with srcIdx := n }) }
  | .linkDst i => { im with links := change im.links i (fun l => { l with dstIdx := n }) }
  | .linkLook i => { im with links := change im.links i (fun l => { l with look := n }) }
  | .groupId i => { im with groups := change im.groups i (fun g => { g with id := n }) }
  | .groupFrom i r => { im with groups := change im.groups i (fun g => { g with ranges := change g.ranges r (fun x => (n, x.2)) }) }
  | .groupTo i r => { im with groups := change im.groups i (fun g => { g with ranges := change g.ranges r (fun x => (x.1, n)) }) }
  | .groupRank i => { im with groups := change im.groups i (fun g =>
      { g with entry := change g.entry 0 (fun w => BitVec.ofNat 64 (w.toNat / 2 ^ 32 * 2 ^ 32 + n)) }) }
  | .tileIndex i => { im with tiles := change im.tiles i (fun x => { x with index := n }) }
  | .tileBase i => { im with tiles := change im.tiles i (fun x => { x with base := n }) }
  | .tileSize i => { im with tiles := change im.tiles i (fun x => { x with size := n }) }
  | .tileRank i => { im with tiles := change im.tiles i (fun x => { x with rank := BitVec.ofNat 32 n }) }
  | _ => im

/-- An image with a patch's values in its place; none where an immediate, a pair, an item or a field does not hold them. -/
def patchedImage (im : Image) (t : PatchTarget) (v : Word) (more : List Word) : Option Image :=
  let n := v.toNat
  match t with
  | .imm a => if -(2 ^ 18) ≤ v.toInt && v.toInt < 2 ^ 18 then some (Image_put im .glb a 3 0 19 n) else none
  | .pair a => if -(2 ^ 41) ≤ v.toInt && v.toInt < 2 ^ 41 then some (Image_put im .glb a 6 0 42 n) else none
  | .item sp a ty => (itemBits ty v).map (fun x => Image_put im sp a ty.bytes 0 ty.width x.toNat)
  | .sbblock sp a fmt => some (Image_put im sp a (sbBytes fmt) 0 (8 * sbBytes fmt) (sbItem fmt (v :: more)))
  | .t4 sp a high => if n < 16 then some (Image_put im sp a 1 (if high then 4 else 0) 4 n) else none
  | .regionBase a => if n % 64 = 0 && n < 32768 then some (Image_put im .glb a 4 23 9 (n / 64)) else none
  | .regionSize a => if n % 64 = 0 && n ≤ 32767 then some (Image_put im .glb a 4 13 10 (n / 64)) else none
  | .tileRank i => if 2 ^ 32 ≤ n then none else some (Image_setItem im (.tileRank i) n)
  | t => if v.toInt < 0 then none else some (Image_setItem im t n)

/-- The limits of R37 on the directive that a patch has changed. -/
def limitsHold (im : Image) : PatchTarget → Bool
  | .imm _ | .pair _ | .item _ _ _ | .sbblock _ _ _ | .t4 _ _ _ => true
  | .regionBase a | .regionSize a =>
    let x := leNat (mread a 4 (mput im.bytes []))
    decide (x / 2 ^ 23 % 2 ^ 9 + x / 2 ^ 13 % 2 ^ 10 ≤ 512)
  | .clusters => decide (1 ≤ im.need)
  | .stageCores i | .stageMin i | .stageMax i => im.stages[i]?.all (fun g => 1 ≤ g.lo && g.lo ≤ g.count && g.count ≤ g.hi)
  | .inRate i _ | .outRate i _ => im.stages[i]?.all (fun g =>
      (g.ins ++ g.outs).all (fun p => 1 ≤ p.2 && p.2 ≤ 16 && im.edges[p.1]?.all (fun e => p.2 ≤ e.depth)))
  | .edgeDepth i | .edgeHigh i | .edgeLow i =>
    im.edges[i]?.all (fun e => 2 ≤ e.depth && e.depth ≤ 4096 && e.low < e.high && e.high ≤ e.depth &&
      im.stages.all (fun g => (g.ins ++ g.outs).all (fun p => p.1 != i || p.2 ≤ e.depth)))
  | .linkSrc i => im.links[i]?.all (fun l => im.stages[l.srcStage]?.all (fun g => l.srcIdx < g.count))
  | .linkDst i => im.links[i]?.all (fun l => im.stages[l.dstStage]?.all (fun g => l.dstIdx < g.count))
  | .linkLook i => im.links[i]?.all (fun l => l.look < 2 ^ 32)
  | .groupId i => im.groups[i]?.all (fun g => g.id < 256 && (im.groups.filter (fun x => x.id == g.id)).length ≤ 1)
  | .groupFrom i _ | .groupTo i _ => im.groups[i]?.all (fun g => g.ranges.all (fun r => r.1 ≤ r.2))
  | .groupRank i => im.groups[i]?.all (fun g =>
      bits (nth 0 g.entry 0) 32 32 == 0 && !reservedRank (bits (nth 0 g.entry 0) 0 32))
  | .tileIndex i => im.tiles[i]?.all (fun t =>
      t.index < 16 && (im.tiles.filter (fun x => x.stage == t.stage && x.index == t.index)).length ≤ 1)
  | .tileBase i | .tileSize i => im.tiles[i]?.all (fun t => t.base % 64 = 0 && t.size % 64 = 0 && t.base + t.size ≤ 32768)
  | .tileRank i => im.tiles[i]?.all (fun t => !reservedRank t.rank)

/-- An image with a patch applied: each of its expressions is evaluated again and its place rewritten. -/
def Patch_apply (im : Image) (p : Patch) : Option Image :=
  match patchValue (paramValue im) p.expr with
  | none => none
  | some v =>
    let more := p.more.filterMap (patchValue (paramValue im))
    if more.length < p.more.length then none else patchedImage im p.target v more

/-- The patch list applied in order (R39); the launch is refused, and the parameter named, where a value does not fit or a limit is
broken: of the patches whose limit is broken, the first that depends on a new value is the one at fault. -/
def applyPatches (im : Image) : Except LaunchFailure Image :=
  let rec go (im : Image) : List Patch → Except LaunchFailure Image
    | [] => .ok im
    | p :: r =>
      match Patch_apply im p with
      | some im => go im r
      | none => .error (.parameter (Patch_named im p))
  match go im im.patches with
  | .error e => .error e
  | .ok im =>
    let bad := im.patches.filter (fun p => !limitsHold im p.target)
    match (bad.find? (Patch_renewed im)).orElse (fun _ => bad.head?) with
    | some p => .error (.parameter (Patch_named im p))
    | none => .ok im

/-- The announcement quantum of a launch (R287): ltquantum where it is declared, else 16. -/
def quantumOf (im : Image) : Except LaunchFailure Nat :=
  match im.ltquantum with
  | none => .ok 16
  | some n =>
    match paramValue im n with
    | some v => if 1 ≤ v.toNat && v.toNat < 2 ^ 32 then .ok v.toNat else .error (.parameter n)
    | none => .error (.parameter n)

/-! ## Placement (R92) -/

/-- Dies in the order in which a stage takes cores: by named pages, then by number. -/
def diesFor (g : StageDecl) : List Nat :=
  let pages (d : Nat) : Nat := ((g.pages.filter (fun p => p.1 == d)).map (·.2)).foldl (· + ·) 0
  sortBy (fun d => 2 ^ 64 - pages d) (upTo numDies)

/-- The cores that a stage takes of some free ones. -/
def placeStage (free : List Nat) (g : StageDecl) : List Nat :=
  ((diesFor g).flatMap (fun d => free.filter (fun c => dieOf c == d))).take g.count

/-- The stages placed one at a time; none where the cores do not suffice. -/
def placeAll (free : List Nat) : List StageDecl → Option (List Stage)
  | [] => some []
  | g :: r =>
    let cs := placeStage free g
    if cs.length < g.count then none
    else (placeAll (free.filter (fun c => !cs.contains c)) r).map (fun l => { decl := g, cores := cs } :: l)

/-- The links of a launch in order, from stages and indices to cores; the first whose index is not there makes it fail. -/
def placeLinks (stages : List Stage) (i : Nat) : List LinkDecl → Except LaunchFailure (List Link)
  | [] => .ok []
  | l :: r =>
    let at_ (st i : Nat) : Option Nat := stages[st]?.bind (fun g => g.cores[i]?)
    match at_ l.srcStage l.srcIdx, at_ l.dstStage l.dstIdx with
    | some a, some b => (placeLinks stages (i + 1) r).map (fun ls => { src := a, dst := b, look := l.look } :: ls)
    | _, _ => .error (.link i)

/-- What the first link that may not stand beside those before it makes the launch fail with: one for each pair, sixteen at a
core, 4,096 in all, and no zero-lookahead cycle (R289, R301). -/
def linksFault (placed : List Link) (i : Nat) : List Link → Option LaunchFailure
  | [] => none
  | l :: r =>
    let full := 4096 ≤ placed.length || 16 ≤ (placed.filter (fun x => x.src == l.src)).length ||
      16 ≤ (placed.filter (fun x => x.dst == l.dst)).length || placed.any (fun x => x.src == l.src && x.dst == l.dst)
    if full then some (.link i)
    else if l.look == 0 && (zeroCycle placed l.src l.dst).isSome then some (.zeroLookaheadCycle i)
    else linksFault (placed ++ [l]) (i + 1) r

/-! ## The launch -/

/-- Bytes written by the loader to a memory, and whole granules that they cover. -/
def State.cover (s : State) (g : Nat → Granule) (cells : List (Nat × Byte)) : State :=
  if s.poisoned.isEmpty then s
  else
    let full := (cells.filter (fun c => c.1 % 8 = 0 && (upTo 8).all (fun i => cells.any (fun x => x.1 == c.1 + i)))).map (fun c => g c.1)
    { s with poisoned := s.poisoned.filter (fun x => !full.contains x) }

/-- The LOC of a core as a launch leaves it. -/
def State.fillLoc (s : State) (cells : List (Nat × Byte)) (core : Nat) : State :=
  let cells := cells.map (fun c => (32768 * core + c.1, c.2))
  { s.cover locGranule cells with loc := mput cells s.loc }

/-- The SHM grant of a die as a launch leaves it. -/
def State.fillShm (s : State) (base : Nat) (cells : List (Nat × Byte)) (d : Nat) : State :=
  let cells := cells.map (fun c => (2 ^ 27 * d + base + c.1, c.2))
  { s.cover shmGranule cells with shm := mput cells s.shm }

/-- GLB bytes that the loader writes, in every view: accumulators of their elements close (R239), and weirs keep their totals
(R237). -/
def State.fillGlb (s : State) (cells : List (Nat × Byte)) : State :=
  let s := cells.foldl (fun s c => (s.sealPhys c.1).closeExact c.1 1) (s.cover glbGranule cells)
  { s with
    glb := mput cells s.glb
    flight := s.flight.map (fun w => { w with cells := w.cells.filter (fun c => !cells.any (fun x => x.1 == c.1)) }) }

/-- A core as a launch finds it: what it holds of messages, links, groups and departures begins anew. -/
def Core.fresh (c : Core) (part now : Nat) (mode : RMode) : Core :=
  { c with
    part := some part, stage := none, moving := none, departing := none, left := false, tiles := [], inQ := [], bindWait := []
    deadWait := [], restores := [], arrived := [], triggered := false, lvt := 0, ins := [], outs := [], dcount := 0
    logPos := 0, logEnd := none, logMet := [], logTail := false, rmode := mode, lastDisp := now, savedEvents := 0, savedOthers := 0, savedTargets := [] }

/-- A core that joins the launch again keeps what the launch has of it: links, clocks, arrivals, and the saves that wait. -/
def Core.joined (c : Core) (part now : Nat) (mode : RMode) : Core :=
  let n := c.fresh part now mode
  if c.part == some part && c.left then
    { n with arrived := c.arrived, triggered := c.triggered, lvt := c.lvt, ins := c.ins, outs := c.outs, dcount := c.dcount
             logPos := c.logPos, logEnd := c.logEnd, logMet := c.logMet, logTail := c.logTail, rmode := c.rmode, restores := c.restores, savedEvents := c.savedEvents
             savedOthers := c.savedOthers, savedTargets := c.savedTargets }
  else n

/-- RMODE of its code. -/
def RMode.ofCode : Nat → RMode | 1 => .record | 2 => .replay | _ => .normal

/-- The partition of a launch, before its links. -/
def State.partOf (s : State) (im : Image) (cls : List Nat) (stages : List Stage) (groups : List (Nat × Group)) (quantum : Nat) :
    Part :=
  let old := s.part im.part
  { live := true, asid := im.asid.toNat, clusters := cls, launchNo := if old.live then (old.launchNo + 1) % 2 ^ 16 else 0
    lt := im.lt, quantum := quantum
    handlers := im.handlers.foldl (fun t h => tset none (h.1 % 4096) (some h.2) t) []
    classes := im.classes.foldl (fun t n => tset {} n { valid := true } t) []
    groups := groups.foldl (fun t g => tset {} g.1 g.2 t) []
    stages := stages, edges := im.edges.map (fun e => { decl := e }), pushBase := im.pushBase
    shm := im.shmGrants.foldl (fun t g => tset (0, 0) g.1 g.2 t) [], frameBase := im.frameBase, deadBase := im.deadBase, deadSize := im.deadSize, bindWait := im.bindWait
    hint := old.hint, thresh := old.thresh, pinFull := old.pinFull, refused := old.refused
    pred := im.pred, predLaunch := match im.pred with | some q => (s.part q).launchNo | none => 0
    started := false, dispatch := true, ended := false, lastRebal := s.cycle
    logs := im.logs.foldl (fun t l => tset (0, 0, 0) l.1 l.2 t) []
    locInit := im.locBytes, shmInit := im.shmBytes, gone := old.gone.filter (fun e => !s.wrote e.1 .mod e.2) }

/-- The initial tile entries of the stages (R37, R108). -/
def State.loadTiles (s : State) (stages : List Stage) (ts : List TileDecl) : State :=
  ts.foldl (fun s t =>
    match stages[t.stage]? with
    | none => s
    | some g => g.cores.foldl (fun s c =>
        s.setTile c t.index { rank := t.rank, base := t.base, size := t.size, state := if t.ready then .ready else .empty }) s) s

/-- The address space of a launch: its root, its home entries and the bytes that the loader writes (R91 steps 2 and 3). -/
def State.mapImage (s : State) (im : Image) : State :=
  let asid := im.asid.toNat
  { s with
    roots := tset 0 asid im.root s.roots
    homes := im.homes.foldl (fun t (h : Nat × Nat × Bool) => tset {} (if h.2.2 then groupKey asid h.1 else pageKey asid h.1)
      { valid := true, size := h.2.2, owner := h.2.1 } t) s.homes }.fillGlb im.bytes

/-- What a launch that passes its checks sets up: the clusters, the cores, the image with its patches applied, and the tables. -/
structure Launching where
  image   : Image
  cls     : List Nat
  cores   : List Nat
  quantum : Nat
  groups  : List (Nat × Group)
  stages  : List Stage
  links   : List Link
  deriving DecidableEq, Repr

/-- The checks of a launch in the order of R91: the grant; keys, patches and experimental opcodes; entry descriptors and groups;
placement, with the links that rest on it. -/
def State.checkLaunch (s : State) (image : Image) : Except LaunchFailure Launching :=
  let old := s.part image.part
  let cls := old.granted image.clusters
  let cores := (cls.flatMap coresOfCluster).filter (fun c => !((s.core c).part == some image.part && (s.core c).left))
  if old.live && !old.ended then .error .notEnded
  else if cls.isEmpty || cls.length < image.need || !cls.all (s.grantable image.part) then .error .clusters
  else
    match image.keys.find? (fun k => k.2 < 1 || 64 ≤ k.2 || !image.granted.contains k.2) with
    | some k => .error (.key k.1)
    | none =>
      if !Image_grantsHold image (cores.map dieOf) then .error .sharedMemory
      else
        match applyPatches image, quantumOf image with
        | .error e, _ => .error e
        | .ok _, .error e => .error e
        | .ok im, .ok q =>
          let asid := im.asid.toNat
          let mapped := s.mapImage im
          if im.code.any experimental then .error .experimentalOpcode
          else
            match (im.stages.map (·.entry) ++ im.handlers.map (·.2) ++ im.entries).findSome? (mapped.badEntryAt asid) with
            | some e => .error e
            | none =>
              match mapped.groupsOf asid cores im.groups [], placeAll cores im.stages with
              | .error e, _ => .error e
              | .ok _, none => .error .stages
              | .ok gs, some stages =>
                match placeLinks stages 0 im.links with
                | .error e => .error e
                | .ok links =>
                  match linksFault [] 0 links with
                  | some e => .error e
                  | none => .ok { image := im, cls := cls, cores := cores, quantum := q, groups := gs, stages := stages, links := links }

/-- Steps 1 to 5 of R91, once every check has passed. A core that left an earlier launch of the partition keeps nothing of
that launch: should it join this one, its links are those that the launch inserts (R289, R290). -/
def State.startLaunch (s : State) (l : Launching) : State :=
  let im := l.image
  let p := s.partOf im l.cls l.stages l.groups l.quantum
  let dies := (l.cores.map dieOf).dedup
  let s := { s with
    parts := tset {} im.part p s.parts
    launches := tset none im.part none s.launches
    msgs := s.msgs.filter (fun m => m.part != im.part || m.doomed) }
  let s := s.mapImage im
  let gone := (s.cores.filter (fun e => e.2.part == some im.part && e.2.left)).map (·.1)
  let s := gone.foldl (fun s c => s.modCore c (fun x => { x.fresh im.part s.cycle (RMode.ofCode im.rmode) with left := true })) s
  let s := l.cores.foldl (fun s c => (s.modCore c (fun x => x.fresh im.part s.cycle (RMode.ofCode im.rmode))).fillLoc im.locBytes c) s
  let s := dies.foldl (fun s d => s.fillShm (p.shmBase d) im.shmBytes d) s
  let s := l.stages.zipIdx.foldl (fun s g => g.1.cores.foldl (fun s c => s.modCore c (fun x => { x with stage := some g.2 })) s) s
  let s := s.loadTiles l.stages im.tiles
  l.links.foldl (fun s x => s.insertLink im.part x x.look) s

/-- LAUNCH: at the first step that cannot be completed it fails, and the launching software is told why; nothing else
changes. -/
def execLaunch (image : Image) (s : State) : Host.Outcome State Fault Refusal :=
  match s.checkLaunch image with
  | .ok l => .next (s.startLaunch l)
  | .error e => .next { s with launches := tset none image.part (some e) s.launches }

/-! ## Close and end (R101) -/

/-- LAUNCH_CLOSE. -/
def execLaunchClose (part : Nat) (s : State) : Host.Outcome State Fault Refusal :=
  .next (s.modPart part (fun p => { p with closed := true }))

/-- Whether a stage of a closed launch could still fire. -/
def Part.couldFire (p : Part) : Bool := p.stages.any (fun g => !g.decl.ins.isEmpty && !g.cores.isEmpty && p.queuesReady g)

/-- Whether nothing of a launch is left (R101): no activation, no message in an input buffer or bind-wait area, no command, no
firing to come. A starting slot counts as a running one, and a message that waits for room in the dead-message queue does not count
(DESIGN CHOICE, log entry 26). -/
def State.launchOver (s : State) (part : Nat) : Bool :=
  let p := s.part part
  let mine (m : Msg) : Bool := m.part == part
  !s.acts.any (fun e => e.2.st != .free && e.2.part == part) && p.framesOut.isEmpty &&
    s.cores.all (fun e => !e.2.inQ.any mine && !e.2.bindWait.any (fun b => mine b.msg) &&
      !(e.2.matrixQ ++ e.2.copyQ ++ e.2.colQ).any (fun c => c.part == part)) &&
    !p.couldFire

/-- LAUNCH_END: a closed launch of which nothing is left has ended; its queues are discarded with their tokens. -/
def execLaunchEnd (part : Nat) (s : State) : Host.Outcome State Fault Refusal :=
  let p := s.part part
  if !p.live || p.ended || !p.closed || !s.launchOver part then .next s
  else .next (s.modPart part (fun p => { p with ended := true, dispatch := false, edges := [] }))

/-! ## Resizing (R98, R99, R449) -/

/-- PARTITION_GROW: the grant of whole clusters completes; a joining core or die holds what the launch gave the others. -/
def execPartitionGrow (part : Nat) (clusters : List Nat) (s : State) : Host.Outcome State Fault Refusal :=
  let p := s.part part
  let new := (clusters.filter (fun c => !p.clusters.contains c)).dedup
  let fits := (new.flatMap coresOfCluster).all (fun c => p.shmInit.all (fun x => x.1 < p.shmSize (dieOf c)))
  if !p.live || !new.all (s.grantable part) || !fits then .next s
  else
    let cores := new.flatMap coresOfCluster
    let held := p.clusters.flatMap (fun c => (coresOfCluster c).map dieOf)
    let dies := ((cores.map dieOf).dedup).filter (fun d => !held.contains d)
    let s := s.modPart part (fun p => { p with clusters := p.granted new })
    let mode := match p.clusters with | c :: _ => (s.core (64 * c)).rmode | [] => .normal
    let s := cores.foldl (fun s c => (s.modCore c (fun x => x.joined part s.cycle mode)).fillLoc p.locInit c) s
    .next (dies.foldl (fun s d => s.fillShm (p.shmBase d) p.shmInit d) s)

/-- PARTITION_SHRINK: the cores of whole clusters start to depart; one whose slots are all FREE has left. -/
def execPartitionShrink (part : Nat) (clusters : List Nat) (s : State) : Host.Outcome State Fault Refusal :=
  let cores := (clusters.filter (fun c => (s.part part).clusters.contains c)).flatMap coresOfCluster
  .next (cores.foldl (fun s c =>
    if (s.core c).part == some part && (s.core c).departing.isNone then
      (s.modCore c (fun x => { x with departing := some s.cycle })).leaveIfFree c
    else s) s)

/-- DEPARTURE_TIMEOUT: what a departing core still holds 2^20 cycles after its departure began is pre-empted. -/
def execDepartureTimeout (core : Nat) (s : State) : Host.Outcome State Fault Refusal :=
  match (s.core core).departing with
  | some t =>
    if s.cycle - t < 2 ^ 20 || (s.core core).left then .next s
    else .next ((slotsOf core).foldl (fun s k => s.preemptSlot k) s)
  | none => .next s

end Sys2Proof.Machine
end

