-- ==== Sys2Proof/Machine/Capture.lean ====
section
/-!
DEFINITION. The capture block's events (R312 to R314), precise stops (R318, R325), and the profile table as the OS clears and
reads it (R317, R320).
-/

namespace Sys2Proof.Machine

/-! ## Matchers (R312) -/

/-- ACTION of a matcher. -/
def actionOf (m : Word) : Nat := (bits m 57 3).toNat

/-- Whether a matcher fires when its event is met: valid, with no reserved code and no reserved bit set. -/
def matcherLive (m : Word) : Bool :=
  m.getLsbD 63 && (bits m 60 3).toNat ≤ 3 && actionOf m ≤ 4 && bits m 32 16 == 0

/-- A matcher register. -/
def State.matcher (s : State) (n : Nat) : Word := tget 0 n s.matchers

/-- MARK records of a matcher on each die where capture runs and the filter passes them: the block's, of no activation and of
no address space (R316). -/
def State.mark (s : State) (n action : Nat) : State :=
  (upTo numDies).foldl (fun s d =>
    if s.filterKind 0x08 d && s.filterAsid 0 then
      let (c, s) := s.draw
      let (ws, s) := s.bareWords 0x08 ((bits c 0 25).zeroExtend 64) (wordOf [(4, action), (0, n)]) s.time
      s.traceWrite d ws
    else s) s

/-! ## Precise stops (R318) -/

/-- Cores that a precise stop covers: of partitions whose address space the filter in force passes, on its dies. -/
def State.stopCores (s : State) : List Nat :=
  (s.cores.filter (fun e => s.filterDie (dieOf e.1) && !e.2.left && (match e.2.part with
    | some p => (s.part p).live && s.filterAsid (s.part p).asid | none => false))).map (·.1)

/-- The stop is over when every covered core has landed. -/
def State.settleStop (s : State) : State :=
  if s.capStopping && s.cores.all (fun e => !e.2.covered || e.2.landed) then { s with capStopping := false, capStopped := true } else s

/-- A precise stop begins; one already in progress or landed goes on. -/
def State.beginStop (s : State) : State :=
  if s.capStopping || s.capStopped then s
  else
    let s := s.stopCores.foldl (fun s c => s.modCore c (fun x => { x with covered := true, landed := false, stopSaved := 0 })) s
    { s with capStopping := true, stopFrom := s.cycle }.settleStop

/-- RESUME: dispatch restarts on the covered cores; the timers of R272, and the count of R322 since the last dispatch, go on from
where they stood (R318, R325). -/
def State.endStop (s : State) : State :=
  if !s.capStopping && !s.capStopped then s
  else
    let long := s.cycle - s.stopFrom
    { s with
      capStopping := false
      capStopped := false
      cores := s.cores.map (fun (e : Nat × Core) => if e.2.covered then
          (e.1, { e.2 with covered := false, landed := false, stopSaved := 0, lastDisp := e.2.lastDisp + long
                           bindWait := e.2.bindWait.map (fun b => { b with since := b.since + long }) }) else e) }

/-- FROZEN is cleared: records made while the rings were frozen by a freeze during a stop are written (R325). -/
def State.unfreeze (s : State) : State :=
  let s := { s with capFrozen := false }
  (upTo numDies).foldl (fun s d =>
    if (s.die d).stopRecs.isEmpty then s
    else ((s.die d).stopRecs.foldl (fun s ws => s.traceWrite d ws) s).modDie d (fun x => { x with stopRecs := [] })) s

/-! ## Actions (R314) -/

/-- What an action does. -/
def State.action (s : State) (m : Word) : State :=
  match actionOf m with
  | 0 => if s.capFrozen then s else { s with capRun := true }
  | 1 => { s with capRun := false }
  | 2 => { s with capRun := false, capFrozen := true }
  | 3 => { s with capFsel := (bits m 55 2).toNat }
  | _ => s.beginStop

/-- Matcher n fires: its MARK records, LAST, and its action. -/
def State.fire (s : State) (n : Nat) : State :=
  { s.mark n (actionOf (s.matcher n)) with capLast := n }.action (s.matcher n)

/-- The matchers of the block (R312). -/
def numMatchers : Nat := 8

/-- Whether a matcher looks at an event: its kind, the system core, and the value where it counts. -/
def matcherHits (m : Word) (kind sysCore : Nat) (value : Option Nat) : Bool :=
  matcherLive m && (bits m 60 3).toNat == kind && (m.getLsbD 54 || (bits m 48 6).toNat == sysCore) &&
    (match value with | some v => (bits m 0 32).toNat == v | none => true)

/-- The matchers that look at an event, in ascending order. -/
def State.matchersOf (s : State) (kind sysCore : Nat) (value : Option Nat) : List Nat :=
  (upTo numMatchers).filter (fun n => matcherHits (s.matcher n) kind sysCore value)

/-- The matchers that look at a system core's event. -/
def State.matchersAt (s : State) : SysEvent → List Nat
  | .contextSwitch c a => s.matchersOf 0 c (some a)
  | .systemCall c a => s.matchersOf 1 c (some a)
  | .interrupt c a => s.matchersOf 2 c (some a)

/-- A system core's event at which a matcher with an action fires: every matcher that looks at it fires, in ascending
order. -/
def State.meetEvent (s : State) (e : SysEvent) (action : Nat) : State :=
  let l := s.matchersAt e
  if l.any (fun n => actionOf (s.matcher n) == action) then l.foldl State.fire s else s

/-- CAPTURE_START. -/
def execCaptureStart (event : SysEvent) (s : State) : Host.Outcome State Fault Refusal := .next (s.meetEvent event 0)
/-- CAPTURE_STOP. -/
def execCaptureStop (event : SysEvent) (s : State) : Host.Outcome State Fault Refusal := .next (s.meetEvent event 1)
/-- CAPTURE_FREEZE. -/
def execCaptureFreeze (event : SysEvent) (s : State) : Host.Outcome State Fault Refusal := .next (s.meetEvent event 2)
/-- SELECT_FILTER. -/
def execSelectFilter (event : SysEvent) (s : State) : Host.Outcome State Fault Refusal := .next (s.meetEvent event 3)
/-- PRECISE_STOP. -/
def execPreciseStop (event : SysEvent) (s : State) : Host.Outcome State Fault Refusal := .next (s.meetEvent event 4)

/-- PANIC: the matchers of EVENT 3 that look at the system core fire in ascending order. -/
def execPanic (sysCore : Nat) (s : State) : Host.Outcome State Fault Refusal :=
  .next ((s.matchersOf 3 sysCore none).foldl State.fire s)

/-- PRECISE_STOP_TIMEOUT: an activation of a covered core that waits or is parked at its END, or still runs 65,536 cycles after
the stop began, is saved under R213. -/
def execPreciseStopTimeout (core slot : Nat) (s : State) : Host.Outcome State Fault Refusal :=
  let k := 8 * core + slot
  let st := (s.act k).st
  if !(s.core core).covered then .next s
  else if st == .waiting || st == .parked || 65536 ≤ s.cycle - s.stopFrom then .next (s.preemptSlot k)
  else .next s

/-- PRECISE_STOP_LANDING: a covered core whose slots are all FREE writes its STOP record, whatever the filter says; while the
rings are frozen it is kept back. -/
def execPreciseStopLanding (core : Nat) (s : State) : Host.Outcome State Fault Refusal :=
  let c := s.core core
  if !c.covered || c.landed || !(slotsOf core).all (fun k => (s.act k).st == .free) then .next s
  else
    let (ws, s) := s.bareWords 0x06 (BitVec.ofNat 64 (coreAddr core)) (BitVec.ofNat 64 c.dcount) (c.stopSaved.zeroExtend 64)
    let d := dieOf core
    let s := if s.capFrozen then s.modDie d (fun x => { x with stopRecs := x.stopRecs ++ [ws] }) else s.traceWrite d ws
    .next (s.modCore core (fun x => { x with landed := true })).settleStop

/-- PRECISE_STOP_RESUME. -/
def execPreciseStopResume (s : State) : Host.Outcome State Fault Refusal := .next s.endStop
/-- CAPTURE_UNFREEZE. -/
def execCaptureUnfreeze (s : State) : Host.Outcome State Fault Refusal := .next s.unfreeze

/-! ## The profile table (R317, R320) -/

/-- PROFILE_CLEAR. -/
def execProfileClear (core : Nat) (s : State) : Host.Outcome State Fault Refusal := .next (s.clearProfile core)

/-- The four words of a profile entry. -/
def Prof.words (p : Prof) : List Word :=
  [wordOf [(39, p.src), (38, if p.valid then 1 else 0), (0, p.count)], BitVec.ofNat 64 p.transit, BitVec.ofNat 64 p.qwait,
   BitVec.ofNat 64 p.run]

/-- The 2 KiB of a core's profile table. -/
def Core.profileBytes (c : Core) : List Byte := bytesOf ((upTo 64).flatMap (fun n => (tget {} n c.profile : Prof).words))

/-- PROFILE_READ: the core writes its table at a GLB address of its partition, once what its ended activations wrote is
performed, and then replies to the OS. -/
def execProfileRead (core addr : Nat) (s : State) : Host.Outcome State Fault Refusal :=
  match (s.core core).part with
  | none => .next s
  | some p =>
    if !s.endedDone core then .next s
    else
      let s := (s.core core).profileBytes.zipIdx.foldl (fun s x => s.pokeVirt (s.part p).asid (addr + x.2) [x.1]) s
      .next { s with profReplies := s.profReplies ++ [(core, addr)] }

end Sys2Proof.Machine
end

