-- ==== Sys2Proof/Machine/Platform.lean ====
section
/-!
DEFINITION. Key slots (R332, R333), the host link (R327, R328), boot, identity and the rollback counter (R329 to R331), clock
steps and shutdown (R339), and the registers of the system dies' register space that the spec lays out (R175, R206, R285, R312
to R315, R328, R332).
-/

namespace Sys2Proof.Machine

/-! ## Key slots -/

/-- A key slot. -/
def State.key (s : State) (n : Nat) : KeySlot := tget {} n s.keys

/-- Frames, with their sizes, of the mapped pages that use a key slot. -/
def State.framesOfKey (s : State) (n : Nat) : List (Nat × Nat) :=
  s.homes.filterMap (fun h =>
    match s.walk (asidOfKey h.1) (vaOfKey h.1) with
    | .ok p => if p.key == n && p.path.owned then some (p.frame, pageSpan h.2.size) else none
    | .error _ => none)

/-- A 16-byte block as it reads under new keys: what stands in the memory is its bytes encrypted under the old ones (R333). -/
def rekeyBlock (old new : List Word) (a : Nat) (bs : List Byte) : List Byte :=
  leBytes 16 ((Config.xts new a).symm (Config.xts old a (BitVec.ofNat 128 (leNat bs)))).toNat

/-- Memory as it reads once a slot that held keys holds others: each 16-byte block of its pages, each page taken once however often it
is mapped. -/
def State.rekeyed (s : State) (n : Nat) (old new : List Word) : State :=
  (s.framesOfKey n).dedup.foldl (fun s f =>
    (upTo (f.2 / 16)).foldl (fun s b =>
      let a := f.1 + 16 * b
      let s := (upTo 16).foldl (fun s j => s.sealPhys (a + j)) s
      s.poke a (rekeyBlock old new a (mread a 16 s.glb))) s) s

/-- An operation of KSCTL begins; a write while BUSY is ignored. -/
def State.beginKey (s : State) (slot : Nat) (load : Bool) : State :=
  if s.ksBusy then s else { s with ksBusy := true, ksOp := some (slot % 64, load) }

/-- KEY_SLOT_LOAD. -/
def execKeySlotLoad (slot : Nat) (s : State) : Host.Outcome State Fault Refusal := .next (s.beginKey slot true)
/-- KEY_SLOT_CLEAR. -/
def execKeySlotClear (slot : Nat) (s : State) : Host.Outcome State Fault Refusal := .next (s.beginKey slot false)

/-- Slot n takes the keys of KDATA, which is then cleared. -/
def State.loadKey (s : State) (n : Nat) : State :=
  let data := (upTo 4).map (fun i => tget 0 i s.kdata)
  let tweak := (from_ 4 4).map (fun i => tget 0 i s.kdata)
  let old := s.key n
  let s := if old.data.isEmpty || (old.data == data && old.tweak == tweak) then s
    else s.rekeyed n (old.data ++ old.tweak) (data ++ tweak)
  { s with keys := tset {} n { full := true, data := data, tweak := tweak } s.keys, kdata := [] }

/-- KEY_SLOT_DONE: every base die holds the new contents, and BUSY clears. -/
def execKeySlotDone (s : State) : Host.Outcome State Fault Refusal :=
  match s.ksOp with
  | none => .next s
  | some (n, load) =>
    let s := if load then s.loadKey n else { s with keys := tset {} n { s.key n with full := false } s.keys }
    .next { s with ksBusy := false, ksOp := none }

/-! ## The host link -/

/-- Whether a running command of an engine reads host space: an operand of it lies on a host page (R162, R327). -/
def State.engReadsHost (s : State) (core : Nat) (e : Eng) : Bool :=
  ((s.core core).queue e).any (fun c => c.phase == .running && c.parked.isNone &&
    c.vals.any (fun v => match s.walk c.asid v.toNat with | .ok p => p.path == .host | .error _ => false))

/-- Whether a host read of a slot, or of an engine of the core (8 matrix, 9 copy, 10 collective), is outstanding; and its key. -/
def State.hostReader (s : State) (core slot : Nat) : Nat × Bool :=
  match slot with
  | 8 => (engKey core .matrix, s.engReadsHost core .matrix)
  | 9 => (engKey core .copy, s.engReadsHost core .copy)
  | 10 => (engKey core .col, s.engReadsHost core .col)
  | n => (8 * core + n % 8, (s.act (8 * core + n % 8)).hostRead.isSome)

/-- The outstanding host read of a key fails (R327): HLERR counts it, and its word or command faults when it is taken again. -/
def State.failHostRead (s : State) (key : Nat) : State :=
  if (s.act key).hostFail then s
  else { s.countHostError with hlRerr := true }.modAct key (fun a => { a with hostFail := true })

/-- HOST_READ_FAIL: the outstanding host read of a slot or engine fails. -/
def execHostReadFail (core slot : Nat) (s : State) : Host.Outcome State Fault Refusal :=
  let (key, out) := s.hostReader core slot
  .next (if out then s.failHostRead key else s)

/-- HOST_WRITE_FAIL: the posted write that the link accepted last fails (log entry 122), and host memory stands as before it. It is
not reported to its activation: the link sets WERR and interrupts the management controller (R327). -/
def execHostWriteFail (s : State) : Host.Outcome State Fault Refusal :=
  match s.posted with
  | none => .next s
  | some (a, old) => .next { s.countHostError with hlWerr := true, hlIrqs := s.hlIrqs + 1, host := mwrite a old s.host, posted := none }

/-- HOST_LINK_DOWN: every host read that is outstanding fails (R328, R340). -/
def execHostLinkDown (s : State) : Host.Outcome State Fault Refusal :=
  let keys := (s.acts.filter (fun a => a.2.hostRead.isSome)).map (·.1)
  .next (keys.foldl State.failHostRead { s with hlDown := true })
/-- HOST_LINK_UP. -/
def execHostLinkUp (s : State) : Host.Outcome State Fault Refusal := .next { s with hlDown := false }

/-! ## Boot (R329, R330) -/

/-- MAGIC of a boot copy's header. -/
def bootMagic : Word := 0x4B39424F4F540001

/-- The size of a boot copy in the flash. -/
def copySpan : Nat := 2 ^ 30

/-- Bytes 0 to 23 of a boot copy's header. -/
def BootCopy_header (c : BootCopy) : List Byte := leBytes 8 c.magic.toNat ++ leBytes 8 c.version ++ leBytes 8 c.length

/-- A boot copy as it stands in the flash: the header of 4,096 bytes, and the image behind it. -/
def BootCopy_bytes (c : BootCopy) : List Byte :=
  (BootCopy_header c ++ padTo 1793 (c.pubkey.take 1793) ++ padTo 1280 (c.sig.take 1280) ++ padTo 999 [] ++ c.image).take copySpan

/-- The header and the image of a stage that stands at an offset of the flash. -/
def State.bootAt (s : State) (a : Nat) : BootCopy :=
  let n (i : Nat) : Nat := leNat (mread (a + i) 8 s.flash)
  { magic := BitVec.ofNat 64 (n 0), version := n 8, length := n 16, pubkey := mread (a + 24) 1793 s.flash
    sig := mread (a + 1817) 1280 s.flash, image := mread (a + 4096) (min (n 16) (2 ^ 24)) s.flash }

/-- The digest of a boot copy that its signature signs. -/
def BootCopy_digest (c : BootCopy) : List Byte := Config.shake256 (BootCopy_header c ++ c.image.take c.length) 64

/-- The fused rollback counter. -/
def State.fused (s : State) : Nat := max Config.rollback.toNat s.rollback.toNat

/-- Whether the boot ROM accepts a copy; a LENGTH above 16 MiB is no header's (R329). -/
def State.accepts (s : State) (c : BootCopy) : Bool :=
  c.magic == bootMagic && Config.shake256 c.pubkey 64 == Config.keyHash && decide (s.fused ≤ c.version) && decide (c.length ≤ 2 ^ 24) &&
    Config.falconVerify c.pubkey c.sig (BootCopy_digest c)

/-- A raise of the rollback counter; it never falls. -/
def State.raiseRollback (s : State) (v : Word) : State := if s.fused < v.toNat then { s with rollback := v } else s

/-- The machine when power is good: all but the flash, the fuses, what lies outside the module, and the model's own counters
and order of moves is at its reset value. -/
def State.powerUp (s : State) : State :=
  { State.reset with
    agenda := s.agenda, fresh := s.fresh, flash := s.flash, rollback := s.rollback, rollWait := s.rollWait, host := s.host
    devices := s.devices, reports := s.reports }

/-- The boot ROM runs the image of a boot copy: its digest is measurement 0. -/
def State.bootFrom (s : State) (copy : Nat) : State :=
  { s with boot := .running, bootCopy := copy, meas := [BootCopy_digest (s.bootAt (copySpan * copy))] }

/-- POWER_GOOD: the boot ROM fills key slot 0, and loads copy A or copy B, or enters recovery. A raise of the rollback counter
that waits for boot is carried out. -/
def execPowerGood (s : State) : Host.Outcome State Fault Refusal :=
  let s := s.powerUp
  let s := { s with
    keys := tset {} 0 { full := true, data := (upTo 4).map Config.bootKey, tweak := (from_ 4 4).map Config.bootKey } s.keys }
  let s := if s.accepts (s.bootAt 0) then s.bootFrom 0
    else if s.accepts (s.bootAt copySpan) then s.bootFrom 1
    else { s with boot := .recovery }
  match s.boot, s.rollWait with
  | .running, some v => .next ({ s with rollWait := none }.raiseRollback v)
  | _, _ => .next s

/-- The boot chain takes its next stage from an offset of the boot copy: verified as the first one was, it is recorded as the next
measurement, up to 15, and runs. One that does not verify does not run. Past the OS the chain goes no further. -/
def State.bootStage (s : State) (offset : Nat) (os : Bool) : State :=
  let c := s.bootAt (copySpan * s.bootCopy + offset % copySpan)
  if s.boot != .running || s.osUp || !s.accepts c then s
  else { s with meas := if s.meas.length < 16 then s.meas ++ [BootCopy_digest c] else s.meas, osUp := os }

/-- COMPUTE_DIE_RESET_RELEASE: the OS releases the compute dies; none leaves reset before the OS runs, or in recovery. -/
def execComputeDieResetRelease (s : State) : Host.Outcome State Fault Refusal :=
  .next (if s.osUp && !s.tooHot then { s with diesOut := true } else s)

/-- RECOVERY_COPY_WRITE: in recovery, the host writes one new copy, A or B. -/
def execRecoveryCopyWrite (copy : Nat) (contents : BootCopy) (s : State) : Host.Outcome State Fault Refusal :=
  .next (if s.boot == .recovery && !s.copyWritten && decide (copy < 2) then
    { s with flash := mwrite (copySpan * copy) (BootCopy_bytes contents) s.flash, copyWritten := true } else s)

/-- ROLLBACK_RAISE: the OS raises the counter; a raise that comes before boot has completed waits for it. -/
def execRollbackRaise (value : Word) (s : State) : Host.Outcome State Fault Refusal :=
  match s.boot with
  | .running => .next (s.raiseRollback value)
  | .off => .next { s with rollWait := some (match s.rollWait with | some v => if v.toNat < value.toNat then value else v | none => value) }
  | .recovery => .next s

/-! ## Identity (R331) -/

/-- PARTNO: "BKM9-3216A" in ASCII. -/
def partNo : List Byte := [0x42, 0x4B, 0x4D, 0x39, 0x2D, 0x33, 0x32, 0x31, 0x36, 0x41]

/-- All HMAP registers of all dies in die order. -/
def hmapBytes : List Byte :=
  (upTo numDies).flatMap (fun d => (upTo 336).flatMap (fun n => leBytes 8 (hmapReg d n).toNat))

/-- Bytes 0 to 1,159 of an identity report. -/
def State.identityBody (s : State) (nonce : List Byte) : List Byte :=
  padTo 16 partNo ++ leBytes 2 0x00A1 ++ padTo 14 (Config.serial.take 14) ++ padTo 64 ((Config.shake256 hmapBytes 64).take 64) ++
    padTo 32 (nonce.take 32) ++ padTo 1024 (s.meas.flatMap (fun m => padTo 64 (m.take 64))) ++ leBytes 8 s.fused

/-- IDENTITY_REPORT: the report is returned to the host. -/
def execIdentityReport (nonce : List Byte) (s : State) : Host.Outcome State Fault Refusal :=
  let body := s.identityBody nonce
  .next { s with reports := s.reports ++ [body ++ padTo 1280 (Config.falconSign (Config.shake256 body 64))] }

/-! ## Power and clock (R339) -/

/-- CLOCK_STEP_DOWN: 1.75, 1.5, 1.25 and 1.0 GHz are steps 0 to 3. -/
def execClockStepDown (s : State) : Host.Outcome State Fault Refusal := .next { s with clockStep := min (s.clockStep + 1) 3 }
/-- CLOCK_STEP_UP. -/
def execClockStepUp (s : State) : Host.Outcome State Fault Refusal := .next { s with clockStep := s.clockStep - 1 }
/-- OVER_TEMPERATURE_SHUTDOWN. -/
def execOverTemperatureShutdown (s : State) : Host.Outcome State Fault Refusal := .next { s with tooHot := true, diesOut := false }

/-! ## Registers -/

/-- CAPSTAT written (R314): RUN and FSEL, then FROZEN cleared, then RESUME. -/
def State.capstatWrite (s : State) (v : Word) : State :=
  let s := { s with capRun := v.getLsbD 0, capFsel := (bits v 10 2).toNat }
  let s := if v.getLsbD 1 && s.capFrozen then s.unfreeze else s
  if v.getLsbD 4 then s.endStop else s

/-- KSCTL written (R332, R333). -/
def State.ksctlWrite (s : State) (v : Word) : State :=
  match (bits v 61 2).toNat with
  | 1 => s.beginKey (bits v 0 6).toNat true
  | 2 => s.beginKey (bits v 0 6).toNat false
  | _ => s

/-- HLERR written (R328): the write-one-to-clear bits; clearing one begins COUNT anew. -/
def State.hlerrWrite (s : State) (v : Word) : State :=
  let s' := { s with hlRerr := s.hlRerr && !v.getLsbD 1, hlWerr := s.hlWerr && !v.getLsbD 0 }
  if v.getLsbD 0 || v.getLsbD 1 then { s' with hlCount := 0 } else s'

/-- Word 3 of a fault ring written (R206); records that wait are written into a ring that has room (R207). -/
def State.ringCtlWrite (s : State) (n : Nat) (v : Word) : State :=
  let r : Ring := tget {} n s.rings
  { s with rings := tset {} n { r with ovf := r.ovf && !v.getLsbD 2, irqen := v.getLsbD 1, en := v.getLsbD 0 } s.rings }.flushRing n
    s.ringWait.length

/-- A register of the system dies' register space written. -/
def State.sysWrite (s : State) (r : SysReg) (v : Word) : State :=
  match r with
  | .ringBase n =>
    { s with rings := tset {} n { (tget {} n s.rings : Ring) with base := (bits v 12 44).toNat * 4096, logn := (bits v 0 4).toNat } s.rings }.flushRing n
      s.ringWait.length
  | .ringCtl n => s.ringCtlWrite n v
  | .matcher n => if n < 8 then { s with matchers := tset 0 n v s.matchers } else s
  | .filter n => if n < 4 then { s with filters := tset none n (some (v &&& 0xFFFFFFFFFF01FFFF)) s.filters } else s
  | .capstat => s.capstatWrite v
  | .traceBase d => s.modDie d (fun x => { x with traceBase := v &&& 0x00FFFFFFFFFFF00F })
  | .ksctl => s.ksctlWrite v
  | .kdata n => if n < 8 then { s with kdata := tset 0 n v s.kdata } else s
  | .hlerr => s.hlerrWrite v
  | .mcast d r g => s.modDie d (fun x => { x with mcast := tset 0 (65536 * r + g % 65536) (v &&& 0xFFFE00000FFFFFFF) x.mcast })
  | .member d c i =>
    s.modDie d (fun x => { x with members := tset (0, 0) (256 * c + i % 256) ((tget (0, 0) (256 * c + i % 256) x.members).1, v) x.members })
  | .memberGroup d c i =>
    s.modDie d (fun x => { x with members := tset (0, 0) (256 * c + i % 256) (v.toNat % 65536, (tget (0, 0) (256 * c + i % 256) x.members).2) x.members })
  | .lptbase => { s with lptBase := v &&& lptMask }
  | .migPool d => s.modDie d (fun x => { x with pool := x.pool ++ [v.toNat] })

/-! ## The OS on the system network (R335) -/

/-- The OS sends a message on the system network to a core, from the source and with the contents that it chooses; how it comes to the
core's die the spec does not say (log entry 124). -/
def State.osSend (s : State) (m : Msg) : State :=
  match coreOfAddr m.dest with
  | none => s
  | some c =>
    let m : Msg :=
      { dest := m.dest, src := m.src, sslot := m.sslot, vn := .system, byType := m.byType, type := m.type, seq := m.seq
        stamp := m.stamp, entry := m.entry, args := m.args, kind := .system, sent := s.cycle, part := ((s.core c).part).getD 0
        numbered := true, here := dieOf c }
    { s with msgs := s.msgs ++ [m] }

/-- REGISTER_WRITE. -/
def execRegisterWrite (reg : SysReg) (value : Word) (s : State) : Host.Outcome State Fault Refusal := .next (s.sysWrite reg value)

end Sys2Proof.Machine
end

