-- ==== Sys2Proof/Machine/Dispatch.lean ====
section
/-!
DEFINITION. One arm per instruction and event: a direct call of its meaning.
-/

namespace Sys2Proof.Machine

/-- The effect of an instruction or event. -/
def exec (i : Instr) (s : State) : Host.Outcome State Fault Refusal :=
  match i with
  | .abs w => Sys2Proof.Machine.execAbs w s
  | .add w => Sys2Proof.Machine.execAdd w s
  | .and w => Sys2Proof.Machine.execAnd w s
  | .andn w => Sys2Proof.Machine.execAndn w s
  | .bswap w => Sys2Proof.Machine.execBswap w s
  | .clz w => Sys2Proof.Machine.execClz w s
  | .ctz w => Sys2Proof.Machine.execCtz w s
  | .cmp w => Sys2Proof.Machine.execCmp w s
  | .div w => Sys2Proof.Machine.execDiv w s
  | .exts w => Sys2Proof.Machine.execExts w s
  | .extz w => Sys2Proof.Machine.execExtz w s
  | .ins w => Sys2Proof.Machine.execIns w s
  | .li w => Sys2Proof.Machine.execLi w s
  | .lih w => Sys2Proof.Machine.execLih w s
  | .madr w => Sys2Proof.Machine.execMadr w s
  | .max w => Sys2Proof.Machine.execMax w s
  | .min w => Sys2Proof.Machine.execMin w s
  | .mov w => Sys2Proof.Machine.execMov w s
  | .mul w => Sys2Proof.Machine.execMul w s
  | .mulh w => Sys2Proof.Machine.execMulh w s
  | .neg w => Sys2Proof.Machine.execNeg w s
  | .or w => Sys2Proof.Machine.execOr w s
  | .popc w => Sys2Proof.Machine.execPopc w s
  | .rem w => Sys2Proof.Machine.execRem w s
  | .rol w => Sys2Proof.Machine.execRol w s
  | .sar w => Sys2Proof.Machine.execSar w s
  | .sel w => Sys2Proof.Machine.execSel w s
  | .shl w => Sys2Proof.Machine.execShl w s
  | .shr w => Sys2Proof.Machine.execShr w s
  | .sub w => Sys2Proof.Machine.execSub w s
  | .xor w => Sys2Proof.Machine.execXor w s
  | .fabs w => Sys2Proof.Machine.execFabs w s
  | .fadd w => Sys2Proof.Machine.execFadd w s
  | .fcmp w => Sys2Proof.Machine.execFcmp w s
  | .fcvt w => Sys2Proof.Machine.execFcvt w s
  | .fdiv w => Sys2Proof.Machine.execFdiv w s
  | .ffma w => Sys2Proof.Machine.execFfma w s
  | .fmax w => Sys2Proof.Machine.execFmax w s
  | .fmin w => Sys2Proof.Machine.execFmin w s
  | .fmul w => Sys2Proof.Machine.execFmul w s
  | .fneg w => Sys2Proof.Machine.execFneg w s
  | .fsqrt w => Sys2Proof.Machine.execFsqrt w s
  | .fsub w => Sys2Proof.Machine.execFsub w s
  | .br w => Sys2Proof.Machine.execBr w s
  | .brl w => Sys2Proof.Machine.execBrl w s
  | .chk w => Sys2Proof.Machine.execChk w s
  | .endOp w => Sys2Proof.Machine.execEndOp w s
  | .jmp w => Sys2Proof.Machine.execJmp w s
  | .loop w => Sys2Proof.Machine.execLoop w s
  | .nop w => Sys2Proof.Machine.execNop w s
  | .ret w => Sys2Proof.Machine.execRet w s
  | .yield w => Sys2Proof.Machine.execYield w s
  | .gand w => Sys2Proof.Machine.execGand w s
  | .gnot w => Sys2Proof.Machine.execGnot w s
  | .gor w => Sys2Proof.Machine.execGor w s
  | .mall w => Sys2Proof.Machine.execMall w s
  | .mand w => Sys2Proof.Machine.execMand w s
  | .many w => Sys2Proof.Machine.execMany w s
  | .mfirst w => Sys2Proof.Machine.execMfirst w s
  | .mnot w => Sys2Proof.Machine.execMnot w s
  | .mor w => Sys2Proof.Machine.execMor w s
  | .mpop w => Sys2Proof.Machine.execMpop w s
  | .vabs w => Sys2Proof.Machine.execVabs w s
  | .vadd w => Sys2Proof.Machine.execVadd w s
  | .vand w => Sys2Proof.Machine.execVand w s
  | .vcmp w => Sys2Proof.Machine.execVcmp w s
  | .vcvt w => Sys2Proof.Machine.execVcvt w s
  | .vdot4 w => Sys2Proof.Machine.execVdot4 w s
  | .vexp2 w => Sys2Proof.Machine.execVexp2 w s
  | .vext w => Sys2Proof.Machine.execVext w s
  | .vfma w => Sys2Proof.Machine.execVfma w s
  | .vins w => Sys2Proof.Machine.execVins w s
  | .vlget w => Sys2Proof.Machine.execVlget w s
  | .vlog2 w => Sys2Proof.Machine.execVlog2 w s
  | .vmax w => Sys2Proof.Machine.execVmax w s
  | .vmin w => Sys2Proof.Machine.execVmin w s
  | .vmov w => Sys2Proof.Machine.execVmov w s
  | .vmul w => Sys2Proof.Machine.execVmul w s
  | .vor w => Sys2Proof.Machine.execVor w s
  | .vperm w => Sys2Proof.Machine.execVperm w s
  | .vqnt w => Sys2Proof.Machine.execVqnt w s
  | .vrcp w => Sys2Proof.Machine.execVrcp w s
  | .vred w => Sys2Proof.Machine.execVred w s
  | .vrsq w => Sys2Proof.Machine.execVrsq w s
  | .vsar w => Sys2Proof.Machine.execVsar w s
  | .vscan w => Sys2Proof.Machine.execVscan w s
  | .vsel w => Sys2Proof.Machine.execVsel w s
  | .vshl w => Sys2Proof.Machine.execVshl w s
  | .vshr w => Sys2Proof.Machine.execVshr w s
  | .vslide w => Sys2Proof.Machine.execVslide w s
  | .vsplat w => Sys2Proof.Machine.execVsplat w s
  | .vsub w => Sys2Proof.Machine.execVsub w s
  | .vxor w => Sys2Proof.Machine.execVxor w s
  | .ldg w => Sys2Proof.Machine.execLdg w s
  | .ldl w => Sys2Proof.Machine.execLdl w s
  | .lds w => Sys2Proof.Machine.execLds w s
  | .ldz w => Sys2Proof.Machine.execLdz w s
  | .stg w => Sys2Proof.Machine.execStg w s
  | .stl w => Sys2Proof.Machine.execStl w s
  | .sts w => Sys2Proof.Machine.execSts w s
  | .stz w => Sys2Proof.Machine.execStz w s
  | .vldg w => Sys2Proof.Machine.execVldg w s
  | .vldl w => Sys2Proof.Machine.execVldl w s
  | .vlds w => Sys2Proof.Machine.execVlds w s
  | .vstg w => Sys2Proof.Machine.execVstg w s
  | .vstl w => Sys2Proof.Machine.execVstl w s
  | .vsts w => Sys2Proof.Machine.execVsts w s
  | .vgthg w => Sys2Proof.Machine.execVgthg w s
  | .vgthl w => Sys2Proof.Machine.execVgthl w s
  | .vgths w => Sys2Proof.Machine.execVgths w s
  | .vsctg w => Sys2Proof.Machine.execVsctg w s
  | .vsctl w => Sys2Proof.Machine.execVsctl w s
  | .vscts w => Sys2Proof.Machine.execVscts w s
  | .pref w => Sys2Proof.Machine.execPref w s
  | .amog w => Sys2Proof.Machine.execAmog w s
  | .amos w => Sys2Proof.Machine.execAmos w s
  | .casg w => Sys2Proof.Machine.execCasg w s
  | .cass w => Sys2Proof.Machine.execCass w s
  | .redg w => Sys2Proof.Machine.execRedg w s
  | .reds w => Sys2Proof.Machine.execReds w s
  | .vreds w => Sys2Proof.Machine.execVreds w s
  | .fence w => Sys2Proof.Machine.execFence w s
  | .fencer w => Sys2Proof.Machine.execFencer w s
  | .waita w => Sys2Proof.Machine.execWaita w s
  | .wakea w => Sys2Proof.Machine.execWakea w s
  | .oblgive w => Sys2Proof.Machine.execOblgive w s
  | .oblqry w => Sys2Proof.Machine.execOblqry w s
  | .obltake w => Sys2Proof.Machine.execObltake w s
  | .sigadd w => Sys2Proof.Machine.execSigadd w s
  | .sigfree w => Sys2Proof.Machine.execSigfree w s
  | .signew w => Sys2Proof.Machine.execSignew w s
  | .sigset w => Sys2Proof.Machine.execSigset w s
  | .sigwait w => Sys2Proof.Machine.execSigwait w s
  | .bara w => Sys2Proof.Machine.execBara w s
  | .barw w => Sys2Proof.Machine.execBarw w s
  | .grpqry w => Sys2Proof.Machine.execGrpqry w s
  | .bind w => Sys2Proof.Machine.execBind w s
  | .unbind w => Sys2Proof.Machine.execUnbind w s
  | .send w => Sys2Proof.Machine.execSend w s
  | .spawn w => Sys2Proof.Machine.execSpawn w s
  | .slopen w => Sys2Proof.Machine.execSlopen w s
  | .slwr w => Sys2Proof.Machine.execSlwr w s
  | .slclose w => Sys2Proof.Machine.execSlclose w s
  | .ltadv w => Sys2Proof.Machine.execLtadv w s
  | .ltann w => Sys2Proof.Machine.execLtann w s
  | .ltget w => Sys2Proof.Machine.execLtget w s
  | .ltlook w => Sys2Proof.Machine.execLtlook w s
  | .ltnull w => Sys2Proof.Machine.execLtnull w s
  | .ltset w => Sys2Proof.Machine.execLtset w s
  | .ltwait w => Sys2Proof.Machine.execLtwait w s
  | .mma w => Sys2Proof.Machine.execMma w s
  | .mmdrain w => Sys2Proof.Machine.execMmdrain w s
  | .mmrow w => Sys2Proof.Machine.execMmrow w s
  | .mmz w => Sys2Proof.Machine.execMmz w s
  | .cpy w => Sys2Proof.Machine.execCpy w s
  | .cpyg w => Sys2Proof.Machine.execCpyg w s
  | .colag w => Sys2Proof.Machine.execColag w s
  | .colrs w => Sys2Proof.Machine.execColrs w s
  | .rpt w => Sys2Proof.Machine.execRpt w s
  | .rptend w => Sys2Proof.Machine.execRptend w s
  | .tblld w => Sys2Proof.Machine.execTblld w s
  | .tblx w => Sys2Proof.Machine.execTblx w s
  | .tldef w => Sys2Proof.Machine.execTldef w s
  | .tlqry w => Sys2Proof.Machine.execTlqry w s
  | .tlset w => Sys2Proof.Machine.execTlset w s
  | .brk w => Sys2Proof.Machine.execBrk w s
  | .mfc w => Sys2Proof.Machine.execMfc w s
  | .mtc w => Sys2Proof.Machine.execMtc w s
  | .park w => Sys2Proof.Machine.execPark w s
  | .unpark w => Sys2Proof.Machine.execUnpark w s
  | .stamp w => Sys2Proof.Machine.execStamp w s
  | .trace w => Sys2Proof.Machine.execTrace w s
  | .trap w => Sys2Proof.Machine.execTrap w s
  | .trig w => Sys2Proof.Machine.execTrig w s
  | .streamDeadlock core slot => Sys2Proof.Machine.execStreamDeadlock core slot s
  | .slotStartDone core slot => Sys2Proof.Machine.execSlotStartDone core slot s
  | .starvationPromotion core slot port => Sys2Proof.Machine.execStarvationPromotion core slot port s
  | .dispatch core => Sys2Proof.Machine.execDispatch core s
  | .bindwaitExpiry core => Sys2Proof.Machine.execBindwaitExpiry core s
  | .bindComplete core slot => Sys2Proof.Machine.execBindComplete core slot s
  | .deadQueueRetry core => Sys2Proof.Machine.execDeadQueueRetry core s
  | .firingStart part stage => Sys2Proof.Machine.execFiringStart part stage s
  | .rebalanceTick part => Sys2Proof.Machine.execRebalanceTick part s
  | .spawnRequest core => Sys2Proof.Machine.execSpawnRequest core s
  | .spawnAnswer core slot => Sys2Proof.Machine.execSpawnAnswer core slot s
  | .messageDelivery index => Sys2Proof.Machine.execMessageDelivery index s
  | .sendEnqueue core slot => Sys2Proof.Machine.execSendEnqueue core slot s
  | .signalHomeOp index => Sys2Proof.Machine.execSignalHomeOp index s
  | .drain core slot index => Sys2Proof.Machine.execDrain core slot index s
  | .apply die index => Sys2Proof.Machine.execApply die index s
  | .atomicAtOwner core slot index => Sys2Proof.Machine.execAtomicAtOwner core slot index s
  | .counterHalving die => Sys2Proof.Machine.execCounterHalving die s
  | .ownerQuery index => Sys2Proof.Machine.execOwnerQuery index s
  | .ownerReply index => Sys2Proof.Machine.execOwnerReply index s
  | .redirect index => Sys2Proof.Machine.execRedirect index s
  | .notOwner index => Sys2Proof.Machine.execNotOwner index s
  | .migrateBegin index => Sys2Proof.Machine.execMigrateBegin index s
  | .pageLines index => Sys2Proof.Machine.execPageLines index s
  | .migrateDone index => Sys2Proof.Machine.execMigrateDone index s
  | .ownerUpdate index => Sys2Proof.Machine.execOwnerUpdate index s
  | .stubExpiry die page => Sys2Proof.Machine.execStubExpiry die page s
  | .stubRetire index => Sys2Proof.Machine.execStubRetire index s
  | .ownerInval index => Sys2Proof.Machine.execOwnerInval index s
  | .ownerInvalAck index => Sys2Proof.Machine.execOwnerInvalAck index s
  | .retireOk index => Sys2Proof.Machine.execRetireOk index s
  | .stubRelay index => Sys2Proof.Machine.execStubRelay index s
  | .chainLimit index => Sys2Proof.Machine.execChainLimit index s
  | .dupInval index => Sys2Proof.Machine.execDupInval index s
  | .dupInvalAck index => Sys2Proof.Machine.execDupInvalAck index s
  | .leaseGrant index => Sys2Proof.Machine.execLeaseGrant index s
  | .leaseRecall index => Sys2Proof.Machine.execLeaseRecall index s
  | .leaseReturn index => Sys2Proof.Machine.execLeaseReturn index s
  | .reservedKind kind src dst => Sys2Proof.Machine.execReservedKind kind src dst s
  | .migctlPin part page => Sys2Proof.Machine.execMigctlPin part page s
  | .migctlUnpin part page => Sys2Proof.Machine.execMigctlUnpin part page s
  | .migctlMove part page dest destMod => Sys2Proof.Machine.execMigctlMove part page dest destMod s
  | .atmmodeHintWrite part hint => Sys2Proof.Machine.execAtmmodeHintWrite part hint s
  | .barrierArrival part group cluster => Sys2Proof.Machine.execBarrierArrival part group cluster s
  | .barrierRelease part group => Sys2Proof.Machine.execBarrierRelease part group s
  | .mmaStep octet => Sys2Proof.Machine.execMmaStep octet s
  | .mmzExec octet => Sys2Proof.Machine.execMmzExec octet s
  | .drainStart core => Sys2Proof.Machine.execDrainStart core s
  | .drainComplete core => Sys2Proof.Machine.execDrainComplete core s
  | .copyLine core index => Sys2Proof.Machine.execCopyLine core index s
  | .copyComplete core index => Sys2Proof.Machine.execCopyComplete core index s
  | .collectiveLine core index part => Sys2Proof.Machine.execCollectiveLine core index part s
  | .collectiveComplete core index => Sys2Proof.Machine.execCollectiveComplete core index s
  | .sluiceAnswer core slot returns => Sys2Proof.Machine.execSluiceAnswer core slot returns s
  | .sluiceCloseAck core slot => Sys2Proof.Machine.execSluiceCloseAck core slot s
  | .eventDispatch core => Sys2Proof.Machine.execEventDispatch core s
  | .announcement core link => Sys2Proof.Machine.execAnnouncement core link s
  | .nullEvent core link => Sys2Proof.Machine.execNullEvent core link s
  | .demand core link => Sys2Proof.Machine.execDemand core link s
  | .frameSave core slot => Sys2Proof.Machine.execFrameSave core slot s
  | .frameRestore core => Sys2Proof.Machine.execFrameRestore core s
  | .preempt core mask => Sys2Proof.Machine.execPreempt core mask s
  | .pageReady die asid page => Sys2Proof.Machine.execPageReady die asid page s
  | .releaseEntry die entry => Sys2Proof.Machine.execReleaseEntry die entry s
  | .pushFreeFrame die frame => Sys2Proof.Machine.execPushFreeFrame die frame s
  | .resumeAtWord target => Sys2Proof.Machine.execResumeAtWord target s
  | .resumeAfterWord target => Sys2Proof.Machine.execResumeAfterWord target s
  | .resumeWithRecovery target => Sys2Proof.Machine.execResumeWithRecovery target s
  | .ringTailWrite ring tail => Sys2Proof.Machine.execRingTailWrite ring tail s
  | .processTerminate part => Sys2Proof.Machine.execProcessTerminate part s
  | .eccCorrected granule => Sys2Proof.Machine.execEccCorrected granule s
  | .eccUncorrected granule => Sys2Proof.Machine.execEccUncorrected granule s
  | .launch image => Sys2Proof.Machine.execLaunch image s
  | .launchClose part => Sys2Proof.Machine.execLaunchClose part s
  | .launchEnd part => Sys2Proof.Machine.execLaunchEnd part s
  | .partitionGrow part clusters => Sys2Proof.Machine.execPartitionGrow part clusters s
  | .partitionShrink part clusters => Sys2Proof.Machine.execPartitionShrink part clusters s
  | .departureTimeout core => Sys2Proof.Machine.execDepartureTimeout core s
  | .creditAudit die partner vn => Sys2Proof.Machine.execCreditAudit die partner vn s
  | .creditReturn die partner vn => Sys2Proof.Machine.execCreditReturn die partner vn s
  | .routerGate die router => Sys2Proof.Machine.execRouterGate die router s
  | .routerWake die router => Sys2Proof.Machine.execRouterWake die router s
  | .captureStart event => Sys2Proof.Machine.execCaptureStart event s
  | .captureStop event => Sys2Proof.Machine.execCaptureStop event s
  | .captureFreeze event => Sys2Proof.Machine.execCaptureFreeze event s
  | .selectFilter event => Sys2Proof.Machine.execSelectFilter event s
  | .preciseStop event => Sys2Proof.Machine.execPreciseStop event s
  | .preciseStopTimeout core slot => Sys2Proof.Machine.execPreciseStopTimeout core slot s
  | .preciseStopLanding core => Sys2Proof.Machine.execPreciseStopLanding core s
  | .preciseStopResume => Sys2Proof.Machine.execPreciseStopResume s
  | .captureUnfreeze => Sys2Proof.Machine.execCaptureUnfreeze s
  | .panic sysCore => Sys2Proof.Machine.execPanic sysCore s
  | .profileClear core => Sys2Proof.Machine.execProfileClear core s
  | .profileRead core addr => Sys2Proof.Machine.execProfileRead core addr s
  | .replayTimeout core => Sys2Proof.Machine.execReplayTimeout core s
  | .keySlotLoad slot => Sys2Proof.Machine.execKeySlotLoad slot s
  | .keySlotClear slot => Sys2Proof.Machine.execKeySlotClear slot s
  | .keySlotDone => Sys2Proof.Machine.execKeySlotDone s
  | .hostReadFail core slot => Sys2Proof.Machine.execHostReadFail core slot s
  | .hostWriteFail => Sys2Proof.Machine.execHostWriteFail s
  | .hostLinkDown => Sys2Proof.Machine.execHostLinkDown s
  | .powerGood => Sys2Proof.Machine.execPowerGood s
  | .identityReport nonce => Sys2Proof.Machine.execIdentityReport nonce s
  | .rollbackRaise value => Sys2Proof.Machine.execRollbackRaise value s
  | .clockStepDown => Sys2Proof.Machine.execClockStepDown s
  | .clockStepUp => Sys2Proof.Machine.execClockStepUp s
  | .overTemperatureShutdown => Sys2Proof.Machine.execOverTemperatureShutdown s
  | .weirTableWrite index entry => Sys2Proof.Machine.execWeirTableWrite index entry s
  | .registerWrite reg value => Sys2Proof.Machine.execRegisterWrite reg value s
  | .pageLineSend die page => Sys2Proof.Machine.execPageLineSend die page s
  | .pageEntryInvalidation addr entry => Sys2Proof.Machine.execPageEntryInvalidation addr entry s
  | .deadMessageRedispatch part index poison => Sys2Proof.Machine.execDeadMessageRedispatch part index poison s
  | .corruptedFlit index => Sys2Proof.Machine.execCorruptedFlit index s
  | .hostLinkUp => Sys2Proof.Machine.execHostLinkUp s
  | .computeDieResetRelease => Sys2Proof.Machine.execComputeDieResetRelease s
  | .recoveryCopyWrite copy contents => Sys2Proof.Machine.execRecoveryCopyWrite copy contents s

end Sys2Proof.Machine
end

