-- ==== Sys2Proof/Machine/Front.lean ====
section
/-!
DEFINITION. The front end of a thread slot: fetch through GLB translation (R57), decoding (R41 to R56), and the
repetition buffer (R258 to R261, R398).
-/

namespace Sys2Proof.Machine

/-! ## Fetch -/

/-- The outcome of a fetch. -/
inductive Fetch where
  | bytes (bs : List Byte) (s : State)
  | stall (s : State)
  | fault (f : FaultReq) (s : State)
  deriving DecidableEq, Repr

/-- Writes on their way to a die's view that meet a run of bytes, in owner order. -/
def State.onTheWayTo (s : State) (d a n : Nat) : List Flight := s.flight.filter (fun w => w.dies.contains d && cellsMeet a n w.cells)

/-- Bytes that a fetch reads in a die view. Of an aligned 4-byte group to which writes are on their way, it sees what stands
after some of them, a free choice for each group (R57, log entry 100). -/
def State.fetchBytes (s : State) (d a n : Nat) : List Byte :=
  if (s.onTheWayTo d a n).isEmpty then s.viewBytes d a n
  else (upTo n).map (fun i =>
    let g := (a + i) / 4
    let ws := s.onTheWayTo d (4 * g) 4
    let seen := (Config.freeValue (s.fresh + g % 4)).toNat % (ws.length + 1)
    (flightOld d (a + i) (ws.drop seen)).getD (mget (a + i) s.glb))

/-- The bytes of one piece of a fetch: from the die view, from host memory, or free from a device. -/
def State.fetchPiece (s : State) (x : Page × Nat × Nat × Nat) : List Byte :=
  let (p, _, pa, n) := x
  match p.path with
  | .host => mread pa n s.host
  | .mmio => leBytes n ((Config.freeValue s.fresh).toNat + 2 ^ 64 * (Config.freeValue (s.fresh + 1)).toNat)
  | _ => s.fetchBytes s.myDie pa n

/-- The 12 bytes of the word at an address (R57). -/
def State.fetch (s : State) (pc : Word) : Fetch :=
  match glbRange pc 12 with
  | some f => .fault { f with space := 5 } s
  | none =>
    match s.useGlb s.myDie s.cur s.myPart.asid pc.toNat 12 .fetch with
    | .stall s => .stall s
    | .fault f s => .fault f s
    | .ok s pieces =>
      let host := pieces.any (fun x => x.1.path == .host)
      let poisoned := pieces.find? (fun x => (x.1.path.owned && s.poisonAt glbGranule x.2.2.1 x.2.2.2) ||
        (x.1.path == .host && (s.hlDown || s.me.hostFail)))
      if s.later && host && s.me.hostRead.isNone then .stall (s.modMe (fun a => { a with hostRead := some 0 }))
      else match poisoned with
      | some x =>
        .fault { code := 0x15, space := 5, addr := BitVec.ofNat 64 x.2.1 } (if x.1.path == .host then s.hostReadFailed s.cur else s)
      | none =>
        let drew := pieces.any (fun x => x.1.path == .mmio || (x.1.path.owned && !(s.onTheWayTo s.myDie x.2.2.1 x.2.2.2).isEmpty))
        let s' := pieces.foldl (fun s x => if x.1.path == .mmio then
          { s with devices := s.devices ++ [{ write := false, addr := x.2.2.1, bytes := s.fetchPiece x }] } else s) s
        let s' := if s.me.hostRead == some 0 then s'.modMe (fun a => { a with hostRead := none }) else s'
        .bytes (pieces.flatMap s.fetchPiece) (if drew then { s' with fresh := s.fresh + 4 } else s')

/-! ## Repetition -/

/-- The body is whole: the passes not yet placed begin; none remain when the body or the count is empty. -/
def Rpt.close (r : Rpt) : Option Rpt :=
  if r.left ≤ 1 || r.body.isEmpty then none
  else some { r with closed := true, left := r.left - 1, base := (r.base + r.stagger) % 64, at_ := 0 }

/-- The next word of a closed body, once one has been placed. -/
def Rpt.next (r : Rpt) : Option Rpt :=
  if r.at_ + 1 < r.body.length then some { r with at_ := r.at_ + 1 }
  else if r.left ≤ 1 then none
  else some { r with left := r.left - 1, base := (r.base + r.stagger) % 64, at_ := 0 }

/-- ILLEGAL_ENCODING at a word (R55, R191, R204). -/
def illegalWord (w : IWord) (c : Nat × Nat) : FaultReq :=
  { code := 0x01, detail := c.2 * 64 + c.1, strm := streamField w, addr := (bits w 64 32).zeroExtend 64, info := bits w 0 64 }

/-- Whether a word belongs to the open body: a word of the RPT's stream. -/
def Rpt.takes (r : Rpt) (w : IWord) : Bool := streamField w == (r.strm.code).toNat

/-- A word of an open repetition is decoded where it stands: pass 0 places it, and the body takes it (R259, R260). -/
def State.bodyWord (s : State) (r : Rpt) (w : IWord) : Host.Outcome State Fault Refusal :=
  let k := s.cur
  let pc := s.me.pc
  let took (s : State) : State := s.modAct k (fun a => { a with rpt := some { r with body := r.body ++ [(pc, w)] } })
  if r.left = 0 then .next ((took s).modAct k (fun a => { a with pc := pc + 12 }))
  else
    match decodeWord false (rotateWord r.base w) with
    | .error c => .next (s.takeFaultAt k (illegalWord w c) pc)
    | .ok i =>
      match exec i s with
      | .next s' => .next (if (s'.act k).pc == pc + 12 then took s' else s')
      | o => o

/-- Whether words of a stream's code are wanted; none wants every word. -/
def wantedBy (want : Option Stream) (code : Nat) : Bool :=
  match want with | none => true | some st => code == st.code.toNat || (code == 3 && st == .S)

/-- A word at the front end, decoded from its 12 bytes, if its stream is wanted. -/
def State.decoded (s : State) (want : Option Stream) (w : IWord) : Host.Outcome State Fault Refusal :=
  let k := s.cur
  let pc := s.me.pc
  let inBody := match s.me.rpt with | some r => r.takes w | none => false
  if !wantedBy want (streamField w) then .next s
  else match decodeWord inBody w with
  | .error c => .next (s.takeFaultAt k (illegalWord w c) pc)
  | .ok i =>
    match s.me.rpt, i with
    | none, i => exec i s
    | some r, .endOp x =>
      if s.guardOf x.head == some true then .next (s.modAct k (fun a => { a with rpt := r.close })) else exec (.endOp x) s
    | some r, .rpt _ => .next (s.modAct k (fun a => { a with rpt := r.close }))
    | some r, .rptend x =>
      if r.takes w then .next (s.modAct k (fun a => { a with rpt := r.close, pc := pc + 12 })) else exec (.rptend x) s
    | some r, i =>
      if !r.takes w then exec i s
      else if 32 ≤ r.body.length then .next (s.modAct k (fun a => { a with rpt := r.close }))
      else s.bodyWord r w

/-- One word of a closed body is placed (R260). -/
def State.placeWord (s : State) (r : Rpt) : Host.Outcome State Fault Refusal :=
  let k := s.cur
  let pc := s.me.pc
  match r.body[r.at_]? with
  | none => .next (s.modAct k (fun a => { a with rpt := none }))
  | some (at_, w) =>
    match decodeWord false (rotateWord r.base w) with
    | .error _ => .next (s.modAct k (fun a => { a with rpt := r.next }))
    | .ok i =>
      match exec i (s.modAct k (fun a => { a with pc := at_ })) with
      | .next s' =>
        let placed := (s'.act k).pc == at_ + 12
        .next (s'.modAct k (fun a => { a with pc := pc, rpt := if placed then r.next else some r }))
      | o => o

/-- The body of a restored repetition is captured again, one word at a time (R261): words of the RPT's stream alone, up
to its end, or up to PC where the save stood inside the stretch. -/
def State.scanWord (s : State) (r : Rpt) (at_ : Word) : Host.Outcome State Fault Refusal :=
  let k := s.cur
  let put (s : State) (r : Option Rpt) : State := s.modAct k (fun a => { a with rpt := r })
  if at_ == s.me.pc then .next (put s (some { r with scan := none }))
  else
    match s.fetch at_ with
    | .stall s => .next s
    | .fault f s => .next (s.takeFaultAt k { f with strm := 3 } at_)
    | .bytes bs s =>
      let w := BitVec.ofNat 96 (leNat bs)
      if !r.takes w then
        if opcField w == 0x093 || opcField w == 0x308 then .next (put s (some { r with scan := none, closed := true }))
        else .next (put s (some { r with scan := some (at_ + 12) }))
      else if opcField w == 0x308 || opcField w == 0x309 || 32 ≤ r.body.length then
        .next (put s (if r.body.isEmpty || r.left = 0 then none else some { r with scan := none, closed := true }))
      else
        match decodeWord true w with
        | .error c => .next (s.takeFaultAt k (illegalWord w c) at_)
        | .ok _ => .next (put s (some { r with body := r.body ++ [(at_, w)], scan := some (at_ + 12) }))

/-! ## One step of a front end -/

/-- The front end of the slot in `cur` takes its next word, if its stream is wanted. -/
def State.front (s : State) (want : Option Stream) : Host.Outcome State Fault Refusal :=
  let a := s.me
  if a.st != .running then .next s
  else
    let go : Host.Outcome State Fault Refusal :=
      match s.fetch a.pc with
      | .stall s => .next s
      | .fault f s => .next (s.takeFaultAt s.cur { f with strm := 3 } a.pc)
      | .bytes bs s => s.decoded want (BitVec.ofNat 96 (leNat bs))
    match a.rpt with
    | none => go
    | some r =>
      match r.scan with
      | some at_ => s.scanWord r at_
      | none => if !r.closed then go else if wantedBy want r.strm.code.toNat then s.placeWord r else .next s

/-- The oldest queued word of a stream of the slot in `cur` (R66); a word that the OS left as no instruction faults when
it is reached (R202). -/
def State.queued (s : State) (st : Stream) : Host.Outcome State Fault Refusal :=
  match s.me.pend.find? (fun p => p.strm == st) with
  | none => .next s
  | some p =>
    match decodeWord false p.word with
    | .error c =>
      if (s.me.pend.takeWhile (fun q => q.pc != p.pc || q.word != p.word)).isEmpty && s.mayIssue then
        .next (s.takeFaultAt s.cur (illegalWord p.word c) p.pc (some p.seq))
      else .next s
    | .ok i =>
      let illegalBefore := (s.me.pend.takeWhile (fun q => q.strm != st)).any (fun q => (encodingFault false q.word).isSome)
      if illegalBefore then .next s else exec i { s with iss := .queued p }

/-- A load that has issued is bound: its word has its effect (R157). What has happened since may make it wait; where it meets
poison it faults, if nothing of the activation has issued since (R161, R193, R215), and is otherwise left unbound (log entry
105). -/
def State.bindLate (s : State) (seq : Nat) : Host.Outcome State Fault Refusal :=
  match s.me.late.find? (fun p => p.seq == seq) with
  | none => .next s
  | some p =>
    match decodeWord false p.word, p.fields with
    | .ok i, some (opc, _) =>
      if !deferrable opc then .next s
      else match exec i { s with iss := .queued p } with
      | .next s' => .next (if s.me.lastIssued p || (s'.me.st == s.me.st && s'.me.save == s.me.save) then s' else s)
      | o => o
    | _, _ => .next s

/-- The next word of a slot in a stream: the oldest of its decode queue or, with none there, the word at its front end. -/
def State.nextOf (s : State) (st : Stream) : Host.Outcome State Fault Refusal :=
  if st != .S && s.me.pend.any (fun p => p.strm == st) then s.queued st else s.front (some st)

/-- Whether a slot exists (R13, R62). -/
def slotExists (key : Nat) : Bool := key < 8 * numCores

/-- Whether words of a core issue: the dies are out of reset and not shut down, and the core is not in reset
(R330, R339). -/
def State.powered (s : State) (key : Nat) : Bool := s.diesOut && !s.tooHot && !(s.core (coreOf key)).inReset

/-- One turn of a slot: a word at the front end, or an issue from a decode queue. -/
def State.turn (s : State) (key : Nat) (iss : Iss) (go : State → Host.Outcome State Fault Refusal) :
    Host.Outcome State Fault Refusal :=
  if !slotExists key then .fault .noSuchSlot
  else if !s.powered key then .next s
  else
    match go { s with cur := key, iss := iss } with
    | .next s' => .next { s' with iss := .front, later := false }
    | o => o

/-! ## A port's choice (R76 to R78, R446) -/

/-- Whether a port may take a word of a slot: HINT.STALL and YIELD hold none back (R78, R446). -/
def State.mayTry (s : State) (core slot : Nat) (st : Stream) : Bool :=
  let p := s.port core st
  let w := tget ([], 0) slot p.waits
  tget 0 slot p.stalled ≤ s.cycle && (w.1.isEmpty || w.2 ≤ s.cycle)

/-- Whether a slot's next word in a stream has moved: it has issued, faulted, or done a part of its work. -/
def State.hasMoved (s s' : State) (core slot : Nat) (st : Stream) : Bool :=
  let a := s.act (8 * core + slot)
  let b := s'.act (8 * core + slot)
  (s'.port core st).issued != (s.port core st).issued || b.st != a.st || b.asked != a.asked || b.prog != a.prog ||
    (st == .S && b.pc != a.pc)

/-- The slots of a core whose next word in a stream is ready, and the state after the words that are not ready have asked
for what they wait for. -/
def State.portReady (s : State) (core : Nat) (st : Stream) (notReady : BitVec 8) : State × List Nat :=
  ((upTo 8).filter (fun j => !notReady.getLsbD j && s.mayTry core j st)).foldl (fun x j =>
    match x.1.turn (8 * core + j) .front (fun s => s.nextOf st) with
    | .next s' => if x.1.hasMoved s' core j st then (x.1, x.2 ++ [j]) else (s', x.2)
    | _ => x) (s, [])

/-- The slot that a port chooses among those that are ready: of the highest class, the one that has the turn, else the next in
round-robin order (R76). -/
def State.portPick (s : State) (core : Nat) (st : Stream) (ready : List Nat) : Option Nat :=
  let p := s.port core st
  let cls (j : Nat) : Nat := (s.act (8 * core + j)).portClass st
  let top := (ready.map cls).foldl min 3
  let best := ready.filter (fun j => cls j == top)
  match p.holder with
  | some j => if best.contains j then some j else ((from_ (tget 0 top p.last) 8).map (· % 8)).find? best.contains
  | none => ((from_ (tget 0 top p.last) 8).map (· % 8)).find? best.contains

/-- A port's choice, and the state in which the slot that it has chosen takes its word: of those that are ready, in the order of
R76. -/
def State.portNext (s : State) (core : Nat) (st : Stream) (notReady : BitVec 8) : State × Option Nat :=
  let (s, ready) := s.portReady core st notReady
  let lost := match (s.port core st).holder with | some j => !ready.contains j | none => false
  let s := (if lost then s.endTurn core st else s).modPort core st (fun p =>
    { p with ready := (upTo 8).foldl (fun t j =>
        tset none j (if ready.contains j then some ((tget none j t).getD s.cycle) else none) t) p.ready })
  (s, s.portPick core st ready)

/-- A port issues a word. -/
def State.portMove (s : State) (core : Nat) (st : Stream) (notReady : BitVec 8) (later : Bool) :
    Host.Outcome State Fault Refusal :=
  match s.portNext core st notReady with
  | (s, none) => .next s
  | (s, some j) => s.turn (8 * core + j) .front (fun s => State.nextOf { s with later := later } st)

/-- Time passes (R7, R12). Every die reads one exact time: what the dies may differ by (R16, R315) is left open by the spec, and the
model takes no difference (DESIGN CHOICE, log entry 118). -/
def State.tick (s : State) (cycles ns : Nat) : State :=
  { s with cycle := s.cycle + cycles, time := s.time + BitVec.ofNat 64 ns }

/-- Who makes an event happen: a compute core, its dispatcher or its engines; the OS on the system cores; or another unit. -/
inductive Actor where | core | os | other
  deriving DecidableEq, Repr

/-- Events of the compute cores and the OS: nothing of either happens while the management controller holds every core in reset
(R330, R339). -/
def actorOf : Instr → Actor
  | .slotStartDone .. | .starvationPromotion .. | .streamDeadlock .. | .dispatch _ | .bindwaitExpiry _ | .deadQueueRetry _ | .firingStart ..
  | .rebalanceTick _ | .spawnRequest _ | .spawnAnswer .. | .messageDelivery _ | .sendEnqueue .. | .drain .. | .barrierArrival ..
  | .barrierRelease .. | .mmaStep _ | .mmzExec _ | .drainStart _ | .drainComplete _ | .copyLine .. | .copyComplete .. | .collectiveLine ..
  | .collectiveComplete .. | .sluiceAnswer .. | .sluiceCloseAck .. | .eventDispatch _ | .announcement .. | .nullEvent .. | .demand ..
  | .frameSave .. | .frameRestore _ | .departureTimeout _ | .preciseStopTimeout .. | .preciseStopLanding _ | .replayTimeout _ => .core
  | .migctlPin .. | .migctlUnpin .. | .migctlMove .. | .atmmodeHintWrite .. | .preempt .. | .pageReady .. | .releaseEntry .. | .pushFreeFrame ..
  | .resumeAtWord _ | .resumeAfterWord _ | .resumeWithRecovery _ | .ringTailWrite .. | .processTerminate _ | .launch _ | .launchClose _
  | .partitionGrow .. | .partitionShrink .. | .preciseStopResume | .captureUnfreeze | .profileClear _ | .profileRead .. | .keySlotLoad _
  | .keySlotClear _ | .weirTableWrite .. | .registerWrite .. | .pageEntryInvalidation .. | .deadMessageRedispatch .. => .os
  | _ => .other

/-- Whether an event can happen: those of the compute cores once the OS has released them from reset, those of the OS once it runs, and
neither after the shutdown. -/
def State.canHappen (s : State) (e : Instr) : Bool :=
  match actorOf e with
  | .core => s.diesOut && !s.tooHot
  | .os => s.osUp && !s.tooHot
  | .other => true

/-- An event happens: an instruction that has no word. -/
def State.happen (s : State) (e : Instr) : Host.Outcome State Fault Refusal :=
  match toOpcode e with
  | none => if s.canHappen e then exec e s else .next s
  | some _ => .next s

/-- Whether no port of a slot's core holds back its words (R78, R446). -/
def State.portsFree (s : State) (key : Nat) : Bool :=
  [Stream.S, .V, .E].all (s.mayTry (coreOf key) (slotOf key))

/-- The next party named by the agenda moves. With an empty agenda the slot in `cur` takes the word at its front end, as where
it is the one slot of its core with a word ready; while a port holds its words back, a cycle passes. -/
def State.move (s : State) : Host.Outcome State Fault Refusal :=
  match s.agenda with
  | [] => if s.portsFree s.cur then s.turn s.cur .front (fun s => s.front none) else .next (s.tick 1 0)
  | x :: rest =>
    let s := { s with agenda := rest }
    match x with
    | .tick c n => .next (s.tick c n)
    | .event e => s.happen e
    | .hold key => s.turn key .hold (fun s => s.front none)
    | .port core st notReady later => if slotExists (8 * core) then s.portMove core st notReady later else .fault .noSuchSlot
    | .bind key seq => s.turn key .front (fun s => s.bindLate seq)
    | .stage offset os => .next (s.bootStage offset os)
    | .osSend m => .next (if s.osUp && !s.tooHot then s.osSend m else s)

/-! ## Placing one instruction for the next step -/

/-- Page tables that map the first 64 KiB page of GLB to a frame, for fetch, loads and stores (R119, R120). -/
def fetchTables (root frame : Nat) : List (Nat × Byte) :=
  let entry (a : Nat) (v : Nat) := cellsAt a (leBytes 8 v)
  entry root (root + 8192 + 1) ++ entry (root + 8192) (root + 16384 + 1) ++ entry (root + 16384) (root + 24576 + 1) ++
    entry (root + 24576) (frame + 0x71)

/-- The machine with an instruction's bytes at virtual address 0 of partition 0, and slot 0 of core 0 about to fetch
it (see State.withFetchWord). -/
def State.placeWordAt0 (s : State) (bs : List Byte) : State :=
  let root := 0x10000
  let frame := 0x20000
  { s with
    agenda := []
    cur := 0
    iss := .front
    diesOut := true
    tooHot := false
    keys := tset {} 0 { tget {} 0 s.keys with full := true } s.keys
    glb := mwrite frame bs (mput (fetchTables root frame) s.glb)
    flight := []
    roots := tset 0 0 root s.roots
    homes := tset {} (pageKey 0 0) { valid := true } s.homes
    omsgs := []
    dies := tset {} 0 { s.die 0 with owners := [(pageKey 0 0, 0, false)], stubs := [], incoming := [], outgoing := [] } s.dies
    parts := tset {} 0 { s.part 0 with live := true, asid := 0, ended := false } s.parts
    cores := tset {} 0 { s.core 0 with part := some 0, inReset := false } s.cores
    ports := s.ports.filter (fun e => 4 ≤ e.1)
    acts := tset {} 0 { s.act 0 with st := .running, pc := 0, pend := [], rpt := none, part := 0, asked := none, chain := none } s.acts
    poisoned := [] }

end Sys2Proof.Machine
end

