-- ==== Sys2Proof/Machine/Step.lean ====
section
/-!
DEFINITION. One step of the machine, and the state from which the next step fetches a given instruction.
-/

namespace Sys2Proof.Machine

/-- One step: the next party of the agenda moves. -/
def step (s : State) : Host.Outcome State Fault Refusal := s.move

/-- The state with an instruction's bytes where the next step fetches: at address 0 of an address space whose first page
is mapped and owned by die 0, with slot 0 of core 0 running there. It stands for power-up, boot and a launch. -/
def State.withFetchWord (s : State) (nbits w : Nat) : State := s.placeWordAt0 (leBytes 12 (w % 2 ^ min nbits 96))

end Sys2Proof.Machine
end

