-- ==== Sys2Proof/Safety.lean ====
section
/-!
DEFINITION. What claims about a step speak of: a word whose turn it is to issue (Issues), the state after it has issued
(State.issued, State.jumped), registers written with a value, and a sound state (Inv).
-/

namespace Sys2Proof.Machine

/-- Whether a word may take its turn. At the front end: no guard that it writes is unresolved (R73), no pending VLGET
owns an s register that it names (R68, R434), no load that is still to be bound clashes with it (R69), a V or E word finds no earlier word of its stream waiting and room for its
captured values (R66, R201), an E word no collective of the activation that is still being accepted (R254), and a word
that serialises no earlier word waiting at all (R70). From a decode queue: the R254 rule and the loads still to be bound. -/
def State.inTurn (s : State) (opc : Nat) (w : Operands) (serial : Bool) : Bool :=
  match s.iss with
  | .hold => false
  | .queued _ => !((w.head.stream == .E && s.accepting) || s.lateBusy opc w)
  | .front =>
    !(s.vlgetPending opc w || s.lateBusy opc w) && !((gDests opc w).any (fun n => s.me.gGet n == .unres)) &&
      (w.head.stream == .S || (s.queueRoom opc w && !(s.me.pend.any (fun p => p.strm == w.head.stream)) &&
        !(w.head.stream == .E && s.accepting))) &&
      (!serial || (s.me.pend.isEmpty && s.me.late.isEmpty && !s.accepting))

/-- The word with an opcode and operands issues in state `s`, from the front end or from a decode queue: it is its turn
in a slot that may issue, its guard is true (R74), no register that it reads is poisoned (R215), and no earlier access or
fence of its activation holds it back (R159, R160, R163); if it is a load whose value may come after it has issued, its value
comes now (R157). `r` is `s` with the registers that the word reads back from
where they were parked (R118); it is `s` where none of them is parked. `serial`: the word serialises (R70). -/
structure Issues (opc : Nat) (w : Operands) (serial : Bool) (s r : State) : Prop where
  may   : s.mayIssue = true
  turn  : s.inTurn opc w serial = true
  guard : s.guardOf w.head = some true
  free  : s.accessHeld opc w = false
  home  : s.unparkSources opc w = r
  clean : r.poisonedReg opc w = none
  now   : (s.later && deferrable opc) = false

/-- The engine command with an opcode and operands enters its queue in state `s` (R73, R74, R240, R263): as Issues, whatever its
guard. One whose guard is false is accepted to be discarded, whatever it would access or read; one whose guard is unresolved is
accepted from its decode queue. -/
structure Enters (opc : Nat) (w : Operands) (serial : Bool) (s r : State) : Prop where
  cmd   : isEngineCmd opc = true
  may   : s.mayIssue = true
  turn  : s.inTurn opc w serial = true
  free  : s.guardOf w.head ≠ some false → s.accessHeld opc w = false
  place : s.guardOf w.head = none → ∃ p, s.iss = .queued p
  home  : s.unparkSources opc w = r
  clean : s.guardOf w.head ≠ some false → r.poisonedReg opc w = none

/-- The state once the word in execution has issued, its effect made: a register written whole is free of poison (R215), the
word has gone through its port (R76),
and the front end stands at the next word, or the word has left its decode queue (R66). -/
def State.issued (s : State) (opc : Nat) (w : Operands) : State := ((s.cleanDest opc w).turned opc w.head).advance

/-- The state once a control transfer has issued. -/
def State.jumped (s : State) (opc : Nat) (w : Operands) (pc : Word) : State :=
  ((s.cleanDest opc w).turned opc w.head).modMe (fun a => { a with pc := pc, lastIssue := s.cycle })

/-- An s register of the activation in execution written with a value that is not deferred (R25, R46, R196). -/
def State.wroteS (s : State) (n : Nat) (v : Word) : State := s.modMe (fun a => a.sSet n v)
/-- An s register given the deferral bit: it holds zero (R196). -/
def State.deferredS (s : State) (n : Nat) : State := s.modMe (fun a => a.sSet n 0 true)
/-- A v register written whole. -/
def State.wroteV (s : State) (n : Nat) (v : Vec) : State := s.modMe (fun a => a.vSet n v)
/-- A mask register written. -/
def State.wroteM (s : State) (n : Nat) (v : BitVec 16) : State := s.modMe (fun a => a.mSet n v)
/-- A pair of guards written (R358, R369). -/
def State.wroteGG (s : State) (n : Nat) (x y : Bool) : State :=
  s.modMe (fun a => (a.gSet n (GVal.ofBool x)).gSet (n + 1) (GVal.ofBool y))
/-- A queue register of the activation in execution with one more entry (R71), which no poison stands in (R215). -/
def State.pushed (s : State) (n : Nat) (v : Word) : State :=
  let t := s.modMe (fun a => a.qSet n (a.qGet n ++ [v]))
  { t with poisoned := s.poisoned.filter (· != .qreg s.myCore (slotOf s.cur) n (s.me.qGet n).length) }

/-- The one byte at an address of a memory. -/
def State.glbByte (s : State) (a : Nat) : Byte := mget a s.glb
/-- The one byte at a LOC key. -/
def State.locByte (s : State) (a : Nat) : Byte := mget a s.loc
/-- The one byte at an SHM key. -/
def State.shmByte (s : State) (a : Nat) : Byte := mget a s.shm
/-- The one byte of host memory at an address. -/
def State.hostByte (s : State) (a : Nat) : Byte := mget a s.host

/-- The memories are in canonical form: addresses rise, and no byte is listed that an unlisted address reads as. -/
structure MemInv (s : State) : Prop where
  glb  : Memory.wf s.glb = true
  loc  : Memory.wf s.loc = true
  shm  : Memory.wf s.shm = true
  host : Memory.wf s.host = true
  flash : Memory.wf s.flash = true

end Sys2Proof.Machine
end

