-- ==== Sys2Proof/Certificates/Slice0/Obligations.lean ====
section
/-!
DEFINITION. The statements for the provers. A completion statement says what state an instruction or event gives, for every
state and operands that meet hypotheses on them alone; a word's hypotheses begin with Issues (Sys2Proof/Safety.lean).
-/

open Sys2Proof Sys2Proof.Machine

/-! ## Scalar instructions -/

namespace Sys2Proof.Machine

/-- A scalar word of layout AR completes (R217, R222, R448): both sources are there, none is deferred, and the result goes
to the s register in A, or to the queue register in A while it has room. `tied`: A is read too (R44). `f` gives result and
flags from the state, the word, and the contents of A, B and C. -/
def ScalarWord (mk : Operands → Instr) (opc : Nat) (tied : Bool) (f : State → Operands → (d x y : Word) → Val) : Prop :=
  ∀ (w : Operands) (s r s1 s2 : State) (x y : Word),
    Issues opc w false s r →
    r.src (if tied then w.b else opndB w) = some (x, false, s1) → s1.srcC w = some (y, false, s2) →
    (tied = true → r.dfr w.a = false) →
    let v := f s w (if tied then r.val w.a else 0) x y
    (∀ rot n, w.a = .reg .s rot n → exec (mk w) s = .next (((s2.raise v.2).wroteS n.toNat v.1).issued opc w)) ∧
    (∀ pk n, w.a = .queue pk n → (s2.me.qGet n.toNat).length < 8 →
      exec (mk w) s = .next (((s2.pushed n.toNat v.1).raise v.2).issued opc w))

/-- A deferred source defers the s register in A, which holds zero, and raises no flag; a queue register in A is not pushed: the
word faults with DEFERRED_USE, nothing popped (R196, R448). -/
def ScalarDefers (mk : Operands → Instr) (opc : Nat) (tied : Bool) : Prop :=
  ∀ (w : Operands) (s r s1 s2 : State) (x y : Word) (dx dy : Bool), Issues opc w false s r →
    r.src (if tied then w.b else opndB w) = some (x, dx, s1) → s1.srcC w = some (y, dy, s2) →
    (dx || dy || (tied && r.dfr w.a)) = true →
    (∀ rot n, w.a = .reg .s rot n → exec (mk w) s = .next ((s2.deferredS n.toNat).issued opc w)) ∧
    (∀ pk n, w.a = .queue pk n → tied = false → exec (mk w) s =
      .next (r.takeFault opc w (deferredUse false (if dx then opndNum (opndB w) else opndNum w.c))))

/-- A comparison completes: less-than into the guard in A, equality into the next (R358, R369). -/
def CompareWord (mk : Operands → Instr) (opc : Nat) (f : State → Operands → (x y : Word) → Bool × Bool × Word) : Prop :=
  ∀ (w : Operands) (s r s1 s2 : State) (x y : Word) (rot : Bool) (n : BitVec 6),
    Issues opc w false s r → w.a = .reg .g rot n → r.src w.b = some (x, false, s1) → s1.srcC w = some (y, false, s2) →
    let v := f s w x y
    exec (mk w) s = .next (((s2.raise v.2.2).wroteGG n.toNat v.1 v.2.1).issued opc w)

end Sys2Proof.Machine

/-- R217 to R220: what the scalar integer instructions that read one or two sources write and raise, for every type, SAT,
immediate, pair and queue form. -/
def Sys2Proof.Machine.ScalarIntegerResults : Prop :=
  ScalarWord .abs 0x001 false (fun _ w _ _ y => absVal w.ty w.sat y) ∧
  ScalarWord .add 0x002 false (fun _ w _ x y => addVal w.ty w.sat x y) ∧
  ScalarWord .div 0x009 false (fun _ w _ x y => divVal w.ty w.sat x y) ∧
  ScalarWord .madr 0x00F true (fun _ w d x y => madVal w.ty w.sat d x y) ∧
  ScalarWord .max 0x010 false (fun _ w _ x y => maxVal w.ty x y) ∧
  ScalarWord .min 0x011 false (fun _ w _ x y => minVal w.ty x y) ∧
  ScalarWord .mul 0x013 false (fun _ w _ x y => mulVal w.ty w.sat x y) ∧
  ScalarWord .mulh 0x014 false (fun _ w _ x y => mulhVal w.ty x y) ∧
  ScalarWord .neg 0x015 false (fun _ w _ _ y => negVal w.ty w.sat y) ∧
  ScalarWord .rem 0x018 false (fun _ w _ x y => remVal w.ty x y) ∧
  ScalarWord .sub 0x01E false (fun _ w _ x y => subVal w.ty w.sat x y)

/-- R220, R344, R358, R366, R401, R402: the same of the bit operations, shifts and bit fields. -/
def Sys2Proof.Machine.ScalarBitResults : Prop :=
  ScalarWord .and 0x003 false (fun _ w _ x y => andVal w.ty x y) ∧
  ScalarWord .andn 0x004 false (fun _ w _ x y => andnVal w.ty x y) ∧
  ScalarWord .bswap 0x005 false (fun _ w _ _ y => bswapVal w.ty y) ∧
  ScalarWord .clz 0x006 false (fun _ w _ _ y => clzVal w.ty y) ∧
  ScalarWord .ctz 0x008 false (fun _ w _ _ y => ctzVal w.ty y) ∧
  ScalarWord .exts 0x00A false (fun _ _ _ x y => extsVal x y) ∧
  ScalarWord .extz 0x00B false (fun _ _ _ x y => extzVal x y) ∧
  ScalarWord .ins 0x00C true (fun _ _ d x y => insVal d x y) ∧
  ScalarWord .or 0x016 false (fun _ w _ x y => orVal w.ty x y) ∧
  ScalarWord .popc 0x017 false (fun _ w _ _ y => popcVal w.ty y) ∧
  ScalarWord .rol 0x019 false (fun _ w _ x y => rolVal w.ty x y) ∧
  ScalarWord .sar 0x01A false (fun _ w _ x y => sarVal w.ty x y) ∧
  ScalarWord .sel 0x01B true (fun _ w d x y => selVal w.ty d x y) ∧
  ScalarWord .shl 0x01C false (fun _ w _ x y => shlVal w.ty x y) ∧
  ScalarWord .shr 0x01D false (fun _ w _ x y => shrVal w.ty x y) ∧
  ScalarWord .xor 0x01F false (fun _ w _ x y => xorVal w.ty x y)

/-- R367 to R370: the same of the scalar floating-point instructions, under RND, FPCTL's RM and FTZ. -/
def Sys2Proof.Machine.ScalarFloatResults : Prop :=
  ScalarWord .fabs 0x080 false (fun _ w _ _ y => fabsVal w.ty y) ∧
  ScalarWord .fadd 0x081 false (fun s w _ x y => faddVal w.ty (s.rm w) s.ftz x y) ∧
  ScalarWord .fcvt 0x083 false (fun s w _ _ y => convert (srcType w) w.ty w.sat (s.rm w) s.ftz y.toNat) ∧
  ScalarWord .fdiv 0x084 false (fun s w _ x y => fdivVal w.ty (s.rm w) s.ftz x y) ∧
  ScalarWord .ffma 0x085 true (fun s w d x y => ffmaVal w.ty (s.rm w) s.ftz d x y) ∧
  ScalarWord .fmax 0x086 false (fun s w _ x y => fminmaxVal w.ty true s.ftz x y) ∧
  ScalarWord .fmin 0x087 false (fun s w _ x y => fminmaxVal w.ty false s.ftz x y) ∧
  ScalarWord .fmul 0x088 false (fun s w _ x y => fmulVal w.ty (s.rm w) s.ftz x y) ∧
  ScalarWord .fneg 0x089 false (fun _ w _ _ y => fnegVal w.ty y) ∧
  ScalarWord .fsqrt 0x08A false (fun s w _ _ y => fsqrtVal w.ty (s.rm w) s.ftz y) ∧
  ScalarWord .fsub 0x08B false (fun s w _ x y => fsubVal w.ty (s.rm w) s.ftz x y)

/-- R217 to R222, R344, R367 to R370, R401, R402: what every scalar arithmetic instruction writes and raises, integer,
bit and floating-point. -/
def Obligations.ScalarResults : Prop := ScalarIntegerResults ∧ ScalarBitResults ∧ ScalarFloatResults


/-- R196, R448: a deferred source of a scalar AR instruction defers its s register. -/
def Obligations.ScalarDeferral : Prop :=
  (∀ p ∈ [(Instr.abs, 0x001), (Instr.add, 0x002), (Instr.and, 0x003), (Instr.andn, 0x004), (Instr.bswap, 0x005), (Instr.clz, 0x006),
      (Instr.ctz, 0x008), (Instr.div, 0x009), (Instr.exts, 0x00A), (Instr.extz, 0x00B), (Instr.max, 0x010), (Instr.min, 0x011),
      (Instr.mul, 0x013), (Instr.mulh, 0x014), (Instr.neg, 0x015), (Instr.or, 0x016), (Instr.popc, 0x017), (Instr.rem, 0x018),
      (Instr.rol, 0x019), (Instr.sar, 0x01A), (Instr.shl, 0x01C), (Instr.shr, 0x01D), (Instr.sub, 0x01E), (Instr.xor, 0x01F),
      (Instr.fabs, 0x080), (Instr.fadd, 0x081), (Instr.fcvt, 0x083), (Instr.fdiv, 0x084), (Instr.fmax, 0x086), (Instr.fmin, 0x087),
      (Instr.fmul, 0x088), (Instr.fneg, 0x089), (Instr.fsqrt, 0x08A), (Instr.fsub, 0x08B)], ScalarDefers p.1 p.2 false) ∧
  (∀ p ∈ [(Instr.ins, 0x00C), (Instr.madr, 0x00F), (Instr.sel, 0x01B), (Instr.ffma, 0x085)], ScalarDefers p.1 p.2 true)

/-- R358, R369: CMP and FCMP write a pair of guards, FCMP under FTZ and raising NV for a NaN; a deferred source
faults with DEFERRED_USE and changes no guard (R196). -/
def Sys2Proof.Machine.CompareResults : Prop :=
  CompareWord .cmp 0x007 (fun _ w x y => (decide (ival w.ty x < ival w.ty y), ival w.ty x == ival w.ty y, 0)) ∧
  CompareWord .fcmp 0x082 (fun s w x y => fcmpVal w.ty s.ftz x y) ∧
  (∀ p ∈ [(Instr.cmp, 0x007), (Instr.fcmp, 0x082)], ∀ (w : Operands) (s r s1 s2 : State) (x y : Word) (dy : Bool),
    Issues p.2 w false s r → r.src w.b = some (x, true, s1) → s1.srcC w = some (y, dy, s2) →
    exec (p.1 w) s = .next (r.takeFault p.2 w (deferredUse false (opndNum w.b)))) ∧
  (∀ p ∈ [(Instr.cmp, 0x007), (Instr.fcmp, 0x082)], ∀ (w : Operands) (s r s1 s2 : State) (x y : Word),
    Issues p.2 w false s r → r.src w.b = some (x, false, s1) → s1.srcC w = some (y, true, s2) →
    exec (p.1 w) s = .next (r.takeFault p.2 w (deferredUse false (opndNum w.c))))

/-- R379, R389: LI and LIH write constants, LIH over the low half that stands in its register; MOV copies s, q or an immediate to s or q
in S, v to v and m to m in V, and q to q in V and E. A deferred source defers an s or v destination, and faults with DEFERRED_USE where
it would be pushed (R196). -/
def Sys2Proof.Machine.MoveResults : Prop :=
  (∀ (w : Operands) (s r : State), Issues 0x00D w false s r →
    (∀ rot n, w.a = .reg .s rot n → exec (.li w) s = .next ((r.wroteS n.toNat (ext w.ty (r.valC w).toNat)).issued 0x00D w)) ∧
    (∀ pk n, w.a = .queue pk n → (r.me.qGet n.toNat).length < 8 →
      exec (.li w) s = .next ((r.pushed n.toNat (ext w.ty (r.valC w).toNat)).issued 0x00D w))) ∧
  (∀ (w : Operands) (s r : State) (rot : Bool) (n : BitVec 6), Issues 0x00E w false s r → w.a = .reg .s rot n →
    exec (.lih w) s = .next ((if r.dfr w.a then r.deferredS n.toNat
      else r.wroteS n.toNat (((r.valC w).setWidth 32 : BitVec 32) ++ ((r.val w.a).setWidth 32 : BitVec 32))).issued 0x00E w)) ∧
  (∀ (w : Operands) (s r s1 s2 : State) (x y : Word) (dx dy : Bool), w.head.stream = .S → Issues 0x012 w false s r →
    r.src (opndB w) = some (x, dx, s1) → s1.srcC w = some (y, dy, s2) →
    (∀ rot n, w.a = .reg .s rot n → exec (.mov w) s =
      .next ((if dx || dy then s2.deferredS n.toNat else s2.wroteS n.toNat y).issued 0x012 w)) ∧
    (∀ pk n, w.a = .queue pk n → (dx || dy) = false → (s2.me.qGet n.toNat).length < 8 →
      exec (.mov w) s = .next ((s2.pushed n.toNat y).issued 0x012 w)) ∧
    (∀ pk n, w.a = .queue pk n → dx = false → dy = true →
      exec (.mov w) s = .next (r.takeFault 0x012 w (deferredUse false (opndNum w.c))))) ∧
  (∀ (w : Operands) (s r : State) (p q : Bool) (n c : BitVec 6), w.head.stream ≠ .S → Issues 0x012 w false s r →
    w.a = .reg .v p n → w.c = .reg .v q c →
    exec (.mov w) s = .next ((if r.me.vDef c.toNat then r.modMe (fun a => a.vSet n.toNat Vec.zero true)
      else r.wroteV n.toNat (r.me.vGet c.toNat)).issued 0x012 w)) ∧
  (∀ (w : Operands) (s r : State) (p q : Bool) (n c : BitVec 6), w.head.stream ≠ .S → Issues 0x012 w false s r →
    w.a = .reg .m p n → w.c = .reg .m q c →
    exec (.mov w) s = .next ((r.wroteM n.toNat (r.me.mGet c.toNat)).issued 0x012 w)) ∧
  (∀ (w : Operands) (s r s1 : State) (x : Word) (d : Bool) (pk pc : Bool) (n c : BitVec 3), w.head.stream ≠ .S →
    Issues 0x012 w false s r → w.a = .queue pk n → w.c = .queue pc c → r.src w.c = some (x, d, s1) →
    (s1.me.qGet n.toNat).length < 8 → exec (.mov w) s = .next ((s1.pushed n.toNat x).issued 0x012 w))

/-- R196, R358, R369, R379, R389: comparisons write guards, and LI, LIH and MOV write registers. -/
def Obligations.ComparesAndMoves : Prop := CompareResults ∧ MoveResults

/-! ## Control transfers, guards and masks -/

/-- R54, R58, R354, R374: where a transfer goes. A relative target counts 4-byte units from the word; a register gives the
address itself, which must be a multiple of 4 (PC_ALIGN otherwise); a target at or beyond 2^56 faults with GLB_RANGE. -/
def Sys2Proof.Machine.TransferTargets : Prop :=
  (∀ (w : Operands) (s : State), (w.pair.isSome = true ∨ ∀ rot n, w.c ≠ .reg .s rot n) →
    (s.me.pc + 4 * s.valC w).toNat < 2 ^ 56 → s.target w = .ok (s.me.pc + 4 * s.valC w)) ∧
  (∀ (w : Operands) (s : State) (rot : Bool) (n : BitVec 6), w.pair = none → w.c = .reg .s rot n → s.dfr w.c = false →
    (s.val w.c).toNat % 4 = 0 → (s.val w.c).toNat < 2 ^ 56 → s.target w = .ok (s.val w.c)) ∧
  (∀ (w : Operands) (s : State) (rot : Bool) (n : BitVec 6), w.pair = none → w.c = .reg .s rot n → s.dfr w.c = false →
    (s.val w.c).toNat % 4 ≠ 0 → s.target w = .error { code := 0x02, addr := s.val w.c }) ∧
  (∀ (w : Operands) (s : State), (w.pair.isSome = true ∨ ∀ rot n, w.c ≠ .reg .s rot n) →
    2 ^ 56 ≤ (s.me.pc + 4 * s.valC w).toNat →
    s.target w = .error { code := 0x0A, space := 5, addr := s.me.pc + 4 * s.valC w }) ∧
  (∀ (w : Operands) (s : State) (rot : Bool) (n : BitVec 6), w.pair = none → w.c = .reg .s rot n → s.dfr w.c = false →
    (s.val w.c).toNat % 4 = 0 → 2 ^ 56 ≤ (s.val w.c).toNat →
    s.target w = .error { code := 0x0A, space := 5, addr := s.val w.c })

/-- R354, R357, R374, R380, R397: BR, JMP, RET, BRL, CHK and LOOP complete, taken or not; BRL links to the next word and
pushes the link on the eight-deep return stack, RET pops it, LOOP counts down to zero. -/
def Sys2Proof.Machine.TransfersComplete : Prop :=
  (∀ (w : Operands) (s r : State) (t : Word), r.target w = .ok t →
    (Issues 0x090 w false s r → exec (.br w) s = .next (r.jumped 0x090 w t)) ∧
    (Issues 0x094 w false s r → exec (.jmp w) s = .next (r.jumped 0x094 w t)) ∧
    (Issues 0x097 w false s r →
      exec (.ret w) s = .next ((r.modMe (fun a => { a with rstack := a.rstack.drop 1 })).jumped 0x097 w t)) ∧
    (Issues 0x091 w false s r → ∀ rot n, w.a = .reg .s rot n →
      exec (.brl w) s = .next ((r.modMe (fun a =>
        { (a.sSet n.toNat (r.me.pc + 12)) with rstack := ((r.me.pc + 12) :: a.rstack).take 8 })).jumped 0x091 w t))) ∧
  (∀ (w : Operands) (s r : State), Issues 0x092 w false s r → (r.relTarget w).toNat < 2 ^ 56 →
    exec (.chk w) s = .next (if r.dfr w.a then r.jumped 0x092 w (r.relTarget w) else r.issued 0x092 w)) ∧
  (∀ (w : Operands) (s r : State) (rot : Bool) (n : BitVec 6), Issues 0x095 w false s r → w.a = .reg .s rot n →
    r.dfr w.a = false →
    (r.val w.a = 1 → exec (.loop w) s = .next ((r.wroteS n.toNat 0).issued 0x095 w)) ∧
    (r.val w.a ≠ 1 → (r.relTarget w).toNat < 2 ^ 56 →
      exec (.loop w) s = .next ((r.wroteS n.toNat (r.val w.a - 1)).jumped 0x095 w (r.relTarget w)))) ∧
  (∀ (w : Operands) (s r : State), Issues 0x096 w false s r → exec (.nop w) s = .next (r.issued 0x096 w)) ∧
  (∀ (w : Operands) (s r : State), Issues 0x098 w false s r → exec (.yield w) s = .next (r.issued 0x098 w))

/-- R364: END of an activation without obligations ends it, an event's once its writes are performed at .core; END goes through its
port as every word does (R76). -/
def Sys2Proof.Machine.EndCompletes : Prop :=
  (∀ (w : Operands) (s r : State), Issues 0x093 w true s r → r.me.oblUsed = [] → (r.me.event = true → r.releaseReady .core = true) →
    exec (.endOp w) s = .next ((r.turned 0x093 w.head).completeEnd r.cur))

/-- R54, R58, R354, R357, R364, R374, R380, R390, R397, R446: where transfers go, and that BR, BRL, CHK, JMP, LOOP, RET, NOP,
YIELD and END complete. -/
def Obligations.ControlTransfers : Prop := TransferTargets ∧ TransfersComplete ∧ EndCompletes


/-- R372: GAND, GOR and GNOT of resolved guards write their guard. -/
def Sys2Proof.Machine.GuardOperations : Prop :=
  (∀ (w : Operands) (s r : State) (b c : Bool), r.guardVal w.b = some b → r.guardVal w.c = some c →
    (Issues 0x0A0 w false s r →
      exec (.gand w) s = .next ((r.modMe (fun a => a.gSet (opndNum w.a) (GVal.ofBool (b && c)))).issued 0x0A0 w)) ∧
    (Issues 0x0A2 w false s r →
      exec (.gor w) s = .next ((r.modMe (fun a => a.gSet (opndNum w.a) (GVal.ofBool (b || c)))).issued 0x0A2 w))) ∧
  (∀ (w : Operands) (s r : State) (c : Bool), r.guardVal w.c = some c → Issues 0x0A1 w false s r →
    exec (.gnot w) s = .next ((r.modMe (fun a => a.gSet (opndNum w.a) (GVal.ofBool (!c)))).issued 0x0A1 w))

/-- R75, R385: the mask instructions, under the vector length; MALL and MANY resolve the guard that they write (R73). -/
def Sys2Proof.Machine.MaskOperations : Prop :=
  ∀ (w : Operands) (s r : State),
    (Issues 0x0A3 w false s r → exec (.mall w) s =
      .next ((r.resolveGuard (opndNum w.a) (r.below (~~~(r.mask w.c)) == 0)).issued 0x0A3 w)) ∧
    (Issues 0x0A4 w false s r → exec (.mand w) s = .next ((r.wroteM (opndNum w.a) (r.mask w.b &&& r.mask w.c)).issued 0x0A4 w)) ∧
    (Issues 0x0A5 w false s r → exec (.many w) s =
      .next ((r.resolveGuard (opndNum w.a) (r.below (r.mask w.c) != 0)).issued 0x0A5 w)) ∧
    (Issues 0x0A6 w false s r → exec (.mfirst w) s =
      .next ((r.wroteM (opndNum w.a) (r.below (r.mask w.c) &&& (~~~(r.below (r.mask w.c)) + 1))).issued 0x0A6 w)) ∧
    (Issues 0x0A7 w false s r → exec (.mnot w) s = .next ((r.wroteM (opndNum w.a) (r.below (~~~(r.mask w.c)))).issued 0x0A7 w)) ∧
    (Issues 0x0A8 w false s r → exec (.mor w) s = .next ((r.wroteM (opndNum w.a) (r.mask w.b ||| r.mask w.c)).issued 0x0A8 w)) ∧
    (Issues 0x0A9 w false s r → ∀ rot n, w.a = .reg .v rot n → exec (.mpop w) s =
      .next ((r.wroteV n.toNat (List.replicate 16 (BitVec.ofNat 32 (ones 16 (r.below (r.mask w.c)).toNat)))).issued 0x0A9 w)) ∧
    (Issues 0x0A9 w false s r → ∀ pk n, w.a = .queue pk n → (r.me.qGet n.toNat).length < 8 → exec (.mpop w) s =
      .next ((r.pushed n.toNat (BitVec.ofNat 64 (ones 16 (r.below (r.mask w.c)).toNat))).issued 0x0A9 w))

/-- R372, R385: the guard and the mask instructions complete. -/
def Obligations.GuardsAndMasks : Prop := GuardOperations ∧ MaskOperations

/-! ## Vector instructions -/

namespace Sys2Proof.Machine

/-- The state after a vector word whose result in lane i is `f i`: the lanes that `on` accepts are written and raise their
flags, the others keep their values; a deferred source writes zeros there and defers the register (R75, R196, R423). -/
def State.afterLanes (r : State) (w : Operands) (deferred : Bool) (on : Nat → Bool) (f : Nat → Val) : State :=
  if deferred then r.putLanes w.a on (fun _ => 0) true
  else (r.putLanes w.a on (fun i => (f i).1.setWidth 32)).raise (laneFlags on (fun i => (f i).2))

/-- A vector word of the lane loop completes (R423, R426, R427): `f` gives lane i from the lanes of A (read where `tied`), B
and C; an s register or an immediate in C goes to every lane. -/
def LaneWord (mk : Operands → Instr) (opc : Nat) (tied : Bool) (f : State → Operands → (d b c : Word) → Val) : Prop :=
  ∀ (w : Operands) (s r : State), Issues opc w false s r →
    exec (mk w) s = .next ((r.afterLanes w (r.dfr w.b || r.dfr w.c || (tied && r.dfr w.a)) (r.active w.msk)
      (fun i => f s w (((r.vecOf w.a).lane i).zeroExtend 64) (((r.vecOf w.b).lane i).zeroExtend 64) (r.laneC w.ty w.c i))).issued opc w)

/-- An approximate function completes lane by lane (R431). -/
def ApproxWord (mk : Operands → Instr) (opc : Nat) (f : Bool → Lane → FRes) : Prop :=
  ∀ (w : Operands) (s r : State), Issues opc w false s r →
    exec (mk w) s = .next ((r.afterLanes w (r.dfr w.c) (r.active w.msk)
      (fun i => fval (f r.ftz ((r.vecOf w.c).lane i)))).issued opc w)

end Sys2Proof.Machine

/-- R75, R423 to R427: what the vector instructions of the lane loop write under mask and vector length, for every type. -/
def Sys2Proof.Machine.VectorLaneResults : Prop :=
  LaneWord .vabs 0x100 false (fun _ w _ _ c => byType w.ty (absVal w.ty w.sat c) (fabsVal w.ty c)) ∧
  LaneWord .vadd 0x101 false (fun s w _ b c => byType w.ty (addVal w.ty w.sat b c) (faddVal w.ty (s.rm w) s.ftz b c)) ∧
  LaneWord .vand 0x102 false (fun _ w _ b c => andVal w.ty b c) ∧
  LaneWord .vcvt 0x104 false (fun s w _ _ c => convert (srcType w) w.ty w.sat (s.rm w) s.ftz c.toNat) ∧
  LaneWord .vfma 0x108 true (fun s w d b c => ffmaVal w.ty (s.rm w) s.ftz d b c) ∧
  LaneWord .vmax 0x10C false (fun s w _ b c => byType w.ty (maxVal w.ty b c) (fminmaxVal w.ty true s.ftz b c)) ∧
  LaneWord .vmin 0x10D false (fun s w _ b c => byType w.ty (minVal w.ty b c) (fminmaxVal w.ty false s.ftz b c)) ∧
  LaneWord .vmov 0x10E false (fun _ _ _ _ c => (c, 0)) ∧
  LaneWord .vmul 0x10F false (fun s w _ b c => byType w.ty (mulVal w.ty w.sat b c) (fmulVal w.ty (s.rm w) s.ftz b c)) ∧
  LaneWord .vor 0x110 false (fun _ w _ b c => orVal w.ty b c) ∧
  LaneWord .vsar 0x116 false (fun _ w _ b c => sarVal w.ty b c) ∧
  LaneWord .vshl 0x119 false (fun _ w _ b c => shlVal w.ty b c) ∧
  LaneWord .vshr 0x11A false (fun _ w _ b c => shrVal w.ty b c) ∧
  LaneWord .vsub 0x11D false (fun s w _ b c => byType w.ty (subVal w.ty w.sat b c) (fsubVal w.ty (s.rm w) s.ftz b c)) ∧
  LaneWord .vxor 0x11E false (fun _ w _ b c => xorVal w.ty b c)

/-- R431: VEXP2, VLOG2, VRCP and VRSQ complete lane by lane; ApproximationBounds states the bounds of their results. -/
def Sys2Proof.Machine.VectorApproximations : Prop :=
  ApproxWord .vexp2 0x106 vexp2Val ∧ ApproxWord .vlog2 0x10B vlog2Val ∧
  ApproxWord .vrcp 0x113 vrcpVal ∧ ApproxWord .vrsq 0x115 vrsqVal

/-- R75, R423 to R427, R431: the vector instructions that work lane by lane, the approximations among them. -/
def Obligations.VectorLanes : Prop := VectorLaneResults ∧ VectorApproximations


/-- R427, R430, R433, R436: the vector instructions that look beyond one lane: VDOT4, VPERM, VSEL, VSLIDE, VSCAN, VRED, VQNT
and VSPLAT. That VSEL and VSPLAT flush denormal floating-point inputs under FTZ is log entry 123. -/
def Sys2Proof.Machine.VectorCrossLaneResults : Prop :=
  (∀ (w : Operands) (s r : State),
    (Issues 0x105 w false s r → exec (.vdot4 w) s = .next ((r.afterLanes w (r.dfr w.a || r.dfr w.b || r.dfr w.c)
      (r.active w.msk) (dot4 r w (r.vecOf w.a) (r.vecOf w.b) (r.vecOf w.c))).issued 0x105 w)) ∧
    (Issues 0x111 w false s r → exec (.vperm w) s = .next ((r.afterLanes w (r.dfr w.b || r.dfr w.c) (r.active w.msk)
      (fun i => (if ((r.vecOf w.c).lane i).toNat < 16 then ((r.vecOf w.b).lane ((r.vecOf w.c).lane i).toNat).zeroExtend 64
        else 0, 0))).issued 0x111 w)) ∧
    (Issues 0x118 w false s r → exec (.vsel w) s = .next ((r.afterLanes w (r.dfr w.b || r.dfr w.c) (fun i => i < r.vl)
      (fun i => (flushed w.ty r.ftz
        (if (r.me.mGet w.msk.toNat).getLsbD i then ((r.vecOf w.b).lane i).zeroExtend 64 else r.laneC w.ty w.c i), 0))).issued 0x118 w)) ∧
    (Issues 0x11B w false s r →
      let n := ((r.val w.c).setWidth 32 : BitVec 32).toInt
      exec (.vslide w) s = .next ((r.afterLanes w (r.dfr w.b || r.dfr w.c) (r.active w.msk)
        (fun i => (if 0 ≤ (i : Int) + n && (i : Int) + n < 16 then ((r.vecOf w.b).lane ((i : Int) + n).toNat).zeroExtend 64
          else 0, 0))).issued 0x11B w)) ∧
    (Issues 0x117 w false s r → exec (.vscan w) s = .next ((r.afterLanes w (r.dfr w.b) (r.active w.msk)
      (fun i => (((scanFrom r w (r.vecOf w.b) (upTo 16) (none, 0)).getD i (none, 0)).1.getD 0,
        ((scanFrom r w (r.vecOf w.b) (upTo 16) (none, 0)).getD i (none, 0)).2))).issued 0x117 w)) ∧
    (Issues 0x112 w false s r →
      let q := sbQuantise w.ty ((upTo 16).map (fun i => if r.active w.msk i then ((r.vecOf w.c).lane i).toNat else 0))
      exec (.vqnt w) s =
        .next ((if r.dfr w.c then r.putLanes w.a (fun _ => true) (fun _ => 0) true
          else (r.putLanes w.a (fun _ => true) (fun i => BitVec.ofNat 32 (q.1 / 2 ^ (32 * i)))).raise q.2).issued 0x112 w)) ∧
    (Issues 0x114 w false s r →
      let root := (treeLevel r w (treeLevel r w (treeLevel r w (treeLevel r w ((upTo 16).map (fun i =>
        (if r.active w.msk i then some (laneIn w.ty ((r.vecOf w.b).lane i)) else none, (0 : Word)))))))).headD (none, 0)
      exec (.vred w) s = .next ((if r.dfr w.b then r.putLanes w.a (fun _ => true) (fun _ => 0) true
        else (r.putLanes w.a (fun _ => true) (fun _ => (root.1.getD (identityVal w)).setWidth 32)).raise root.2).issued 0x114 w) ∧
      ((∀ i, i < 16 → r.active w.msk i = false) → root = (none, 0)))) ∧
  (∀ (w : Operands) (s r s1 : State) (x : Word) (dx : Bool), Issues 0x11C w false s r → r.src w.c = some (x, dx, s1) →
    exec (.vsplat w) s = .next ((s1.afterLanes w dx (s1.active w.msk) (fun _ => (flushed w.ty r.ftz (laneExt w.ty x), 0))).issued 0x11C w))

/-- R428, R432, R434: VCMP writes a pair of masks in the active lanes, VEXT reads one lane, VINS writes one, and VLGET sets
the vector length and returns it. -/
def Sys2Proof.Machine.VectorScalarTransfers : Prop :=
  (∀ (w : Operands) (s r : State), Issues 0x103 w false s r → r.firstDeferredV (vOf w.b ++ vOf w.c) = none →
    r.firstDeferred (sOf 0x103 2 w.c) = none →
    ∃ lt eq fl, exec (.vcmp w) s = .next (((r.modMe (fun a =>
        (a.mSet (opndNum w.a) lt).mSet (opndNum w.a + 1) eq)).raise fl).issued 0x103 w) ∧
      ∀ i, i < 16 →
        let x := ((r.vecOf w.b).lane i).zeroExtend 64
        let y := r.laneC w.ty w.c i
        (r.active w.msk i = false → lt.getLsbD i = (r.me.mGet (opndNum w.a)).getLsbD i ∧
          eq.getLsbD i = (r.me.mGet (opndNum w.a + 1)).getLsbD i) ∧
        (r.active w.msk i = true → w.ty.isFloat = false →
          lt.getLsbD i = decide (ival w.ty x < ival w.ty y) ∧ eq.getLsbD i = (ival w.ty x == ival w.ty y)) ∧
        (r.active w.msk i = true → w.ty.isFloat = true →
          lt.getLsbD i = (fcmpVal w.ty r.ftz x y).1 ∧ eq.getLsbD i = (fcmpVal w.ty r.ftz x y).2.1)) ∧
  (∀ (w : Operands) (s r : State), Issues 0x107 w false s r → r.firstDeferredV (vOf w.b) = none →
    r.firstDeferred (sOf 0x107 2 w.c) = none →
    let x := laneExt w.ty (((r.vecOf w.b).lane ((r.val w.c).toNat % 16)).zeroExtend 64)
    (∀ rot n, w.a = .reg .s rot n → exec (.vext w) s = .next ((r.wroteS n.toNat x).issued 0x107 w)) ∧
    (∀ pk n, w.a = .queue pk n → (r.me.qGet n.toNat).length < 8 →
      exec (.vext w) s = .next ((r.pushed n.toNat x).issued 0x107 w))) ∧
  (∀ (w : Operands) (s r s1 : State) (x : Word) (dx : Bool), Issues 0x109 w false s r → r.src w.b = some (x, dx, s1) →
    let d := dx || r.dfr w.c || r.dfr w.a
    exec (.vins w) s = .next ((s1.putLanes w.a (fun i => i == (r.val w.c).toNat % 16)
      (fun _ => if d then 0 else (laneExt w.ty x).setWidth 32) d).issued 0x109 w)) ∧
  (∀ (w : Operands) (s r : State) (rot : Bool) (n : BitVec 6), Issues 0x10A w false s r → w.a = .reg .s rot n →
    r.dfr w.c = false → w.head.stream = .S →
    exec (.vlget w) s = .next ((r.modMe (fun a => { (a.sSet n.toNat (BitVec.ofNat 64 (min (r.val w.c).toNat 16))) with
      vl := min (r.val w.c).toNat 16, vlGen := a.vlGen + 1 })).issued 0x10A w)) ∧
  (∀ (w : Operands) (s r : State) (rot : Bool) (n : BitVec 6), Issues 0x10A w false s r → w.a = .reg .s rot n →
    r.dfr w.c = false → w.head.stream = .V →
    exec (.vlget w) s = .next ((r.modMe (fun a => { (a.sSet n.toNat (BitVec.ofNat 64 (min (r.val w.c).toNat 16))) with
      vl := if a.vlGen = r.vlGen then min (r.val w.c).toNat 16 else a.vl,
      pend := a.pend.map (fun p => if p.strm == .V && p.vlGen == r.vlGen then { p with vl := min (r.val w.c).toNat 16 } else p) })).issued 0x10A w))

/-- R427, R428, R430, R432 to R436: the vector instructions that look beyond one lane, and those between vectors, masks, scalars
and the vector length. -/
def Obligations.VectorCrossings : Prop := VectorCrossLaneResults ∧ VectorScalarTransfers

/-! ## Memory -/

namespace Sys2Proof.Machine

/-- The checks that a scalar access passes (R27, R104): its registers are not deferred, the range and the alignment hold, it
touches no push address, and the space's own checks give the stretches `ps` in state `t`. -/
structure Reaches (opc sp : Nat) (w : Operands) (u : Use) (fields : List Nat) (extra : State → Nat → Page → Option FaultReq)
    (r t : State) (ps : List Piece) : Prop where
  defined : r.deferredIn opc w fields = none
  range   : rangeFault sp (r.eaOf opc w) = none
  aligned : aligned sp (r.eaOf opc w) w.ty.bytes = none
  noPush  : sp = 4 → r.myPart.pushEdge (r.eaOf opc w).toNat = none
  access  : r.access sp u (r.eaOf opc w).toNat w.ty.bytes (extra r) = .ok t ps
  release : Ord_rel w.ord = true → t.releaseReady w.scope = true

/-- A scalar load completes (R376): the bytes of its stretches, extended by TYPE, in the destination. A .spec load of a poisoned
register, or of a page on which such a load defers, is the business of LoadDefers; a load of host memory completes once its read
does not take its time any more (R327). -/
def LoadWord (mk : Operands → Instr) (opc sp : Nat) : Prop :=
  ∀ (w : Operands) (s r t : State) (ps : List Piece),
    Issues opc w false s r →
    Reaches opc sp w .load [1, 2] (fun _ va p => if isRaw w then none else packedFault va p) r t ps →
    (isSpec w = true → r.poisonHit opc w = none ∧ (sp = 4 → r.specPath (r.eaOf opc w).toNat w.ty.bytes = false)) →
    ps.all t.bindable = true → t.startHostRead ps = none → t.poisonFault ps = none →
    exec (mk w) s =
      .next (((t.loadPieces ps).2.wroteS (opndNum w.a) (loadExt w.ty (t.loadPieces ps).1)).issued opc w)

/-- A scalar .spec load defers instead of faulting (R195): a register that it needs is deferred or poisoned, its address is out of
range or misaligned, or its page is one on which it defers; then its destination is zero with the bit set. -/
def LoadDefers (mk : Operands → Instr) (opc sp : Nat) : Prop :=
  ∀ (w : Operands) (s r : State), Issues opc w false s r → isSpec w = true →
    let a := r.eaOf opc w
    let clear := r.deferredIn opc w [1, 2] = none ∧ r.poisonHit opc w = none
    let placed := rangeFault sp a = none ∧ aligned sp a w.ty.bytes = none ∧ (sp = 4 → r.myPart.pushEdge a.toNat = none)
    let slow := sp = 4 ∧ r.specPath a.toNat w.ty.bytes = true
    (¬ clear ∨ rangeFault sp a ≠ none ∨ aligned sp a w.ty.bytes ≠ none ∨ (placed ∧ slow) →
      exec (mk w) s = .next ((r.unasked.deferredS (opndNum w.a)).issued opc w)) ∧
    (∀ f t, clear → placed → ¬ slow →
      r.access sp .load a.toNat w.ty.bytes (fun va p => if isRaw w then none else packedFault va p) = .fault f t →
      specFault f.code = true → exec (mk w) s = .next ((t.unasked.deferredS (opndNum w.a)).issued opc w))

/-- The value that a scalar store stores: B, or C where B is NONE (R412). -/
def State.storeVal (r : State) (w : Operands) : Word := if w.b == .none then r.val w.c else r.val w.b

/-- A scalar store completes (R413): the low bytes of its value at its stretches, by R157; an acquire then holds later
accesses. -/
def StoreWord (mk : Operands → Instr) (opc sp : Nat) : Prop :=
  ∀ (w : Operands) (s r t : State) (ps : List Piece),
    Issues opc w false s r → Reaches opc sp w .store [0, 1, 2] (fun r => r.storeExtra) r t ps →
    exec (mk w) s =
      .next (((t.storePieces w.scope ps (leBytes w.ty.bytes (r.storeVal w).toNat)).storeAcquire w t.nextWid).issued opc w)

/-- A vector access, gather, scatter or VREDS completes (R437 to R440): no register that it needs is deferred, every active
lane passes its checks, and all of them are performed. Where a lane of a GLB access faults, the lanes below it are performed and the
word faults, to go on at that lane (R212); with no lane below it the word has no effect (R193). -/
def VecWord (mk : Operands → Instr) (m : VMem) : Prop :=
  ∀ (w : Operands) (s r t : State) (l : List (LaneAcc × List Piece)),
    let a := if m.idx then r.val (baseOf m.opc w) else r.eaOf m.opc w
    let fmt := if 2 ^ 56 ≤ a.toNat then none else r.codeFmt m w a
    let ix := r.me.progIdx.getD (r.vecOf w.c)
    let accs := r.laneAccs m w a fmt ix r.me.prog
    Issues m.opc w false s r → r.vecDeferred m w = none → accs.findSome? (laneFault m) = none →
    (m.idx = true ∨ accs = [] ∨ r.vecAligned m w a fmt = true) →
    (isSpec w = true → m.store = false →
      r.poisonHit m.opc w = none ∧ (m.sp = 4 → ∀ x ∈ accs, r.specPath x.addr.toNat x.n = false)) →
    (Ord_rel w.ord = true → t.releaseReady w.scope = true) →
    (r.checkLanes m w fmt (r.spanFmt m (r.laneAccs m w a fmt ix 0)) accs = (t, l, .none) →
      exec (mk w) s = .next ((t.performLanes m w fmt l).noProgress.issued m.opc w)) ∧
    (∀ f, m.sp = 4 → (isSpec w = true → m.store = true ∨ specFault f.code = false) →
      r.checkLanes m w fmt (r.spanFmt m (r.laneAccs m w a fmt ix 0)) accs = (t, l, .fault f) →
      exec (mk w) s = .next (((if l.isEmpty then t else t.performLanes m w fmt l).modMe (fun a =>
        { a with prog := f.lane, progIdx := if m.idx then some ix else none })).takeFault m.opc w f))

/-- A .spec vector load defers instead of faulting (R195): where a register that it needs is deferred or poisoned, or the page of an
active lane is one on which it defers, the lanes that it would write are zero and the register's bit is set. -/
def VecDefers (mk : Operands → Instr) (m : VMem) : Prop :=
  ∀ (w : Operands) (s r : State), Issues m.opc w false s r → isSpec w = true →
    let a := if m.idx then r.val (baseOf m.opc w) else r.eaOf m.opc w
    let fmt := if 2 ^ 56 ≤ a.toNat then none else r.codeFmt m w a
    let accs := r.laneAccs m w a fmt (r.me.progIdx.getD (r.vecOf w.c)) r.me.prog
    (r.vecDeferred m w ≠ none ∨ r.poisonHit m.opc w ≠ none ∨
      (accs.findSome? (laneFault m) = none ∧ (m.idx = true ∨ accs = [] ∨ r.vecAligned m w a fmt = true) ∧ m.sp = 4 ∧
        ∃ x ∈ accs, r.specPath x.addr.toNat x.n = true)) →
    exec (mk w) s = .next ((r.unasked.noProgress.modMe (fun b => b.vSet (opndNum w.a)
      (Vec.ofFn (fun i => if r.lanesWritten m.opc w i then 0 else (b.vGet (opndNum w.a)).lane i)) true)).issued m.opc w)

end Sys2Proof.Machine

/-- R195, R376: LDL, LDS and LDG complete, for every type, displacement, .raw, .spec and ORD. -/
def Sys2Proof.Machine.LoadsComplete : Prop :=
  (LoadWord .ldg 0x180 4 ∧ LoadWord .ldl 0x181 1 ∧ LoadWord .lds 0x182 2) ∧
  (LoadDefers .ldg 0x180 4 ∧ LoadDefers .ldl 0x181 1 ∧ LoadDefers .lds 0x182 2)

/-- R413: STL, STS and STG complete. -/
def Sys2Proof.Machine.StoresComplete : Prop := StoreWord .stg 0x184 4 ∧ StoreWord .stl 0x185 1 ∧ StoreWord .sts 0x186 2

/-- R104, R107, R112: when the space's own check passes: LOC bytes that some region of the activation lets it read, or write;
SHM bytes inside the partition's grant on the core's die. -/
def Sys2Proof.Machine.LocalSpacesAnswer : Prop :=
  (∀ (s : State) (va n : Nat) (extra : Nat → Page → Option FaultReq), (∀ o ∈ from_ va n, s.me.locRead o = true) →
    s.access 1 .load va n extra = .ok s [{ at_ := .loc, key := 32768 * s.myCore + va, va := va, n := n }]) ∧
  (∀ (s : State) (va n : Nat) (extra : Nat → Page → Option FaultReq), (∀ o ∈ from_ va n, s.me.locWrite o = true) →
    s.access 1 .store va n extra = .ok s [{ at_ := .loc, key := 32768 * s.myCore + va, va := va, n := n }]) ∧
  (∀ (s : State) (u : Use) (va n : Nat) (extra : Nat → Page → Option FaultReq),
    s.myPart.shmBase s.myDie ≤ va → va + n ≤ s.myPart.shmBase s.myDie + s.myPart.shmSize s.myDie →
    s.access 2 u va n extra = .ok s [{ at_ := .shm, key := 2 ^ 27 * s.myDie + va, va := va, n := n }]) ∧
  (∀ (s : State) (va n : Nat) (extra : Nat → Page → Option FaultReq) (o : Nat), o ∈ from_ va n → s.me.locWrite o = false →
    s.access 1 .store va n extra = .fault { code := 0x08, space := 1, addr := BitVec.ofNat 64 va } s)

/-- R104, R107, R112, R376, R413: scalar loads and stores complete, and when LOC and SHM answer. -/
def Obligations.ScalarAccesses : Prop := LoadsComplete ∧ StoresComplete ∧ LocalSpacesAnswer


/-- R437 to R440: the vector accesses, gathers, scatters and VREDS complete. -/
def Sys2Proof.Machine.VectorAccessesComplete : Prop :=
  VecWord .vldg ⟨0x188, 4, false, false⟩ ∧ VecWord .vldl ⟨0x189, 1, false, false⟩ ∧ VecWord .vlds ⟨0x18A, 2, false, false⟩ ∧
  VecWord .vstg ⟨0x18B, 4, true, false⟩ ∧ VecWord .vstl ⟨0x18C, 1, true, false⟩ ∧ VecWord .vsts ⟨0x18D, 2, true, false⟩ ∧
  VecWord .vgthg ⟨0x190, 4, false, true⟩ ∧ VecWord .vgthl ⟨0x191, 1, false, true⟩ ∧ VecWord .vgths ⟨0x192, 2, false, true⟩ ∧
  VecWord .vsctg ⟨0x193, 4, true, true⟩ ∧ VecWord .vsctl ⟨0x194, 1, true, true⟩ ∧ VecWord .vscts ⟨0x195, 2, true, true⟩ ∧
  VecWord .vreds ⟨0x206, 2, true, true⟩

/-- R195: the vector loads and gathers with .spec defer. -/
def Sys2Proof.Machine.VectorLoadsDefer : Prop :=
  VecDefers .vldg ⟨0x188, 4, false, false⟩ ∧ VecDefers .vldl ⟨0x189, 1, false, false⟩ ∧ VecDefers .vlds ⟨0x18A, 2, false, false⟩ ∧
  VecDefers .vgthg ⟨0x190, 4, false, true⟩ ∧ VecDefers .vgthl ⟨0x191, 1, false, true⟩ ∧ VecDefers .vgths ⟨0x192, 2, false, true⟩

/-- R115, R116, R378, R415: LDZ reads a row of an accumulator tile, a FREE one too, whose contents are free values; STZ writes one and
makes the tile HELD; a row that STZ has written reads back. A row past 15 faults with ACC_BOUNDS. -/
def Sys2Proof.Machine.TileRowsComplete : Prop :=
  (∀ (w : Operands) (s r : State) (n : Nat), Issues 0x183 w false s r → r.rowOf 0x183 w (opndNum w.b) = .ok n →
    r.tileBusy (opndNum w.b) = false →
    (r.heldTile r.myCore (opndNum w.b) = true →
      (∀ i, i < 16 → Granule.acc r.myCore (accKey r.myCore (opndNum w.b) n i % 2048 / 2 * 2) ∉ r.poisoned) →
      exec (.ldz w) s = .next ((r.wroteV (opndNum w.a)
        (Vec.ofFn (fun i => r.accGet (accKey r.myCore (opndNum w.b) n i)))).issued 0x183 w)) ∧
    (r.heldTile r.myCore (opndNum w.b) = false → ∃ v : Vec,
      exec (.ldz w) s = .next (({ r with fresh := r.fresh + 16 }.wroteV (opndNum w.a) v).issued 0x183 w))) ∧
  (∀ (w : Operands) (s r : State), r.deferredIn 0x183 w [2] = none → 15 < (r.val w.c).toNat → Issues 0x183 w false s r →
    exec (.ldz w) s = .next (r.takeFault 0x183 w
      { code := 0x0C, space := 3, addr := r.val w.c, info := BitVec.ofNat 64 (opndNum w.b) })) ∧
  (∀ (w : Operands) (s r : State) (n : Nat), Issues 0x187 w false s r → r.rowOf 0x187 w (opndNum w.a) = .ok n →
    r.firstDeferredV (vOf w.b) = none → r.tileBusy (opndNum w.a) = false → ∃ t : State,
    exec (.stz w) s = .next (t.issued 0x187 w) ∧ t.heldTile r.myCore (opndNum w.a) = true ∧
      ∀ i, i < 16 → opndNum w.a < 8 → n < 16 →
        t.accGet (accKey r.myCore (opndNum w.a) n i) = ((r.holdTile r.myCore (opndNum w.a)).vecOf w.b).lane i)

/-- R394: PREF never faults for its access, and completes: it asks for the page, which enters the owner cache as the answer comes; with
HINT.CACHE 3 or 4 it takes no copy of it; an access that would fault does nothing. -/
def Sys2Proof.Machine.PrefCompletes : Prop :=
  ∀ (w : Operands) (s r : State), Issues 0x196 w false s r → r.deferredIn 0x196 w [0, 2] = none →
    let a := r.eaOf 0x196 w
    let ask := r.usePage r.myDie prefKey r.myPart.asid a.toNat 1 .load
    let there := glbRange a 1 = none ∧ r.myPart.pushEdge a.toNat = none
    (∀ t p, there → ask = .ok t p → w.head.cache ≠ 3 → w.head.cache ≠ 4 → exec (.pref w) s = .next (t.issued 0x196 w)) ∧
    (∀ t p, there → ask = .ok t p → w.head.cache = 3 ∨ w.head.cache = 4 → exec (.pref w) s =
      .next (({ r with dies := r.dies.map (fun e => (e.1, { e.2 with owners := (t.die e.1).owners })) } : State).issued 0x196 w)) ∧
    (∀ t, there → ask = .stall t → exec (.pref w) s = .next (t.issued 0x196 w)) ∧
    (∀ f t, ¬ there ∨ ask = .fault f t → exec (.pref w) s = .next (r.issued 0x196 w))

/-- R115, R116, R195, R378, R394, R415, R437 to R440: vector accesses, LDZ, STZ and PREF complete. -/
def Obligations.VectorAccesses : Prop := VectorAccessesComplete ∧ VectorLoadsDefer ∧ TileRowsComplete ∧ PrefCompletes


/-- R85: a 64-bit LDG of a push address reads the EMIT units still owed for its edge; a 64-bit STG there pushes one token and
discharges one unit, at once, and with none owed faults with EMIT_EXCESS; an LDG or STG of another width, any vector load or store,
gather or scatter, and any atomic or reduction, faults with ATOMIC_PATH. -/
def Obligations.PushAddresses : Prop :=
  (∀ (w : Operands) (s r : State) (e : Nat), Issues 0x180 w false s r → r.deferredIn 0x180 w [1, 2] = none →
    (isSpec w = true → r.poisonHit 0x180 w = none) →
    rangeFault 4 (r.eaOf 0x180 w) = none → aligned 4 (r.eaOf 0x180 w) w.ty.bytes = none →
    r.myPart.pushEdge (r.eaOf 0x180 w).toNat = some e →
    (w.ty.bytes = 8 → (Ord_rel w.ord = true → r.releaseReady w.scope = true) →
      exec (.ldg w) s = .next ((r.wroteS (opndNum w.a) (BitVec.ofNat 64 (r.emitOwed e))).issued 0x180 w)) ∧
    (w.ty.bytes ≠ 8 → exec (.ldg w) s = .next (r.takeFault 0x180 w { code := 0x0E, space := 4, addr := r.eaOf 0x180 w }))) ∧
  (∀ (w : Operands) (s r : State) (e : Nat), Issues 0x184 w false s r → r.deferredIn 0x184 w [0, 1, 2] = none →
    rangeFault 4 (r.eaOf 0x184 w) = none → aligned 4 (r.eaOf 0x184 w) w.ty.bytes = none →
    r.myPart.pushEdge (r.eaOf 0x184 w).toNat = some e →
    (w.ty.bytes = 8 → r.emitOwed e ≠ 0 → r.releaseReady w.scope = true →
      exec (.stg w) s = .next ((r.pushToken e (r.storeVal w)).issued 0x184 w)) ∧
    (w.ty.bytes = 8 → r.emitOwed e = 0 → exec (.stg w) s = .next (r.takeFault 0x184 w
      { code := 0x1B, space := 4, addr := r.eaOf 0x184 w, info := BitVec.ofNat 64 ((r.portOf e).getD 0) })) ∧
    (w.ty.bytes ≠ 8 → exec (.stg w) s = .next (r.takeFault 0x184 w { code := 0x0E, space := 4, addr := r.eaOf 0x184 w }))) ∧
  (∀ (opc : Nat) (mk : Operands → Instr), (opc = 0x200 ∧ mk = .amog) ∨ (opc = 0x202 ∧ mk = .casg) →
    ∀ (w : Operands) (s r : State), Issues opc w false s r → r.deferredIn opc w [1, 0, 2] = none →
      rangeFault 4 (r.val w.b) = none → aligned 4 (r.val w.b) w.ty.bytes = none →
      r.myPart.pushMeets (r.val w.b).toNat w.ty.bytes = true → exec (mk w) s =
        .next (r.takeFault opc w { code := 0x0E, space := 4, addr := r.val w.b })) ∧
  (∀ (w : Operands) (s r : State), Issues 0x204 w false s r → r.deferredIn 0x204 w [0, 1, 2] = none →
    rangeFault 4 (r.eaOf 0x204 w) = none → aligned 4 (r.eaOf 0x204 w) w.ty.bytes = none →
    r.myPart.pushMeets (r.eaOf 0x204 w).toNat w.ty.bytes = true → exec (.redg w) s =
      .next (r.takeFault 0x204 w { code := 0x0E, space := 4, addr := r.eaOf 0x204 w })) ∧
  (∀ (m : VMem) (mk : Operands → Instr), (m = ⟨0x188, 4, false, false⟩ ∧ mk = .vldg) ∨ (m = ⟨0x18B, 4, true, false⟩ ∧ mk = .vstg) ∨
      (m = ⟨0x190, 4, false, true⟩ ∧ mk = .vgthg) ∨ (m = ⟨0x193, 4, true, true⟩ ∧ mk = .vsctg) →
    ∀ (w : Operands) (s r : State) (x : LaneAcc) (l : List LaneAcc),
      let a := if m.idx then r.val (baseOf m.opc w) else r.eaOf m.opc w
      let fmt := if 2 ^ 56 ≤ a.toNat then none else r.codeFmt m w a
      let ix := r.me.progIdx.getD (r.vecOf w.c)
      Issues m.opc w false s r → r.vecDeferred m w = none → r.laneAccs m w a fmt ix r.me.prog = x :: l →
      (x :: l).findSome? (laneFault m) = none → (m.idx = true ∨ r.vecAligned m w a fmt = true) →
      (isSpec w = true → m.store = false →
        r.poisonHit m.opc w = none ∧ ∀ y ∈ x :: l, r.specPath y.addr.toNat y.n = false) →
      r.myPart.pushMeets x.addr.toNat x.n = true → exec (mk w) s =
        .next ((r.modMe (fun b => { b with prog := x.lane, progIdx := if m.idx then some ix else none })).takeFault m.opc w
          { code := 0x0E, space := 4, addr := x.addr, lane := x.lane }))

/-- R8, R103, R157: a store to LOC changes the bytes that it stores and no other byte of any memory: for every address of LOC
outside the stored run the byte reads as before, the bytes of the run read as the low bytes of the value, lowest first, and
SHM, GLB and host memory are unchanged. -/
def Sys2Proof.Machine.LocalStoreFrame : Prop :=
  ∀ (w : Operands) (s r t u : State) (ps : List Piece), Issues 0x185 w false s r →
    Reaches 0x185 1 w .store [0, 1, 2] (fun r => r.storeExtra) r t ps → exec (.stl w) s = .next u →
    let a := 32768 * r.myCore + (r.eaOf 0x185 w).toNat
    (∀ x, (x < a ∨ a + w.ty.bytes ≤ x) → u.locByte x = s.locByte x) ∧
    (∀ i, i < w.ty.bytes → u.locByte (a + i) = BitVec.ofNat 8 ((r.storeVal w).toNat / 256 ^ i)) ∧
    u.shm = s.shm ∧ u.glb = s.glb ∧ u.host = s.host

/-- R157: a store to SHM or GLB goes to the slot's outbox: until it drains, no byte of LOC, SHM or GLB changes. -/
def Sys2Proof.Machine.OutboxStoreFrame : Prop :=
  ∀ (opc sp : Nat) (mk : Operands → Instr), ((opc, sp) = (0x184, 4) ∧ mk = .stg) ∨ ((opc, sp) = (0x186, 2) ∧ mk = .sts) →
    ∀ (w : Operands) (s r t u : State) (ps : List Piece), Issues opc w false s r →
      Reaches opc sp w .store [0, 1, 2] (fun r => r.storeExtra) r t ps → (∀ p ∈ ps, p.at_ = .shm ∨ p.at_ = .glb) →
      exec (mk w) s = .next u → (∀ x, u.locByte x = s.locByte x) ∧ (∀ x, u.shmByte x = s.shmByte x) ∧ (∀ x, u.glbByte x = s.glbByte x)

/-- R8, R103, R157: what a scalar store leaves unchanged. -/
def Obligations.StoreFrames : Prop := LocalStoreFrame ∧ OutboxStoreFrame

/-! ## Atomics, reductions and fences -/

namespace Sys2Proof.Machine

/-- An atomic issues (R157, R346, R347): its checks pass for the stretch `p`, its bytes are not poisoned, and it enters the outbox
with its operation (none: a compare-and-swap), operand and expected value, `f w r`; the owner or bank performs it, and it binds its
old value then (AtomicFrame). -/
def AtomicWord (mk : Operands → Instr) (opc sp : Nat) (f : Operands → State → Option Nat × Word × Word) : Prop :=
  ∀ (w : Operands) (s r t : State) (p : Piece) (ps : List Piece),
    Issues opc w false s r → r.deferredIn opc w [1, 0, 2] = none →
    rangeFault sp (r.val w.b) = none → aligned sp (r.val w.b) w.ty.bytes = none →
    r.access sp .atomic (r.val w.b).toNat w.ty.bytes r.storeExtra = .ok t (p :: ps) →
    (Ord_rel w.ord = true → t.releaseReady w.scope = true) → t.poisonFault (p :: ps) = none →
    exec (mk w) s = .next ((t.issueAtomic opc w p (f w r).1 (f w r).2.1 (f w r).2.2).issued opc w)

/-- A reduction completes (R157, R396): one outbox entry for its element, which lies in one stretch, and in the weir that covers it if
one does; of another TYPE than its weir's, it faults with FORMAT_MISMATCH. -/
def ReductionWord (mk : Operands → Instr) (opc sp : Nat) : Prop :=
  ∀ (w : Operands) (s r t : State) (p : Piece),
    Issues opc w false s r → r.deferredIn opc w [0, 1, 2] = none →
    rangeFault sp (r.eaOf opc w) = none → aligned sp (r.eaOf opc w) w.ty.bytes = none →
    r.access sp .atomic (r.eaOf opc w).toNat w.ty.bytes packedFault = .ok t [p] →
    (Ord_rel w.ord = true → t.releaseReady w.scope = true) → t.poisonFault [p] = none →
    (∀ f, t.weirType w.ty [p] = some f → exec (mk w) s = .next (t.takeFault opc w f)) ∧
    (t.weirType w.ty [p] = none →
    let weir := if sp = 4 then t.weirAt (r.eaOf opc w).toNat else none
    exec (mk w) s = .next ((t.issueRed t.cur (p.at_ == .shm) p.pkey w.scope p.page.dup weir p.key w.ty (t.val w.b)
      (isSpec w && sp = 4 && weir.isNone && w.ty.isFloat) (t.nearMode && weir.isNone)).issued opc w))

end Sys2Proof.Machine

/-- R346, R356: AMOG, AMOS, CASG and CASS issue: AMO with the operation that C names and the value of A, CAS with the value of C to
store and that of A to compare. -/
def Sys2Proof.Machine.AtomicsComplete : Prop :=
  AtomicWord .amog 0x200 4 (fun w r => (some (combineCode w.c), r.val w.a, 0)) ∧
  AtomicWord .amos 0x201 2 (fun w r => (some (combineCode w.c), r.val w.a, 0)) ∧
  AtomicWord .casg 0x202 4 (fun w r => (none, r.val w.c, r.val w.a)) ∧
  AtomicWord .cass 0x203 2 (fun w r => (none, r.val w.c, r.val w.a))

/-- R165, R346, R356: what an atomic at an SHM bank does: the bytes of its element become the low bytes of the new value, no
other byte of any memory changes, and with no new value (a CAS that finds another value) none does; the word that issued it binds the
old value, extended by TYPE, to its register, and leaves the atomics that wait. -/
def Obligations.AtomicFrame : Prop :=
  ∀ (s : State) (core slot i : Nat) (e : OutEntry) (a : Nat) (t : Ty) (op : Option Nat) (v x : Word) (seq : Nat) (acq : Bool),
    (s.act (8 * core + slot)).outbox[i]? = some e → e.kind = .amo a t op v x seq acq → e.shm = true → e.drained = true →
    s.poisonAt shmGranule a t.bytes = false →
    let old := BitVec.ofNat 64 (leNat (mread a t.bytes s.shm))
    ∃ u : State, exec (.atomicAtOwner core slot i) s = .next u ∧ u.loc = s.loc ∧ u.glb = s.glb ∧ u.host = s.host ∧
      (∀ y, (y < a ∨ a + t.bytes ≤ y) → u.shmByte y = s.shmByte y) ∧
      (∀ y, atomicNew t op v x old = none → u.shmByte y = s.shmByte y) ∧
      (∀ z j, atomicNew t op v x old = some z → j < t.bytes → u.shmByte (a + j) = BitVec.ofNat 8 (z.toNat / 256 ^ j)) ∧
      (u.act (8 * core + slot)).outbox = dropNth (s.act (8 * core + slot)).outbox i ∧
      (∀ p opc w, (s.act (8 * core + slot)).late.find? (fun p => p.seq == seq) = some p → p.fields = some (opc, w) →
        (∀ q ∈ (u.act (8 * core + slot)).late, q.seq ≠ seq) ∧
        (opndNum w.a ≠ 0 → (u.act (8 * core + slot)).sGet (opndNum w.a) = loadExt t (leBytes t.bytes old.toNat) ∧
          (u.act (8 * core + slot)).sDef (opndNum w.a) = false))

/-- R396: REDG and REDS complete. -/
def Sys2Proof.Machine.ReductionsComplete : Prop := ReductionWord .redg 0x204 4 ∧ ReductionWord .reds 0x205 2

/-- R163, R164: a fence waits until it is complete at its scope and then issues; FENCER over no bytes is complete at once. -/
def Sys2Proof.Machine.FencesComplete : Prop :=
  (∀ (w : Operands) (s r : State), Issues 0x208 w false s r → r.fenceDone w.ord w.scope none = true →
    exec (.fence w) s = .next (r.issued 0x208 w)) ∧
  (∀ (w : Operands) (s r : State), Issues 0x208 w false s r → s.iss = .front → w.head.stream = .S →
    r.fenceDone w.ord w.scope none = false → r.iss = .front → exec (.fence w) s = .next r) ∧
  (∀ (w : Operands) (s r : State), Issues 0x209 w false s r → r.deferredIn 0x209 w [0, 2] = none →
    (r.val w.c = 0 ∨ ((r.val w.a).toNat < 2 ^ 56 ∧ (r.val w.a + r.val w.c - 1).toNat < 2 ^ 56 ∧
      r.fenceDone w.ord w.scope (some ((r.val w.a).toNat, (r.val w.c).toNat)) = true)) →
    exec (.fencer w) s = .next (r.issued 0x209 w))

/-- R157, R163, R164, R346, R347, R356, R396: atomics, reductions and fences complete. -/
def Obligations.AtomicsAndFences : Prop := AtomicsComplete ∧ ReductionsComplete ∧ FencesComplete

/-! ## Signals and obligations -/

namespace Sys2Proof.Machine

/-- A signal operation reaches its block (R135, R404): the registers of its fields are not deferred, the reference passes its
checks and names the block whose home key is `home`, its release may issue, its home may serve it, and the block's bytes are
not poisoned. `u` is the state that the home finds. -/
structure ReachesBlock (opc : Nat) (w : Operands) (fields : List Nat) (ref : Word) (rel : Bool) (r u : State) (p : Piece)
    (home : Nat) : Prop where
  defined : r.deferredIn opc w fields = none
  there   : ∃ t v, r.reach ref = .ok t p home ∧ (rel = true → t.releaseReady (sigScope w p) = true) ∧
    t.ownerReady p false = (true, v) ∧
    (if p.at_ == .shm then v.poisonAt shmGranule p.key 32 else v.poisonAt glbGranule p.key 32) = false ∧
    u = v.noteIds v.cur (if p.at_ == .shm then [] else v.ownerIds p.key 32)

/-- The block at a home key is live and its reserved bits are zero (R135). -/
def State.liveAt (u : State) (home : Nat) : Prop := (u.block home).live = true ∧ (u.block home).bad = false

end Sys2Proof.Machine

/-- R136, R405, R408: SIGADD and SIGSET of a live block complete: the value is added or set, one unit is discharged where the
activation holds one for the block, and waiters that are satisfied, or orphaned, go on; after .acq or .acqrel on a GLB block later
accesses wait until the write is performed. A block that is not live faults with SIG_STATE. -/
def Sys2Proof.Machine.SignalUpdatesComplete : Prop :=
  ∀ (opc : Nat) (set : Bool) (mk : Operands → Instr),
    (opc = 0x213 ∧ set = false ∧ mk = .sigadd) ∨ (opc = 0x216 ∧ set = true ∧ mk = .sigset) →
    ∀ (w : Operands) (s r u : State) (p : Piece) (home : Nat), Issues opc w false s r →
      ReachesBlock opc w [0, 2] (r.val w.a) true r u p home →
      ((u.block home).live = false → exec (mk w) s = .next (u.takeFault opc w (sigState (r.val w.a) (u.block home)))) ∧
      (u.liveAt home →
      let held := u.me.oblUnits .signal (r.val w.a) ≠ 0
      let wid := (u.sigWid p).1
      let v := (u.sigWid p).2.modMe (fun a => if held then a.oblDischarge .signal (r.val w.a) else a)
      let x := if Ord_acq w.ord ∧ p.at_ ≠ .shm then v.modMe (fun a => { a with acq := a.acq ++ [(w.scope, wid)] }) else v
      exec (mk w) s = .next ((x.sigUpdate x.myDie wid home p.page.dup set (x.val w.c) (if held then 1 else 0)).issued opc w))

/-- R134, R406: SIGNEW of a block that is not live draws a rank from its class, or takes the rank given, writes the block
live with value 0, and returns the rank; .owe takes one unit, without which waiters left in the queue are orphaned. SIGFREE of a live block without holders and waiters makes it
dead. A block in the other state faults with SIG_STATE, and one with holders or waiters at SIGFREE. -/
def Sys2Proof.Machine.SignalLifetimes : Prop :=
  (∀ (w : Operands) (s r u : State) (p : Piece) (home : Nat) (rank : Rank) (part : Part), Issues 0x215 w false s r →
    ReachesBlock 0x215 w [1, 2] (r.val w.b) (Ord_rel w.ord) r u p home →
    (w.flg.getLsbD 2 = true → (r.me.oblAcquire .signal (r.val w.b) 0 1).isSome = true) →
    (u.block home).live = false → (u.block home).bad = false →
    u.myPart.draw (bits w.flg 0 2).toNat (u.val w.c) = .ok (rank, part) →
    let x := (u.sigWid p).2.modPart (u.sigWid p).2.me.part (fun _ => part)
    exec (.signew w) s = .next (((x.closeBlock x.myDie (u.sigWid p).1 home p.page.dup
        { u.block home with value := 0, rank := rank, holders := if w.flg.getLsbD 2 then 1 else 0, poison := false, live := true }
        [] false).modMe
      (fun a => (if w.flg.getLsbD 2 then (a.oblAcquire .signal (r.val w.b) rank 1).getD a else a).sSet (opndNum w.a)
        (rank.zeroExtend 64))).issued 0x215 w)) ∧
  (∀ (w : Operands) (s r u : State) (p : Piece) (home : Nat), Issues 0x215 w false s r →
    ReachesBlock 0x215 w [1, 2] (r.val w.b) (Ord_rel w.ord) r u p home →
    (w.flg.getLsbD 2 = true → (r.me.oblAcquire .signal (r.val w.b) 0 1).isSome = true) → (u.block home).live = true →
    exec (.signew w) s = .next (u.takeFault 0x215 w (sigState (r.val w.b) (u.block home)))) ∧
  (∀ (w : Operands) (s r u : State) (p : Piece) (home : Nat), Issues 0x214 w false s r →
    ReachesBlock 0x214 w [0] (r.val w.a) (Ord_rel w.ord) r u p home →
    (u.liveAt home → (u.block home).holders = 0 → u.waiters home = [] →
      exec (.sigfree w) s = .next (((u.sigWid p).2.putBlock (u.sigWid p).2.myDie (u.sigWid p).1 home p.page.dup
        { u.block home with live := false }).issued 0x214 w)) ∧
    ((u.block home).live = false ∨ (u.block home).holders ≠ 0 ∨ u.waiters home ≠ [] →
      exec (.sigfree w) s = .next (u.takeFault 0x214 w (sigState (r.val w.a) (u.block home)))))

/-- R134, R136, R405, R406, R408: SIGADD, SIGSET, SIGNEW and SIGFREE complete. -/
def Obligations.SignalChanges : Prop := SignalUpdatesComplete ∧ SignalLifetimes


/-- R136, R143, R144, R407, R443, R444: SIGWAIT whose target the value has reached goes on, the block written back and its later
accesses held until that write is performed at its SCOPE; below it, and WAITA always, the slot goes to WAITING on the block while an obligation for it is held somewhere, and faults with ORPHAN_WAIT where
none is; a poisoned block faults with SIG_POISONED, and a wait at or above the activation's floor with RANK_ORDER; WAKEA wakes waiters of WAITA, as many as C says, in order. -/
def Obligations.SignalWaits : Prop :=
  (∀ (opc : Nat) (tgt : State → Operands → Option Word) (mk : Operands → Instr) (fields : List Nat),
    (opc = 0x217 ∧ mk = .sigwait ∧ fields = [0, 2] ∧ tgt = fun u w => some (u.val w.c)) ∨
      (opc = 0x20A ∧ mk = .waita ∧ fields = [0] ∧ tgt = fun _ _ => none) →
    ∀ (w : Operands) (s r u : State) (p : Piece) (home : Nat), Issues opc w true s r →
      ReachesBlock opc w fields (r.val w.a) false r u p home → u.liveAt home →
      (u.rankLegal u.myCore u.me none (u.block home).rank = false →
        exec (mk w) s = .next (u.takeFault opc w (u.rankOrder (r.val w.a) (u.block home).rank))) ∧
      (u.rankLegal u.myCore u.me none (u.block home).rank = true → (u.block home).poison = true →
        exec (mk w) s = .next (u.takeFault opc w (sigPoisoned (r.val w.a)))) ∧
      (u.rankLegal u.myCore u.me none (u.block home).rank = true → (u.block home).poison = false →
        (∀ t, tgt u w = some t → t.toNat ≤ (u.block home).value.toNat → exec (mk w) s =
          .next ((((u.sigWid p).2.sigAcquire p (u.sigWid p).1 w.scope).closeBlock (u.sigWid p).2.myDie (u.sigWid p).1 home p.page.dup
            (u.block home) [] false).issued opc w)) ∧
        ((∀ t, tgt u w = some t → (u.block home).value.toNat < t.toNat) → (u.block home).holders = 0 →
          exec (mk w) s = .next (u.takeFault opc w (orphanWait (r.val w.a) (u.block home).rank))) ∧
        ((∀ t, tgt u w = some t → (u.block home).value.toNat < t.toNat) → (u.block home).holders ≠ 0 →
          let v := (u.sigWid p).2
          let q := v.waiters home ++ [{ slot := some v.cur, part := v.me.part, core := v.myCore, target := tgt u w }]
          let x : State := { v with sigs := tset [] home q v.sigs }
          exec (mk w) s = .next (((x.putBlock x.myDie (u.sigWid p).1 home p.page.dup (u.block home)).enterWait
            (.signal home (r.val w.a) (tgt u w)) (u.block home).rank w.scope).turned opc w.head)))) ∧
  (∀ (w : Operands) (s r u : State) (p : Piece) (home : Nat), Issues 0x20B w false s r →
    ReachesBlock 0x20B w [0, 2] (r.val w.a) true r u p home → u.liveAt home →
    exec (.wakea w) s = .next (((u.sigWid p).2.closeBlock (u.sigWid p).2.myDie (u.sigWid p).1 home p.page.dup (u.block home)
      (firstN (fun x : Waiter => x.target.isNone) (min ((u.sigWid p).2.val w.c).toNat ((u.sigWid p).2.waiters home).length)
        ((u.sigWid p).2.waiters home)) false).issued 0x20B w))

/-- R130, R137, R138, R391, R392: OBLGIVE stages units once no engine command stands before it, OBLTAKE takes units of a live block
that is not poisoned, OBLQRY reads an entry. HOLDERS past its largest value goes on from 0 (log entry 116), and waiters are then
orphaned as R136 says. -/
def Obligations.ObligationWordsComplete : Prop :=
  (∀ (w : Operands) (s r : State) (a : Act), Issues 0x210 w false s r → r.deferredIn 0x210 w [0, 2] = none →
    r.oblCountOf w ≠ 0 → r.cmdAhead = false → r.me.oblGive (r.val w.a) (r.oblCountOf w) = .ok a →
    exec (.oblgive w) s = .next ((r.modMe (fun _ => a)).issued 0x210 w)) ∧
  (∀ (w : Operands) (s r : State), Issues 0x211 w false s r → r.deferredIn 0x211 w [2] = none →
    exec (.oblqry w) s = .next ((r.wroteS (opndNum w.a)
      ((r.me.obl ((r.val w.c).toNat % 32 % 16)).word ((r.val w.c).toNat % 32 / 16 = 1))).issued 0x211 w)) ∧
  (∀ (w : Operands) (s r u : State) (p : Piece) (home : Nat), Issues 0x212 w false s r →
    ReachesBlock 0x212 w [0, 2] (r.val w.a) false r u p home → r.oblCountOf w ≠ 0 →
    (r.me.oblAcquire .signal (r.val w.a) 0 (r.oblCountOf w)).isSome = true → u.liveAt home → (u.block home).poison = false →
    let v := (u.sigWid p).2
    let b : Block := { u.block home with holders := (u.block home).holders + BitVec.ofNat 32 (r.oblCountOf w) }
    exec (.obltake w) s = .next (((if b.holders = 0 then v.closeBlock v.myDie (u.sigWid p).1 home p.page.dup b [] false
        else v.putBlock v.myDie (u.sigWid p).1 home p.page.dup b).modMe
      (fun a => (a.oblAcquire .signal (r.val w.a) (u.block home).rank (r.oblCountOf w)).getD a)).issued 0x212 w))

/-- R130: the tumbler table: units acquired and discharged come and go in the entry of their kind and handle. -/
def Obligations.TumblerUnits : Prop :=
  (∀ (a b : Act) (k : OblKind) (h : Word) (r : Rank) (n : Nat), k ≠ .free → a.oblAcquire k h r n = some b →
    b.oblUnits k h = a.oblUnits k h + n) ∧
  (∀ (a : Act) (k : OblKind) (h : Word), k ≠ .free →
    (∀ i j, i < 16 → j < 16 → (a.obl i).kind = k → (a.obl j).kind = k → (a.obl i).handle = h → (a.obl j).handle = h →
      (a.obl i).staged = false → (a.obl j).staged = false → i = j) →
    (a.oblDischarge k h).oblUnits k h = a.oblUnits k h - 1)

/-- R88, R89, R144, R303, R350, R351, R373: BARA arrives in the current phase; a second arrival in one phase, and a group that the
core is no member of, fault with BARRIER_PHASE. BARW of a released phase goes on, of one that has not released waits for it, of a
poisoned one faults with SIG_POISONED, at or above the floor with RANK_ORDER, and in a local-time partition with TIME_WAIT_HELD.
GRPQRY reads its item. -/
def Obligations.BarrierWordsComplete : Prop :=
  (∀ (w : Operands) (s r : State), Issues 0x218 w false s r → r.deferredIn 0x218 w [2] = none → r.inGroup (r.groupNum w) = false →
    exec (.bara w) s = .next (r.takeFault 0x218 w (barrierPhase (r.groupNum w) 0xFFFFFFFFFFFFFFFF))) ∧
  (∀ (w : Operands) (s r : State), Issues 0x218 w false s r → r.deferredIn 0x218 w [2] = none →
    r.inGroup (r.groupNum w) = true →
    let g := r.groupNum w
    (tget 0 g (r.core r.myCore).arrived ≠ (r.group g).phase + 1 → r.releaseReady w.scope = true →
      exec (.bara w) s = .next (((r.modCore r.myCore (fun y => { y with arrived := tset 0 g ((r.group g).phase + 1) y.arrived })).modPart
        (r.modCore r.myCore (fun y => { y with arrived := tset 0 g ((r.group g).phase + 1) y.arrived })).me.part
        (fun p => { p with groups := tset {} g { r.group g with here := (r.group g).here ++ [r.myCore] } p.groups })).issued 0x218 w)) ∧
    (tget 0 g (r.core r.myCore).arrived = (r.group g).phase + 1 →
      exec (.bara w) s = .next (r.takeFault 0x218 w (barrierPhase g (BitVec.ofNat 64 (r.group g).phase))))) ∧
  (∀ (w : Operands) (s r : State), Issues 0x219 w true s r →
    (r.myPart.lt = true → exec (.barw w) s = .next (r.takeFault 0x219 w r.timeWaitHeld)) ∧
    (r.myPart.lt = false → r.deferredIn 0x219 w [2] = none → r.inGroup (r.groupNum w) = false →
      exec (.barw w) s = .next (r.takeFault 0x219 w (barrierPhase (r.groupNum w) 0xFFFFFFFFFFFFFFFF)))) ∧
  (∀ (w : Operands) (s r : State), Issues 0x219 w true s r → r.myPart.lt = false → r.deferredIn 0x219 w [2] = none →
    r.inGroup (r.groupNum w) = true →
    let g := r.groupNum w
    let last := tget 0 g (r.core r.myCore).arrived
    let p := if last = 0 then (r.group g).phase else last - 1
    let legal := r.rankLegal r.myCore r.me (if last = 0 then none else some g) (r.group g).rank
    (legal = false → exec (.barw w) s = .next (r.takeFault 0x219 w (r.rankOrder (BitVec.ofNat 64 g) (r.group g).rank))) ∧
    (legal = true → p ∈ (r.group g).poisoned →
      exec (.barw w) s = .next (r.takeFault 0x219 w (sigPoisoned (BitVec.ofNat 64 g)))) ∧
    (legal = true → p ∉ (r.group g).poisoned →
      exec (.barw w) s = .next (if p < (r.group g).phase then r.issued 0x219 w
        else (r.enterWait (.group r.me.part g p) (r.group g).rank).turned 0x219 w.head))) ∧
  (∀ (w : Operands) (s r : State), Issues 0x21A w false s r → r.deferredIn 0x21A w [2] = none →
    exec (.grpqry w) s = .next ((r.wroteS (opndNum w.a) ((r.group ((r.val w.c).toNat % 256)).item r.myCore
      (tget 0 ((r.val w.c).toNat % 256) (r.core r.myCore).arrived) ((r.val w.c).toNat / 256 % 4))).issued 0x21A w))

/-! ## Local time, messages, engines, tiles and the system words -/

namespace Sys2Proof.Machine

/-- A word with one destination register whose result is read from the state (R257, R307, R387, R411, R418): its operands
are not deferred, and `f` gives the value. -/
def ReadWord (mk : Operands → Instr) (opc : Nat) (fields : List Nat) (f : State → Operands → Word) : Prop :=
  ∀ (w : Operands) (s r : State), Issues opc w false s r → r.deferredIn opc w fields = none →
    exec (mk w) s = .next ((r.wroteS (opndNum w.a) (f r w)).issued opc w)

end Sys2Proof.Machine

/-- R304 to R309: LTADV, LTANN, LTGET, LTNULL and LTSET complete in and outside local-time mode; outside it all but LTGET of
the stamp have no effect; LTLOOK makes a link, refuses with all ones, or faults with ZERO_LOOKAHEAD_CYCLE. -/
def Sys2Proof.Machine.LocalTimeWords : Prop :=
  (∀ (w : Operands) (s r : State), Issues 0x288 w false s r → r.deferredIn 0x288 w [2] = none →
    exec (.ltadv w) s = .next ((if r.myPart.lt then r.raiseLvt r.myCore (r.val w.c).toNat else r).issued 0x288 w)) ∧
  (∀ (w : Operands) (s r : State), Issues 0x289 w false s r →
    exec (.ltann w) s = .next ((if r.myPart.lt then (upTo (r.core r.myCore).outs.length).foldl
      (fun t j => t.clockMsg t.myCore j false) r else r).issued 0x289 w)) ∧
  ReadWord .ltget 0x28A [2] (fun r w => r.ltItem ((r.val w.c).toNat % 256)) ∧
  (∀ (w : Operands) (s r : State), Issues 0x28C w false s r → r.deferredIn 0x28C w [0, 2] = none →
    exec (.ltnull w) s = .next ((if r.myPart.lt then
      (if (r.val w.a).getLsbD 63 then upTo (r.core r.myCore).outs.length else [(r.val w.a).toNat % 16]).foldl
        (fun t j => t.promise t.myCore j (r.val w.c).toNat) r else r).issued 0x28C w)) ∧
  (∀ (w : Operands) (s r : State), Issues 0x28D w false s r → r.deferredIn 0x28D w [2] = none →
    exec (.ltset w) s = .next ((if r.myPart.lt then
      r.modMe (fun a => { a with stamp := if a.stamp.toNat < (r.val w.c).toNat then r.val w.c else a.stamp }) else r).issued 0x28D w)) ∧
  (∀ (w : Operands) (s r : State), Issues 0x28B w false s r → r.deferredIn 0x28B w [1, 2] = none →
    let at_ := coreOfAddr (bits (r.val w.b) 0 25).toNat
    let eng := (r.val w.b).getLsbD 63
    let look := (r.val w.c).toNat
    let fits (dst : Nat) : Prop := r.myPart.lt = true ∧ (r.core dst).part = some r.me.part ∧ (r.core dst).left = false ∧
      r.linkTo r.myCore dst eng = none ∧ (r.core r.myCore).outs.length < 16 ∧ (r.core dst).ins.length < 16 ∧
      r.myPart.links.length < 4096 ∧ look < 2 ^ 32
    ((∀ dst, at_ = some dst → ¬ fits dst) →
      exec (.ltlook w) s = .next ((r.wroteS (opndNum w.a) (BitVec.ofNat 64 never)).issued 0x28B w)) ∧
    (∀ dst c, at_ = some dst → fits dst → look = 0 → zeroCycle r.myPart.links r.myCore dst = some c →
      exec (.ltlook w) s = .next (r.takeFault 0x28B w { code := 0x33, addr := c })) ∧
    (∀ dst, at_ = some dst → fits dst → (look = 0 → zeroCycle r.myPart.links r.myCore dst = none) →
      exec (.ltlook w) s = .next (((r.insertLink r.me.part { src := r.myCore, dst := dst, eng := eng, look := look }
        (max (satAdd (r.core r.myCore).lvt look) (r.core dst).lvt)).wroteS (opndNum w.a)
        (wordOf [(16, (r.core r.myCore).outs.length), (0, r.myPart.links.length)])).issued 0x28B w)))

/-- R293, R294, R303, R309: LTWAIT outside local-time mode has no effect; in it, an activation without obligations goes on
once SAFE and the head have reached the target, and waits before; an event's waits, once its writes are performed at .core, while
another event activation runs on its core or an event waits there for a time that is not later; with an obligation it faults with
TIME_WAIT_HELD. -/
def Sys2Proof.Machine.LocalTimeWait : Prop :=
  ∀ (w : Operands) (s r : State), Issues 0x28E w true s r → r.deferredIn 0x28E w [2] = none →
    (r.myPart.lt = false → exec (.ltwait w) s = .next (r.issued 0x28E w)) ∧
    (r.myPart.lt = true → r.me.oblUsed ≠ [] → exec (.ltwait w) s = .next (r.takeFault 0x28E w r.timeWaitHeld)) ∧
    (r.myPart.lt = true → r.me.oblUsed = [] → (r.me.event = true → r.releaseReady .core = true) →
      let c := r.myCore
      let n := (r.val w.c).toNat
      let others := (slotsOf c).any (fun k => k != r.cur && (r.act k).st != .free && (r.act k).runsEvent) || (r.core c).savedEvents != 0
      let behind := r.me.event && (others || (r.eventTargets c).any (· ≤ n))
      exec (.ltwait w) s = .next (if r.timeMet c n && !behind then (r.raiseLvt c n).issued 0x28E w
        else ((r.enterWait (.time (r.val w.c)) 0).demandHeld c).turned 0x28E w.head))

/-- R293, R294, R303 to R309: the local-time instructions complete in and outside local-time mode. -/
def Obligations.LocalTimeComplete : Prop := LocalTimeWords ∧ LocalTimeWait


/-- R138, R268, R269, R296: SEND enters its message into the send queue while there is room, with the staged obligations that it
gives and the REPLY that it discharges; on a link of a local-time partition it counts in SENT. -/
def Sys2Proof.Machine.SendCompletes : Prop :=
  ∀ (w : Operands) (s r : State) (d : SendTo), Issues 0x282 w false s r → r.deferredIn 0x282 w [0, 1, 2] = none →
    r.sendTo w = .ok d → badEntry (r.val w.b) = none → r.giveCheck d (w.flg.getLsbD 1) = none →
    r.sendCheck d (w.flg.getLsbD 1) = none → (w.flg.getLsbD 1 = true → r.cmdAhead = false) →
    (Ord_rel w.ord = true → r.releaseReady w.scope = true) →
    (if w.flg.getLsbD 1 && !r.me.oblStaged.isEmpty then 2 else 1) ≤
      r.sendRoom r.myCore (if d.reply.isSome then .reply else .request) →
    (r.myPart.lt = true → ∀ l, r.sendLink d = some l →
      r.lowestStamp r.myCore l.2 ≤ r.me.stamp.toNat ∧ r.me.stamp.toNat ≠ never) → ∃ (t : State) (m : Msg),
      exec (.send w) s = .next (t.issued 0x282 w) ∧ t.msgs = r.msgs ++ [m] ∧ m.dest = d.dest ∧ m.mcast = d.mcast ∧
        m.src = coreAddr r.myCore ∧ m.stamp = r.me.stamp ∧ m.args = r.sendArgs w ∧ m.part = r.me.part ∧ m.queued = true ∧
        m.vn = (if d.reply.isSome then .reply else .request) ∧ m.byType = (r.val w.b).getLsbD 63 ∧
        (m.byType = true → m.type = (bits (r.val w.b) 0 12).toNat) ∧
        (m.byType = false → m.entry = (bits (r.val w.b) 0 56).zeroExtend 64) ∧
        m.given = (if w.flg.getLsbD 1 then r.me.oblStaged else []) ∧
        (w.flg.getLsbD 1 = true → (t.act r.cur).oblStaged = []) ∧
        (r.myPart.lt = true → ∀ j l, r.sendLink d = some (j, l) →
          ((t.core r.myCore).outs[j]?).map OutLink.sent = some ((l.sent + 1) % 2 ^ 32))

/-- R81, R138, R141, R410: SPAWN sends its request with the staged obligations, which leave the table, and S waits for the answer,
which comes to the input buffer. An acceptance writes 0 and S goes on. A refusal makes the caller's slot save its context for the
inline child, at an inline depth of 7 faults with SPAWN_DEPTH, and takes the SPAWN back where the slot is being saved. -/
def Sys2Proof.Machine.SpawnCompletes : Prop :=
  (∀ (w : Operands) (s r : State), Issues 0x283 w false s r → r.firstDeferred (sSources 0x283 w) = none →
    (r.val w.c).toNat % 4 = 0 → bits (r.val w.c) 56 8 = 0 → r.me.badStaged OblKind.toChild = none → r.cmdAhead = false →
    (Ord_rel w.ord = true → r.releaseReady w.scope = true) →
    (if r.me.oblStaged.isEmpty then 1 else 2) ≤ r.sendRoom r.myCore .request → ∃ (t : State) (m : Msg) (inh : Option Rank),
      exec (.spawn w) s = .next t ∧ t.msgs = r.msgs ++ [m] ∧ m.entry = r.val w.c ∧ m.given = r.me.oblStaged ∧
        m.args = (from_ 1 4).map r.me.sGet ∧ m.dest = (bits (r.val w.b) 0 25).toNat ∧
        m.kind = .spawnReq r.cur inh r.me.cls r.me.uid ∧ (t.act r.cur).asked = some (.spawn w r.me.oblStaged inh) ∧
        (t.act r.cur).oblStaged = []) ∧
  (∀ (s : State) (core slot i id : Nat) (w : Operands) (given : List Obl) (inh : Option Rank) (acc : Bool),
    let k := 8 * core + slot
    ((s.core core).inQ.zipIdx.filterMap (fun x => x.1.spawnAnswer.map (fun y => (x.2, y)))).find? (fun x => x.2.1 == k) =
      some (i, k, id, acc) →
    let t := s.modCore core (fun c => { c with inQ := dropNth c.inQ i })
    ((s.act k).uid ≠ id → exec (.spawnAnswer core slot) s = .next t) ∧
    ((s.act k).uid = id → (s.act k).asked = some (.spawn w given inh) →
      (acc = true → exec (.spawnAnswer core slot) s =
        .next ((t.modAct k (fun a => (a.sSet (opndNum w.a) 0).answer)).cleanS k [opndNum w.a])) ∧
      (acc = false → (s.act k).st = .saving → exec (.spawnAnswer core slot) s =
        .next (t.modAct k (fun a => { a.restage given with asked := none }))) ∧
      (acc = false → (s.act k).st ≠ .saving → (s.act k).inline ≠ 7 → exec (.spawnAnswer core slot) s =
        .next (t.modAct k (fun a => { a with st := .saving, save := some { why := .host, pc := (s.act k).pc } }))) ∧
      (∀ rot n, acc = false → (s.act k).st ≠ .saving → (s.act k).inline = 7 → w.b = .reg .s rot n →
        exec (.spawnAnswer core slot) s = .next ((t.modAct k (fun a => { a.restage given with asked := none })).takeFaultAt k
          { code := 0x2B, addr := (bits ((s.act k).sGet n.toNat) 0 25).zeroExtend 64 } (s.act k).pc))))

/-- R81, R141, R268, R269, R296, R410: SEND and SPAWN complete. -/
def Obligations.SendAndSpawn : Prop := SendCompletes ∧ SpawnCompletes


/-- R271, R352: BIND and UNBIND ask for the new entry, S waits, and BIND_COMPLETE writes it in the partition's handler table and
lets S go on; an entry that is no multiple of 4 or names more than an address faults with PC_ALIGN. -/
def Sys2Proof.Machine.BindCompletes : Prop :=
  (∀ (w : Operands) (s r : State), Issues 0x280 w false s r → r.deferredIn 0x280 w [0, 2] = none →
    ((r.val w.a).toNat % 4 = 0 → bits (r.val w.a) 56 8 = 0 → exec (.bind w) s =
      .next ((r.modMe (fun a => { a with asked := some (.bind ((r.val w.c).toNat % 4096) (some (r.val w.a))) })).turned 0x280 w.head)) ∧
    ((r.val w.a).toNat % 4 ≠ 0 ∨ bits (r.val w.a) 56 8 ≠ 0 →
      exec (.bind w) s = .next (r.takeFault 0x280 w { code := 0x02, addr := r.val w.a }))) ∧
  (∀ (w : Operands) (s r : State), Issues 0x281 w false s r → r.deferredIn 0x281 w [2] = none →
    exec (.unbind w) s =
      .next ((r.modMe (fun a => { a with asked := some (.bind ((r.val w.c).toNat % 4096) none) })).turned 0x281 w.head)) ∧
  (∀ (s : State) (core slot t : Nat) (e : Option Word), (s.act (8 * core + slot)).asked = some (.bind t e) → ∃ u : State,
    exec (.bindComplete core slot) s = .next u ∧ (u.part (s.act (8 * core + slot)).part).handler t = e ∧
      (∀ x, x ≠ t → (u.part (s.act (8 * core + slot)).part).handler x = (s.part (s.act (8 * core + slot)).part).handler x) ∧
      (u.act (8 * core + slot)).asked = none ∧ (u.act (8 * core + slot)).pc = (s.act (8 * core + slot)).pc + 12)

/-- R277, R278: SLOPEN asks for a route, with OBL_FULL where its sluice is open or the table is full; the question reaches the tile, and
the answer, once its bid wins the tile in a later cycle (log entry 115), grants it while the tile is empty and defined on a core of the
partition, the way has a channel free and the table has a place, or refuses it, writing the guard. SLWR writes LOC of the tile and no other byte of any memory, and
past the tile's end faults with LOCAL_BOUNDS; SLCLOSE sends the marker, and SLUICE_CLOSE_ACK closes the sluice and discharges CLOSE. -/
def Sys2Proof.Machine.SluicesComplete : Prop :=
  (∀ (w : Operands) (s r : State), Issues 0x284 w false s r → r.deferredIn 0x284 w [1] = none →
    let addr := (bits (r.val w.b) 4 25).toNat
    let tile := (bits (r.val w.b) 0 4).toNat
    ((r.me.sluice (r.sluiceNum w)).isOpen = false → r.me.oblFree.isSome = true →
      exec (.slopen w) s =
        .next ((r.modMe (fun a => { a with asked := some (.slopen w addr tile none) })).turned 0x284 w.head)) ∧
    ((r.me.sluice (r.sluiceNum w)).isOpen = true ∨ r.me.oblFree = none →
      exec (.slopen w) s = .next (r.takeFault 0x284 w { code := 0x24, addr := closeOf addr tile }))) ∧
  (∀ (s : State) (core slot addr tile : Nat) (w : Operands), (s.act (8 * core + slot)).asked = some (.slopen w addr tile none) →
    exec (.sluiceAnswer core slot false) s =
      .next (s.modAct (8 * core + slot) (fun a => { a with asked := some (.slopen w addr tile (some s.cycle)) }))) ∧
  (∀ (s : State) (core slot addr tile c : Nat) (w : Operands) (rot : Bool) (n : BitVec 6),
    (s.act (8 * core + slot)).asked = some (.slopen w addr tile (some c)) → w.a = .reg .g rot n → n ≠ 0 →
    s.bidWins core addr tile c = true →
    let fits (d : Nat) : Prop := dieOf d = dieOf core ∧ (s.core d).part = some (s.act (8 * core + slot)).part ∧
      (s.core d).left = false ∧ (s.tile d tile).size ≠ 0 ∧ (s.tile d tile).state = .empty ∧ s.channelFree core d = true ∧
      ((s.act (8 * core + slot)).oblAcquire .close (closeOf addr tile) (s.tile d tile).rank 1).isSome = true
    (∀ d, coreOfAddr addr = some d → fits d → ∃ u : State, exec (.sluiceAnswer core slot true) s = .next u ∧
      (u.act (8 * core + slot)).gGet n.toNat = .t ∧ (u.tile d tile).state = .filling ∧
      (u.act (8 * core + slot)).pc = (s.act (8 * core + slot)).pc + 12) ∧
    ((∀ d, coreOfAddr addr = some d → ¬ fits d) → exec (.sluiceAnswer core slot true) s =
      .next (s.modAct (8 * core + slot) (fun a => (a.gSet n.toNat .f).answer)))) ∧
  (∀ (w : Operands) (s r : State), Issues 0x285 w false s r →
    (if w.head.stream == .V then r.firstDeferredV (vOf w.a) else r.deferredIn 0x285 w [0]) = none →
    let x := r.me.sluice (r.sluiceNum w)
    let bs := if w.head.stream == .V then (bytesOfVec (r.vecOf w.a)).take (4 * r.vl) else leBytes 8 (r.val w.a).toNat
    let off := 64 * (r.tile x.core x.tile).base + x.off
    let at_ := 32768 * x.core + off
    (x.isOpen = true → 64 * (r.tile x.core x.tile).size < x.off + bs.length → exec (.slwr w) s =
      .next (r.takeFault 0x285 w { code := 0x08, space := 1, addr := BitVec.ofNat 64 off })) ∧
    (x.isOpen = true → x.off + bs.length ≤ 64 * (r.tile x.core x.tile).size → ∃ u : State,
      exec (.slwr w) s = .next u ∧ (∀ j, (j < at_ ∨ at_ + bs.length ≤ j) → u.locByte j = s.locByte j) ∧
      (∀ i, i < bs.length → u.locByte (at_ + i) = bs.getD i 0) ∧ u.shm = s.shm ∧ u.glb = s.glb ∧ u.host = s.host ∧
      (u.act r.cur).sluice (r.sluiceNum w) = { x with off := x.off + bs.length })) ∧
  (∀ (w : Operands) (s r : State), Issues 0x286 w false s r →
    r.earlier.any (fun p => p.gv != some false && opcField p.word == 0x285) = false →
    (r.me.sluice (r.sluiceNum w)).isOpen = true → (Ord_rel w.ord = true → r.releaseReady w.scope = true) →
    exec (.slclose w) s = .next ((r.modMe (fun a => { a with asked := some (.slclose (r.sluiceNum w)) })).turned 0x286 w.head)) ∧
  (∀ (s : State) (core slot n : Nat), (s.act (8 * core + slot)).asked = some (.slclose n) →
    exec (.sluiceCloseAck core slot) s = .next (((s.modAct (8 * core + slot) (fun a =>
      ((a.oblDischarge .close (closeOf (coreAddr ((s.act (8 * core + slot)).sluice n).core)
        ((s.act (8 * core + slot)).sluice n).tile)).setSluice n {}).answer)).tileReady
      ((s.act (8 * core + slot)).sluice n).core ((s.act (8 * core + slot)).sluice n).tile false).carryWay core
      ((s.act (8 * core + slot)).sluice n).core))

/-- R271, R277, R278, R352: BIND, UNBIND and the sluice instructions complete, with the events that answer them. -/
def Obligations.BindAndSluices : Prop := BindCompletes ∧ SluicesComplete


namespace Sys2Proof.Machine

/-- An engine command as its word enters it in a queue (R139, R240, R263): values captured in field order, the staged
obligations given, its guard as it stands: true, unresolved, or false, which discards it. -/
def State.commandOf (r : State) (opc : Nat) (w : Operands) (op : CmdOp) (z : Nat) : Cmd :=
  { op := op, id := r.nextUid, pc := r.wordPc, stamp := r.wordStamp, key := r.cur, uid := r.me.uid, part := r.me.part,
    asid := r.myPart.asid, scope := w.scope, ord := w.ord, ty := w.ty, gnum := w.head.guard.toNat, gneg := w.head.neg,
    guard := r.guardOf w.head, z := z, vals := r.captures opc w,
    obls := if (r.me.badStaged OblKind.toEngine).isSome then [] else r.me.oblStaged,
    acq := if Ord_acq w.ord then r.me.own.map (·.1) ++ r.me.deps else [] }

/-- The state with a command at the end of its queue, and no staged obligation left; a discarded command that could not take them
leaves them. -/
def State.entered (r : State) (e : Eng) (c : Cmd) : State :=
  let s : State := { r with nextUid := r.nextUid + 1 }
  let t := if (r.me.badStaged OblKind.toEngine).isSome then s else s.modMe Act.dropStaged
  t.modCore r.myCore (fun x => x.setQueue e (x.queue e ++ [c]))

/-- What an engine's queue needs to accept a word (R138, R162, R232, R240): room, no earlier word that holds the acceptance and,
unless its guard is false, no deferred operand and staged obligations of kinds that a command may take. -/
structure Accepts (opc : Nat) (w : Operands) (e : Eng) (z : Option Nat) (r : State) : Prop where
  room    : ((r.core r.myCore).queue e).length < e.room
  free    : r.acceptHeld w z = false
  defined : r.guardOf w.head ≠ some false → r.firstDeferred (sSources opc w) = none
  given   : r.guardOf w.head ≠ some false → r.me.badStaged OblKind.toEngine = none

end Sys2Proof.Machine

/-- R139, R232, R240, R249, R302: MMA, MMZ and MMDRAIN are accepted, whatever their guards: an MMA takes a snapshot of the
T4 table, an MMDRAIN's engine link is judged, and one that names a message by an entry that cannot be faults with PC_ALIGN. -/
def Sys2Proof.Machine.MatrixCommandsAccepted : Prop :=
  (∀ (w : Operands) (s r : State), Enters 0x300 w false s r → Accepts 0x300 w .matrix (some (opndNum w.a)) r →
    exec (.mma w) s = .next ((r.entered .matrix
      { r.commandOf 0x300 w .mma (opndNum w.a) with t4 := (r.core r.myCore).t4 }).issued 0x300 w)) ∧
  (∀ (w : Operands) (s r : State), Enters 0x303 w false s r → Accepts 0x303 w .matrix (some (opndNum w.a)) r →
    exec (.mmz w) s = .next ((r.entered .matrix (r.commandOf 0x303 w .mmz (opndNum w.a))).issued 0x303 w)) ∧
  (∀ (w : Operands) (s r : State), Enters 0x301 w false s r → Accepts 0x301 w .matrix (some (opndNum w.a)) r →
    (r.guardOf w.head = some false ∨ badEntry (nth 0 (r.captures 0x301 w) 1) = none →
      exec (.mmdrain w) s = .next (((r.entered .matrix (r.commandOf 0x301 w .mmdrain (opndNum w.a))).drainLink r.myCore
        (r.commandOf 0x301 w .mmdrain (opndNum w.a))).issued 0x301 w)) ∧
    (∀ f, r.guardOf w.head = some true → badEntry (nth 0 (r.captures 0x301 w) 1) = some f →
      exec (.mmdrain w) s = .next (r.takeFault 0x301 w f)))

/-- R110, R143, R250, R252, R254, R360: CPY and CPYG are accepted. A LOC tile of their core as the source goes to draining once it
is ready, a filling one makes the word wait, any other gives ORPHAN_WAIT, and one at or above the floor RANK_ORDER; without a
true guard the command is accepted as it is. COLAG and COLRS are accepted, and begin to add their shard units where they name
signal blocks, whatever their guards. -/
def Sys2Proof.Machine.CopyCommandsAccepted : Prop :=
  (∀ (opc : Nat) (op : CmdOp) (mk : Operands → Instr), (opc = 0x304 ∧ op = .cpy ∧ mk = .cpy) ∨ (opc = 0x305 ∧ op = .cpyg ∧ mk = .cpyg) →
    ∀ (w : Operands) (s r : State), Enters opc w (s.copyWaits w) s r → Accepts opc w .copy none r →
      (s.guardOf w.head ≠ some true ∨ r.sourceTile w = none →
        exec (mk w) s = .next ((r.entered .copy (r.commandOf opc w op 0)).issued opc w)) ∧
      (∀ i, s.guardOf w.head = some true → r.sourceTile w = some i →
        let x := r.tile r.myCore i
        (r.rankLegal r.myCore r.me none x.rank = false →
          exec (mk w) s = .next (r.takeFault opc w (r.rankOrder (BitVec.ofNat 64 i) x.rank))) ∧
        (r.rankLegal r.myCore r.me none x.rank = true →
          (x.state = .ready → ∃ u : State, exec (mk w) s = .next (u.issued opc w) ∧
            (u.core r.myCore).copyQ = (r.core r.myCore).copyQ ++ [{ r.commandOf opc w op 0 with drains := true }] ∧
            u.tile r.myCore i = { x with state := .draining }) ∧
          (x.state = .filling → exec (mk w) s = .next (r.enterWait (.tile r.myCore i .source) x.rank)) ∧
          (x.state ≠ .ready → x.state ≠ .filling →
            exec (mk w) s = .next (r.takeFault opc w (orphanWait (BitVec.ofNat 64 i) x.rank)))))) ∧
  (∀ (opc : Nat) (op : CmdOp) (mk : Operands → Instr), (opc = 0x306 ∧ op = .colag ∧ mk = .colag) ∨ (opc = 0x307 ∧ op = .colrs ∧ mk = .colrs) →
    ∀ (w : Operands) (s r : State), Enters opc w false s r → Accepts opc w .col none r →
      let c := r.commandOf opc w op 0
      let t := r.entered .col c
      exec (mk w) s = .next ((if c.sigBase = 0 ∨ t.colActs c = false then t
        else t.acceptMore t.myCore ((t.core t.myCore).colQ.length - 1) { c with phase := .accepting 0 }).issued opc w))

/-- R110, R139, R143, R232, R240, R249, R250, R252, R254, R302, R360: MMA, MMZ, MMDRAIN, CPY, CPYG, COLAG and COLRS are accepted. -/
def Obligations.EngineCommands : Prop := MatrixCommandsAccepted ∧ CopyCommandsAccepted


/-- R108 to R110, R191, R247, R257, R417 to R419: TLDEF defines or undefines an empty tile, or faults with TILE_BUSY, LOCAL_BOUNDS or
RANK_RESERVED; TLQRY reads an entry; MMROW reads a row-progress record, and past the window faults with ACC_BOUNDS; TLSET
moves a tile through its states, waits at the entry's rank for one that is filling, and faults with TILE_UNDEFINED, TILE_STATE,
OBL_FULL, RANK_ORDER or ORPHAN_WAIT where its state does not allow it. -/
def Sys2Proof.Machine.TileWordsComplete : Prop :=
  (∀ (w : Operands) (s r : State), Issues 0x312 w false s r → r.deferredIn 0x312 w [0, 2] = none →
    let i := (r.val w.c).toNat % 16
    let base := (bits (r.val w.a) 23 9).toNat
    let size := (bits (r.val w.a) 13 10).toNat
    let rank := bits (r.val w.a) 32 32
    ((r.tile r.myCore i).state ≠ .empty → exec (.tldef w) s = .next (r.takeFault 0x312 w (tileBusyFault i (r.tile r.myCore i)))) ∧
    ((r.tile r.myCore i).state = .empty →
      (size = 0 → exec (.tldef w) s = .next ((r.setTile r.myCore i {}).issued 0x312 w)) ∧
      (size ≠ 0 → 512 < base + size →
        exec (.tldef w) s = .next (r.takeFault 0x312 w { code := 0x08, space := 1, addr := BitVec.ofNat 64 (64 * base) })) ∧
      (size ≠ 0 → base + size ≤ 512 → exec (.tldef w) s = .next (if reservedRank rank
        then r.takeFault 0x312 w { code := 0x22, addr := rank.zeroExtend 64 }
        else (r.setTile r.myCore i { rank := rank, base := base, size := size }).issued 0x312 w)))) ∧
  ReadWord .tlqry 0x313 [2] (fun r w => (r.tile r.myCore ((r.val w.c).toNat % 16)).word) ∧
  (∀ (w : Operands) (s r : State), Issues 0x302 w false s r → r.deferredIn 0x302 w [2] = none →
    exec (.mmrow w) s = .next (if 7 < (r.val w.c).toNat
      then r.takeFault 0x302 w { code := 0x0C, space := 3, addr := r.val w.c }
      else (r.wroteS (opndNum w.a) (tget {} (r.val w.c).toNat (r.core r.myCore).rows).word).issued 0x302 w)) ∧
  (∀ (w : Operands) (s r : State), Issues 0x314 w (s.tlSerial w) s r → r.deferredIn 0x314 w [2] = none →
    let i := (r.tlArgs w).1
    let want := (r.tlArgs w).2
    let x := r.tile r.myCore i
    (x.size = 0 → exec (.tlset w) s = .next (r.takeFault 0x314 w (tileUndefined i))) ∧
    (x.size ≠ 0 → want = 1 →
      (x.state ≠ .empty → exec (.tlset w) s = .next (r.takeFault 0x314 w (tileStateFault i 1))) ∧
      (x.state = .empty → exec (.tlset w) s = .next (match r.me.oblAcquire .tile (tileHandle i) x.rank 1 with
        | none => r.takeFault 0x314 w { code := 0x24, addr := tileHandle i }
        | some a => ((r.modMe (fun _ => a)).setTile r.myCore i
          { x with state := .filling, owed := true, by_ := .act r.me.uid }).issued 0x314 w))) ∧
    (x.size ≠ 0 → want = 2 → exec (.tlset w) s = .next (if x.state = .filling ∧ r.me.oblUnits .tile (tileHandle i) ≠ 0
      then ((r.modMe (fun a => a.oblDischarge .tile (tileHandle i))).tileReady r.myCore i false).issued 0x314 w
      else r.takeFault 0x314 w (tileStateFault i 2))) ∧
    (x.size ≠ 0 → want = 0 ∨ want = 3 → r.rankLegal r.myCore r.me none x.rank = false →
      exec (.tlset w) s = .next (r.takeFault 0x314 w (r.rankOrder (BitVec.ofNat 64 i) x.rank))) ∧
    (x.size ≠ 0 → want = 0 ∨ want = 3 → r.rankLegal r.myCore r.me none x.rank = true →
      (x.state = .ready → exec (.tlset w) s = .next ((r.setTile r.myCore i
        { x with state := if want = 0 then .empty else .draining }).issued 0x314 w)) ∧
      (x.state = .draining → want = 0 → exec (.tlset w) s = .next ((r.setTile r.myCore i { x with state := .empty }).issued 0x314 w)) ∧
      (x.state = .filling → exec (.tlset w) s = .next ((r.enterWait
        (.tile r.myCore i (if want = 0 then .empty else .draining)) x.rank).turned 0x314 w.head)) ∧
      (x.state = .empty ∨ (x.state = .draining ∧ want = 3) →
        exec (.tlset w) s = .next (r.takeFault 0x314 w (orphanWait (BitVec.ofNat 64 i) x.rank)))))

/-- R231, R232, R258 to R261, R398, R416: RPT opens a repetition, of count 0 where its guard is false; RPTEND with none open has no
effect; TBLLD loads the T4 table; TBLX looks a register pair up in it, in the lanes of its mask. -/
def Sys2Proof.Machine.RepetitionAndTableWords : Prop :=
  (∀ (w : Operands) (s r : State) (on : Bool), s.mayIssue = true → s.iss = .front → s.vlgetPending 0x308 w = false →
    s.lateBusy 0x308 w = false → s.queueRoom 0x308 w = true → s.guardOf w.head = some on → s.unparkSources 0x308 w = r → r.poisonedReg 0x308 w = none →
    (on = true → r.deferredIn 0x308 w [2] = none) →
    let c := (r.val w.c).toNat
    exec (.rpt w) s = .next ((r.modMe (fun a => { a with
      counted := none
      rpt := some { strm := w.head.stream, head := w.head, pc := a.pc, base := c / 8192 % 64, stagger := c / 256 % 32,
                    left := if on then c % 256 else 0 } })).issued 0x308 w)) ∧
  (∀ (w : Operands) (s : State), s.mayIssue = true → exec (.rptend w) s = .next s.advance) ∧
  (∀ (w : Operands) (s r : State), Issues 0x310 w false s r → r.firstDeferredV (vOf w.a) = none →
    r.earlier.any (fun p => p.strm == .E && p.gv != some false) = false → r.accepting = false →
    exec (.tblld w) s = .next ((r.modCore r.myCore (fun c =>
      { c with t4 := (upTo 16).map (fun i => bits ((r.vecOf w.a).lane (i / 4)) (8 * (i % 4)) 8) })).issued 0x310 w)) ∧
  (∀ (w : Operands) (s r : State), Issues 0x311 w false s r → r.firstDeferredV (vOf w.b) = none →
    r.firstDeferred (sOf 0x311 2 w.c) = none →
    let k := (r.val w.c).toNat % 8
    exec (.tblx w) s = .next ((r.putLanes w.a (r.active w.msk) (fun i => nth 0 (PageFmt.t4.lanes w.ty (r.core r.myCore).t4
      (leBytes 4 ((r.vecOf w.b).lane (2 * k)).toNat ++ leBytes 4 ((r.vecOf w.b).lane (2 * k + 1)).toNat)) i)).issued 0x311 w))

/-- R259 to R261: the body of a repetition `r` that is open at the front end. A word of its stream that neither ends it nor is the
33rd is issued by pass 0, with its rotated numbers, and joins the body once the front end has gone past it; with no pass to come it only
joins. RPTEND of the stream, a 33rd word, an RPT, and an END whose guard is true close the body; the front end goes past RPTEND alone. -/
def Sys2Proof.Machine.RepetitionCapture : Prop :=
  ∀ (s : State) (want : Option Stream) (r : Rpt) (w : IWord) (i : Instr), s.me.rpt = some r → wantedBy want (streamField w) = true →
    decodeWord (r.takes w) w = .ok i →
    let put (t : State) (x : Option Rpt) (pc : Word) : State := t.modMe (fun a => { a with rpt := x, pc := pc })
    (r.takes w = true → opcField w ≠ 0x093 → opcField w ≠ 0x308 → opcField w ≠ 0x309 → r.body.length < 32 →
      let r' := { r with body := r.body ++ [(s.me.pc, w)] }
      (r.left = 0 → s.decoded want w = .next (put s (some r') (s.me.pc + 12))) ∧
      (∀ j t, r.left ≠ 0 → decodeWord false (rotateWord r.base w) = .ok j → exec j s = .next t →
        s.decoded want w = .next (if (t.act s.cur).pc = s.me.pc + 12
          then t.modAct s.cur (fun a => { a with rpt := some r' }) else t))) ∧
    (r.takes w = true → opcField w = 0x309 → s.decoded want w = .next (put s r.close (s.me.pc + 12))) ∧
    (r.takes w = true → opcField w ≠ 0x093 → opcField w ≠ 0x308 → opcField w ≠ 0x309 → 32 ≤ r.body.length →
      s.decoded want w = .next (put s r.close s.me.pc)) ∧
    (opcField w = 0x308 → s.decoded want w = .next (put s r.close s.me.pc)) ∧
    (∀ x, i = .endOp x → s.decoded want w = if s.guardOf x.head = some true then .next (put s r.close s.me.pc) else exec i s) ∧
    (r.takes w = false → opcField w ≠ 0x308 → opcField w ≠ 0x093 → s.decoded want w = exec i s)

/-- R259, R260: the passes of a closed body. The slot takes the body's words in order, each rotated for its pass and at its own
address, and the next one once it has been taken; the front end stands meanwhile. Pass p, counted from pass 0 which the capture has
issued, rotates by BASE + p × STAGGER; after COUNT passes, of a body that is not empty, the repetition is over. -/
def Sys2Proof.Machine.RepetitionPasses : Prop :=
  (∀ (s : State) (want : Option Stream) (r : Rpt) (pc : Word) (w : IWord) (j : Instr) (t : State),
    s.me.st = .running → s.me.rpt = some r → r.scan = none → r.closed = true → wantedBy want r.strm.code.toNat = true →
    r.body[r.at_]? = some (pc, w) → decodeWord false (rotateWord r.base w) = .ok j →
    exec j (s.modMe (fun a => { a with pc := pc })) = .next t →
    s.front want = .next (t.modAct s.cur (fun a =>
      { a with pc := s.me.pc, rpt := if a.pc = pc + 12 then r.next else some r }))) ∧
  (∀ r : Rpt, (r.left ≤ 1 ∨ r.body = [] → r.close = none) ∧
    (∀ p k, r.body ≠ [] → p + 1 < r.left → k < r.body.length →
      (fun x : Option Rpt => x.bind Rpt.next)^[p * r.body.length + k] r.close =
        some { r with closed := true, left := r.left - 1 - p, base := (r.base + (p + 1) * r.stagger) % 64, at_ := k }) ∧
    (∀ n, (r.left - 1) * r.body.length ≤ n → (fun x : Option Rpt => x.bind Rpt.next)^[n] r.close = none))

/-- R46, R47, R260: a rotating field's number goes on by the rotation modulo the size of its file (64 for s, 32 for v, 8 for z), with ROT 0;
the rest of the field, and a field that does not rotate, stay as they are. -/
def Sys2Proof.Machine.RotatedFields : Prop :=
  ∀ (b : Nat) (f : BitVec 21),
    (kindOf f ≠ 0 ∨ rotOf f = false → rotateField b f = f) ∧
    (kindOf f = 0 → rotOf f = true → rotOf (rotateField b f) = false ∧ kindOf (rotateField b f) = 0 ∧
      fileCode (rotateField b f) = fileCode f ∧ bits (rotateField b f) 0 9 = bits f 0 9 ∧
      (fileCode f = 0 → (numOf (rotateField b f)).toNat = ((numOf f).toNat + b) % 64) ∧
      (fileCode f = 1 → (numOf (rotateField b f)).toNat = ((numOf f).toNat + b) % 32) ∧
      (2 ≤ fileCode f → (numOf (rotateField b f)).toNat = ((numOf f).toNat + b) % 8))

/-- R108 to R110, R231, R257 to R261, R416 to R419: TLDEF, TLQRY, TLSET, MMROW, RPT, RPTEND, TBLLD and TBLX complete, and a repetition
that is open is captured and issued pass by pass. -/
def Obligations.TilesAndRepetition : Prop :=
  TileWordsComplete ∧ RepetitionAndTableWords ∧ RepetitionCapture ∧ RepetitionPasses ∧ RotatedFields


/-- R190, R193, R205, R355, R420: BRK faults with BREAKPOINT and TRAP with TRAP_REQUEST, both Held: ADDR is n, PC is the word, which
has not issued; FAULTINFO holds the code, and the slot stops until its context is saved. Nothing else changes, but that a fault of
a later word that the slot was being saved for gives way (R194), and the slot asks for no page any more (R173). -/
def Obligations.BreakAndTrap : Prop :=
  ∀ (opc code : Nat) (mk : Operands → Instr), (opc = 0x380 ∧ code = 0x05 ∧ mk = .brk) ∨ (opc = 0x387 ∧ code = 0x06 ∧ mk = .trap) →
    ∀ (w : Operands) (s r : State), Issues opc w false s r → r.iss = .front → w.head.stream = .S →
      let f : FaultReq := { code := code, addr := r.val w.c }
      exec (mk w) s = .next (((r.dropFault r.cur).forgetKey r.cur).modAct r.cur (fun a =>
        { a with st := .saving, faultInfo := faultInfoOf f .held, save := some { why := .fault, fault := some f, pc := r.me.pc } }))

/-- R387, R393, R411, R420 to R422, R223: MFC, MTC, STAMP, TRACE, PARK, UNPARK and TRIG complete. -/
def Obligations.SystemWordsComplete : Prop :=
  (∀ (w : Operands) (s r : State), Issues 0x381 w false s r → (r.ctlNum w = 0x0B → r.flagsWait 0x0B = false) →
    exec (.mfc w) s = .next ((r.wroteS (opndNum w.a) (r.ctlRead (r.ctlNum w))).issued 0x381 w)) ∧
  (∀ (w : Operands) (s r : State), Issues 0x382 w false s r → r.deferredIn 0x382 w [0] = none → r.flagsWait (r.ctlNum w) = false →
    exec (.mtc w) s = .next (if r.ctlNum w = 0x11 ∧ r.me.privileged = false
      then r.takeFault 0x382 w { code := 0x03, addr := 0x11, info := r.val w.a }
      else (r.ctlWrite (r.ctlNum w) (r.val w.a)).issued 0x382 w)) ∧
  ReadWord .stamp 0x385 [2] (fun r w => if (r.val w.c).getLsbD 0 then r.me.stamp else r.time) ∧
  (∀ (w : Operands) (s r : State), Issues 0x386 w false s r → r.deferredIn 0x386 w [0] = none →
    exec (.trace w) s = .next ((if (r.core r.myCore).trcctl.getLsbD 0 then r.trace 0x05 r.cur r.me (r.val w.a)
      (wordOf [(32, (bits (r.core r.myCore).trcctl 32 8).toNat), (0, (bits (r.val w.c) 0 19).toNat)]) else r).issued 0x386 w)) ∧
  (∀ (w : Operands) (s r : State) (isV : Bool) (n : Nat), Issues 0x383 w false s r → r.deferredIn 0x383 w [2] = none →
    isV = (match w.a with | .reg .v _ _ => true | _ => false) → n = opndNum w.a → r.parkWaits isV n = false →
    ((r.me.spillOf isV n).place ≠ .none → exec (.park w) s = .next (r.issued 0x383 w)) ∧
    ((r.me.spillOf isV n).place = .none → (r.val w.c).toNat % parkBytes isV = 0 → (r.val w.c).toNat < 2 ^ 15 →
      (∀ o ∈ from_ (r.val w.c).toNat (parkBytes isV), r.me.locWrite o = true) →
      exec (.park w) s = .next ((r.parkAt r.cur isV n (r.val w.c).toNat).issued 0x383 w)) ∧
    ((r.me.spillOf isV n).place = .none → ((r.val w.c).toNat % parkBytes isV ≠ 0 ∨ 2 ^ 15 ≤ (r.val w.c).toNat ∨
      ∃ o ∈ from_ (r.val w.c).toNat (parkBytes isV), r.me.locWrite o = false) →
      exec (.park w) s = .next (r.takeFault 0x383 w { code := 0x08, space := 1, addr := r.val w.c }))) ∧
  (∀ (w : Operands) (s r : State), Issues 0x384 w false s r →
    exec (.unpark w) s = .next ((r.unparkAt r.cur (match w.a with | .reg .v _ _ => true | _ => false) (opndNum w.a)).issued 0x384 w)) ∧
  (∀ (w : Operands) (s r : State), Issues 0x388 w false s r → r.releaseReady .mod = true → r.endedDone r.myCore = true →
    exec (.trig w) s = .next ((r.modCore r.myCore (fun c => { c with triggered := true, ended := [] })).issued 0x388 w))

/-- R118, R393, R422: PARK and UNPARK give the value back: an s register parked at a column, a bank register or LOC, and brought
back before anything else writes its place, holds the value and the deferral bit that it had. -/
def Obligations.ParkedValueReturns : Prop :=
  ∀ (s : State) (k n fall : Nat), 0 < n → n < 64 →
    let t := (s.parkAt k false n fall).unparkAt k false n
    (t.act k).sGet n = (s.act k).sGet n ∧ (t.act k).sDef n = (s.act k).sDef n ∧ ((t.act k).spillOf false n).place = .none

/-! ## Events: activations, messages and stages -/

/-- R72, R191: where the front end of a running slot, in a repetition too, is stalled on queue registers or on a full decode queue,
the oldest word of each decode queue is stalled on a queue register, and no load is still to be bound, STREAM_DEADLOCK is
taken at the oldest word, with the registers as a mask. -/
def Sys2Proof.Machine.StreamDeadlockTaken : Prop :=
  ∀ (s : State) (core slot : Nat) (qs : List Nat), let a := s.act (8 * core + slot)
    a.st = .running → a.asked = none → a.late = [] → s.frontStuck (8 * core + slot) = some qs →
    (∀ p ∈ a.streamHeads, a.stuckAt p ≠ []) → (qs ≠ [] ∨ a.streamHeads ≠ []) →
    let info := BitVec.ofNat 64 (queueMask (qs ++ a.streamHeads.flatMap a.stuckAt))
    (a.pend = [] → exec (.streamDeadlock core slot) s =
      .next (s.takeFaultAt (8 * core + slot) { code := 0x04, info := info } a.pc)) ∧
    (∀ p r, a.pend = p :: r → exec (.streamDeadlock core slot) s =
      .next (s.takeFaultAt (8 * core + slot) { code := 0x04, info := info, strm := streamNum p.strm } p.pc (some p.seq)))

/-- R63, R77: a STARTING slot becomes RUNNING; a slot of a lower class that has been ready in a port for 256 cycles without
issuing there is promoted for it. -/
def Sys2Proof.Machine.SlotEvents : Prop :=
  (∀ (s : State) (core slot : Nat), (s.act (8 * core + slot)).st = .starting →
    exec (.slotStartDone core slot) s =
      .next (s.modAct (8 * core + slot) (fun a => { a with st := .running, lastIssue := s.cycle }))) ∧
  (∀ (s : State) (core slot c : Nat) (port : Stream), (s.act (8 * core + slot)).cls ≠ .system →
    tget none slot (s.port core port).ready = some c → c + 256 ≤ s.cycle → port ∉ (s.act (8 * core + slot)).promoted →
    exec (.starvationPromotion core slot port) s =
      .next (s.modAct (8 * core + slot) (fun a => { a with promoted := a.promoted ++ [port] })))

/-- The events of slots and of blocked streams. -/
def Obligations.SlotAndStreamEvents : Prop := StreamDeadlockTaken ∧ SlotEvents


namespace Sys2Proof.Machine

/-- What a dispatcher does with the message that it takes (R79, R80, R148, R272, R322): it starts on the slot that is there for it;
with no slot of its class free, a waiting activation is saved for it; with one free that it may not have, in replay, it stays;
where its type is unbound it moves to the bind-wait area. -/
def Dispatched (core : Nat) (at_ : At) (m : Msg) (event : Bool) (s t : State) : Prop :=
  let cls : Cls := if m.vn == .system then .system else .handler
  (∀ e k, s.entryFor m = some e → s.slotFor core cls m.logKey = some k → t = (s.takeMsg core at_).startMessage k m e) ∧
  (∀ e, s.entryFor m = some e → s.slotFor core cls m.logKey = none →
    ((∀ k ∈ classSlots core cls, (s.act k).st ≠ .free) → t = s.saveWaiter core (classSlots core cls)) ∧
    ((∃ k ∈ classSlots core cls, (s.act k).st = .free) → t = s)) ∧
  (s.entryFor m = none → t = (s.takeMsg core at_).toBindWait core m event)

end Sys2Proof.Machine

/-- R79, R80, R99, R209, R272: DISPATCH takes the first system message; where that has no slot, it goes on with the handler class,
as where none waits: with the first candidate, unless a restoration goes first or it is a spawn request. A core that has left
gives its messages up. -/
def Sys2Proof.Machine.DispatchCompletes : Prop :=
  (∀ (s u : State) (core : Nat) (at_ : At) (m : Msg), (s.core core).left = false → s.mayStart core = true → u = s.readLog core →
    u.systemNext core = some (at_, m) → m.vn = .system →
    (u.entryFor m = none ∨ u.slotFor core .system m.logKey ≠ none →
      ∃ t : State, exec (.dispatch core) s = .next t ∧ Dispatched core at_ m false u t) ∧
    (u.entryFor m ≠ none → u.slotFor core .system m.logKey = none → ∃ t : State,
      exec (.dispatch core) s = .next (t.dispatchHandler core) ∧ Dispatched core at_ m false u t)) ∧
  (∀ (s u : State) (core : Nat), (s.core core).left = false → s.mayStart core = true → u = s.readLog core →
    u.systemNext core = none →
    (u.restoreFirst core = true ∨ u.candidate core = none → exec (.dispatch core) s = .next u) ∧
    (∀ at_ m, u.restoreFirst core = false → u.candidate core = some (at_, m) →
      (m.isSpawn = true → exec (.dispatch core) s = .next u) ∧
      (m.isSpawn = false → ∃ t : State, exec (.dispatch core) s = .next t ∧
        Dispatched core at_ m (match at_ with | .bind _ => u.ltCore core && m.isEvent | .buf _ => false) u t))) ∧
  (∀ (s : State) (core : Nat), (s.core core).left = true →
    (∀ m r, (s.core core).inQ = m :: r →
      exec (.dispatch core) s = .next ((s.modCore core (fun c => { c with inQ := r })).undeliverable m)) ∧
    (∀ b r, (s.core core).inQ = [] → (s.core core).bindWait = b :: r →
      exec (.dispatch core) s = .next ((s.modCore core (fun c => { c with bindWait := r })).deadLetter core b.msg departedCore 0)))

/-- R139, R272, R273, R322: the first message of the bind-wait area whose time is over and whose type is unbound goes to the
dead-message queue; one that waits for room there is written once a record is free; a record is dispatched again or its obligations
discharged; a replay that has waited too long ends with a DIVERGE record. -/
def Sys2Proof.Machine.WaitingMessages : Prop :=
  (∀ (s : State) (core i : Nat) (b : BindWaiting), (s.core core).covered = false → (s.core core).rmode ≠ .replay →
    (s.core core).bindWait.zipIdx.find? (fun x => decide ((s.part x.1.msg.part).bindWait ≤ s.cycle - x.1.since) &&
      (s.entryFor x.1.msg).isNone) = some (b, i) → exec (.bindwaitExpiry core) s =
      .next ((s.modCore core (fun c => { c with bindWait := dropNth c.bindWait i })).deadLetter core b.msg unboundMessage 0)) ∧
  (∀ (s : State) (core code detail i : Nat) (m : Msg) (r : List (Msg × Nat × Nat)),
    (s.core core).deadWait = (m, code, detail) :: r → (s.part m.part).deadFree = some i →
    exec (.deadQueueRetry core) s =
      .next ((s.modCore core (fun c => { c with deadWait := r })).writeDead core i m code detail)) ∧
  (∀ (s : State) (part i : Nat) (m : Msg), tget none i (s.part part).deadRecs = some m →
    exec (.deadMessageRedispatch part i false) s = .next { (s.modPart part (fun p =>
      { p with deadRecs := tset none i none p.deadRecs })) with
      msgs := s.msgs ++ [{ m with here := m.goal, numbered := m.spread || !m.mcast }] } ∧
    exec (.deadMessageRedispatch part i true) s = .next ((s.modPart part (fun p =>
      { p with deadRecs := tset none i none p.deadRecs })).poisonObls ((coreOfAddr m.dest).getD 0) part m.stamp m.given)) ∧
  (∀ (s u : State) (core i : Nat) (w0 w1 : Word), u = s.readLog core → (u.core core).rmode = .replay →
    u.logNext core = some (i, w0, w1) → (u.core core).lastDisp + 2 ^ 24 ≤ u.cycle → (u.core core).covered = false →
    (∀ x ∈ u.waitingKeys core, u.logged core x = none) → u.waitingKeys core ≠ [] →
    exec (.replayTimeout core) s = .next ((u.divergeCore core 0x01 w1).toNormal core))

/-- The events by which messages reach a slot or wait for one. -/
def Obligations.DispatchEvents : Prop := DispatchCompletes ∧ WaitingMessages


/-- R80, R81, R99, R321, R322, R410: the first spawn request of an input buffer starts its child on a free slot, where it is the next
candidate, and is refused where no slot is free or the core has left; on a departing core it waits until then (log entry 22); in
replay, the first one that the log names, as the log has it. -/
def Sys2Proof.Machine.SpawnRequestCompletes : Prop :=
  (∀ (s u : State) (core i caller id : Nat) (m : Msg) (inh : Option Rank) (cls : Cls), u = s.readLog core →
    (u.core core).rmode ≠ .replay → m.kind = .spawnReq caller inh cls id → (u.core core).inQ[i]? = some m →
    (∀ x ∈ (u.core core).inQ.take i, x.isSpawn = false) →
    (((u.core core).left = true ∨ ((u.core core).departing = none ∧ u.freeSlotFor core cls = none)) →
      exec (.spawnRequest core) s = .next (u.refuseSpawn core i m)) ∧
    ((u.core core).left = false → (u.core core).departing ≠ none → exec (.spawnRequest core) s = .next u) ∧
    (∀ k, u.mayStart core = true → u.freeSlotFor core cls = some k → (∀ x, u.candidate core = some x → x.2 = m) →
      u.restoreFirst core = false → exec (.spawnRequest core) s = .next (u.acceptSpawn core i k m inh cls))) ∧
  (∀ (s u : State) (core i caller id : Nat) (m : Msg) (inh : Option Rank) (cls : Cls), u = s.readLog core →
    (u.core core).rmode = .replay → m.kind = .spawnReq caller inh cls id → (u.core core).inQ[i]? = some m →
    (u.logged core m.logKey).isSome = true → (∀ x ∈ (u.core core).inQ.take i, x.isSpawn = true → u.logged core x.logKey = none) →
    (u.replayAllows core m.logKey 2 = true → exec (.spawnRequest core) s = .next (u.refuseSpawn core i m)) ∧
    (∀ k, u.replayAllows core m.logKey 2 = false → (u.core core).left = false → (u.core core).departing = none →
      u.slotFor core cls m.logKey = some k → u.mayStart core = true → u.restoreFirst core = false →
      exec (.spawnRequest core) s = .next (u.acceptSpawn core i k m inh cls)))

/-- R148, R292, R293, R309: on a local-time core where no event activation runs, the lowest event LTWAIT whose condition holds
completes, or is restored from its frame, when the head is not due or is not lower; a head that is due and lower is dispatched where
a slot is free for it, and LVT rises to its stamp; with none free, a waiting activation is saved for it. -/
def Sys2Proof.Machine.EventDispatchCompletes : Prop :=
  ∀ (s u : State) (core : Nat), s.ltCore core = true → u = ((s.readLog core).freeTimers core).demandHeld core →
    u.eventRuns core = false →
    (∀ t k framed, u.eventTimer core = some (t, k, framed) → (u.headDue core = false ∨ t ≤ u.headStamp core) →
      exec (.eventDispatch core) s = .next (if framed then u.restoreTimer core k else u.endTimeWait core k t)) ∧
    (∀ m i, u.headDue core = true → (∀ x, u.eventTimer core = some x → u.headStamp core < x.1) →
      u.mayStart core = true → u.restoreFirst core = false → u.head core = some (m, i) →
      u.replayAllows core m.logKey 1 = true →
      (∀ k, m.vn ≠ .system → u.slotFor core .handler m.logKey = some k → ∃ t : State,
        exec (.eventDispatch core) s = .next (t.raiseLvt core m.stamp.toNat) ∧ Dispatched core (.buf i) m true u t) ∧
      (u.slotFor core .handler m.logKey = none → (∀ k ∈ classSlots core .handler, (u.act k).st ≠ .free) →
        exec (.eventDispatch core) s = .next (u.saveWaiter core (classSlots core .handler))))

/-- The events by which a spawn request and a time-ordered message reach a slot. -/
def Obligations.SpawnAndEventDispatch : Prop := SpawnRequestCompletes ∧ EventDispatchCompletes


/-- R83, R84, R86, R92: FIRING_START of a stage whose queues and a core allow a firing starts it there; REBALANCE_TICK moves a core
of the donor to the recipient, at most once in 4,096 cycles. -/
def Sys2Proof.Machine.StageEvents : Prop :=
  (∀ (s u : State) (part stage c k : Nat) (g : Stage), (s.part part).stages[stage]? = some g → (s.part part).live = true →
    (g.decl.ins = [] → (s.part part).closed = false) → (s.part part).queuesReady g = true →
    u = g.cores.foldl (fun s c => s.readLog c) s →
    u.firingCore (g.cores.filter (fun c => u.firingOn c (firingKey stage g.next) &&
      !(g.decl.ins.isEmpty && (s.part part).lt && g.fired.contains c))) = some c →
    u.slotFor c .firing (firingKey stage g.next) = some k →
    exec (.firingStart part stage) s = .next (u.startFiring part stage c k g)) ∧
  (∀ (s u : State) (part r d c : Nat), (s.part part).live = true → (s.part part).lastRebal + 4096 ≤ s.cycle →
    (∀ x ∈ (s.part part).stages.flatMap (·.cores), (s.core x).covered = false) →
    u = s.modPart part (fun p => { p with lastRebal := s.cycle }) →
    u.recipient part = some r → u.donor part r = some d → u.moveCore part d = some c →
    exec (.rebalanceTick part) s = .next ((u.modCore c (fun x => { x with moving := some r })).joinStage c))

/-- R168, R169, R265, R267, R279, R280 to R285: a message that no earlier one holds back, and no full input buffer ahead of it on its
way, leaves its sending unit with its SEQ; takes
a credit to the next die and crosses to it; where it is a multicast, is replicated; and enters the input buffer of its
destination, or waits for room there. A queued SEND or SPAWN goes on once there is room; credits return; an audit, every 65,536
cycles, holds new sends until the way is clear, and records a difference; an idle router gates, and wakes; a corrupted flit
changes nothing. -/
def Obligations.FabricEvents : Prop :=
  (∀ (s : State) (i : Nat) (m : Msg), s.msgs[i]? = some m → (∀ x ∈ s.msgs.take i, s.blocks x m = false) →
    s.heldUp i m = false →
    (m.numbered = false → exec (.messageDelivery i) s = .next (s.leave i m)) ∧
    (m.numbered = true → m.credit = true → exec (.messageDelivery i) s = .next (s.passOn i m)) ∧
    (m.numbered = true → m.credit = false → m.here ≠ m.goal →
      (32 ≤ s.inUse m.here m.goal m.vn ∨ s.auditing m.here m.goal = true → exec (.messageDelivery i) s = .next s) ∧
      (s.inUse m.here m.goal m.vn < 32 → s.auditing m.here m.goal = false → ∃ t : State, exec (.messageDelivery i) s = .next t ∧
        t.msgs = setNth s.msgs i { m with queued := false, credit := true, crossed := s.cycle })) ∧
    (m.numbered = true → m.credit = false → m.here = m.goal →
      (∀ x, m.spread = false → m.at_ = some x → exec (.messageDelivery i) s = .next (s.replicate i m x)) ∧
      (m.spread = true ∨ m.at_ = none →
        (∀ c, m.doomed = false → s.destCore m = some c → ((s.core c).inQ.filter (fun x => x.vn == m.vn)).length < 32 →
          ∃ t : State, exec (.messageDelivery i) s = .next t ∧ t.msgs = dropNth s.msgs i ∧ (t.core c).inQ = (s.core c).inQ ++
            [{ m with arrived := s.cycle, stuck := false, counted := m.counted || (s.ltCore c && m.isEvent) }]) ∧
        (∀ c, m.doomed = false → s.destCore m = some c → 32 ≤ ((s.core c).inQ.filter (fun x => x.vn == m.vn)).length →
          ∃ t : State, exec (.messageDelivery i) s = .next t ∧ t.msgs = setNth s.msgs i { m with stuck := true } ∧ t.cores = s.cores) ∧
        (m.doomed = false → s.destCore m = none →
          exec (.messageDelivery i) s = .next ({ s with msgs := dropNth s.msgs i }.undeliverable m)) ∧
        (m.doomed = true → exec (.messageDelivery i) s = .next ({ s with msgs := dropNth s.msgs i }.poisonObls
          (((coreOfAddr m.dest).orElse (fun _ => coreOfAddr m.src)).getD 0) m.part m.stamp m.given))))) ∧
  (∀ (s : State) (core slot opc : Nat) (w : Operands), (s.act (8 * core + slot)).st = .waiting →
    (s.act (8 * core + slot)).asked = some (.room opc w) → 2 ≤ s.sendRoom core .request →
    exec (.sendEnqueue core slot) s = .next (s.as (8 * core + slot) (fun t =>
      let t := t.modMe (fun a => { a with st := .running, wait := none, asked := none })
      conclude opc w false (if opc = 0x282 then effSend w t else effSpawn w t)))) ∧
  (∀ (s : State) (d p : Nat) (vn : VN), exec (.creditReturn d p vn) s = .next (s.returnCredits d p vn)) ∧
  (∀ (s u : State) (d p : Nat) (vn : VN), let k := creditKey p vn
    (u = if (s.die d).audit = none ∧ tget 0 k (s.die d).audited + 65536 ≤ s.cycle
      then s.modDie d (fun x => { x with audit := some k, audited := tset 0 k s.cycle x.audited }) else s) →
    ((u.die d).audit ≠ some k ∨ u.onTheWay d p vn ≠ 0 ∨ u.owedTo p d vn ≠ 0 → exec (.creditAudit d p vn) s = .next u) ∧
    ((u.die d).audit = some k → u.onTheWay d p vn = 0 → u.owedTo p d vn = 0 →
      let t := u.modDie d (fun x => { x with audit := none, credits := tset 0 k 0 x.credits })
      (u.inUse d p vn = 0 → exec (.creditAudit d p vn) s = .next t) ∧
      (u.inUse d p vn ≠ 0 → exec (.creditAudit d p vn) s = .next (t.note 0x86 0 (coresPerDie * d)
        (BitVec.ofNat 64 (32 * Config.moduleNumber + p)) (wordOf [(16, 32 - u.inUse d p vn), (0, 32)]))))) ∧
  (∀ (s : State) (d r : Nat),
    (tget 0 r (s.die d).lastFlit + 64 ≤ s.cycle → (∀ m ∈ s.msgs, m.atRouter d r = false) → s.sluiceAt d r = false →
      exec (.routerGate d r) s = .next (s.modDie d (fun x => { x with gated := tset false r true x.gated }))) ∧
    (s.cycle < tget 0 r (s.die d).lastFlit + 64 ∨ (∃ m ∈ s.msgs, m.atRouter d r = true) ∨ s.sluiceAt d r = true →
      exec (.routerGate d r) s = .next s)) ∧
  (∀ (s : State) (d r : Nat), exec (.routerWake d r) s = .next (s.modDie d (fun x =>
    { x with lastFlit := tset 0 r s.cycle x.lastFlit, gated := tset false r false x.gated }))) ∧
  (∀ (s : State) (i : Nat), exec (.corruptedFlit i) s = .next s)

/-! ## Events: ordering and ownership -/

namespace Sys2Proof.Machine

/-- A GLB outbox entry reaches its page's owner in state `v` (R157, R173): it is its turn, and the route is open. No earlier write
waits there for the page's copies (R185), and its line, where it is a near atomic's, is not recalled (R187). -/
structure AtOwner (s : State) (core k i : Nat) (e : OutEntry) (v : State) : Prop where
  entry : (s.act k).outbox[i]? = some e
  fresh : e.drained = false ∧ e.dupWait = false ∧ e.shm = false
  older : outBlocked (s.act k).outbox i = false
  there : (s.route (dieOf core) (drainKey e.wid) 0 (asidOfKey e.page) (vaOf e.page e.first) 1 = .ready v ∨
    (s.route (dieOf core) (drainKey e.wid) 0 (asidOfKey e.page) (vaOf e.page e.first) 1 = .unmapped ∧ v = s))
  alone : e.dup = true → v.dupTaken (v.homeOf e.page) (drainKey e.wid) = false
  held  : e.near = true → ∀ d, .leaseRecall (e.first / 64) d ∉ v.omsgs

end Sys2Proof.Machine

/-- R157, R158, R165 to R167, R185, R187, R347: the steps of the ordering machine. DRAIN of a write to SHM stores its bytes there
and nowhere else; at a GLB owner a write takes its place in the owner order once its line is back, a reduction or atomic is marked
drained, and on a read-duplicable page each then waits for the copies that are out, in the order in which they came; APPLY makes a write
visible in a die view; ATOMIC_AT_OWNER executes a drained reduction or atomic, and an atomic on poison is not performed (log entry 106;
R215); a home operation is performed at its block, or dropped where the block is not live or has a reserved bit set (the model's reading:
log entry 91); a legal weir is written, its totals taken from memory anew; a page entry changes, but not while its page moves. -/
def Sys2Proof.Machine.OrderingEvents : Prop :=
  (∀ (s : State) (core slot i : Nat) (e : OutEntry), let a := s.act (8 * core + slot)
    a.outbox[i]? = some e → e.drained = false → e.dupWait = false → outBlocked a.outbox i = false → e.shm = true →
    (∀ cells, e.kind = .write cells → ∃ u : State, exec (.drain core slot i) s = .next u ∧ u.shm = mput cells s.shm ∧
      u.glb = s.glb ∧ u.loc = s.loc ∧ u.host = s.host ∧ u.flight = s.flight ∧
      (u.act (8 * core + slot)).outbox = dropNth a.outbox i) ∧
    ((∀ cells, e.kind ≠ .write cells) → exec (.drain core slot i) s =
      .next (s.markEntry (8 * core + slot) i (fun e => { e with drained := true })))) ∧
  (∀ (s u v : State) (core slot i : Nat) (e : OutEntry), let k := 8 * core + slot
    AtOwner s core k i e v →
    (∀ cells go, e.kind = .write cells → v.lineReady (dieOf (coreOf k)) (drainKey e.wid) e.first false = (go, u) →
      exec (.drain core slot i) s = .next (if go = false then u
        else if e.dup = true ∧ u.copiesOut (v.homeOf e.page) = true then
          (u.markEntry k i (fun e => { e with dupWait := true })).dupRecall (v.homeOf e.page)
        else u.drainWrite k i e cells)) ∧
    ((∀ cells, e.kind ≠ .write cells) → exec (.drain core slot i) s = .next (
      if e.dup = true ∧ v.copiesOut (v.homeOf e.page) = true then
        (v.markEntry k i (fun e => { e with dupWait := true })).dupRecall (v.homeOf e.page)
      else v.markEntry k i (fun e => { e with drained := true })))) ∧
  (∀ (s : State) (die i : Nat), s.mayApply die i = true → exec (.apply die i) s = .next (s.applyAt die i)) ∧
  (∀ (s u : State) (core slot i : Nat) (e : OutEntry),
    (s.act (8 * core + slot)).outbox[i]? = some e → e.drained = true → s.redReady (dieOf core) e = (true, u) →
    (∀ a t x exact, e.kind = .red a t x exact →
      exec (.atomicAtOwner core slot i) s = .next ((u.redExecute (8 * core + slot) i e a t x exact).settleOwners)) ∧
    (∀ a t op x y n acq, e.kind = .amo a t op x y n acq → exec (.atomicAtOwner core slot i) s = .next (State.settleOwners
      (if u.poisonAt (if e.shm then shmGranule else glbGranule) a t.bytes = true then u.amoPoisoned (8 * core + slot) i e a n
        else u.amoExecute (8 * core + slot) i e a t op x y n acq)))) ∧
  (∀ (s u : State) (i : Nat) (o : HomeOp), s.homeOps[i]? = some o → s.homeOpReady o = (true, u) →
    ((u.block o.home).live = false ∨ (u.block o.home).bad = true →
      exec (.signalHomeOp i) s = .next { u with homeOps := dropNth u.homeOps i }) ∧
    ((u.block o.home).live = true → (u.block o.home).bad = false →
      let v := { u with homeOps := dropNth u.homeOps i, nextWid := u.nextWid + 1 }
      exec (.signalHomeOp i) s = .next (if o.poison then v.sigPoison o.die u.nextWid o.home o.dup o.units
        else v.sigUpdate o.die u.nextWid o.home o.dup false o.add o.units))) ∧
  (∀ (s : State) (i : Nat) (e : WeirEntry),
    (i < 16 → (e.valid = true → s.weirLegal i e = true) → ∃ u : State,
      exec (.weirTableWrite i e) s = .next u ∧ tget {} i u.weirs = e ∧ (∀ j, j ≠ i → tget {} j u.weirs = tget {} j s.weirs) ∧
      (∀ pa, tget none (16 * pa + i) u.weirTot = none) ∧ (e.valid = true → tget 0 i u.weirStat = 0) ∧ u.glb = s.glb) ∧
    (16 ≤ i ∨ (e.valid = true ∧ s.weirLegal i e = false) → exec (.weirTableWrite i e) s = .next s)) ∧
  (∀ (s : State) (a : Nat) (w : Word), exec (.pageEntryInvalidation a w) s =
    .next (if s.entryMoving a then s else s.pokeWord (a / 8 * 8) w))

/-- R158: a write that APPLY makes visible in a view reads there, where no other write to the byte is outstanding in that view:
a die view reads a byte from memory once nothing in flight there holds it. -/
def Sys2Proof.Machine.AppliedBytesRead : Prop :=
  ∀ (s : State) (die i a : Nat) (w : Flight), s.mayApply die i = true → s.flight[i]? = some w →
    (∀ j f, s.flight[j]? = some f → j ≠ i → die ∈ f.dies → ∀ c ∈ f.cells, c.1 ≠ a) →
    (s.applyAt die i).viewByte die a = s.glbByte a

/-- The events that order writes at their owner and apply them, and what a load then reads. -/
def Obligations.OwnerOrder : Prop := OrderingEvents ∧ AppliedBytesRead


/-- R173, R174, R178 to R182, R297: finding a page's owner. The home answers a query with OWNER and notes the reader of its module;
a reply or redirect is installed; a die that neither owns the page nor is its stub returns a request, and the requester drops its
entry and sends it again first; a stub relays its requests in order, the first time with a REDIRECT, and a fourth stub returns
it, so that the word that asked faults; a message of a reserved kind is discarded, with a record. The model's readings: a write that
has drained, for which no word asks any more, goes again through the home instead of faulting (log entry 108), and ADDR and INFO of
RESERVED_KIND are the kind and the source (log entry 42). -/
def Obligations.OwnerSearchEvents : Prop :=
  (∀ (s : State) (i d k : Nat), s.omsgs[i]? = some (.query d k) → exec (.ownerQuery i) s =
    .next { s with omsgs := dropNth s.omsgs i ++ [.reply d k (s.home k).owner (s.home k).size],
                   homes := tset {} k { s.home k with readers := if homeModule Config.domainModules k == Config.moduleNumber
                     then (s.home k).readers ||| (1#32 <<< d) else (s.home k).readers } s.homes }) ∧
  (∀ (s : State) (i d k o : Nat) (z : Bool), s.omsgs[i]? = some (.reply d k o z) → exec (.ownerReply i) s =
    .next ({ s with omsgs := dropNth s.omsgs i }.modDie d (fun x => { x with owners := installOwner k o z x.owners }))) ∧
  (∀ (s : State) (i d k t : Nat), s.omsgs[i]? = some (.redirect d k t) → exec (.redirect i) s =
    .next ({ s with omsgs := dropNth s.omsgs i }.modDie d (fun x => { x with owners := installOwner k t (s.home k).size x.owners }))) ∧
  (∀ (s : State) (i : Nat) (r : OReq), s.omsgs[i]? = some (.request r) → s.owns r.at_ r.who.page = false →
    tget none r.who.page (s.die r.at_).stubs = none → s.beginning r.at_ r.who.page = false →
    exec (.notOwner i) s = .next { s with omsgs := setNth s.omsgs i (.notOwner r) }) ∧
  (∀ (s : State) (i : Nat) (r : OReq), s.omsgs[i]? = some (.notOwner r) →
    exec (.notOwner i) s = .next (({ s with omsgs := dropNth s.omsgs i }.dropOwner r.who.die r.who.page).holdFirst r.who)) ∧
  (∀ (s : State) (i : Nat) (r : OReq) (st : Stub), s.omsgs[i]? = some (.request r) →
    tget none r.who.page (s.die r.at_).stubs = some st →
    (∀ q, OMsg.request q ∈ s.omsgs.take i → q.at_ = r.at_ → q.who.page ≠ r.who.page) →
    (3 ≤ r.count → exec (.stubRelay i) s = .next { s with omsgs := setNth s.omsgs i (.chainLimit r) }) ∧
    (r.count < 3 → exec (.stubRelay i) s = .next
      (let t := { s with omsgs := dropNth s.omsgs i ++ [OMsg.request { r with at_ := st.target, count := r.count + 1 }] }.modDie r.at_
          (fun x => { x with stubs := tset none r.who.page (some { st with since := s.cycle }) x.stubs })
        if r.count = 0 then t.sendOMsg (.redirect r.who.die r.who.page st.target) else t))) ∧
  (∀ (s : State) (i : Nat) (r : OReq), s.omsgs[i]? = some (.chainLimit r) → exec (.chainLimit i) s =
    .next (let t := { s with omsgs := dropNth s.omsgs i }.dropOwner r.who.die r.who.page
      if drainKey 0 ≤ r.who.key then t.holdFirst r.who else (t.unhold r.who).modAct r.who.key (fun a =>
        { a with chain := some { die := r.at_, page := r.who.page, word := r.who.word } }))) ∧
  (∀ (s : State) (c src dst : Nat),
    (0x13 ≤ c → c ≤ 0xFF → exec (.reservedKind (.ownership c) src dst) s =
      .next (s.note 0x85 0 (coresPerDie * (dst % numDies)) (BitVec.ofNat 64 c) (BitVec.ofNat 64 src))) ∧
    (0x004 ≤ c → c ≤ 0xFFF → exec (.reservedKind (.clock c) src dst) s =
      .next (s.note 0x85 0 (coresPerDie * (dst % numDies)) (BitVec.ofNat 64 c) (BitVec.ofNat 64 src))))

/-- R175 to R177, R183, R186, R188, R189: moving a page. The old owner settles; MIGRATE_BEGIN makes the new owner owner with no line
valid; the lines go over one by one, an awaited one first, each valid where it arrives, and MIGRATE_DONE after the last; then the
page stands in its new frame, and the home records the owner. MIGCTL pins, unpins and moves pages, or refuses; HINT is written, and
counters halve. The model's readings: the limit of 256 pinned pages is counted for each address space (log entry 47), a page's bytes move
to its new frame at MIGRATE_DONE (log entry 52), and a die that becomes owner again drops its stub at MIGRATE_BEGIN (log entry 53). -/
def Obligations.MigrationEvents : Prop :=
  (∀ (s : State) (i k old new frame newFrame : Nat) (z : Bool) (e : Word), s.omsgs[i]? = some (.begin_ k old new frame newFrame z e) →
    exec (.migrateBegin i) s = .next (({ s with omsgs := dropNth s.omsgs i }.dropStub new k).modDie new (fun x =>
      { x with incoming := tset none k (some { source := old, frame := frame, newFrame := newFrame, size := z }) x.incoming }))) ∧
  (∀ (s : State) (die k : Nat) (g : Outgoing), tget none k (s.die die).outgoing = some g → g.quiet = false →
    exec (.pageLineSend die k) s = .next (s.settle die k)) ∧
  (∀ (s : State) (die k n : Nat) (g : Outgoing), tget none k (s.die die).outgoing = some g → g.quiet = true →
    (∀ j, (s.awaitedAt g.new k).find? (fun n => !s.lineSent k g.new g.next n) = some j →
      exec (.pageLineSend die k) s = .next (s.sendOMsg (.line k g.new j (s.pageLine die k j)))) ∧
    ((s.awaitedAt g.new k).find? (fun n => !s.lineSent k g.new g.next n) = none →
    n = s.firstUnsent k g.new (pageLines g.size - g.next) g.next →
    (n < pageLines g.size → exec (.pageLineSend die k) s = .next ((s.sendOMsg (.line k g.new n (s.pageLine die k n))).modDie die
      (fun x => { x with outgoing := tset none k (some { g with next := n + 1 }) x.outgoing }))) ∧
    (pageLines g.size ≤ n → exec (.pageLineSend die k) s = .next ((s.sendOMsg (.done k die g.new)).modDie die (fun x =>
      { x with outgoing := tset none k none x.outgoing }))))) ∧
  (∀ (s : State) (i k new n : Nat) (bs : List Byte) (c : Incoming), s.omsgs[i]? = some (.line k new n bs) →
    tget none k (s.die new).incoming = some c →
    exec (.pageLines i) s = .next ({ s with omsgs := dropNth s.omsgs i }.modDie new (fun x => { x with
      incoming := tset none k (some { c with lines := tset false n true c.lines, awaited := c.awaited.filter (· != n) }) x.incoming }))) ∧
  (∀ (s : State) (i k old new : Nat) (c : Incoming), s.omsgs[i]? = some (.done k old new) → tget none k (s.die new).incoming = some c →
    (∀ n bs, .line k new n bs ∉ s.omsgs) → exec (.migrateDone i) s =
      .next ((((({ s with omsgs := dropNth s.omsgs i }.moveFrame c.frame c.newFrame (pageSpan c.size)).reframe k c.newFrame c.size).modDie new
        (fun x => { x with incoming := tset none k (some { c with whole := true, awaited := [] }) x.incoming })).touchStub old k).sendOMsg (.update k new false))) ∧
  (∀ (s : State) (i k o : Nat) (moving : Bool), s.omsgs[i]? = some (.update k o moving) →
    (∀ p m, .update k p m ∉ s.omsgs.take i) → exec (.ownerUpdate i) s =
      .next (let t := { s with omsgs := dropNth s.omsgs i, homes := tset {} k { s.home k with owner := o, moving := moving } s.homes }
        if moving then t else t.modDie o (fun x => { x with incoming := tset none k none x.incoming }))) ∧
  (∀ (s : State) (part page : Nat), let k := s.partHome part page
    let h := s.home k
    exec (.migctlPin part page) s = .next (if h.valid = false then s.migRefuse part
      else if h.pinned = false ∧ 256 ≤ s.pinnedPages (s.part part).asid
        then s.modPart part (fun p => { p with refused := true, pinFull := true })
      else { s with homes := tset {} k { h with pinned := true } s.homes }) ∧
    exec (.migctlUnpin part page) s = .next (if h.valid then { s with homes := tset {} k { h with pinned := false } s.homes }
      else s.migRefuse part) ∧
    (∀ dest m, h.valid = false ∨ m ≠ Config.moduleNumber ∨ 32 ≤ dest ∨ s.startMigration k dest = none →
      exec (.migctlMove part page dest m) s = .next (s.migRefuse part)) ∧
    (∀ dest t, h.valid = true → dest < 32 → s.startMigration k dest = some t →
      exec (.migctlMove part page dest Config.moduleNumber) s = .next t)) ∧
  (∀ (s : State) (part : Nat) (hint : Bool), exec (.atmmodeHintWrite part hint) s = .next (s.setHint part hint) ∧
    (((s.part part).hint = false ∨ hint = true) → s.setHint part hint = s.modPart part (fun p => { p with hint := hint }))) ∧
  (∀ (s : State) (die : Nat), (s.die die).halved + 2 ^ 20 ≤ s.cycle → exec (.counterHalving die) s =
    .next (((s.halveCounters die).die die).counters.foldl (fun s e => s.moveCounted die e.1 e.2) (s.halveCounters die)))

/-- R181, R184, R185, R187: reclaiming a stub, copies and leases. A stub idle for 2^22 cycles asks to be retired; the home tells
every reader, each drops its entry, and after the last acknowledgement the stub is freed and its frame goes back to the pool. A
holder of a copy drops it, and with the last acknowledgement what waits at the owner is performed; a lease is granted, recalled once
the near atomics at its slice are complete, and returned. -/
def Obligations.StubCopyAndLeaseEvents : Prop :=
  (∀ (s : State) (die k : Nat) (st : Stub), tget none k (s.die die).stubs = some st → st.retiring = false →
    tget none k (s.die die).outgoing = none → (∀ n, .done k die n ∉ s.omsgs) → st.since + 2 ^ 22 ≤ s.cycle →
    exec (.stubExpiry die k) s = .next ((s.modDie die (fun x =>
      { x with stubs := tset none k (some { st with retiring := true }) x.stubs })).sendOMsg (.retire k die))) ∧
  (∀ (s : State) (i k d : Nat), s.omsgs[i]? = some (.retire k d) → exec (.stubRetire i) s =
    .next { s with omsgs := dropNth s.omsgs i ++ (if (s.home k).readers = 0 then [.retireOk k d]
      else ((upTo 32).filter (fun r => (s.home k).readers.getLsbD r)).map (fun r => .inval k r d)) }) ∧
  (∀ (s : State) (i k r d : Nat), s.omsgs[i]? = some (.inval k r d) → exec (.ownerInval i) s =
    .next (let t := s.dropOwner r k (· == d)
      if s.asking r k then t else { t with omsgs := setNth t.omsgs i (.invalAck k r d) })) ∧
  (∀ (s : State) (i k r d : Nat), s.omsgs[i]? = some (.invalAck k r d) →
    let rest := dropNth s.omsgs i
    ((∀ q, .inval k q d ∉ rest ∧ .invalAck k q d ∉ rest) →
      exec (.ownerInvalAck i) s = .next { s with omsgs := rest ++ [.retireOk k d] }) ∧
    ((∃ q, .inval k q d ∈ rest ∨ .invalAck k q d ∈ rest) → exec (.ownerInvalAck i) s = .next { s with omsgs := rest })) ∧
  (∀ (s : State) (i k d : Nat) (st : Stub), s.omsgs[i]? = some (.retireOk k d) → tget none k (s.die d).stubs = some st →
    st.retiring = true → exec (.retireOk i) s = .next (({ s with omsgs := dropNth s.omsgs i }.modDie d (fun x =>
      { x with stubs := tset none k none x.stubs })).poolFrame d st.frame)) ∧
  (∀ (s : State) (i k d : Nat), s.omsgs[i]? = some (.dupInval k d) →
    let t := { s with omsgs := setNth s.omsgs i (.dupAck k d) }
    (tget none k (s.die d).copyFrames = none → exec (.dupInval i) s = .next t) ∧
    (∀ f, tget none k (s.die d).copyFrames = some f → exec (.dupInval i) s = .next ((t.modDie d (fun x =>
        { x with copyFrames := tset none k none x.copyFrames })).poolFrame d f))) ∧
  (∀ (s t : State) (i k d : Nat), s.omsgs[i]? = some (.dupAck k d) →
    t = { s with omsgs := dropNth s.omsgs i, copies := tset 0 k (tget 0 k s.copies &&& ~~~(1#32 <<< d)) s.copies } →
    ((t.copiesOut k = true ∨ ∃ h, .dupInval k h ∈ t.omsgs ∨ .dupAck k h ∈ t.omsgs) → exec (.dupInvalAck i) s = .next t) ∧
    (t.copiesOut k = false → (∀ h, .dupInval k h ∉ t.omsgs ∧ .dupAck k h ∉ t.omsgs) → exec (.dupInvalAck i) s =
      .next (match t.dupWaiter k with | some (key, j) => (t.dupPerform key j).settleOwners | none => t.settleOwners))) ∧
  (∀ (s t : State) (i line d : Nat) (bs : List Byte), s.omsgs[i]? = some (.leaseGrant line d bs) →
    t = { s with omsgs := dropNth s.omsgs i, leases := tset none line (some d) s.leases } →
    exec (.leaseGrant i) s = .next (if t.leaseUnwanted line then t.recallLease line else t)) ∧
  (∀ (s : State) (i line d : Nat), s.omsgs[i]? = some (.leaseRecall line d) →
    exec (.leaseRecall i) s = .next (if s.nearThere line d then s
      else { s with omsgs := setNth s.omsgs i (.leaseReturn line d (s.lineValue line)) })) ∧
  (∀ (s : State) (i line d : Nat) (bs : List Byte), s.omsgs[i]? = some (.leaseReturn line d bs) → exec (.leaseReturn i) s =
    .next { s with omsgs := dropNth s.omsgs i, leases := tset none line none s.leases }.settleOwners)

/-! ## Events: engines, barriers and local time -/

namespace Sys2Proof.Machine

/-- The head of a core's matrix queue is `c`, and the arbiter of its octet grants it the next step, in state `t` (R242), no
finished command of a kind standing before it. -/
structure Granted (s t : State) (op : CmdOp) (core : Nat) (c : Cmd) : Prop where
  kind : c.op = op
  head : ∃ r, ((s.closeHeads (octetOf core) op).core core).matrixQ = c :: r
  turn : (s.closeHeads (octetOf core) op).grantStep (octetOf core) = some (core, t)

end Sys2Proof.Machine

/-- R109, R234, R242, R246, R248, R249, R262, R302: the matrix unit. A granted MMA step adds one chunk of the command to its tile and
a second if one is left, and an MMA whose chunks are done completes; one that must wait for its operands' page keeps its grant, one
that faults parks, and a discarded or empty one completes. MMZ zeroes its tile. A granted MMDRAIN, unless it is late or discarded,
bids for its tile in one cycle and claims it in a later one, where no earlier claim is there and none of that cycle by a lower core
(R111, R264); it then writes its rows there and then makes the tile ready, frees the accumulator tile and the drain port, and sends
its wake-up. -/
def Obligations.MatrixEvents : Prop :=
  (∀ (s t : State) (core : Nat) (c : Cmd), Granted s t .mma core c →
    (c.guard = some false → exec (.mmaStep (octetOf core)) s = .next (t.finishCmd core .matrix 0 { c with phase := .closing })) ∧
    (c.guard ≠ some false → c.steps = 0 →
      exec (.mmaStep (octetOf core)) s = .next ((t.holdTile core c.z).finishCmd core .matrix 0 { c with phase := .closing })) ∧
    (c.guard ≠ some false → c.steps ≠ 0 →
      (∀ u d, t.chunk core c c.done = .stall u d →
        exec (.mmaStep (octetOf core)) s = .next ((u.setCmd core .matrix 0 d).holdStep core)) ∧
      (∀ f u d, t.chunk core c c.done = .fault f u d → exec (.mmaStep (octetOf core)) s = .next (u.parkCmd core .matrix 0 d f)) ∧
      (∀ u d, t.chunk core c c.done = .ok u d →
        let closed (v : State) (e : Cmd) : State :=
          if 2 * e.steps ≤ e.done then v.finishCmd core .matrix 0 { e with phase := .closing } else v.setCmd core .matrix 0 e
        (d.done % 2 = 0 → exec (.mmaStep (octetOf core)) s = .next (closed u d)) ∧
        (∀ v e, d.done % 2 = 1 → u.chunk core d d.done = .ok v e → exec (.mmaStep (octetOf core)) s = .next (closed v e)) ∧
        (∀ v e, d.done % 2 = 1 → u.chunk core d d.done = .stall v e →
          exec (.mmaStep (octetOf core)) s = .next ((v.setCmd core .matrix 0 e).holdStep core)) ∧
        (∀ f v e, d.done % 2 = 1 → u.chunk core d d.done = .fault f v e →
          exec (.mmaStep (octetOf core)) s = .next (v.parkCmd core .matrix 0 e f))))) ∧
  (∀ (s t : State) (core : Nat) (c : Cmd), Granted s t .mmz core c → exec (.mmzExec (octetOf core)) s =
    .next ((if c.guard = some false then t else ((t.holdTile core c.z).accClean core c.z).putTile core c.z
      (List.replicate 256 0)).finishCmd core .matrix 0 { c with phase := .closing })) ∧
  (∀ (s t : State) (core : Nat) (c : Cmd) (r : List Cmd), (s.core core).matrixQ = c :: r → c.op = .mmdrain →
    s.grantStep (octetOf core) = some (core, t) →
    (∀ f, s.drainTime c = some f → t.drainTime c = some f → exec (.drainStart core) s = .next (t.parkCmd core .matrix 0 c f)) ∧
    (t.drainTime c = none → c.guard = some false → exec (.drainStart core) s = .next (t.endDrain core c)) ∧
    (s.drainTime c = none → c.guard ≠ some false → c.claimed = false →
      (c.bid = none → exec (.drainStart core) s = .next (s.setCmd core .matrix 0 { c with bid := some (s.cycle, c.dest) })) ∧
      (∀ n d, c.bid = some (n, d) → s.bidWins core c.dest.1 c.dest.2 n = false → exec (.drainStart core) s = .next s) ∧
      (∀ n d f, c.bid = some (n, d) → s.bidWins core c.dest.1 c.dest.2 n = true → t.drainTime c = none →
        t.claim c.part c.dest.1 c.dest.2 = .error f →
        exec (.drainStart core) s = .next (t.parkCmd core .matrix 0 { c with bid := none } f))) ∧
    (∀ d u c', s.drainTime c = none → t.drainTime c = none → c.guard ≠ some false →
      ((∃ n b, c.claimed = false ∧ c.bid = some (n, b) ∧ s.bidWins core c.dest.1 c.dest.2 n = true ∧
          t.claim c.part c.dest.1 c.dest.2 = .ok (d, u) ∧ c' = { c with claimed := true, bid := none }) ∨
        (c.claimed = true ∧ t.coreIn c.part c.dest.1 = some d ∧ u = t ∧ c' = c)) →
      let tile := u.tile d c.dest.2
      (64 * tile.size < 16 * rowBytes c.ty → exec (.drainStart core) s = .next (u.parkCmd core .matrix 0 c'
        { code := 0x08, space := 1, addr := BitVec.ofNat 64 (64 * tile.base) })) ∧
      (∀ f, 16 * rowBytes c.ty ≤ 64 * tile.size → u.accPoison core c.z = some f →
        exec (.drainStart core) s = .next (u.parkCmd core .matrix 0 c' f)) ∧
      (∀ v, 16 * rowBytes c.ty ≤ 64 * tile.size → u.accPoison core c.z = none →
        v = (u.tileElems core c.z).2.locPut (32768 * d + 64 * tile.base)
          ((upTo 16).flatMap (fun r => drainRow c.ty (((u.tileElems core c.z).1.drop (16 * r)).take 16))) →
        exec (.drainStart core) s = .next { v.setCmd core .matrix 0 { c' with phase := .running } with
          drainPort := tset none (octetOf core) (some core) v.drainPort }))) ∧
  (∀ (s : State) (core d : Nat) (c : Cmd) (r : List Cmd), (s.core core).matrixQ = c :: r → c.op = .mmdrain → c.parked = none →
    (c.phase = .closing → exec (.drainComplete core) s = .next (s.endDrain core c)) ∧
    (c.phase = .running → s.coreIn c.part c.dest.1 = some d →
      let t := (s.tileReady d c.dest.2 false).modCore core (fun x => { x with held := tset false c.z false x.held })
      exec (.drainComplete core) s = .next ({ t with drainPort := tset none (octetOf core) none t.drainPort }.endDrain core c)))

/-- R109, R240, R250 to R255: the copy and collective engines. A copy starts, moves a line when the engine comes to its core, each
line read before it is written, and completes: its destination tile goes ready, its source tile empty if it is still draining, and
its obligations are discharged. A collective goes on with its acceptance, starts, moves lines of its parts when the engine comes to
its core, and completes when every part is done. -/
def Obligations.CopyAndCollectiveEvents : Prop :=
  (∀ (s : State) (core i : Nat) (c : Cmd), (s.core core).copyQ[i]? = some c → (s.core core).mayMove .copy i = true →
    (c.phase = .queued → exec (.copyLine core i) s = .next (s.startCopy core i c)) ∧
    (c.phase = .running → s.engTurn .copy core = false → exec (.copyLine core i) s = .next s) ∧
    (∀ (src dst : CopyEnd), c.phase = .running → s.engTurn .copy core = true → copyEnd (nth 0 c.vals 1) = .ok src →
      copyEnd (nth 0 c.vals 0) = .ok dst →
      let n := (c.lineOff c.shape.2.2.1).2
      let x := (s.passTurn .copy core).endAccess core c src (c.lineOff c.shape.2.2.1).1 n false
      (∀ f t, x = .fault f t → exec (.copyLine core i) s = .next (t.parkCmd core .copy i c f)) ∧
      (∀ t ps, x = .ok t ps → let y := t.endAccess core c dst (c.lineOff c.shape.2.2.2).1 n true
        (∀ f u, y = .fault f u → exec (.copyLine core i) s = .next (u.parkCmd core .copy i c f)) ∧
        (∀ u qs go v, y = .ok u qs → u.engReadies (dieOf core) (engKey core .copy) qs = (go, v) →
          let l := v.engLoads (dieOf core) ps
          let w := l.2.engStores (dieOf core) qs l.1
          let c' := { c with done := c.done + 1, wids := c.wids ++ w.1 }
          exec (.copyLine core i) s = .next (if go then w.2.setCmd core .copy i
            (if c.lines ≤ c.done + 1 then { c' with phase := .closing } else c') else v))))) ∧
  (∀ (s : State) (core i : Nat) (c : Cmd), (s.core core).copyQ[i]? = some c → c.phase = .closing → c.parked = none →
    s.cmdReleased core c = true → ∃ u v : State,
      exec (.copyComplete core i) s = .next (v.finishCmd core .copy i { c with claimed := false, drains := false }) ∧
      (c.claimed = false → u = s) ∧
      (∀ a t d, c.claimed = true → copyEnd (nth 0 c.vals 0) = .ok (.tile a t) → s.coreIn c.part a = some d → u = s.tileReady d t false) ∧
      (c.drains = false → v = u) ∧
      (∀ a t, c.drains = true → copyEnd (nth 0 c.vals 1) = .ok (.tile a t) → v =
        if (u.tile core t).state = .draining then u.setTile core t { u.tile core t with state := .empty } else u)) ∧
  (∀ (s : State) (core i part : Nat) (c : Cmd), (s.core core).colQ[i]? = some c →
    (∀ n, c.phase = .accepting n → c.parked = none → exec (.collectiveLine core i part) s = .next (s.acceptMore core i c)) ∧
    (c.phase = .queued → (s.core core).mayMove .col i = true → exec (.collectiveLine core i part) s = .next (s.startCol core i c)) ∧
    (c.phase = .running → (s.core core).mayMove .col i = true → exec (.collectiveLine core i part) s =
      .next (if s.engTurn .col core then s.colTurn core i c part else s)) ∧
    (c.parked = none → s.colDone c = true → s.cmdReleased core c = true →
      exec (.collectiveComplete core i) s = .next (s.finishCmd core .col i { c with phase := .closing })))

/-- R88, R147, R153: a cluster's team sends its arrival on once all its members have arrived; once every team has, the phase
releases: it counts as released, nothing has arrived in the next, and its waiters go on. -/
def Sys2Proof.Machine.BarrierEvents : Prop :=
  (∀ (s : State) (part group cl : Nat) (x : Group), tget {} group (s.part part).groups = x → x.valid = true →
    (∃ c ∈ x.members, clusterOf c = cl) → (∀ c ∈ x.members, clusterOf c = cl → c ∈ x.here) → cl ∉ x.teams →
    exec (.barrierArrival part group cl) s =
      .next (s.modPart part (fun p => { p with groups := tset {} group { x with teams := x.teams ++ [cl] } p.groups }))) ∧
  (∀ (s : State) (part group : Nat) (x : Group), tget {} group (s.part part).groups = x → x.valid = true →
    (∀ c ∈ x.clusters, c ∈ x.teams) →
    exec (.barrierRelease part group) s =
      .next ((s.modPart part (fun p => { p with groups := tset {} group { x with phase := x.phase + 1, here := [], teams := [] } p.groups })).wakeAll
        (fun w => match w with | .group p g n => p == part && g == group && n == x.phase | _ => false) .released))

/-- R297, R299, R309: an announcement or null event held on a link takes effect once every event that its count covers has come: the
clock of the link rises to it, and LTWAITs on the core whose condition then holds complete; before, it stays. A core that is idle, with no head to dispatch, answers a demand on an output link with
the bound that it can promise; any other keeps it. -/
def Sys2Proof.Machine.ClockEvents : Prop :=
  (∀ (null : Bool) (mk : Nat → Nat → Instr), (null = false ∧ mk = .announcement) ∨ (null = true ∧ mk = .nullEvent) →
    ∀ (s : State) (core i : Nat) (l : InLink) (m : ClockMsg), (s.core core).ins[i]? = some l → l.held = some m → m.null = null →
      let late := (l.rcvd + 2 ^ 32 - m.sent % 2 ^ 32) % 2 ^ 32
      (late < 2 ^ 31 → ∀ t : State, t = s.modCore core (fun x =>
          { x with ins := setNth x.ins i { l with clock := max l.clock m.cc, held := none } }) →
        exec (mk core i) s = .next (t.completeTimers core) ∧
        ((∀ k ∈ slotsOf core, (t.act k).timeTarget = none) → t.framedTimers core = [] → exec (mk core i) s = .next t)) ∧
      (2 ^ 31 ≤ late → exec (mk core i) s = .next s)) ∧
  (∀ (s t u : State) (core j d c : Nat) (l l' : OutLink), (s.core core).outs[j]? = some l → l.demand = some d →
    (s.idle core = false ∨ s.headDue core = true → exec (.demand core j) s = .next s) ∧
    (s.idle core = true → s.headDue core = false →
      c = max (s.core core).lvt ((s.targets core).foldl min (min (s.headStamp core) (s.safe core))) →
      l' = { l with floor := max l.floor (satAdd c l.look) } →
      t = s.modCore core (fun x => { x with outs := setNth x.outs j l' }) →
      u = (if l.lastCC < l'.cc (s.core core).lvt then t.clockMsg core j true else t) →
      exec (.demand core j) s = .next (if satAdd (l'.cc (s.core core).lvt) l.look ≤ d then u.demandAll core (d - l.look) else u)))

/-- The events of barrier trees and of local time. -/
def Obligations.BarrierAndClockEvents : Prop := BarrierEvents ∧ ClockEvents

/-! ## Events: faults and saves -/

namespace Sys2Proof.Machine

/-- A saving slot's save may go on (R161, R202), with frame `n` next on its die's stack. -/
structure MaySave (s : State) (k n : Nat) (r : List Nat) (v : SaveReq) : Prop where
  saving : (s.act k).st = .saving
  why    : (s.act k).save = some v
  ready  : s.saveReady k = true
  frame  : (s.die (dieOf (coreOf k))).frames = n :: r

end Sys2Proof.Machine

/-- R148, R161, R198, R202, R209, R213, R216: a save whose accesses are performed takes the next free frame of its die; with none, one
for a message is given up, and any other waits and is reported once. PREEMPT begins a save of every slot it names that holds an
activation which is not being saved, and takes over a save for a message. A restoration takes a free slot of its class, and LTWAITs
whose condition then holds complete (R213, R309). A pushed frame goes onto the stack, and a save that waits for one goes on. The model's
readings: a save for a message that finds no frame is undone (log entry 57), and ADDR and INFO of FRAME_EMPTY are zero (log entry 55). -/
def Sys2Proof.Machine.SaveEvents : Prop :=
  (∀ (s : State) (core slot n : Nat) (r : List Nat) (v : SaveReq), MaySave s (8 * core + slot) n r v →
    exec (.frameSave core slot) s = .next ((s.modDie (dieOf (coreOf (8 * core + slot))) (fun x => { x with frames := r })).saveNow
      (8 * core + slot) n v)) ∧
  (∀ (s : State) (core slot : Nat) (v : SaveReq), let k := 8 * core + slot
    (s.act k).st = .saving → (s.act k).save = some v → s.saveReady k = true → (s.die (dieOf (coreOf k))).frames = [] →
    (v.why = .forMessage → exec (.frameSave core slot) s = .next (s.unsave k)) ∧
    (v.why ≠ .forMessage → exec (.frameSave core slot) s = .next (if v.noted then s else
      (s.modAct k (fun a => { a with save := some { v with noted := true } })).note 0x84 (s.part (s.act k).part).asid (coreOf k) 0 0))) ∧
  (∀ (s : State) (core slot : Nat), slot < 8 → let k := 8 * core + slot
    ((s.act k).st ≠ .free → (s.act k).st ≠ .saving → exec (.preempt core (1#8 <<< slot)) s = .next ((s.modAct k (fun a =>
      { a with st := .saving, save := some { why := .preempt, pc := a.pc } })).annotate k 5 (s.act k).pc)) ∧
    (∀ v, (s.act k).st = .saving → (s.act k).save = some v → v.why = .forMessage → exec (.preempt core (1#8 <<< slot)) s =
      .next (s.modAct k (fun a => { a with save := a.save.map (fun x => { x with why := .preempt }) }))) ∧
    ((s.act k).st = .free → exec (.preempt core (1#8 <<< slot)) s = .next s)) ∧
  (∀ (s : State) (core key k : Nat) (how : ResumeHow) (r : List (Nat × ResumeHow)), (s.core core).restores = (key, how) :: r →
    s.mayRestore core (s.frameCls (key / 2 ^ 28) (key % 2 ^ 28)) = true →
    s.freeSlotFor core (s.frameCls (key / 2 ^ 28) (key % 2 ^ 28)) = some k →
    let x := (s.modCore core (fun c => { c with restores := r })).restoreInto k (key / 2 ^ 28) (key % 2 ^ 28) how
    (∀ t, x = .ok t → exec (.frameRestore core) s =
      .next ((t.trace 0x04 k (t.act k) 0 (BitVec.ofNat 64 (key % 2 ^ 28))).completeTimers core)) ∧
    (∀ t, x = .refused t → exec (.frameRestore core) s = .next t)) ∧
  (∀ (s t : State) (die f : Nat), t = s.modDie die (fun x => { x with frames := f :: x.frames }) →
    let waits (k : Nat) : Bool := (s.act k).st == .saving && (match (s.act k).save with | some v => v.noted | none => false)
    (1024 ≤ (s.die die).frames.length → exec (.pushFreeFrame die f) s = .next s) ∧
    ((s.die die).frames.length < 1024 → (∀ k ∈ slotsOfDie s.acts die, waits k = false) → exec (.pushFreeFrame die f) s = .next t) ∧
    (∀ k, (s.die die).frames.length < 1024 → (slotsOfDie s.acts die).find? waits = some k →
      exec (.pushFreeFrame die f) s = .next (t.trySave k)))

/-- R152, R203, R207 to R209: the OS's service of faults. PAGE_READY and RELEASE_ENTRY serve a coalescing entry; a resume operation
queues a frame's restoration at its core, as that operation says, reports a frame of a core outside the partition, or lets an
activation PARKED at its END try its END again or restart at the recovery entry; the tail of a ring moves on, and records that wait are
written. The model's readings: IDENT of a pre-emption is the saved PC (log entry 43), and an item that is resumed leaves its coalescing
entry (log entry 58). -/
def Sys2Proof.Machine.ServiceEvents : Prop :=
  (∀ (s : State) (die asid page : Nat), exec (.pageReady die asid page) s =
    .next (match s.coalFind die asid page with | some n => s.serveEntry die n | none => s)) ∧
  (∀ (s : State) (die n : Nat), exec (.releaseEntry die n) s = .next (s.serveEntry die n)) ∧
  (∀ (how : ResumeHow) (mk : ResumeTarget → Instr), (how = .atWord ∧ mk = .resumeAtWord) ∨ (how = .afterWord ∧ mk = .resumeAfterWord) ∨
      (how = .recovery ∧ mk = .resumeWithRecovery) →
    ∀ (s : State) (part c n : Nat), s.resumable part n = true → (how = .recovery → (s.recovery part).isSome = true) →
      let core := s.frameCore part n
      let t := s.leaveEntries (fun i => i == .frame core n)
      ((t.core core).part = some part → exec (mk (.frame part c n)) s = .next (t.queueRestore part n how)) ∧
      ((t.core core).part ≠ some part → exec (mk (.frame part c n)) s =
        .next (t.noteFrame 0x88 (t.part part).asid core n))) ∧
  (∀ (s : State) (core slot : Nat), let k := 8 * core + slot
    (s.act k).st = .parked →
    exec (.resumeAtWord (.parked core slot)) s = .next (s.modAct k (fun a => { a with st := .running })) ∧
    exec (.resumeAfterWord (.parked core slot)) s = .next s ∧
    (∀ e o l, s.recovery (s.act k).part = some e → (s.act k).oblUsed = o :: l →
      let ws := recordWords { code := 0x27, addr := o.handle, info := o.word false } (s.part (s.act k).part).asid false (s.act k).pc none
        (coreOf k) (slotOf k) (s.act k).stamp
      exec (.resumeWithRecovery (.parked core slot)) s = .next ((s.modAct k (fun a =>
        a.recover e 0x27 (nth 0 ws 1) (nth 0 ws 2) (nth 0 ws 3))).cleanS k [1, 2, 3, 4]))) ∧
  (∀ (s : State) (ring : Nat) (tail : BitVec 32), exec (.ringTailWrite ring tail) s =
    .next ({ s with rings := tset {} ring { (tget {} ring s.rings : Ring) with tail := tail } s.rings }.flushRing ring s.ringWait.length))

/-- The events that save, service and restore contexts. -/
def Obligations.SaveAndService : Prop := SaveEvents ∧ ServiceEvents


namespace Sys2Proof.Machine

/-- R153, R276: one obligation discharged as poisoned, where `core` of a partition held it. A SIGNAL unit goes to its block as a
poisoned operation; a REPLY sends its requester a poison reply for each unit; a CLOSE or TILE makes its tile ready, poisoned, while it is
being filled; GUARD, EMIT and ARRIVE need nothing of their own. SSLOT of a poison reply is 0 (log entry 127). -/
def PoisonedDischarges : Prop :=
  ∀ (s : State) (core part : Nat) (stamp : Word) (o : Obl),
    (o.kind = .signal → o.handle.getLsbD 63 = true → s.poisonObl core part stamp o = { s with homeOps := s.homeOps ++
      [{ home := shmHome (2 ^ 27 * dieOf core + (bits o.handle 0 27).toNat), add := 0, units := o.count, poison := true, die := dieOf core }] }) ∧
    (∀ g, o.kind = .signal → o.handle.getLsbD 63 = false → s.walk (s.part part).asid o.handle.toNat = .ok g →
      s.poisonObl core part stamp o = { s with homeOps := s.homeOps ++
        [{ home := g.frame + o.handle.toNat % 65536, dup := g.dup, page := pageKey (s.part part).asid (o.handle.toNat / 65536)
           add := 0, units := o.count, poison := true, die := dieOf core }] }) ∧
    (o.kind = .reply → ∃ l : List Msg, (s.poisonObl core part stamp o).msgs = s.msgs ++ l ∧ l.length = o.count ∧
      ∀ m ∈ l, m.poison = true ∧ m.dest = (bits o.handle 16 25).toNat ∧ m.rseq = (bits o.handle 0 16).toNat ∧ m.vn = .reply ∧
        m.type = 0xFFE ∧ m.src = coreAddr core) ∧
    (∀ c, o.kind = .close → coreOfAddr (bits o.handle 4 25).toNat = some c → (s.tile c (o.handle.toNat % 16)).state = .filling →
      s.poisonObl core part stamp o = s.tileReady c (o.handle.toNat % 16) true) ∧
    (o.kind = .tile → (s.tile core (o.handle.toNat % 16)).state = .filling →
      s.poisonObl core part stamp o = s.tileReady core (o.handle.toNat % 16) true) ∧
    (o.kind = .guard ∨ o.kind = .emit ∨ o.kind = .arrive → s.poisonObl core part stamp o = s)

/-- R139, R153, R154, R216: PROCESS_TERMINATE leaves its partition dead, with no activation in a slot, none saved, no frame and no
command of it. Every unit that it held is discharged as poisoned, wherever it was held: one of an SHM block is then on its way to the
block. The phase that each of its groups stood in is released as poisoned, and every message of it that is on its way is discharged where
it arrives. What its faults had parked is freed: no coalescing entry holds a slot, frame or command of it. -/
def TerminationFrees : Prop :=
  ∀ (s : State) (part : Nat),
    let v := (s.heldBy part).foldl (fun t h => t.poisonObls h.1 part h.2.1 h.2.2) s
    let r := (((s.part part).groups.filter (fun g => g.2.valid)).map (·.1)).foldl (fun t g => t.releasePhase part g true) v
    ∃ u : State, exec (.processTerminate part) s = .next u ∧
      (u.part part).live = false ∧ (u.part part).ended = true ∧ (u.part part).dispatch = false ∧ (u.part part).framesOut = [] ∧
      (u.part part).deadRecs = [] ∧ (∀ e ∈ u.framed, e.1 / 2 ^ 28 ≠ part) ∧
      (∀ e ∈ u.cores, ∀ c ∈ e.2.matrixQ ++ e.2.copyQ ++ e.2.colQ, c.part ≠ part) ∧
      (∀ k, k < 8 * numCores → (u.act k).st ≠ .free → (u.act k).part ≠ part) ∧
      (∀ m ∈ u.msgs, m.part = part → m.poison = true ∨ m.doomed = true) ∧
      (∀ h ∈ s.heldBy part, ∀ o ∈ h.2.2, o.kind = .signal → o.handle.getLsbD 63 = true →
        ∃ p ∈ u.homeOps, p.home = shmHome (2 ^ 27 * dieOf h.1 + (bits o.handle 0 27).toNat) ∧ p.add = 0 ∧ p.units = o.count ∧ p.poison = true) ∧
      (∀ g, (tget {} g (s.part part).groups : Group).valid = true →
        (tget {} g (s.part part).groups : Group).phase ∈ (tget {} g (u.part part).groups : Group).poisoned) ∧
      (∀ d n c, tget none n (u.die d).coal = some c →
        (∀ k, .slot k ∈ c.items → 8 * numCores ≤ k ∨ (r.act k).st = .free ∨ (r.act k).part ≠ part) ∧
        (∀ core i x, .cmd core i ∈ c.items → x ∈ (r.core core).matrixQ ++ (r.core core).copyQ ++ (r.core core).colQ → x.id = i → x.part ≠ part) ∧
        (∀ core i, .frame core i ∈ c.items → i ∈ (r.part part).framesOut → r.partOfFrame (r.part part).asid core i ≠ some part))

/-- R214, R215, R321, R323: an uncorrectable error poisons its granule, on a part that replays nothing. A corrected one is recorded: one
of a register strikes the activation of its slot, and one in LOC or an accumulator its core, which logs it with its last dispatch (log
entry 66). ADDR of a register's granule is the model's (log entry 125). -/
def EccEvents : Prop :=
  (∀ (s : State) (g : Granule), (s.cores.all (fun e => e.2.rmode != .replay)) = true → ∃ u : State,
    exec (.eccUncorrected g) s = .next u ∧ alignGranule g ∈ u.poisoned ∧ u.glb = ((s.eccNote 0x81 (alignGranule g)).glb) ∧ u.loc = s.loc ∧
    u.shm = s.shm) ∧
  (∀ (s : State) (g : Granule), let u := s.eccNote 0x80 g
    let addr := (u.granuleOf g).addr
    let strike (c sl : Nat) : Host.Outcome State Fault Refusal :=
      .next (if (u.act (8 * c + sl)).st = .free then u else u.annotate (8 * c + sl) 4 addr)
    let local_ (c : Nat) : Host.Outcome State Fault Refusal :=
      .next (u.annotateCore c (wordOf [(60, 4), (0, ((u.core c).dcount - 1) % 2 ^ 32)]) addr (fun t => t.divergeCore c 0x03 addr))
    exec (.eccCorrected g) s = match g with
      | .sreg c sl _ => strike c sl
      | .vreg c sl _ _ => strike c sl
      | .qreg c sl _ _ => strike c sl
      | .mreg c sl _ => strike c sl
      | .loc c _ => local_ c
      | .acc c _ => local_ c
      | .shm _ _ => .next u
      | .glb _ => .next u
      | .other _ _ => .next u)

end Sys2Proof.Machine

/-- The events of termination and of ECC. -/
def Obligations.TerminationAndEcc : Prop := PoisonedDischarges ∧ TerminationFrees ∧ EccEvents

/-! ## Events: launches, capture and the platform -/

/-- R37, R39, R58, R61, R87, R91, R92, R98, R99, R101, R289, R301: a LAUNCH all of whose checks pass is made, with its patches applied;
one that fails tells the launching software why and changes nothing else. LAUNCH_CLOSE closes it, and LAUNCH_END ends one of
which nothing is left; a grant grows its partition by whole clusters, a shrink starts the departure of theirs, and what a departing
core holds after 2^20 cycles is pre-empted. -/
def Sys2Proof.Machine.LaunchEvents : Prop :=
  (∀ (s : State) (im im' : Image) (l : Launching), l.image = im' →
    l.cls = (s.part im.part).granted im.clusters →
    l.cores = (l.cls.flatMap coresOfCluster).filter (fun c => !((s.core c).part == some im.part && (s.core c).left)) →
    ((s.part im.part).live = true → (s.part im.part).ended = true) → l.cls ≠ [] → im.need ≤ l.cls.length →
    (∀ c ∈ l.cls, s.grantable im.part c = true) → (∀ k ∈ im.keys, 1 ≤ k.2 ∧ k.2 < 64 ∧ k.2 ∈ im.granted) →
    Image_grantsHold im (l.cores.map dieOf) = true → applyPatches im = .ok im' → quantumOf im = .ok l.quantum →
    (∀ w ∈ im'.code, experimental w = false) →
    (∀ e ∈ im'.stages.map (·.entry) ++ im'.handlers.map (·.2) ++ im'.entries, (s.mapImage im').badEntryAt im'.asid.toNat e = none) →
    (s.mapImage im').groupsOf im'.asid.toNat l.cores im'.groups [] = .ok l.groups → placeAll l.cores im'.stages = some l.stages →
    placeLinks l.stages 0 im'.links = .ok l.links → linksFault [] 0 l.links = none →
    exec (.launch im) s = .next (s.startLaunch l)) ∧
  (∀ (s : State) (im : Image) (e : LaunchFailure), s.checkLaunch im = .error e →
    exec (.launch im) s = .next { s with launches := tset none im.part (some e) s.launches }) ∧
  (∀ (s : State) (part : Nat), exec (.launchClose part) s = .next (s.modPart part (fun p => { p with closed := true }))) ∧
  (∀ (s : State) (part : Nat), (s.part part).live = true → (s.part part).ended = false → (s.part part).closed = true →
    s.launchOver part = true → exec (.launchEnd part) s =
      .next (s.modPart part (fun p => { p with ended := true, dispatch := false, edges := [] }))) ∧
  (∀ (s : State) (part : Nat) (cls new : List Nat), (s.part part).live = true → new = (cls.filter (fun c => !(s.part part).clusters.contains c)).dedup →
    ((∀ c ∈ new, s.grantable part c = true) →
      (∀ c ∈ new.flatMap coresOfCluster, ∀ x ∈ (s.part part).shmInit, x.1 < (s.part part).shmSize (dieOf c)) → ∃ u : State,
      exec (.partitionGrow part cls) s = .next u ∧ (u.part part).clusters = (s.part part).granted new ∧
      (∀ c ∈ new.flatMap coresOfCluster, (u.core c).part = some part)) ∧
    (∀ c ∈ new, s.grantable part c = false → exec (.partitionGrow part cls) s = .next s)) ∧
  (∀ (s : State) (part : Nat) (cls : List Nat), exec (.partitionShrink part cls) s =
    .next (((cls.filter (fun c => (s.part part).clusters.contains c)).flatMap coresOfCluster).foldl (fun t c =>
      if (t.core c).part = some part ∧ (t.core c).departing = none then
        (t.modCore c (fun x => { x with departing := some t.cycle })).leaveIfFree c else t) s)) ∧
  (∀ (s : State) (core t : Nat), (s.core core).departing = some t → t + 2 ^ 20 ≤ s.cycle → (s.core core).left = false →
    exec (.departureTimeout core) s = .next ((slotsOf core).foldl (fun s k => s.preemptSlot k) s))

/-- The events of stages and of launching a partition. -/
def Obligations.StageAndLaunchEvents : Prop := StageEvents ∧ LaunchEvents


/-- R312 to R314, R316, R318, R320, R325: capture. At a system core's event whose matchers have an action, every live matcher that looks
at it, by kind, core and value, fires in ascending order: its MARK records are written, LAST names it, and its action is carried out;
a panic fires those of its kind. A precise stop saves what waits, and what runs too long, writes one STOP record on each covered core
once its slots are free, and ends with RESUME. The profile table is cleared and read, which the OS is told. The model's readings: a MARK
is written before its action, and RUN of a STOP record is 0 (log entry 64); PROFILE_READ waits for what ended activations wrote, and
writes in the partition's address space (log entry 67). -/
def Obligations.CaptureEvents : Prop :=
  (∀ (a : Nat) (mk : SysEvent → Instr), (a = 0 ∧ mk = .captureStart) ∨ (a = 1 ∧ mk = .captureStop) ∨ (a = 2 ∧ mk = .captureFreeze) ∨
      (a = 3 ∧ mk = .selectFilter) ∨ (a = 4 ∧ mk = .preciseStop) →
    ∀ (s : State) (e : SysEvent),
      ((∃ n ∈ s.matchersAt e, actionOf (s.matcher n) = a) → exec (mk e) s = .next ((s.matchersAt e).foldl State.fire s)) ∧
      ((∀ n ∈ s.matchersAt e, actionOf (s.matcher n) ≠ a) → exec (mk e) s = .next s)) ∧
  (∀ (s : State) (c : Nat), ∃ l : List Nat, exec (.panic c) s = .next (l.foldl State.fire s) ∧ l.Pairwise (· < ·) ∧
    ∀ n, n ∈ l ↔ n < 8 ∧ matcherLive (s.matcher n) = true ∧ bits (s.matcher n) 60 3 = 3 ∧
      ((s.matcher n).getLsbD 54 = true ∨ (bits (s.matcher n) 48 6).toNat = c)) ∧
  (∀ (s : State) (kind c v n : Nat) (e : SysEvent), (kind = 0 ∧ e = .contextSwitch c v) ∨ (kind = 1 ∧ e = .systemCall c v) ∨
      (kind = 2 ∧ e = .interrupt c v) → (s.matchersAt e).Pairwise (· < ·) ∧
    (n ∈ s.matchersAt e ↔ n < 8 ∧ matcherLive (s.matcher n) = true ∧ (bits (s.matcher n) 60 3).toNat = kind ∧
      ((s.matcher n).getLsbD 54 = true ∨ (bits (s.matcher n) 48 6).toNat = c) ∧ (bits (s.matcher n) 0 32).toNat = v)) ∧
  (∀ (s : State) (n : Nat), let a := actionOf (s.matcher n)
    let t := { s.mark n a with capLast := n }
    s.fire n = match a with
      | 0 => if t.capFrozen then t else { t with capRun := true }
      | 1 => { t with capRun := false }
      | 2 => { t with capRun := false, capFrozen := true }
      | 3 => { t with capFsel := (bits (s.matcher n) 55 2).toNat }
      | _ => t.beginStop) ∧
  (∀ (s : State) (core slot : Nat), (s.core core).covered = true →
    ((s.act (8 * core + slot)).st = .waiting ∨ (s.act (8 * core + slot)).st = .parked ∨ s.stopFrom + 65536 ≤ s.cycle →
      exec (.preciseStopTimeout core slot) s = .next (s.preemptSlot (8 * core + slot))) ∧
    ((s.act (8 * core + slot)).st ≠ .waiting → (s.act (8 * core + slot)).st ≠ .parked → s.cycle < s.stopFrom + 65536 →
      exec (.preciseStopTimeout core slot) s = .next s)) ∧
  (∀ (s t : State) (core : Nat) (ws : List Word), (s.core core).covered = true → (s.core core).landed = false →
    (∀ k ∈ slotsOf core, (s.act k).st = .free) → s.bareWords 0x06 (BitVec.ofNat 64 (coreAddr core))
      (BitVec.ofNat 64 (s.core core).dcount) ((s.core core).stopSaved.zeroExtend 64) = (ws, t) →
    exec (.preciseStopLanding core) s = .next ((if t.capFrozen then t.modDie (dieOf core) (fun x => { x with stopRecs := x.stopRecs ++ [ws] })
      else t.traceWrite (dieOf core) ws).modCore core (fun x => { x with landed := true })).settleStop) ∧
  (∀ s : State, exec .preciseStopResume s = .next s.endStop ∧ exec .captureUnfreeze s = .next s.unfreeze) ∧
  (∀ (s : State) (core : Nat), exec (.profileClear core) s = .next (s.clearProfile core)) ∧
  (∀ (s : State) (core addr p : Nat), (s.core core).part = some p → s.endedDone core = true → exec (.profileRead core addr) s =
    .next (let t := (s.core core).profileBytes.zipIdx.foldl (fun t x => t.pokeVirt (t.part p).asid (addr + x.2) [x.1]) s
      { t with profReplies := t.profReplies ++ [(core, addr)] }))

/-- R327 to R333, R339, R340: the platform. A key slot is loaded or cleared once every base die holds the new contents, and KSCTL ignores
writes till then; a failed host access that is outstanding is counted, and the link that goes down fails every such read; POWER_GOOD leaves
the flash, the fuses and what lies outside the module, and boots copy A at offset 0, else copy B at 2^30, else enters recovery, with slot
0 full; the compute dies leave reset once the OS runs; recovery writes one copy into the flash; the rollback counter only rises; registers
of the system dies are written as their layout says. The model's readings: KDATA is taken when the load completes (log entry 68), either
clear begins COUNT anew (log entry 70), a core's engines are 8, 9 and 10 in HOST_READ_FAIL (log entry 75), and the write that fails is the
last one posted (log entry 122). -/
def Obligations.PlatformEvents : Prop :=
  (∀ (s : State) (n : Nat), s.ksBusy = false →
    exec (.keySlotLoad n) s = .next { s with ksBusy := true, ksOp := some (n % 64, true) } ∧
    exec (.keySlotClear n) s = .next { s with ksBusy := true, ksOp := some (n % 64, false) }) ∧
  (∀ (s : State) (n : Nat) (v : Word), s.ksBusy = true → exec (.keySlotLoad n) s = .next s ∧ exec (.keySlotClear n) s = .next s ∧
    exec (.registerWrite .ksctl v) s = .next s) ∧
  (∀ (s : State) (n : Nat), (s.ksOp = some (n, true) → exec .keySlotDone s = .next { s.loadKey n with ksBusy := false, ksOp := none }) ∧
    (s.ksOp = some (n, false) → exec .keySlotDone s =
      .next { s with keys := tset {} n { s.key n with full := false } s.keys, ksBusy := false, ksOp := none })) ∧
  (∀ (s : State) (core : Nat), let failed (key : Nat) (out : Bool) : State :=
      if out = true ∧ (s.act key).hostFail = false then
        { s.countHostError with hlRerr := true }.modAct key (fun a => { a with hostFail := true }) else s
    (∀ slot, slot < 8 → exec (.hostReadFail core slot) s =
      .next (failed (8 * core + slot) (s.act (8 * core + slot)).hostRead.isSome)) ∧
    (∀ e : Eng, exec (.hostReadFail core (match e with | .matrix => 8 | .copy => 9 | .col => 10)) s =
      .next (failed (engKey core e) (s.engReadsHost core e)))) ∧
  (∀ s : State, (s.posted = none → exec .hostWriteFail s = .next s) ∧
    (∀ a old, s.posted = some (a, old) → exec .hostWriteFail s = .next { s.countHostError with
      hlWerr := true, hlIrqs := s.hlIrqs + 1, host := mwrite a old s.host, posted := none }) ∧
    (∃ u : State, exec .hostLinkDown s = .next u ∧ u.hlDown = true ∧ u.glb = s.glb ∧
      (∀ k, (s.act k).hostRead.isSome = true → (u.act k).hostFail = true) ∧
      (∀ k, (∀ e ∈ s.acts, e.1 = k → e.2.hostRead = none) → u.act k = s.act k)) ∧
    exec .hostLinkUp s = .next { s with hlDown := false } ∧
    exec .clockStepDown s = .next { s with clockStep := min (s.clockStep + 1) 3 } ∧
    exec .clockStepUp s = .next { s with clockStep := s.clockStep - 1 } ∧
    exec .overTemperatureShutdown s = .next { s with tooHot := true, diesOut := false }) ∧
  (∀ s : State, ∃ u : State, exec .powerGood s = .next u ∧ u.flash = s.flash ∧ u.host = s.host ∧ u.diesOut = false ∧ u.osUp = false ∧
    u.acts = [] ∧ (u.key 0).full = true ∧ s.fused ≤ u.fused ∧
    u.boot = (if s.accepts (s.bootAt 0) = true ∨ s.accepts (s.bootAt (2 ^ 30)) = true then .running else .recovery) ∧
    (s.accepts (s.bootAt 0) = true → u.bootCopy = 0 ∧ u.meas = [BootCopy_digest (s.bootAt 0)]) ∧
    (s.accepts (s.bootAt 0) = false → s.accepts (s.bootAt (2 ^ 30)) = true →
      u.bootCopy = 1 ∧ u.meas = [BootCopy_digest (s.bootAt (2 ^ 30))])) ∧
  (∀ s : State, (s.osUp = true → s.tooHot = false → exec .computeDieResetRelease s = .next { s with diesOut := true }) ∧
    (s.osUp = false ∨ s.tooHot = true → exec .computeDieResetRelease s = .next s)) ∧
  (∀ (s : State) (n : Nat) (c : BootCopy),
    (s.boot = .recovery → s.copyWritten = false → n < 2 → exec (.recoveryCopyWrite n c) s =
      .next { s with flash := mwrite (2 ^ 30 * n) (BootCopy_bytes c) s.flash, copyWritten := true }) ∧
    (s.boot ≠ .recovery ∨ s.copyWritten = true → exec (.recoveryCopyWrite n c) s = .next s)) ∧
  (∀ (s : State) (v : Word), exec (.rollbackRaise v) s = .next (match s.boot with
    | .running => if s.fused < v.toNat then { s with rollback := v } else s
    | .off => { s with rollWait := some (match s.rollWait with | some x => if x.toNat < v.toNat then v else x | none => v) }
    | .recovery => s)) ∧
  (∀ (s : State) (nonce : List Byte), exec (.identityReport nonce) s = .next { s with reports := s.reports ++
    [s.identityBody nonce ++ padTo 1280 (Config.falconSign (Config.shake256 (s.identityBody nonce) 64))] }) ∧
  (∀ (s : State) (v : Word) (n d : Nat),
    exec (.registerWrite (.ringBase n) v) s = .next ({ s with rings := tset {} n { (tget {} n s.rings : Ring) with
      base := (bits v 12 44).toNat * 4096, logn := (bits v 0 4).toNat } s.rings }.flushRing n s.ringWait.length) ∧
    exec (.registerWrite (.ringCtl n) v) s = .next ({ s with rings := tset {} n { (tget {} n s.rings : Ring) with
      ovf := (tget {} n s.rings : Ring).ovf && !v.getLsbD 2, irqen := v.getLsbD 1, en := v.getLsbD 0 } s.rings }.flushRing n
        s.ringWait.length) ∧
    (n < 8 → exec (.registerWrite (.matcher n) v) s = .next { s with matchers := tset 0 n v s.matchers }) ∧
    (n < 4 → exec (.registerWrite (.filter n) v) s =
      .next { s with filters := tset none n (some (v &&& 0xFFFFFFFFFF01FFFF)) s.filters }) ∧
    exec (.registerWrite .capstat v) s = .next
      (let t := { s with capRun := v.getLsbD 0, capFsel := (bits v 10 2).toNat }
       let u := if v.getLsbD 1 && t.capFrozen then t.unfreeze else t
       if v.getLsbD 4 then u.endStop else u) ∧
    exec (.registerWrite (.traceBase d) v) s = .next (s.modDie d (fun x => { x with traceBase := v &&& 0x00FFFFFFFFFFF00F })) ∧
    ((bits v 61 2 = 1 ∨ bits v 61 2 = 2) → s.ksBusy = false → exec (.registerWrite .ksctl v) s =
      .next { s with ksBusy := true, ksOp := some ((bits v 0 6).toNat % 64, bits v 61 2 == 1) }) ∧
    (n < 8 → exec (.registerWrite (.kdata n) v) s = .next { s with kdata := tset 0 n v s.kdata }) ∧
    exec (.registerWrite .hlerr v) s = .next { s with
      hlRerr := s.hlRerr && !v.getLsbD 1
      hlWerr := s.hlWerr && !v.getLsbD 0
      hlCount := if v.getLsbD 0 || v.getLsbD 1 then 0 else s.hlCount } ∧
    (∀ r g, exec (.registerWrite (.mcast d r g) v) s = .next (s.modDie d (fun x =>
      { x with mcast := tset 0 (65536 * r + g % 65536) (v &&& 0xFFFE00000FFFFFFF) x.mcast }))) ∧
    (∀ c, let k := 256 * c + n % 256
      exec (.registerWrite (.member d c n) v) s = .next (s.modDie d (fun x =>
        { x with members := tset (0, 0) k ((tget (0, 0) k x.members).1, v) x.members })) ∧
      exec (.registerWrite (.memberGroup d c n) v) s = .next (s.modDie d (fun x =>
        { x with members := tset (0, 0) k (v.toNat % 65536, (tget (0, 0) k x.members).2) x.members }))) ∧
    exec (.registerWrite .lptbase v) s = .next { s with lptBase := v &&& 0x00FFFFFFFFFFF001 } ∧
    exec (.registerWrite (.migPool d) v) s = .next (s.modDie d (fun x => { x with pool := x.pool ++ [v.toNat] })))

/-! ## Statements about every instruction, every word and every step -/

namespace Sys2Proof.Machine

/-- Opcodes of words that touch registers and nothing else: scalar and vector arithmetic, transfers, guards and masks. -/
def registerOnly (opc : Nat) : Bool :=
  (0x001 ≤ opc && opc ≤ 0x01F) || (0x080 ≤ opc && opc ≤ 0x08B) || (0x090 ≤ opc && opc ≤ 0x092) || (0x094 ≤ opc && opc ≤ 0x098) ||
    (0x0A0 ≤ opc && opc ≤ 0x0A9) || (0x100 ≤ opc && opc ≤ 0x11E)

/-- Whether a word that is no engine command serialises (R70, R143). -/
def State.serialises (s : State) (opc : Nat) (w : Operands) : Bool :=
  [0x093, 0x217, 0x20A, 0x219, 0x28E].contains opc || (opc == 0x314 && s.tlSerial w)

/-- Nothing of memory has changed: LOC, SHM, GLB with its views, and host memory. -/
def SameMemory (s t : State) : Prop := t.loc = s.loc ∧ t.shm = s.shm ∧ t.glb = s.glb ∧ t.flight = s.flight ∧ t.host = s.host

/-- Every register of a slot but the s register `n` is unchanged, and so is its status: masks, guards, queue registers, vector
length, FPCTL, FPFLAGS, FAULTINFO, stamp, obligations and protection regions. -/
def OnlyS (n : Nat) (a b : Act) : Prop :=
  (∀ m, m ≠ n → b.sGet m = a.sGet m ∧ b.sDef m = a.sDef m) ∧ b.v = a.v ∧ b.defV = a.defV ∧ b.m = a.m ∧ b.g = a.g ∧ b.q = a.q ∧
    b.vl = a.vl ∧ b.vlGen = a.vlGen ∧ b.fpctl = a.fpctl ∧ b.fpflags = a.fpflags ∧ b.faultInfo = a.faultInfo ∧ b.stamp = a.stamp ∧
    b.tumbler = a.tumbler ∧ b.regions = a.regions ∧ b.outbox = a.outbox ∧ b.st = a.st

end Sys2Proof.Machine

/-- R74: a word of any opcode but those of engine commands and of RPT and RPTEND, at the front end of a running slot, has no effect
when its guard resolves false: the front end goes to the next word, the word has taken its place in its port's turn (R76), and nothing
else changes; YIELD ends no turn then (R446). -/
def Obligations.FalseGuardHasNoEffect : Prop :=
  ∀ (i : Instr) (opc : Nat) (w : Operands) (s : State), toOpcode i = some (opc, w) → isEngineCmd opc = false → opc ≠ 0x308 → opc ≠ 0x309 →
    s.inTurn opc w (s.serialises opc w) = true → s.iss = .front → s.mayIssue = true → s.guardOf w.head = some false →
    exec i s = .next (s.turnedOff opc w.head).advance

/-- R25, R46, R103, R196: whatever a word that touches registers alone ends in (done, a transfer, a stall, a fault that is Held), it
leaves every byte of memory, and every register and PC of the other slots, as they were. A slot whose save for a fault is not finished is
left out: an earlier word that faults then makes that fault give way, and a fault record may be written (R194, R203). -/
def Obligations.RegisterWordsKeepMemory : Prop :=
  ∀ (i : Instr) (opc : Nat) (w : Operands) (s t : State), toOpcode i = some (opc, w) → registerOnly opc = true →
    (∀ v, s.me.save = some v → v.fault = none) → exec i s = .next t → SameMemory s t ∧
      ∀ k, k ≠ s.cur → (t.act k).s = (s.act k).s ∧ (t.act k).v = (s.act k).v ∧ (t.act k).m = (s.act k).m ∧ (t.act k).g = (s.act k).g ∧
        (t.act k).q = (s.act k).q ∧ (t.act k).pc = (s.act k).pc

/-- R25, R46, R118, R196: what the completion of a word that writes an s register means for the registers. The register holds the value
and is not deferred; s0 still reads zero and nothing is written; no other register, no mask, guard, queue register or status of the
slot changes, no other slot does (but for a promotion that ends with a port's turn, R77), and no byte of memory. -/
def Obligations.RegisterWriteFrame : Prop :=
  ∀ (s t : State) (opc n : Nat) (w : Operands) (v : Word), t = (s.wroteS n v).issued opc w →
    (n ≠ 0 → (t.act s.cur).sGet n = v ∧ (t.act s.cur).sDef n = false) ∧ (t.act s.cur).sGet 0 = 0 ∧
    OnlyS n (s.act s.cur) (t.act s.cur) ∧ (∀ k, k ≠ s.cur → t.act k = { s.act k with promoted := (t.act k).promoted }) ∧ SameMemory s t ∧ t.cores = s.cores ∧ t.parts = s.parts ∧
    t.rings = s.rings

namespace Sys2Proof.Machine

/-- What a step's outcome `o` is where the slot in execution of `x` takes the word at its front end, no repetition being open (R57):
12 bytes are fetched at PC; where they decode to an instruction, the step is that instruction's meaning; where they do not,
it takes ILLEGAL_ENCODING at the word. `want`: the stream whose words may go; one of another stream stays. -/
def FrontRuns (x : State) (want : Option Stream) (o : Host.Outcome State Fault Refusal) : Prop :=
  let ended (u : State) : State := { u with iss := .front, later := false }
  x.me.st = .running → x.me.rpt = none →
    (∀ u, x.fetch x.me.pc = .stall u → o = .next (ended u)) ∧
    (∀ f u, x.fetch x.me.pc = .fault f u → o = .next (ended (u.takeFaultAt u.cur { f with strm := 3 } x.me.pc))) ∧
    (∀ bs u, x.fetch x.me.pc = .bytes bs u → u.me.rpt = none →
      let w : IWord := BitVec.ofNat 96 (leNat bs)
      (wantedBy want (streamField w) = false → o = .next (ended u)) ∧
      (wantedBy want (streamField w) = true →
        (∀ i, decodeBytes false bs = .ok i → o = match exec i u with
          | .next t => .next (ended t) | .fault f => .fault f | .refused r => .refused r) ∧
        (∀ c, decodeBytes false bs = .error c → o = .next (ended (u.takeFaultAt u.cur (illegalWord w c) u.me.pc)))))

end Sys2Proof.Machine

/-- R41 to R57, R66, R76, R157: a step in which a slot's front end moves runs the word that it fetches. The slot is the one in `cur`
with an empty agenda, the one that holds its word back, or the one that a port of a core has chosen; a V or E port whose slot has a
queued word runs that one, where no word before it is illegal. A slot whose repetition is open goes on with it (R259 to R261). While the
slot's port holds its words back, a cycle passes (R78, R446). A load that is bound runs again where it stood. An event of the agenda is
carried out if it can happen (R330, R339), the boot chain takes a stage, the OS sends a message, and time passes as the agenda says. Nothing else
happens in the step. -/
def Obligations.StepRunsInstruction : Prop :=
  (∀ s : State, s.agenda = [] → slotExists s.cur = true → s.powered s.cur = true → s.portsFree s.cur = true →
    FrontRuns { s with iss := .front } none (step s) ∧
    (∀ t, s.me.rpt ≠ none → { s with iss := .front }.front none = .next t → step s = .next { t with iss := .front, later := false })) ∧
  (∀ s : State, s.agenda = [] → s.portsFree s.cur = false → step s = .next { s with cycle := s.cycle + 1 }) ∧
  (∀ (s : State) (k : Nat) (r : List Sched), s.agenda = .hold k :: r → slotExists k = true → s.powered k = true →
    FrontRuns { s with agenda := r, cur := k, iss := .hold } none (step s)) ∧
  (∀ (s y : State) (core j : Nat) (st : Stream) (nr : BitVec 8) (later : Bool) (r : List Sched),
    s.agenda = .port core st nr later :: r → slotExists (8 * core) = true →
    { s with agenda := r }.portNext core st nr = (y, some j) → slotExists (8 * core + j) = true → y.powered (8 * core + j) = true →
    let x := { y with cur := 8 * core + j, iss := .front, later := later }
    ((st = .S ∨ ∀ p ∈ x.me.pend, p.strm ≠ st) → FrontRuns x (some st) (step s)) ∧
    (∀ p i, st ≠ .S → x.me.pend.find? (fun p => p.strm == st) = some p → decodeWord false p.word = .ok i →
      (∀ q ∈ x.me.pend.takeWhile (fun q => q.strm != st), encodingFault false q.word = none) →
      step s = match exec i { x with iss := .queued p } with
        | .next t => .next { t with iss := .front, later := false } | .fault f => .fault f | .refused r => .refused r)) ∧
  (∀ (s : State) (k seq opc : Nat) (w : Operands) (p : Pending) (i : Instr) (r : List Sched),
    s.agenda = .bind k seq :: r → slotExists k = true → s.powered k = true →
    (s.act k).late.find? (fun p => p.seq == seq) = some p → p.fields = some (opc, w) → deferrable opc = true →
    decodeWord false p.word = .ok i → ∀ t, exec i { s with agenda := r, cur := k, iss := .queued p } = .next t →
    (t.me.st = (s.act k).st ∧ t.me.save = (s.act k).save) ∨ (s.act k).lastIssued p = true →
    step s = .next { t with iss := .front, later := false }) ∧
  (∀ (s : State) (e : Instr) (r : List Sched), s.agenda = .event e :: r → toOpcode e = none →
    (s.canHappen e = true → step s = exec e { s with agenda := r }) ∧
    (s.canHappen e = false → step s = .next { s with agenda := r })) ∧
  (∀ (s : State) (a : Nat) (os : Bool) (r : List Sched), s.agenda = .stage a os :: r →
    step s = .next ({ s with agenda := r }.bootStage a os)) ∧
  (∀ (s : State) (m : Msg) (r : List Sched), s.agenda = .osSend m :: r →
    step s = .next (if s.osUp = true ∧ s.tooHot = false then { s with agenda := r }.osSend m else { s with agenda := r })) ∧
  (∀ (s : State) (c n : Nat) (r : List Sched), s.agenda = .tick c n :: r →
    step s = .next { s with agenda := r, cycle := s.cycle + c, time := s.time + BitVec.ofNat 64 n }) ∧
  (∀ s : State, slotExists s.cur = false → s.agenda = [] → s.portsFree s.cur = true → step s = .fault .noSuchSlot)

/-- R41 to R54: thirteen words that the spec writes out, with their fields, decode to what they stand for. -/
def Obligations.SpecWordsDecode : Prop :=
  decodeWord false 0x0080_0000_0019_4001_0000_0A00#96 =
    .ok (.add { a := .reg .s false 3, b := .reg .s false 4, c := .reg .s false 5, ty := .i32, sat := true }) ∧
  decodeWord false 0x01C0_0000_0C21_8001_4008_0000#96 =
    .ok (.cmp { a := .reg .g false 4, b := .reg .s false 5, c := .imm 0, ty := .i64 }) ∧
  decodeWord false 0x20C0_0000_0019_0B00_0000_0960#96 =
    .ok (.fcvt { a := .reg .s false 3, c := .reg .s false 4, ty := .i32, rnd := .rtz, opf := 0b10110 }) ∧
  decodeWord false 0x2405_2000_6000_0300_0008_0006#96 =
    .ok (.br { head := { guard := 5, fin := true }, c := .imm 6 }) ∧
  decodeWord false 0x2480_2000_0030_0300_0008_000F#96 =
    .ok (.chk { head := { fin := true }, a := .reg .s false 6, c := .imm 15 }) ∧
  decodeWord false 0x6000_0000_0039_E405_0008_0040#96 =
    .ok (.ldg { a := .reg .s false 7, b := .reg .s false 20, c := .imm 64, ty := .i64, scope := .mod, ord := .acq }) ∧
  decodeWord false 0x6180_0000_001B_5002_4008_0008#96 =
    .ok (.sts { a := .reg .s false 3, b := .reg .s false 9, c := .imm 8, ty := .n32, scope := .die }) ∧
  decodeWord false 0x8200_0000_6006_0300_0018_0000#96 =
    .ok (.fence { scope := .mod }) ∧
  decodeWord false 0x8540_0000_00A6_0002_00A8_0010#96 =
    .ok (.signew { a := .reg .s false 20, b := .reg .s false 8, c := .imm 16, scope := .mod, flg := 0b0101 }) ∧
  decodeWord false 0xA080_0000_0006_0002_4020_0A00#96 =
    .ok (.send { a := .reg .s false 0, b := .reg .s false 9, c := .reg .s false 5, scope := .mod, flg := 0b0001 }) ∧
  decodeWord false 0xA0C0_0000_00BE_8006_0000_3200#96 =
    .ok (.spawn { a := .reg .s false 23, b := .reg .s false 24, c := .reg .s false 25, scope := .mod, ord := .rel }) ∧
  decodeWord false 0xC000_8000_1006_0002_8000_1800#96 =
    .ok (.mma { head := { stream := .E }, a := .reg .z false 0, b := .reg .s false 10, c := .reg .s false 12, scope := .mod }) ∧
  decodeWord false 0xC100_8000_0056_C002_C008_1000#96 =
    .ok (.cpy { head := { stream := .E }, a := .reg .s false 10, b := .reg .s false 11, c := .imm 4096, scope := .mod, ord := .acqrel })

/-- The encoder and the decoder agree: every well-formed instruction that has a word is what the decoder reads from its word, inside
and outside a repetition, and every word that the decoder takes is the word of the instruction that it reads. -/
def Obligations.CodecRoundTrip : Prop :=
  (∀ (body : Bool) (i : Instr) (w : IWord), i.wf body = true → encode i = some w → decodeWord body w = .ok i) ∧
  (∀ (body : Bool) (i : Instr) (w : IWord), decodeWord body w = .ok i → i.wf body = true ∧ encode i = some w)

/-- R60: the part has 174 opcodes. None of 0x389 to 0x3FF is one, and a word of any opcode that is none is no instruction: it faults
with ILLEGAL_ENCODING under cause 0x01. -/
def Obligations.UnassignedOpcodesFault : Prop :=
  ((List.range 1024).filter (fun opc => (entryOf opc).isSome)).length = 174 ∧
  (∀ opc, 0x389 ≤ opc → entryOf opc = none) ∧
  (∀ (body : Bool) (w : IWord), entryOf (opcField w) = none → decodeWord body w = .error (0x01, 0)) ∧
  (∀ (s : State) (w : IWord), entryOf (opcField w) = none → s.decoded none w = .next (s.takeFaultAt s.cur
    { code := 0x01, detail := 0x01, strm := streamField w, addr := (bits w 64 32).zeroExtend 64, info := bits w 0 64 } s.me.pc))

/-- R94: VLMAX reads 16 lanes of 32 bits with its reserved bits zero, a write of it has no effect, and no length that VLGET grants
exceeds its LANES: the smaller of the request and 16. -/
def Obligations.VectorLengthLimit : Prop :=
  (∀ s : State, bits (s.ctlRead 0x09) 0 8 = 16 ∧ bits (s.ctlRead 0x09) 8 8 = 32 ∧ bits (s.ctlRead 0x09) 16 48 = 0) ∧
  (∀ (s : State) (v : Word), s.ctlWrite 0x09 v = s) ∧
  (∀ (w : Operands) (s r : State), Issues 0x10A w false s r → r.dfr w.c = false → ∃ t : State, exec (.vlget w) s = .next t ∧
    (r.me.vlGen = r.vlGen → (t.act r.cur).vl = min (r.val w.c).toNat 16 ∧ (t.act r.cur).vl ≤ (bits (t.ctlRead 0x09) 0 8).toNat) ∧
    (∀ rot n, w.a = .reg .s rot n → ((t.act r.cur).sGet n.toNat).toNat ≤ (bits (t.ctlRead 0x09) 0 8).toNat))

/-- R151: END with any tumbler entry in use faults with OBL_AT_END: its slot goes to PARKED at the END with its registers and its table as
they are, FAULTINFO holds the code, and the record that is written names the first entry in use. -/
def Obligations.EndWithObligations : Prop :=
  ∀ (w : Operands) (s r : State) (o : Obl) (l : List Obl), Issues 0x093 w true s r → r.iss = .front → w.head.stream = .S →
    r.me.oblUsed = o :: l →
    let f : FaultReq := { code := 0x27, addr := o.handle, info := o.word false }
    exec (.endOp w) s = .next ((((r.dropFault r.cur).forgetKey r.cur).modAct r.cur (fun a => { a with st := .parked, faultInfo := faultInfoOf f .end_ })).post r.myPart.asid
      (recordWords f r.myPart.asid false r.me.pc none r.myCore (slotOf r.cur) r.me.stamp))

/-- R220: the counts of shifts and rotates are unsigned 64-bit values. SHL and SHR by w or more give 0; SAR by w or more gives copies of
the sign bit, which an unsigned type does not have; ROL rotates by the count mod w: bit j of the result is bit j − n of the value, mod w.
None raises a flag. -/
def Obligations.ShiftCounts : Prop :=
  ∀ t ∈ [Ty.i8, .i16, .i32, .i64, .n8, .n16, .n32, .n64], ∀ x n : Word,
    (t.width ≤ n.toNat → (shlVal t x n).1 = 0 ∧ (shrVal t x n).1 = 0) ∧
    (t.width ≤ n.toNat → (sarVal t x n).1 = if ival t x < 0 then BitVec.allOnes 64 else 0) ∧
    (∀ j, j < t.width → (rolVal t x n).1.getLsbD ((j + n.toNat) % t.width) = x.getLsbD j) ∧
    (shlVal t x n).2 = 0 ∧ (shrVal t x n).2 = 0 ∧ (sarVal t x n).2 = 0 ∧ (rolVal t x n).2 = 0

/-- R218, R219: an exact result under SAT: .wrap gives it mod 2^w, read by the type's signedness, and no flag; .sat clamps it to the
type's range, and ISAT tells whether the clamp changed it. -/
def Obligations.FittedResults : Prop :=
  ∀ t ∈ [Ty.i8, .i16, .i32, .i64, .n8, .n16, .n32, .n64], ∀ r : Int,
    (t.fit false r).2 = 0 ∧ t.minVal ≤ (t.fit false r).1 ∧ (t.fit false r).1 ≤ t.maxVal ∧ (2 ^ t.width : Int) ∣ (t.fit false r).1 - r ∧
    (t.fit true r).1 = max t.minVal (min t.maxVal r) ∧ ((t.fit true r).2 = flagISAT ↔ (t.fit true r).1 ≠ r) ∧
    ((t.fit true r).2 = 0 ↔ (t.fit true r).1 = r)

/-- R310: outside a local-time partition LTADV, LTANN, LTNULL, LTSET and LTWAIT have no effect, LTLOOK writes all ones, and LTGET gives the
stamp for selector 0x40 and 0 for every other. -/
def Obligations.OutsideLocalTime : Prop :=
  ∀ (w : Operands) (s r : State), r.myPart.lt = false →
    (Issues 0x288 w false s r → r.deferredIn 0x288 w [2] = none → exec (.ltadv w) s = .next (r.issued 0x288 w)) ∧
    (Issues 0x289 w false s r → exec (.ltann w) s = .next (r.issued 0x289 w)) ∧
    (Issues 0x28C w false s r → r.deferredIn 0x28C w [0, 2] = none → exec (.ltnull w) s = .next (r.issued 0x28C w)) ∧
    (Issues 0x28D w false s r → r.deferredIn 0x28D w [2] = none → exec (.ltset w) s = .next (r.issued 0x28D w)) ∧
    (Issues 0x28E w true s r → r.deferredIn 0x28E w [2] = none → exec (.ltwait w) s = .next (r.issued 0x28E w)) ∧
    (Issues 0x28B w false s r → r.deferredIn 0x28B w [1, 2] = none →
      exec (.ltlook w) s = .next ((r.wroteS (opndNum w.a) 0xFFFFFFFFFFFFFFFF).issued 0x28B w)) ∧
    (Issues 0x28A w false s r → r.deferredIn 0x28A w [2] = none → exec (.ltget w) s =
      .next ((r.wroteS (opndNum w.a) (if (r.val w.c).toNat % 256 = 0x40 then r.me.stamp else 0)).issued 0x28A w))

/-- R137: OBLTAKE adds its n units to the issuer's SIGNAL entry and to HOLDERS of the block together; where the table or COUNT cannot take
them it faults with OBL_FULL, and the block is not touched. -/
def Obligations.ObltakeIsWhole : Prop :=
  ∀ (w : Operands) (s r : State), Issues 0x212 w false s r →
    (∀ (u : State) (p : Piece) (home : Nat), ReachesBlock 0x212 w [0, 2] (r.val w.a) false r u p home → u.liveAt home →
      (u.block home).poison = false → 0 < r.oblCountOf w → (u.block home).holders.toNat + r.oblCountOf w < 2 ^ 32 →
      (r.me.oblAcquire .signal (r.val w.a) 0 (r.oblCountOf w)).isSome = true → ∃ t : State, exec (.obltake w) s = .next t ∧
        (t.block home).holders.toNat = (u.block home).holders.toNat + r.oblCountOf w ∧
        (t.act r.cur).oblUnits .signal (r.val w.a) = r.me.oblUnits .signal (r.val w.a) + r.oblCountOf w) ∧
    (r.deferredIn 0x212 w [0, 2] = none → 0 < r.oblCountOf w → (r.me.oblAcquire .signal (r.val w.a) 0 (r.oblCountOf w)).isSome = false →
      r.iss = .front → w.head.stream = .S → ∃ t : State,
      exec (.obltake w) s = .next (t.takeFault 0x212 w { code := 0x24, addr := r.val w.a }) ∧ t.glb = r.glb ∧ t.shm = r.shm ∧ t.flight = r.flight)

/-- R25, R73, R94, R188, R189, R200, R205, R206, R221, R222, R231, R243, R247, R313, R314, R317, R328, R332: after reset the registers read
the values that the spec gives: in a slot, on a core, in a partition and in the module. -/
def Obligations.ResetValues : Prop :=
  (∀ k, (State.reset.act k).st = .free ∧ (State.reset.act k).vl = 16 ∧ (State.reset.act k).fpctl = 0 ∧ (State.reset.act k).fpflags = 0 ∧
    (State.reset.act k).near = false ∧ (State.reset.act k).faultInfo = 0x1FC0 ∧ (∀ n, (State.reset.act k).sGet n = 0) ∧
    (State.reset.act k).mGet 0 = 0xFFFF ∧ (State.reset.act k).gGet 0 = .t) ∧
  (∀ c, (State.reset.core c).mmwgt = 0 ∧ (State.reset.core c).trcctl = 0 ∧ (∀ n, (tget {} n (State.reset.core c).rows).word = 0) ∧
    (∀ n, nth 0 (State.reset.core c).t4 n = 0) ∧ (∀ n, (State.reset.tile c n).size = 0) ∧ (∀ n, State.reset.heldTile c n = false)) ∧
  (∀ p, (State.reset.part p).thresh = 0x40 ∧ (State.reset.part p).pinFull = false ∧ (State.reset.part p).refused = false ∧
    (State.reset.part p).hint = false) ∧
  (∀ n, (tget {} n State.reset.rings : Ring) = {} ∧ State.reset.matcher n = 0 ∧ State.reset.filter n = 0xFFFFFFFFFF010000 ∧
    (State.reset.key n).full = false) ∧
  State.reset.capRun = false ∧ State.reset.capFrozen = false ∧ State.reset.hlCount = 0 ∧ State.reset.hlDown = false ∧
  State.reset.ksBusy = false ∧ State.reset.diesOut = false ∧ State.reset.boot = .off

/-- The memories keep their canonical form in every step, whatever the machine does: rising addresses, and no byte listed that an unlisted
address reads as. Equal memories are equal data. -/
def Obligations.MemoryFormKept : Prop := ∀ (s t : State), MemInv s → step s = .next t → MemInv t

/-- The memories have that form after reset, where nothing is listed. -/
def Obligations.MemoryFormAtReset : Prop := MemInv State.reset

/-- Memory reads back what is written: a write of bytes at an address gives those bytes there and leaves every other address alone, and
memories in canonical form that read the same everywhere are equal. -/
def Obligations.MemoryIsExtensional : Prop :=
  (∀ (m : Mem) (a : Nat) (bs : List Byte) (x : Nat), mget x (mwrite a bs m) =
    if a ≤ x ∧ x < a + bs.length then bs.getD (x - a) 0 else mget x m) ∧
  (∀ (m k : Mem), Memory.wf m = true → Memory.wf k = true → (∀ x, mget x m = mget x k) → m = k)

namespace Sys2Proof.Machine

/-- A finite value of the floating-point formats as a real number. -/
def IsReal (v : FVal) (x : ℝ) : Prop := ∃ n m e, v = .fin n m e ∧ x = (signed n m : ℝ) * (2 : ℝ) ^ e

/-- A binary32 result is the real number `r`, and, unless it is a zero that FTZ may have put in its place, lies within `bound` of `y`. -/
def ResultNear (z : Bool) (res : FRes) (y bound : ℝ) (strict : Bool) : Prop :=
  ∃ r, IsReal (Ty.f32.fmt.decode false res.1) r ∧
    (z = false ∨ r ≠ 0 → if strict = true then |r - y| < bound else |r - y| ≤ bound)

/-- The exponent of a binary32 ulp at a real number that is not zero. -/
def IsUlpExp (y : ℝ) (u : ℤ) : Prop := u = max (Int.log 2 |y|) (-126) - 23

end Sys2Proof.Machine

/-- R431: the results of VRCP, VRSQ, VEXP2 and VLOG2, for every input lane x, whose value `v` FTZ has read as zero where it is denormal.
VRCP and VRSQ err by less than 1 ulp of the exact result, and VRCP overflows to infinity with OF; VEXP2 errs by at most 2 ulp, and integers
whose power the format holds are exact; VLOG2 errs by at most 2^−21 for x in [0.5, 2] and elsewhere by at most 2 ulp, and powers of two are exact.
NX is set on every other result, and the special inputs give the listed results and flags. -/
def Obligations.ApproximationBounds : Prop :=
  ∀ (z : Bool) (x : Lane), let d := Ty.f32.fmt.decode z x.toNat
    (∀ s, d = .nan s → ∀ f ∈ [vrcpVal, vrsqVal, vexp2Val, vlog2Val], f z x = (0x7FC00000, if s then flagNV else 0)) ∧
    (∀ n, d = .inf n → vrcpVal z x = (if n then 0x80000000 else 0, 0) ∧ vexp2Val z x = (if n then 0 else 0x7F800000, 0) ∧
      vrsqVal z x = (if n then (0x7FC00000, flagNV) else (0, 0)) ∧ vlog2Val z x = (if n then (0x7FC00000, flagNV) else (0x7F800000, 0))) ∧
    (∀ n e, d = .fin n 0 e → vrcpVal z x = (if n then 0xFF800000 else 0x7F800000, flagDZ) ∧
      vrsqVal z x = (if n then 0xFF800000 else 0x7F800000, flagDZ) ∧ vlog2Val z x = (0xFF800000, flagDZ)) ∧
    (∀ v : ℝ, IsReal d v →
      (v < 0 → vrsqVal z x = (0x7FC00000, flagNV) ∧ vlog2Val z x = (0x7FC00000, flagNV)) ∧
      (v ≠ 0 → (vrcpVal z x).2 &&& flagNX = flagNX ∧
        (|v⁻¹| < 2 ^ (128 : ℤ) → ∀ u, IsUlpExp v⁻¹ u → ResultNear z (vrcpVal z x) v⁻¹ (2 ^ u) true) ∧
        (2 ^ (128 : ℤ) ≤ |v⁻¹| → vrcpVal z x = (if v < 0 then 0xFF800000 else 0x7F800000, flagOF ||| flagNX))) ∧
      (0 < v → (vrsqVal z x).2 &&& flagNX = flagNX ∧
        ∀ u, IsUlpExp (√v)⁻¹ u → ResultNear z (vrsqVal z x) (√v)⁻¹ (2 ^ u) true) ∧
      (128 ≤ v → vexp2Val z x = (0x7F800000, flagOF ||| flagNX)) ∧ (v < -150 → vexp2Val z x = (0, flagUF ||| flagNX)) ∧
      (∀ n : ℤ, v = n → -149 ≤ n → n < 128 → ResultNear z (vexp2Val z x) (2 ^ n) 0 false ∧
        (-126 ≤ n ∨ z = false → (vexp2Val z x).2 = 0)) ∧
      (-150 ≤ v → v < 128 → (∀ n : ℤ, -149 ≤ n → v ≠ n) → (vexp2Val z x).2 &&& flagNX = flagNX ∧
        ∀ u, IsUlpExp ((2 : ℝ) ^ v) u → ResultNear z (vexp2Val z x) ((2 : ℝ) ^ v) (2 ^ (u + 1)) false) ∧
      (∀ n : ℤ, v = 2 ^ n → vlog2Val z x = Ty.f32.fmt.ofInt .rne false n ∧ ResultNear false (vlog2Val z x) n 0 false) ∧
      (0 < v → (∀ n : ℤ, v ≠ 2 ^ n) → (vlog2Val z x).2 &&& flagNX = flagNX ∧
        (1 / 2 ≤ v → v ≤ 2 → ResultNear z (vlog2Val z x) (Real.logb 2 v) (2 ^ (-21 : ℤ)) false) ∧
        (v < 1 / 2 ∨ 2 < v → ∀ u, IsUlpExp (Real.logb 2 v) u →
          ResultNear z (vlog2Val z x) (Real.logb 2 v) (2 ^ (u + 1)) false)))
end

