-- ==== Sys2Proof/Laws/Table.lean ====
section
/-!
SUPPORT. Sparse tables: a read after a write, and that every operation keeps the canonical form.
-/

namespace Sys2Proof

variable {α : Type}

theorem tget_tdel_same (d : α) (k : Nat) (t : Tab α) : tget d k (tdel k t) = d := by
  induction t with
  | nil => rfl
  | cons x t ih => obtain ⟨k', v⟩ := x; by_cases h : k' = k <;> simp [tdel, tget, h, ih]

theorem tget_tdel_other (d : α) {k j : Nat} (h : j ≠ k) (t : Tab α) : tget d j (tdel k t) = tget d j t := by
  induction t with
  | nil => rfl
  | cons x t ih =>
    obtain ⟨k', v⟩ := x
    by_cases hk : k' = k
    · subst hk; simp [tdel, tget, ih, Ne.symm h]
    · by_cases hj : k' = j <;> simp [tdel, tget, hk, hj, ih, h]

@[simp] theorem tget_tset_same [DecidableEq α] (d : α) (k : Nat) (v : α) (t : Tab α) : tget d k (tset d k v t) = v := by
  induction t with
  | nil => by_cases h : v = d <;> simp [tset, tget, h]
  | cons x t ih =>
    obtain ⟨k', v'⟩ := x
    by_cases h1 : k < k'
    · by_cases h : v = d
      · subst h; simp only [tset, h1, if_true]; exact tget_tdel_same _ _ _
      · simp [tset, tget, h1, h]
    · by_cases h2 : k' = k
      · subst h2
        by_cases h : v = d
        · subst h; simp only [tset, h1, if_true, if_false]; exact tget_tdel_same _ _ _
        · simp [tset, tget, h]
      · simp [tset, tget, h1, h2, ih]

@[simp] theorem tget_tset_other [DecidableEq α] (d : α) {k j : Nat} (hj : j ≠ k) (v : α) (t : Tab α) :
    tget d j (tset d k v t) = tget d j t := by
  induction t with
  | nil => by_cases h : v = d <;> simp [tset, tget, h, Ne.symm hj]
  | cons x t ih =>
    obtain ⟨k', v'⟩ := x
    by_cases h1 : k < k'
    · by_cases h : v = d
      · simp only [tset, h1, h, if_true]; exact tget_tdel_other d hj _
      · simp [tset, tget, h1, h, Ne.symm hj]
    · by_cases h2 : k' = k
      · have h3 : k' ≠ j := by omega
        subst h2
        by_cases h : v = d
        · simp only [tset, h1, h, if_true, if_false]
          rw [tget_tdel_other d hj]; simp [tget, h3]
        · simp [tset, tget, h, h3]
      · by_cases h4 : k' = j <;> simp [tset, tget, h1, h2, ih]

theorem tabOk_weaken [DecidableEq α] {d : α} {lo lo' : Nat} {t : Tab α} (h : tabOk d lo t = true) (hl : lo' ≤ lo) :
    tabOk d lo' t = true := by
  cases t with
  | nil => rfl
  | cons x t =>
    obtain ⟨k, v⟩ := x
    simp only [tabOk, Bool.and_eq_true, decide_eq_true_eq] at h ⊢
    exact ⟨⟨by omega, h.1.2⟩, h.2⟩

theorem tabOk_tdel [DecidableEq α] {d : α} (k : Nat) {lo : Nat} {t : Tab α} (h : tabOk d lo t = true) :
    tabOk d lo (tdel k t) = true := by
  induction t generalizing lo with
  | nil => rfl
  | cons x t ih =>
    obtain ⟨k', v⟩ := x
    simp only [tabOk, Bool.and_eq_true, decide_eq_true_eq] at h
    by_cases hk : k' = k
    · simp only [tdel, hk, if_true]; exact ih (tabOk_weaken h.2 (by omega))
    · simp only [tdel, hk, if_false, tabOk, Bool.and_eq_true, decide_eq_true_eq]; exact ⟨h.1, ih h.2⟩

theorem tabOk_tset [DecidableEq α] {d : α} (k : Nat) (v : α) {lo : Nat} {t : Tab α} (h : tabOk d lo t = true)
    (hk : lo ≤ k) : tabOk d lo (tset d k v t) = true := by
  induction t generalizing lo with
  | nil => by_cases hv : v = d <;> simp [tset, tabOk, hv, hk]
  | cons x t ih =>
    obtain ⟨k', v'⟩ := x
    have h0 := h
    simp only [tabOk, Bool.and_eq_true, decide_eq_true_eq] at h
    by_cases h1 : k < k'
    · by_cases hv : v = d
      · simp only [tset, h1, hv, if_true]; exact tabOk_tdel k h0
      · simp only [tset, h1, hv, if_true, if_false, tabOk, Bool.and_eq_true, decide_eq_true_eq]
        exact ⟨⟨hk, by simp⟩, ⟨by omega, h.1.2⟩, h.2⟩
    · by_cases h2 : k' = k
      · subst h2
        by_cases hv : v = d
        · simp only [tset, h1, hv, if_true, if_false]; exact tabOk_tdel _ (tabOk_weaken h.2 (by omega))
        · simp only [tset, h1, hv, if_true, if_false, tabOk, Bool.and_eq_true, decide_eq_true_eq]
          exact ⟨⟨hk, by simp⟩, h.2⟩
      · simp only [tset, h1, h2, if_false, tabOk, Bool.and_eq_true, decide_eq_true_eq]
        exact ⟨h.1, ih h.2 (by omega)⟩

theorem tabOk_filter [DecidableEq α] {d : α} (p : Nat × α → Bool) {lo : Nat} {t : Tab α} (h : tabOk d lo t = true) :
    tabOk d lo (t.filter p) = true := by
  induction t generalizing lo with
  | nil => rfl
  | cons x t ih =>
    obtain ⟨k, v⟩ := x
    simp only [tabOk, Bool.and_eq_true, decide_eq_true_eq] at h
    by_cases hp : p (k, v) = true
    · simp only [List.filter_cons, hp, if_true, tabOk, Bool.and_eq_true, decide_eq_true_eq]; exact ⟨h.1, ih h.2⟩
    · simp only [List.filter_cons, hp]; exact ih (tabOk_weaken h.2 (by omega))

/-! ## Memories -/

theorem wf_tset {m : Mem} (h : Memory.wf m = true) (a : Nat) (b : Byte) : Memory.wf (tset 0 a b m) = true :=
  tabOk_tset a b h (Nat.zero_le _)

theorem wf_filter {m : Mem} (h : Memory.wf m = true) (p : Nat × Byte → Bool) : Memory.wf (m.filter p) = true :=
  tabOk_filter p h

theorem wf_mwrite (bs : List Byte) : ∀ (a : Nat) {m : Mem}, Memory.wf m = true → Memory.wf (mwrite a bs m) = true := by
  induction bs with
  | nil => intro a m h; exact h
  | cons b bs ih => intro a m h; exact ih _ (wf_tset h a b)

theorem wf_mput (r : List (Nat × Byte)) : ∀ {m : Mem}, Memory.wf m = true → Memory.wf (mput r m) = true := by
  induction r with
  | nil => intro m h; exact h
  | cons x r ih => intro m h; obtain ⟨a, b⟩ := x; exact ih (wf_tset h a b)

/-- A byte outside the stored run reads as before. -/
theorem mget_mwrite_other (bs : List Byte) : ∀ (a : Nat) {j : Nat} {m : Mem}, (j < a ∨ a + bs.length ≤ j) →
    mget j (mwrite a bs m) = mget j m := by
  induction bs with
  | nil => intro a j m _; rfl
  | cons b bs ih =>
    intro a j m h
    simp only [List.length_cons] at h
    rw [mwrite, ih (a + 1) (by omega)]
    exact tget_tset_other 0 (by omega) b m

/-- A byte of the stored run reads as stored. -/
theorem mget_mwrite_same (bs : List Byte) : ∀ (a : Nat) {i : Nat} {m : Mem}, i < bs.length →
    mget (a + i) (mwrite a bs m) = bs.getD i 0 := by
  induction bs with
  | nil => intro a i m h; simp at h
  | cons b bs ih =>
    intro a i m h
    cases i with
    | zero => rw [mwrite, mget_mwrite_other bs (a + 1) (by omega)]; simp [mget]
    | succ i =>
      rw [mwrite, show a + (i + 1) = a + 1 + i by omega, ih (a + 1) (by simpa using h)]; simp

end Sys2Proof
end

