-- ==== Sys2Proof/Laws/State.lean ====
section
/-!
SUPPORT. What an update of the state changes: for each update of a slot, core, die or partition, every field that it leaves
alone, and what a read finds after it. With these no proof unfolds a record update.
-/

namespace Sys2Proof.Machine

/-! ## Reads after updates -/

@[simp] theorem State.act_setAct (s : State) (k : Nat) (a : Act) : (s.setAct k a).act k = a := tget_tset_same _ _ _ _
@[simp] theorem State.act_setAct_other (s : State) {k j : Nat} (h : j ≠ k) (a : Act) : (s.setAct k a).act j = s.act j :=
  tget_tset_other _ h _ _
@[simp] theorem State.act_modAct (s : State) (k : Nat) (f : Act → Act) : (s.modAct k f).act k = f (s.act k) :=
  tget_tset_same _ _ _ _
@[simp] theorem State.act_modAct_other (s : State) {k j : Nat} (h : j ≠ k) (f : Act → Act) : (s.modAct k f).act j = s.act j :=
  tget_tset_other _ h _ _
@[simp] theorem State.me_modMe (s : State) (f : Act → Act) : (s.modMe f).me = f s.me := tget_tset_same _ _ _ _
@[simp] theorem State.act_modMe_other (s : State) {j : Nat} (h : j ≠ s.cur) (f : Act → Act) : (s.modMe f).act j = s.act j :=
  tget_tset_other _ h _ _
@[simp] theorem State.core_modCore (s : State) (c : Nat) (f : Core → Core) : (s.modCore c f).core c = f (s.core c) :=
  tget_tset_same _ _ _ _
@[simp] theorem State.core_modCore_other (s : State) {c d : Nat} (h : d ≠ c) (f : Core → Core) :
    (s.modCore c f).core d = s.core d := tget_tset_other _ h _ _
@[simp] theorem State.die_modDie (s : State) (d : Nat) (f : Die → Die) : (s.modDie d f).die d = f (s.die d) :=
  tget_tset_same _ _ _ _
@[simp] theorem State.die_modDie_other (s : State) {d e : Nat} (h : e ≠ d) (f : Die → Die) : (s.modDie d f).die e = s.die e :=
  tget_tset_other _ h _ _
@[simp] theorem State.part_modPart (s : State) (p : Nat) (f : Part → Part) : (s.modPart p f).part p = f (s.part p) :=
  tget_tset_same _ _ _ _
@[simp] theorem State.part_modPart_other (s : State) {p q : Nat} (h : q ≠ p) (f : Part → Part) :
    (s.modPart p f).part q = s.part q := tget_tset_other _ h _ _

/-! ## Registers -/

@[simp] theorem Act.sGet_sSet (a : Act) {n : Nat} (h : n ≠ 0) (v : Word) (d : Bool) : (a.sSet n v d).sGet n = v := by
  simp [Act.sGet, Act.sSet, h]
@[simp] theorem Act.sGet_sSet_other (a : Act) {n m : Nat} (h : m ≠ n) (v : Word) (d : Bool) : (a.sSet n v d).sGet m = a.sGet m := by
  by_cases hn : n = 0 <;> simp [Act.sGet, Act.sSet, hn, h]
@[simp] theorem Act.sDef_sSet (a : Act) {n : Nat} (h : n ≠ 0) (v : Word) (d : Bool) : (a.sSet n v d).sDef n = d := by
  simp [Act.sDef, Act.sSet, h]
@[simp] theorem Act.sDef_sSet_other (a : Act) {n m : Nat} (h : m ≠ n) (v : Word) (d : Bool) : (a.sSet n v d).sDef m = a.sDef m := by
  by_cases hn : n = 0 <;> simp [Act.sDef, Act.sSet, hn, h]
@[simp] theorem Act.sGet_zero (a : Act) : a.sGet 0 = 0 := rfl
@[simp] theorem Act.sDef_zero (a : Act) : a.sDef 0 = false := rfl
@[simp] theorem Act.sSet_zero (a : Act) (v : Word) (d : Bool) : a.sSet 0 v d = a := rfl
@[simp] theorem Act.vGet_vSet (a : Act) (n : Nat) (v : Vec) (d : Bool) : (a.vSet n v d).vGet n = v := tget_tset_same _ _ _ _
@[simp] theorem Act.vGet_vSet_other (a : Act) {n m : Nat} (h : m ≠ n) (v : Vec) (d : Bool) : (a.vSet n v d).vGet m = a.vGet m :=
  tget_tset_other _ h _ _
@[simp] theorem Act.vDef_vSet (a : Act) (n : Nat) (v : Vec) (d : Bool) : (a.vSet n v d).vDef n = d := tget_tset_same _ _ _ _
@[simp] theorem Act.vDef_vSet_other (a : Act) {n m : Nat} (h : m ≠ n) (v : Vec) (d : Bool) : (a.vSet n v d).vDef m = a.vDef m :=
  tget_tset_other _ h _ _
@[simp] theorem Act.mGet_mSet (a : Act) {n : Nat} (h : n ≠ 0) (v : BitVec 16) : (a.mSet n v).mGet n = v := by
  simp [Act.mGet, Act.mSet, h]
@[simp] theorem Act.mGet_mSet_other (a : Act) {n m : Nat} (h : m ≠ n) (v : BitVec 16) : (a.mSet n v).mGet m = a.mGet m := by
  by_cases hn : n = 0 <;> simp [Act.mGet, Act.mSet, hn, h]
@[simp] theorem Act.gGet_gSet (a : Act) {n : Nat} (h : n ≠ 0) (v : GVal) : (a.gSet n v).gGet n = v := by
  simp [Act.gGet, Act.gSet, h]
@[simp] theorem Act.gGet_gSet_other (a : Act) {n m : Nat} (h : m ≠ n) (v : GVal) : (a.gSet n v).gGet m = a.gGet m := by
  by_cases hn : n = 0 <;> simp [Act.gGet, Act.gSet, hn, h]
@[simp] theorem Act.qGet_qSet (a : Act) (n : Nat) (l : List Word) : (a.qSet n l).qGet n = l := tget_tset_same _ _ _ _
@[simp] theorem Act.qGet_qSet_other (a : Act) {n m : Nat} (h : m ≠ n) (l : List Word) : (a.qSet n l).qGet m = a.qGet m :=
  tget_tset_other _ h _ _


/-! ## Fields of the state that setAct leaves alone -/

@[simp] theorem State.setAct_agenda (s : State) (k : Nat) (a : Act) : (s.setAct k a).agenda = s.agenda := rfl
@[simp] theorem State.setAct_cur (s : State) (k : Nat) (a : Act) : (s.setAct k a).cur = s.cur := rfl
@[simp] theorem State.setAct_iss (s : State) (k : Nat) (a : Act) : (s.setAct k a).iss = s.iss := rfl
@[simp] theorem State.setAct_later (s : State) (k : Nat) (a : Act) : (s.setAct k a).later = s.later := rfl
@[simp] theorem State.setAct_fresh (s : State) (k : Nat) (a : Act) : (s.setAct k a).fresh = s.fresh := rfl
@[simp] theorem State.setAct_nextWid (s : State) (k : Nat) (a : Act) : (s.setAct k a).nextWid = s.nextWid := rfl
@[simp] theorem State.setAct_nextUid (s : State) (k : Nat) (a : Act) : (s.setAct k a).nextUid = s.nextUid := rfl
@[simp] theorem State.setAct_cycle (s : State) (k : Nat) (a : Act) : (s.setAct k a).cycle = s.cycle := rfl
@[simp] theorem State.setAct_time (s : State) (k : Nat) (a : Act) : (s.setAct k a).time = s.time := rfl
@[simp] theorem State.setAct_ports (s : State) (k : Nat) (a : Act) : (s.setAct k a).ports = s.ports := rfl
@[simp] theorem State.setAct_framed (s : State) (k : Nat) (a : Act) : (s.setAct k a).framed = s.framed := rfl
@[simp] theorem State.setAct_cores (s : State) (k : Nat) (a : Act) : (s.setAct k a).cores = s.cores := rfl
@[simp] theorem State.setAct_dies (s : State) (k : Nat) (a : Act) : (s.setAct k a).dies = s.dies := rfl
@[simp] theorem State.setAct_parts (s : State) (k : Nat) (a : Act) : (s.setAct k a).parts = s.parts := rfl
@[simp] theorem State.setAct_launches (s : State) (k : Nat) (a : Act) : (s.setAct k a).launches = s.launches := rfl
@[simp] theorem State.setAct_loc (s : State) (k : Nat) (a : Act) : (s.setAct k a).loc = s.loc := rfl
@[simp] theorem State.setAct_shm (s : State) (k : Nat) (a : Act) : (s.setAct k a).shm = s.shm := rfl
@[simp] theorem State.setAct_acc (s : State) (k : Nat) (a : Act) : (s.setAct k a).acc = s.acc := rfl
@[simp] theorem State.setAct_accSeed (s : State) (k : Nat) (a : Act) : (s.setAct k a).accSeed = s.accSeed := rfl
@[simp] theorem State.setAct_glb (s : State) (k : Nat) (a : Act) : (s.setAct k a).glb = s.glb := rfl
@[simp] theorem State.setAct_flight (s : State) (k : Nat) (a : Act) : (s.setAct k a).flight = s.flight := rfl
@[simp] theorem State.setAct_host (s : State) (k : Nat) (a : Act) : (s.setAct k a).host = s.host := rfl
@[simp] theorem State.setAct_posted (s : State) (k : Nat) (a : Act) : (s.setAct k a).posted = s.posted := rfl
@[simp] theorem State.setAct_devices (s : State) (k : Nat) (a : Act) : (s.setAct k a).devices = s.devices := rfl
@[simp] theorem State.setAct_roots (s : State) (k : Nat) (a : Act) : (s.setAct k a).roots = s.roots := rfl
@[simp] theorem State.setAct_homes (s : State) (k : Nat) (a : Act) : (s.setAct k a).homes = s.homes := rfl
@[simp] theorem State.setAct_copies (s : State) (k : Nat) (a : Act) : (s.setAct k a).copies = s.copies := rfl
@[simp] theorem State.setAct_dupAsk (s : State) (k : Nat) (a : Act) : (s.setAct k a).dupAsk = s.dupAsk := rfl
@[simp] theorem State.setAct_leases (s : State) (k : Nat) (a : Act) : (s.setAct k a).leases = s.leases := rfl
@[simp] theorem State.setAct_leaseFor (s : State) (k : Nat) (a : Act) : (s.setAct k a).leaseFor = s.leaseFor := rfl
@[simp] theorem State.setAct_omsgs (s : State) (k : Nat) (a : Act) : (s.setAct k a).omsgs = s.omsgs := rfl
@[simp] theorem State.setAct_iface (s : State) (k : Nat) (a : Act) : (s.setAct k a).iface = s.iface := rfl
@[simp] theorem State.setAct_weirs (s : State) (k : Nat) (a : Act) : (s.setAct k a).weirs = s.weirs := rfl
@[simp] theorem State.setAct_weirTot (s : State) (k : Nat) (a : Act) : (s.setAct k a).weirTot = s.weirTot := rfl
@[simp] theorem State.setAct_weirStat (s : State) (k : Nat) (a : Act) : (s.setAct k a).weirStat = s.weirStat := rfl
@[simp] theorem State.setAct_exacts (s : State) (k : Nat) (a : Act) : (s.setAct k a).exacts = s.exacts := rfl
@[simp] theorem State.setAct_sigs (s : State) (k : Nat) (a : Act) : (s.setAct k a).sigs = s.sigs := rfl
@[simp] theorem State.setAct_homeOps (s : State) (k : Nat) (a : Act) : (s.setAct k a).homeOps = s.homeOps := rfl
@[simp] theorem State.setAct_rings (s : State) (k : Nat) (a : Act) : (s.setAct k a).rings = s.rings := rfl
@[simp] theorem State.setAct_ringWait (s : State) (k : Nat) (a : Act) : (s.setAct k a).ringWait = s.ringWait := rfl
@[simp] theorem State.setAct_msgs (s : State) (k : Nat) (a : Act) : (s.setAct k a).msgs = s.msgs := rfl
@[simp] theorem State.setAct_arbiter (s : State) (k : Nat) (a : Act) : (s.setAct k a).arbiter = s.arbiter := rfl
@[simp] theorem State.setAct_drainPort (s : State) (k : Nat) (a : Act) : (s.setAct k a).drainPort = s.drainPort := rfl
@[simp] theorem State.setAct_turns (s : State) (k : Nat) (a : Act) : (s.setAct k a).turns = s.turns := rfl
@[simp] theorem State.setAct_matchers (s : State) (k : Nat) (a : Act) : (s.setAct k a).matchers = s.matchers := rfl
@[simp] theorem State.setAct_filters (s : State) (k : Nat) (a : Act) : (s.setAct k a).filters = s.filters := rfl
@[simp] theorem State.setAct_capRun (s : State) (k : Nat) (a : Act) : (s.setAct k a).capRun = s.capRun := rfl
@[simp] theorem State.setAct_capFrozen (s : State) (k : Nat) (a : Act) : (s.setAct k a).capFrozen = s.capFrozen := rfl
@[simp] theorem State.setAct_capFsel (s : State) (k : Nat) (a : Act) : (s.setAct k a).capFsel = s.capFsel := rfl
@[simp] theorem State.setAct_capLast (s : State) (k : Nat) (a : Act) : (s.setAct k a).capLast = s.capLast := rfl
@[simp] theorem State.setAct_capStopping (s : State) (k : Nat) (a : Act) : (s.setAct k a).capStopping = s.capStopping := rfl
@[simp] theorem State.setAct_capStopped (s : State) (k : Nat) (a : Act) : (s.setAct k a).capStopped = s.capStopped := rfl
@[simp] theorem State.setAct_stopFrom (s : State) (k : Nat) (a : Act) : (s.setAct k a).stopFrom = s.stopFrom := rfl
@[simp] theorem State.setAct_keys (s : State) (k : Nat) (a : Act) : (s.setAct k a).keys = s.keys := rfl
@[simp] theorem State.setAct_kdata (s : State) (k : Nat) (a : Act) : (s.setAct k a).kdata = s.kdata := rfl
@[simp] theorem State.setAct_ksBusy (s : State) (k : Nat) (a : Act) : (s.setAct k a).ksBusy = s.ksBusy := rfl
@[simp] theorem State.setAct_ksOp (s : State) (k : Nat) (a : Act) : (s.setAct k a).ksOp = s.ksOp := rfl
@[simp] theorem State.setAct_hlCount (s : State) (k : Nat) (a : Act) : (s.setAct k a).hlCount = s.hlCount := rfl
@[simp] theorem State.setAct_hlDown (s : State) (k : Nat) (a : Act) : (s.setAct k a).hlDown = s.hlDown := rfl
@[simp] theorem State.setAct_hlRerr (s : State) (k : Nat) (a : Act) : (s.setAct k a).hlRerr = s.hlRerr := rfl
@[simp] theorem State.setAct_hlWerr (s : State) (k : Nat) (a : Act) : (s.setAct k a).hlWerr = s.hlWerr := rfl
@[simp] theorem State.setAct_hlIrqs (s : State) (k : Nat) (a : Act) : (s.setAct k a).hlIrqs = s.hlIrqs := rfl
@[simp] theorem State.setAct_boot (s : State) (k : Nat) (a : Act) : (s.setAct k a).boot = s.boot := rfl
@[simp] theorem State.setAct_flash (s : State) (k : Nat) (a : Act) : (s.setAct k a).flash = s.flash := rfl
@[simp] theorem State.setAct_bootCopy (s : State) (k : Nat) (a : Act) : (s.setAct k a).bootCopy = s.bootCopy := rfl
@[simp] theorem State.setAct_osUp (s : State) (k : Nat) (a : Act) : (s.setAct k a).osUp = s.osUp := rfl
@[simp] theorem State.setAct_meas (s : State) (k : Nat) (a : Act) : (s.setAct k a).meas = s.meas := rfl
@[simp] theorem State.setAct_rollback (s : State) (k : Nat) (a : Act) : (s.setAct k a).rollback = s.rollback := rfl
@[simp] theorem State.setAct_rollWait (s : State) (k : Nat) (a : Act) : (s.setAct k a).rollWait = s.rollWait := rfl
@[simp] theorem State.setAct_copyWritten (s : State) (k : Nat) (a : Act) : (s.setAct k a).copyWritten = s.copyWritten := rfl
@[simp] theorem State.setAct_reports (s : State) (k : Nat) (a : Act) : (s.setAct k a).reports = s.reports := rfl
@[simp] theorem State.setAct_profReplies (s : State) (k : Nat) (a : Act) : (s.setAct k a).profReplies = s.profReplies := rfl
@[simp] theorem State.setAct_clockStep (s : State) (k : Nat) (a : Act) : (s.setAct k a).clockStep = s.clockStep := rfl
@[simp] theorem State.setAct_tooHot (s : State) (k : Nat) (a : Act) : (s.setAct k a).tooHot = s.tooHot := rfl
@[simp] theorem State.setAct_diesOut (s : State) (k : Nat) (a : Act) : (s.setAct k a).diesOut = s.diesOut := rfl
@[simp] theorem State.setAct_lptBase (s : State) (k : Nat) (a : Act) : (s.setAct k a).lptBase = s.lptBase := rfl
@[simp] theorem State.setAct_poisoned (s : State) (k : Nat) (a : Act) : (s.setAct k a).poisoned = s.poisoned := rfl
@[simp] theorem State.setAct_core_at (s : State) (k : Nat) (a : Act) (j : Nat) : (s.setAct k a).core j = s.core j := rfl
@[simp] theorem State.setAct_die_at (s : State) (k : Nat) (a : Act) (j : Nat) : (s.setAct k a).die j = s.die j := rfl
@[simp] theorem State.setAct_part_at (s : State) (k : Nat) (a : Act) (j : Nat) : (s.setAct k a).part j = s.part j := rfl

/-! ## Fields of the state that modAct leaves alone -/

@[simp] theorem State.modAct_agenda (s : State) (k : Nat) (f : Act → Act) : (s.modAct k f).agenda = s.agenda := rfl
@[simp] theorem State.modAct_cur (s : State) (k : Nat) (f : Act → Act) : (s.modAct k f).cur = s.cur := rfl
@[simp] theorem State.modAct_iss (s : State) (k : Nat) (f : Act → Act) : (s.modAct k f).iss = s.iss := rfl
@[simp] theorem State.modAct_later (s : State) (k : Nat) (f : Act → Act) : (s.modAct k f).later = s.later := rfl
@[simp] theorem State.modAct_fresh (s : State) (k : Nat) (f : Act → Act) : (s.modAct k f).fresh = s.fresh := rfl
@[simp] theorem State.modAct_nextWid (s : State) (k : Nat) (f : Act → Act) : (s.modAct k f).nextWid = s.nextWid := rfl
@[simp] theorem State.modAct_nextUid (s : State) (k : Nat) (f : Act → Act) : (s.modAct k f).nextUid = s.nextUid := rfl
@[simp] theorem State.modAct_cycle (s : State) (k : Nat) (f : Act → Act) : (s.modAct k f).cycle = s.cycle := rfl
@[simp] theorem State.modAct_time (s : State) (k : Nat) (f : Act → Act) : (s.modAct k f).time = s.time := rfl
@[simp] theorem State.modAct_ports (s : State) (k : Nat) (f : Act → Act) : (s.modAct k f).ports = s.ports := rfl
@[simp] theorem State.modAct_framed (s : State) (k : Nat) (f : Act → Act) : (s.modAct k f).framed = s.framed := rfl
@[simp] theorem State.modAct_cores (s : State) (k : Nat) (f : Act → Act) : (s.modAct k f).cores = s.cores := rfl
@[simp] theorem State.modAct_dies (s : State) (k : Nat) (f : Act → Act) : (s.modAct k f).dies = s.dies := rfl
@[simp] theorem State.modAct_parts (s : State) (k : Nat) (f : Act → Act) : (s.modAct k f).parts = s.parts := rfl
@[simp] theorem State.modAct_launches (s : State) (k : Nat) (f : Act → Act) : (s.modAct k f).launches = s.launches := rfl
@[simp] theorem State.modAct_loc (s : State) (k : Nat) (f : Act → Act) : (s.modAct k f).loc = s.loc := rfl
@[simp] theorem State.modAct_shm (s : State) (k : Nat) (f : Act → Act) : (s.modAct k f).shm = s.shm := rfl
@[simp] theorem State.modAct_acc (s : State) (k : Nat) (f : Act → Act) : (s.modAct k f).acc = s.acc := rfl
@[simp] theorem State.modAct_accSeed (s : State) (k : Nat) (f : Act → Act) : (s.modAct k f).accSeed = s.accSeed := rfl
@[simp] theorem State.modAct_glb (s : State) (k : Nat) (f : Act → Act) : (s.modAct k f).glb = s.glb := rfl
@[simp] theorem State.modAct_flight (s : State) (k : Nat) (f : Act → Act) : (s.modAct k f).flight = s.flight := rfl
@[simp] theorem State.modAct_host (s : State) (k : Nat) (f : Act → Act) : (s.modAct k f).host = s.host := rfl
@[simp] theorem State.modAct_posted (s : State) (k : Nat) (f : Act → Act) : (s.modAct k f).posted = s.posted := rfl
@[simp] theorem State.modAct_devices (s : State) (k : Nat) (f : Act → Act) : (s.modAct k f).devices = s.devices := rfl
@[simp] theorem State.modAct_roots (s : State) (k : Nat) (f : Act → Act) : (s.modAct k f).roots = s.roots := rfl
@[simp] theorem State.modAct_homes (s : State) (k : Nat) (f : Act → Act) : (s.modAct k f).homes = s.homes := rfl
@[simp] theorem State.modAct_copies (s : State) (k : Nat) (f : Act → Act) : (s.modAct k f).copies = s.copies := rfl
@[simp] theorem State.modAct_dupAsk (s : State) (k : Nat) (f : Act → Act) : (s.modAct k f).dupAsk = s.dupAsk := rfl
@[simp] theorem State.modAct_leases (s : State) (k : Nat) (f : Act → Act) : (s.modAct k f).leases = s.leases := rfl
@[simp] theorem State.modAct_leaseFor (s : State) (k : Nat) (f : Act → Act) : (s.modAct k f).leaseFor = s.leaseFor := rfl
@[simp] theorem State.modAct_omsgs (s : State) (k : Nat) (f : Act → Act) : (s.modAct k f).omsgs = s.omsgs := rfl
@[simp] theorem State.modAct_iface (s : State) (k : Nat) (f : Act → Act) : (s.modAct k f).iface = s.iface := rfl
@[simp] theorem State.modAct_weirs (s : State) (k : Nat) (f : Act → Act) : (s.modAct k f).weirs = s.weirs := rfl
@[simp] theorem State.modAct_weirTot (s : State) (k : Nat) (f : Act → Act) : (s.modAct k f).weirTot = s.weirTot := rfl
@[simp] theorem State.modAct_weirStat (s : State) (k : Nat) (f : Act → Act) : (s.modAct k f).weirStat = s.weirStat := rfl
@[simp] theorem State.modAct_exacts (s : State) (k : Nat) (f : Act → Act) : (s.modAct k f).exacts = s.exacts := rfl
@[simp] theorem State.modAct_sigs (s : State) (k : Nat) (f : Act → Act) : (s.modAct k f).sigs = s.sigs := rfl
@[simp] theorem State.modAct_homeOps (s : State) (k : Nat) (f : Act → Act) : (s.modAct k f).homeOps = s.homeOps := rfl
@[simp] theorem State.modAct_rings (s : State) (k : Nat) (f : Act → Act) : (s.modAct k f).rings = s.rings := rfl
@[simp] theorem State.modAct_ringWait (s : State) (k : Nat) (f : Act → Act) : (s.modAct k f).ringWait = s.ringWait := rfl
@[simp] theorem State.modAct_msgs (s : State) (k : Nat) (f : Act → Act) : (s.modAct k f).msgs = s.msgs := rfl
@[simp] theorem State.modAct_arbiter (s : State) (k : Nat) (f : Act → Act) : (s.modAct k f).arbiter = s.arbiter := rfl
@[simp] theorem State.modAct_drainPort (s : State) (k : Nat) (f : Act → Act) : (s.modAct k f).drainPort = s.drainPort := rfl
@[simp] theorem State.modAct_turns (s : State) (k : Nat) (f : Act → Act) : (s.modAct k f).turns = s.turns := rfl
@[simp] theorem State.modAct_matchers (s : State) (k : Nat) (f : Act → Act) : (s.modAct k f).matchers = s.matchers := rfl
@[simp] theorem State.modAct_filters (s : State) (k : Nat) (f : Act → Act) : (s.modAct k f).filters = s.filters := rfl
@[simp] theorem State.modAct_capRun (s : State) (k : Nat) (f : Act → Act) : (s.modAct k f).capRun = s.capRun := rfl
@[simp] theorem State.modAct_capFrozen (s : State) (k : Nat) (f : Act → Act) : (s.modAct k f).capFrozen = s.capFrozen := rfl
@[simp] theorem State.modAct_capFsel (s : State) (k : Nat) (f : Act → Act) : (s.modAct k f).capFsel = s.capFsel := rfl
@[simp] theorem State.modAct_capLast (s : State) (k : Nat) (f : Act → Act) : (s.modAct k f).capLast = s.capLast := rfl
@[simp] theorem State.modAct_capStopping (s : State) (k : Nat) (f : Act → Act) : (s.modAct k f).capStopping = s.capStopping := rfl
@[simp] theorem State.modAct_capStopped (s : State) (k : Nat) (f : Act → Act) : (s.modAct k f).capStopped = s.capStopped := rfl
@[simp] theorem State.modAct_stopFrom (s : State) (k : Nat) (f : Act → Act) : (s.modAct k f).stopFrom = s.stopFrom := rfl
@[simp] theorem State.modAct_keys (s : State) (k : Nat) (f : Act → Act) : (s.modAct k f).keys = s.keys := rfl
@[simp] theorem State.modAct_kdata (s : State) (k : Nat) (f : Act → Act) : (s.modAct k f).kdata = s.kdata := rfl
@[simp] theorem State.modAct_ksBusy (s : State) (k : Nat) (f : Act → Act) : (s.modAct k f).ksBusy = s.ksBusy := rfl
@[simp] theorem State.modAct_ksOp (s : State) (k : Nat) (f : Act → Act) : (s.modAct k f).ksOp = s.ksOp := rfl
@[simp] theorem State.modAct_hlCount (s : State) (k : Nat) (f : Act → Act) : (s.modAct k f).hlCount = s.hlCount := rfl
@[simp] theorem State.modAct_hlDown (s : State) (k : Nat) (f : Act → Act) : (s.modAct k f).hlDown = s.hlDown := rfl
@[simp] theorem State.modAct_hlRerr (s : State) (k : Nat) (f : Act → Act) : (s.modAct k f).hlRerr = s.hlRerr := rfl
@[simp] theorem State.modAct_hlWerr (s : State) (k : Nat) (f : Act → Act) : (s.modAct k f).hlWerr = s.hlWerr := rfl
@[simp] theorem State.modAct_hlIrqs (s : State) (k : Nat) (f : Act → Act) : (s.modAct k f).hlIrqs = s.hlIrqs := rfl
@[simp] theorem State.modAct_boot (s : State) (k : Nat) (f : Act → Act) : (s.modAct k f).boot = s.boot := rfl
@[simp] theorem State.modAct_flash (s : State) (k : Nat) (f : Act → Act) : (s.modAct k f).flash = s.flash := rfl
@[simp] theorem State.modAct_bootCopy (s : State) (k : Nat) (f : Act → Act) : (s.modAct k f).bootCopy = s.bootCopy := rfl
@[simp] theorem State.modAct_osUp (s : State) (k : Nat) (f : Act → Act) : (s.modAct k f).osUp = s.osUp := rfl
@[simp] theorem State.modAct_meas (s : State) (k : Nat) (f : Act → Act) : (s.modAct k f).meas = s.meas := rfl
@[simp] theorem State.modAct_rollback (s : State) (k : Nat) (f : Act → Act) : (s.modAct k f).rollback = s.rollback := rfl
@[simp] theorem State.modAct_rollWait (s : State) (k : Nat) (f : Act → Act) : (s.modAct k f).rollWait = s.rollWait := rfl
@[simp] theorem State.modAct_copyWritten (s : State) (k : Nat) (f : Act → Act) : (s.modAct k f).copyWritten = s.copyWritten := rfl
@[simp] theorem State.modAct_reports (s : State) (k : Nat) (f : Act → Act) : (s.modAct k f).reports = s.reports := rfl
@[simp] theorem State.modAct_profReplies (s : State) (k : Nat) (f : Act → Act) : (s.modAct k f).profReplies = s.profReplies := rfl
@[simp] theorem State.modAct_clockStep (s : State) (k : Nat) (f : Act → Act) : (s.modAct k f).clockStep = s.clockStep := rfl
@[simp] theorem State.modAct_tooHot (s : State) (k : Nat) (f : Act → Act) : (s.modAct k f).tooHot = s.tooHot := rfl
@[simp] theorem State.modAct_diesOut (s : State) (k : Nat) (f : Act → Act) : (s.modAct k f).diesOut = s.diesOut := rfl
@[simp] theorem State.modAct_lptBase (s : State) (k : Nat) (f : Act → Act) : (s.modAct k f).lptBase = s.lptBase := rfl
@[simp] theorem State.modAct_poisoned (s : State) (k : Nat) (f : Act → Act) : (s.modAct k f).poisoned = s.poisoned := rfl
@[simp] theorem State.modAct_core_at (s : State) (k : Nat) (f : Act → Act) (j : Nat) : (s.modAct k f).core j = s.core j := rfl
@[simp] theorem State.modAct_die_at (s : State) (k : Nat) (f : Act → Act) (j : Nat) : (s.modAct k f).die j = s.die j := rfl
@[simp] theorem State.modAct_part_at (s : State) (k : Nat) (f : Act → Act) (j : Nat) : (s.modAct k f).part j = s.part j := rfl

/-! ## Fields of the state that modMe leaves alone -/

@[simp] theorem State.modMe_agenda (s : State) (f : Act → Act) : (s.modMe f).agenda = s.agenda := rfl
@[simp] theorem State.modMe_cur (s : State) (f : Act → Act) : (s.modMe f).cur = s.cur := rfl
@[simp] theorem State.modMe_iss (s : State) (f : Act → Act) : (s.modMe f).iss = s.iss := rfl
@[simp] theorem State.modMe_later (s : State) (f : Act → Act) : (s.modMe f).later = s.later := rfl
@[simp] theorem State.modMe_fresh (s : State) (f : Act → Act) : (s.modMe f).fresh = s.fresh := rfl
@[simp] theorem State.modMe_nextWid (s : State) (f : Act → Act) : (s.modMe f).nextWid = s.nextWid := rfl
@[simp] theorem State.modMe_nextUid (s : State) (f : Act → Act) : (s.modMe f).nextUid = s.nextUid := rfl
@[simp] theorem State.modMe_cycle (s : State) (f : Act → Act) : (s.modMe f).cycle = s.cycle := rfl
@[simp] theorem State.modMe_time (s : State) (f : Act → Act) : (s.modMe f).time = s.time := rfl
@[simp] theorem State.modMe_ports (s : State) (f : Act → Act) : (s.modMe f).ports = s.ports := rfl
@[simp] theorem State.modMe_framed (s : State) (f : Act → Act) : (s.modMe f).framed = s.framed := rfl
@[simp] theorem State.modMe_cores (s : State) (f : Act → Act) : (s.modMe f).cores = s.cores := rfl
@[simp] theorem State.modMe_dies (s : State) (f : Act → Act) : (s.modMe f).dies = s.dies := rfl
@[simp] theorem State.modMe_parts (s : State) (f : Act → Act) : (s.modMe f).parts = s.parts := rfl
@[simp] theorem State.modMe_launches (s : State) (f : Act → Act) : (s.modMe f).launches = s.launches := rfl
@[simp] theorem State.modMe_loc (s : State) (f : Act → Act) : (s.modMe f).loc = s.loc := rfl
@[simp] theorem State.modMe_shm (s : State) (f : Act → Act) : (s.modMe f).shm = s.shm := rfl
@[simp] theorem State.modMe_acc (s : State) (f : Act → Act) : (s.modMe f).acc = s.acc := rfl
@[simp] theorem State.modMe_accSeed (s : State) (f : Act → Act) : (s.modMe f).accSeed = s.accSeed := rfl
@[simp] theorem State.modMe_glb (s : State) (f : Act → Act) : (s.modMe f).glb = s.glb := rfl
@[simp] theorem State.modMe_flight (s : State) (f : Act → Act) : (s.modMe f).flight = s.flight := rfl
@[simp] theorem State.modMe_host (s : State) (f : Act → Act) : (s.modMe f).host = s.host := rfl
@[simp] theorem State.modMe_posted (s : State) (f : Act → Act) : (s.modMe f).posted = s.posted := rfl
@[simp] theorem State.modMe_devices (s : State) (f : Act → Act) : (s.modMe f).devices = s.devices := rfl
@[simp] theorem State.modMe_roots (s : State) (f : Act → Act) : (s.modMe f).roots = s.roots := rfl
@[simp] theorem State.modMe_homes (s : State) (f : Act → Act) : (s.modMe f).homes = s.homes := rfl
@[simp] theorem State.modMe_copies (s : State) (f : Act → Act) : (s.modMe f).copies = s.copies := rfl
@[simp] theorem State.modMe_dupAsk (s : State) (f : Act → Act) : (s.modMe f).dupAsk = s.dupAsk := rfl
@[simp] theorem State.modMe_leases (s : State) (f : Act → Act) : (s.modMe f).leases = s.leases := rfl
@[simp] theorem State.modMe_leaseFor (s : State) (f : Act → Act) : (s.modMe f).leaseFor = s.leaseFor := rfl
@[simp] theorem State.modMe_omsgs (s : State) (f : Act → Act) : (s.modMe f).omsgs = s.omsgs := rfl
@[simp] theorem State.modMe_iface (s : State) (f : Act → Act) : (s.modMe f).iface = s.iface := rfl
@[simp] theorem State.modMe_weirs (s : State) (f : Act → Act) : (s.modMe f).weirs = s.weirs := rfl
@[simp] theorem State.modMe_weirTot (s : State) (f : Act → Act) : (s.modMe f).weirTot = s.weirTot := rfl
@[simp] theorem State.modMe_weirStat (s : State) (f : Act → Act) : (s.modMe f).weirStat = s.weirStat := rfl
@[simp] theorem State.modMe_exacts (s : State) (f : Act → Act) : (s.modMe f).exacts = s.exacts := rfl
@[simp] theorem State.modMe_sigs (s : State) (f : Act → Act) : (s.modMe f).sigs = s.sigs := rfl
@[simp] theorem State.modMe_homeOps (s : State) (f : Act → Act) : (s.modMe f).homeOps = s.homeOps := rfl
@[simp] theorem State.modMe_rings (s : State) (f : Act → Act) : (s.modMe f).rings = s.rings := rfl
@[simp] theorem State.modMe_ringWait (s : State) (f : Act → Act) : (s.modMe f).ringWait = s.ringWait := rfl
@[simp] theorem State.modMe_msgs (s : State) (f : Act → Act) : (s.modMe f).msgs = s.msgs := rfl
@[simp] theorem State.modMe_arbiter (s : State) (f : Act → Act) : (s.modMe f).arbiter = s.arbiter := rfl
@[simp] theorem State.modMe_drainPort (s : State) (f : Act → Act) : (s.modMe f).drainPort = s.drainPort := rfl
@[simp] theorem State.modMe_turns (s : State) (f : Act → Act) : (s.modMe f).turns = s.turns := rfl
@[simp] theorem State.modMe_matchers (s : State) (f : Act → Act) : (s.modMe f).matchers = s.matchers := rfl
@[simp] theorem State.modMe_filters (s : State) (f : Act → Act) : (s.modMe f).filters = s.filters := rfl
@[simp] theorem State.modMe_capRun (s : State) (f : Act → Act) : (s.modMe f).capRun = s.capRun := rfl
@[simp] theorem State.modMe_capFrozen (s : State) (f : Act → Act) : (s.modMe f).capFrozen = s.capFrozen := rfl
@[simp] theorem State.modMe_capFsel (s : State) (f : Act → Act) : (s.modMe f).capFsel = s.capFsel := rfl
@[simp] theorem State.modMe_capLast (s : State) (f : Act → Act) : (s.modMe f).capLast = s.capLast := rfl
@[simp] theorem State.modMe_capStopping (s : State) (f : Act → Act) : (s.modMe f).capStopping = s.capStopping := rfl
@[simp] theorem State.modMe_capStopped (s : State) (f : Act → Act) : (s.modMe f).capStopped = s.capStopped := rfl
@[simp] theorem State.modMe_stopFrom (s : State) (f : Act → Act) : (s.modMe f).stopFrom = s.stopFrom := rfl
@[simp] theorem State.modMe_keys (s : State) (f : Act → Act) : (s.modMe f).keys = s.keys := rfl
@[simp] theorem State.modMe_kdata (s : State) (f : Act → Act) : (s.modMe f).kdata = s.kdata := rfl
@[simp] theorem State.modMe_ksBusy (s : State) (f : Act → Act) : (s.modMe f).ksBusy = s.ksBusy := rfl
@[simp] theorem State.modMe_ksOp (s : State) (f : Act → Act) : (s.modMe f).ksOp = s.ksOp := rfl
@[simp] theorem State.modMe_hlCount (s : State) (f : Act → Act) : (s.modMe f).hlCount = s.hlCount := rfl
@[simp] theorem State.modMe_hlDown (s : State) (f : Act → Act) : (s.modMe f).hlDown = s.hlDown := rfl
@[simp] theorem State.modMe_hlRerr (s : State) (f : Act → Act) : (s.modMe f).hlRerr = s.hlRerr := rfl
@[simp] theorem State.modMe_hlWerr (s : State) (f : Act → Act) : (s.modMe f).hlWerr = s.hlWerr := rfl
@[simp] theorem State.modMe_hlIrqs (s : State) (f : Act → Act) : (s.modMe f).hlIrqs = s.hlIrqs := rfl
@[simp] theorem State.modMe_boot (s : State) (f : Act → Act) : (s.modMe f).boot = s.boot := rfl
@[simp] theorem State.modMe_flash (s : State) (f : Act → Act) : (s.modMe f).flash = s.flash := rfl
@[simp] theorem State.modMe_bootCopy (s : State) (f : Act → Act) : (s.modMe f).bootCopy = s.bootCopy := rfl
@[simp] theorem State.modMe_osUp (s : State) (f : Act → Act) : (s.modMe f).osUp = s.osUp := rfl
@[simp] theorem State.modMe_meas (s : State) (f : Act → Act) : (s.modMe f).meas = s.meas := rfl
@[simp] theorem State.modMe_rollback (s : State) (f : Act → Act) : (s.modMe f).rollback = s.rollback := rfl
@[simp] theorem State.modMe_rollWait (s : State) (f : Act → Act) : (s.modMe f).rollWait = s.rollWait := rfl
@[simp] theorem State.modMe_copyWritten (s : State) (f : Act → Act) : (s.modMe f).copyWritten = s.copyWritten := rfl
@[simp] theorem State.modMe_reports (s : State) (f : Act → Act) : (s.modMe f).reports = s.reports := rfl
@[simp] theorem State.modMe_profReplies (s : State) (f : Act → Act) : (s.modMe f).profReplies = s.profReplies := rfl
@[simp] theorem State.modMe_clockStep (s : State) (f : Act → Act) : (s.modMe f).clockStep = s.clockStep := rfl
@[simp] theorem State.modMe_tooHot (s : State) (f : Act → Act) : (s.modMe f).tooHot = s.tooHot := rfl
@[simp] theorem State.modMe_diesOut (s : State) (f : Act → Act) : (s.modMe f).diesOut = s.diesOut := rfl
@[simp] theorem State.modMe_lptBase (s : State) (f : Act → Act) : (s.modMe f).lptBase = s.lptBase := rfl
@[simp] theorem State.modMe_poisoned (s : State) (f : Act → Act) : (s.modMe f).poisoned = s.poisoned := rfl
@[simp] theorem State.modMe_core_at (s : State) (f : Act → Act) (j : Nat) : (s.modMe f).core j = s.core j := rfl
@[simp] theorem State.modMe_die_at (s : State) (f : Act → Act) (j : Nat) : (s.modMe f).die j = s.die j := rfl
@[simp] theorem State.modMe_part_at (s : State) (f : Act → Act) (j : Nat) : (s.modMe f).part j = s.part j := rfl

/-! ## Fields of the state that modCore leaves alone -/

@[simp] theorem State.modCore_agenda (s : State) (c : Nat) (f : Core → Core) : (s.modCore c f).agenda = s.agenda := rfl
@[simp] theorem State.modCore_cur (s : State) (c : Nat) (f : Core → Core) : (s.modCore c f).cur = s.cur := rfl
@[simp] theorem State.modCore_iss (s : State) (c : Nat) (f : Core → Core) : (s.modCore c f).iss = s.iss := rfl
@[simp] theorem State.modCore_later (s : State) (c : Nat) (f : Core → Core) : (s.modCore c f).later = s.later := rfl
@[simp] theorem State.modCore_fresh (s : State) (c : Nat) (f : Core → Core) : (s.modCore c f).fresh = s.fresh := rfl
@[simp] theorem State.modCore_nextWid (s : State) (c : Nat) (f : Core → Core) : (s.modCore c f).nextWid = s.nextWid := rfl
@[simp] theorem State.modCore_nextUid (s : State) (c : Nat) (f : Core → Core) : (s.modCore c f).nextUid = s.nextUid := rfl
@[simp] theorem State.modCore_cycle (s : State) (c : Nat) (f : Core → Core) : (s.modCore c f).cycle = s.cycle := rfl
@[simp] theorem State.modCore_time (s : State) (c : Nat) (f : Core → Core) : (s.modCore c f).time = s.time := rfl
@[simp] theorem State.modCore_acts (s : State) (c : Nat) (f : Core → Core) : (s.modCore c f).acts = s.acts := rfl
@[simp] theorem State.modCore_ports (s : State) (c : Nat) (f : Core → Core) : (s.modCore c f).ports = s.ports := rfl
@[simp] theorem State.modCore_framed (s : State) (c : Nat) (f : Core → Core) : (s.modCore c f).framed = s.framed := rfl
@[simp] theorem State.modCore_dies (s : State) (c : Nat) (f : Core → Core) : (s.modCore c f).dies = s.dies := rfl
@[simp] theorem State.modCore_parts (s : State) (c : Nat) (f : Core → Core) : (s.modCore c f).parts = s.parts := rfl
@[simp] theorem State.modCore_launches (s : State) (c : Nat) (f : Core → Core) : (s.modCore c f).launches = s.launches := rfl
@[simp] theorem State.modCore_loc (s : State) (c : Nat) (f : Core → Core) : (s.modCore c f).loc = s.loc := rfl
@[simp] theorem State.modCore_shm (s : State) (c : Nat) (f : Core → Core) : (s.modCore c f).shm = s.shm := rfl
@[simp] theorem State.modCore_acc (s : State) (c : Nat) (f : Core → Core) : (s.modCore c f).acc = s.acc := rfl
@[simp] theorem State.modCore_accSeed (s : State) (c : Nat) (f : Core → Core) : (s.modCore c f).accSeed = s.accSeed := rfl
@[simp] theorem State.modCore_glb (s : State) (c : Nat) (f : Core → Core) : (s.modCore c f).glb = s.glb := rfl
@[simp] theorem State.modCore_flight (s : State) (c : Nat) (f : Core → Core) : (s.modCore c f).flight = s.flight := rfl
@[simp] theorem State.modCore_host (s : State) (c : Nat) (f : Core → Core) : (s.modCore c f).host = s.host := rfl
@[simp] theorem State.modCore_posted (s : State) (c : Nat) (f : Core → Core) : (s.modCore c f).posted = s.posted := rfl
@[simp] theorem State.modCore_devices (s : State) (c : Nat) (f : Core → Core) : (s.modCore c f).devices = s.devices := rfl
@[simp] theorem State.modCore_roots (s : State) (c : Nat) (f : Core → Core) : (s.modCore c f).roots = s.roots := rfl
@[simp] theorem State.modCore_homes (s : State) (c : Nat) (f : Core → Core) : (s.modCore c f).homes = s.homes := rfl
@[simp] theorem State.modCore_copies (s : State) (c : Nat) (f : Core → Core) : (s.modCore c f).copies = s.copies := rfl
@[simp] theorem State.modCore_dupAsk (s : State) (c : Nat) (f : Core → Core) : (s.modCore c f).dupAsk = s.dupAsk := rfl
@[simp] theorem State.modCore_leases (s : State) (c : Nat) (f : Core → Core) : (s.modCore c f).leases = s.leases := rfl
@[simp] theorem State.modCore_leaseFor (s : State) (c : Nat) (f : Core → Core) : (s.modCore c f).leaseFor = s.leaseFor := rfl
@[simp] theorem State.modCore_omsgs (s : State) (c : Nat) (f : Core → Core) : (s.modCore c f).omsgs = s.omsgs := rfl
@[simp] theorem State.modCore_iface (s : State) (c : Nat) (f : Core → Core) : (s.modCore c f).iface = s.iface := rfl
@[simp] theorem State.modCore_weirs (s : State) (c : Nat) (f : Core → Core) : (s.modCore c f).weirs = s.weirs := rfl
@[simp] theorem State.modCore_weirTot (s : State) (c : Nat) (f : Core → Core) : (s.modCore c f).weirTot = s.weirTot := rfl
@[simp] theorem State.modCore_weirStat (s : State) (c : Nat) (f : Core → Core) : (s.modCore c f).weirStat = s.weirStat := rfl
@[simp] theorem State.modCore_exacts (s : State) (c : Nat) (f : Core → Core) : (s.modCore c f).exacts = s.exacts := rfl
@[simp] theorem State.modCore_sigs (s : State) (c : Nat) (f : Core → Core) : (s.modCore c f).sigs = s.sigs := rfl
@[simp] theorem State.modCore_homeOps (s : State) (c : Nat) (f : Core → Core) : (s.modCore c f).homeOps = s.homeOps := rfl
@[simp] theorem State.modCore_rings (s : State) (c : Nat) (f : Core → Core) : (s.modCore c f).rings = s.rings := rfl
@[simp] theorem State.modCore_ringWait (s : State) (c : Nat) (f : Core → Core) : (s.modCore c f).ringWait = s.ringWait := rfl
@[simp] theorem State.modCore_msgs (s : State) (c : Nat) (f : Core → Core) : (s.modCore c f).msgs = s.msgs := rfl
@[simp] theorem State.modCore_arbiter (s : State) (c : Nat) (f : Core → Core) : (s.modCore c f).arbiter = s.arbiter := rfl
@[simp] theorem State.modCore_drainPort (s : State) (c : Nat) (f : Core → Core) : (s.modCore c f).drainPort = s.drainPort := rfl
@[simp] theorem State.modCore_turns (s : State) (c : Nat) (f : Core → Core) : (s.modCore c f).turns = s.turns := rfl
@[simp] theorem State.modCore_matchers (s : State) (c : Nat) (f : Core → Core) : (s.modCore c f).matchers = s.matchers := rfl
@[simp] theorem State.modCore_filters (s : State) (c : Nat) (f : Core → Core) : (s.modCore c f).filters = s.filters := rfl
@[simp] theorem State.modCore_capRun (s : State) (c : Nat) (f : Core → Core) : (s.modCore c f).capRun = s.capRun := rfl
@[simp] theorem State.modCore_capFrozen (s : State) (c : Nat) (f : Core → Core) : (s.modCore c f).capFrozen = s.capFrozen := rfl
@[simp] theorem State.modCore_capFsel (s : State) (c : Nat) (f : Core → Core) : (s.modCore c f).capFsel = s.capFsel := rfl
@[simp] theorem State.modCore_capLast (s : State) (c : Nat) (f : Core → Core) : (s.modCore c f).capLast = s.capLast := rfl
@[simp] theorem State.modCore_capStopping (s : State) (c : Nat) (f : Core → Core) : (s.modCore c f).capStopping = s.capStopping := rfl
@[simp] theorem State.modCore_capStopped (s : State) (c : Nat) (f : Core → Core) : (s.modCore c f).capStopped = s.capStopped := rfl
@[simp] theorem State.modCore_stopFrom (s : State) (c : Nat) (f : Core → Core) : (s.modCore c f).stopFrom = s.stopFrom := rfl
@[simp] theorem State.modCore_keys (s : State) (c : Nat) (f : Core → Core) : (s.modCore c f).keys = s.keys := rfl
@[simp] theorem State.modCore_kdata (s : State) (c : Nat) (f : Core → Core) : (s.modCore c f).kdata = s.kdata := rfl
@[simp] theorem State.modCore_ksBusy (s : State) (c : Nat) (f : Core → Core) : (s.modCore c f).ksBusy = s.ksBusy := rfl
@[simp] theorem State.modCore_ksOp (s : State) (c : Nat) (f : Core → Core) : (s.modCore c f).ksOp = s.ksOp := rfl
@[simp] theorem State.modCore_hlCount (s : State) (c : Nat) (f : Core → Core) : (s.modCore c f).hlCount = s.hlCount := rfl
@[simp] theorem State.modCore_hlDown (s : State) (c : Nat) (f : Core → Core) : (s.modCore c f).hlDown = s.hlDown := rfl
@[simp] theorem State.modCore_hlRerr (s : State) (c : Nat) (f : Core → Core) : (s.modCore c f).hlRerr = s.hlRerr := rfl
@[simp] theorem State.modCore_hlWerr (s : State) (c : Nat) (f : Core → Core) : (s.modCore c f).hlWerr = s.hlWerr := rfl
@[simp] theorem State.modCore_hlIrqs (s : State) (c : Nat) (f : Core → Core) : (s.modCore c f).hlIrqs = s.hlIrqs := rfl
@[simp] theorem State.modCore_boot (s : State) (c : Nat) (f : Core → Core) : (s.modCore c f).boot = s.boot := rfl
@[simp] theorem State.modCore_flash (s : State) (c : Nat) (f : Core → Core) : (s.modCore c f).flash = s.flash := rfl
@[simp] theorem State.modCore_bootCopy (s : State) (c : Nat) (f : Core → Core) : (s.modCore c f).bootCopy = s.bootCopy := rfl
@[simp] theorem State.modCore_osUp (s : State) (c : Nat) (f : Core → Core) : (s.modCore c f).osUp = s.osUp := rfl
@[simp] theorem State.modCore_meas (s : State) (c : Nat) (f : Core → Core) : (s.modCore c f).meas = s.meas := rfl
@[simp] theorem State.modCore_rollback (s : State) (c : Nat) (f : Core → Core) : (s.modCore c f).rollback = s.rollback := rfl
@[simp] theorem State.modCore_rollWait (s : State) (c : Nat) (f : Core → Core) : (s.modCore c f).rollWait = s.rollWait := rfl
@[simp] theorem State.modCore_copyWritten (s : State) (c : Nat) (f : Core → Core) : (s.modCore c f).copyWritten = s.copyWritten := rfl
@[simp] theorem State.modCore_reports (s : State) (c : Nat) (f : Core → Core) : (s.modCore c f).reports = s.reports := rfl
@[simp] theorem State.modCore_profReplies (s : State) (c : Nat) (f : Core → Core) : (s.modCore c f).profReplies = s.profReplies := rfl
@[simp] theorem State.modCore_clockStep (s : State) (c : Nat) (f : Core → Core) : (s.modCore c f).clockStep = s.clockStep := rfl
@[simp] theorem State.modCore_tooHot (s : State) (c : Nat) (f : Core → Core) : (s.modCore c f).tooHot = s.tooHot := rfl
@[simp] theorem State.modCore_diesOut (s : State) (c : Nat) (f : Core → Core) : (s.modCore c f).diesOut = s.diesOut := rfl
@[simp] theorem State.modCore_lptBase (s : State) (c : Nat) (f : Core → Core) : (s.modCore c f).lptBase = s.lptBase := rfl
@[simp] theorem State.modCore_poisoned (s : State) (c : Nat) (f : Core → Core) : (s.modCore c f).poisoned = s.poisoned := rfl
@[simp] theorem State.modCore_act (s : State) (c : Nat) (f : Core → Core) (j : Nat) : (s.modCore c f).act j = s.act j := rfl
@[simp] theorem State.modCore_me (s : State) (c : Nat) (f : Core → Core) : (s.modCore c f).me = s.me := rfl
@[simp] theorem State.modCore_die_at (s : State) (c : Nat) (f : Core → Core) (j : Nat) : (s.modCore c f).die j = s.die j := rfl
@[simp] theorem State.modCore_part_at (s : State) (c : Nat) (f : Core → Core) (j : Nat) : (s.modCore c f).part j = s.part j := rfl

/-! ## Fields of the state that modDie leaves alone -/

@[simp] theorem State.modDie_agenda (s : State) (d : Nat) (f : Die → Die) : (s.modDie d f).agenda = s.agenda := rfl
@[simp] theorem State.modDie_cur (s : State) (d : Nat) (f : Die → Die) : (s.modDie d f).cur = s.cur := rfl
@[simp] theorem State.modDie_iss (s : State) (d : Nat) (f : Die → Die) : (s.modDie d f).iss = s.iss := rfl
@[simp] theorem State.modDie_later (s : State) (d : Nat) (f : Die → Die) : (s.modDie d f).later = s.later := rfl
@[simp] theorem State.modDie_fresh (s : State) (d : Nat) (f : Die → Die) : (s.modDie d f).fresh = s.fresh := rfl
@[simp] theorem State.modDie_nextWid (s : State) (d : Nat) (f : Die → Die) : (s.modDie d f).nextWid = s.nextWid := rfl
@[simp] theorem State.modDie_nextUid (s : State) (d : Nat) (f : Die → Die) : (s.modDie d f).nextUid = s.nextUid := rfl
@[simp] theorem State.modDie_cycle (s : State) (d : Nat) (f : Die → Die) : (s.modDie d f).cycle = s.cycle := rfl
@[simp] theorem State.modDie_time (s : State) (d : Nat) (f : Die → Die) : (s.modDie d f).time = s.time := rfl
@[simp] theorem State.modDie_acts (s : State) (d : Nat) (f : Die → Die) : (s.modDie d f).acts = s.acts := rfl
@[simp] theorem State.modDie_ports (s : State) (d : Nat) (f : Die → Die) : (s.modDie d f).ports = s.ports := rfl
@[simp] theorem State.modDie_framed (s : State) (d : Nat) (f : Die → Die) : (s.modDie d f).framed = s.framed := rfl
@[simp] theorem State.modDie_cores (s : State) (d : Nat) (f : Die → Die) : (s.modDie d f).cores = s.cores := rfl
@[simp] theorem State.modDie_parts (s : State) (d : Nat) (f : Die → Die) : (s.modDie d f).parts = s.parts := rfl
@[simp] theorem State.modDie_launches (s : State) (d : Nat) (f : Die → Die) : (s.modDie d f).launches = s.launches := rfl
@[simp] theorem State.modDie_loc (s : State) (d : Nat) (f : Die → Die) : (s.modDie d f).loc = s.loc := rfl
@[simp] theorem State.modDie_shm (s : State) (d : Nat) (f : Die → Die) : (s.modDie d f).shm = s.shm := rfl
@[simp] theorem State.modDie_acc (s : State) (d : Nat) (f : Die → Die) : (s.modDie d f).acc = s.acc := rfl
@[simp] theorem State.modDie_accSeed (s : State) (d : Nat) (f : Die → Die) : (s.modDie d f).accSeed = s.accSeed := rfl
@[simp] theorem State.modDie_glb (s : State) (d : Nat) (f : Die → Die) : (s.modDie d f).glb = s.glb := rfl
@[simp] theorem State.modDie_flight (s : State) (d : Nat) (f : Die → Die) : (s.modDie d f).flight = s.flight := rfl
@[simp] theorem State.modDie_host (s : State) (d : Nat) (f : Die → Die) : (s.modDie d f).host = s.host := rfl
@[simp] theorem State.modDie_posted (s : State) (d : Nat) (f : Die → Die) : (s.modDie d f).posted = s.posted := rfl
@[simp] theorem State.modDie_devices (s : State) (d : Nat) (f : Die → Die) : (s.modDie d f).devices = s.devices := rfl
@[simp] theorem State.modDie_roots (s : State) (d : Nat) (f : Die → Die) : (s.modDie d f).roots = s.roots := rfl
@[simp] theorem State.modDie_homes (s : State) (d : Nat) (f : Die → Die) : (s.modDie d f).homes = s.homes := rfl
@[simp] theorem State.modDie_copies (s : State) (d : Nat) (f : Die → Die) : (s.modDie d f).copies = s.copies := rfl
@[simp] theorem State.modDie_dupAsk (s : State) (d : Nat) (f : Die → Die) : (s.modDie d f).dupAsk = s.dupAsk := rfl
@[simp] theorem State.modDie_leases (s : State) (d : Nat) (f : Die → Die) : (s.modDie d f).leases = s.leases := rfl
@[simp] theorem State.modDie_leaseFor (s : State) (d : Nat) (f : Die → Die) : (s.modDie d f).leaseFor = s.leaseFor := rfl
@[simp] theorem State.modDie_omsgs (s : State) (d : Nat) (f : Die → Die) : (s.modDie d f).omsgs = s.omsgs := rfl
@[simp] theorem State.modDie_iface (s : State) (d : Nat) (f : Die → Die) : (s.modDie d f).iface = s.iface := rfl
@[simp] theorem State.modDie_weirs (s : State) (d : Nat) (f : Die → Die) : (s.modDie d f).weirs = s.weirs := rfl
@[simp] theorem State.modDie_weirTot (s : State) (d : Nat) (f : Die → Die) : (s.modDie d f).weirTot = s.weirTot := rfl
@[simp] theorem State.modDie_weirStat (s : State) (d : Nat) (f : Die → Die) : (s.modDie d f).weirStat = s.weirStat := rfl
@[simp] theorem State.modDie_exacts (s : State) (d : Nat) (f : Die → Die) : (s.modDie d f).exacts = s.exacts := rfl
@[simp] theorem State.modDie_sigs (s : State) (d : Nat) (f : Die → Die) : (s.modDie d f).sigs = s.sigs := rfl
@[simp] theorem State.modDie_homeOps (s : State) (d : Nat) (f : Die → Die) : (s.modDie d f).homeOps = s.homeOps := rfl
@[simp] theorem State.modDie_rings (s : State) (d : Nat) (f : Die → Die) : (s.modDie d f).rings = s.rings := rfl
@[simp] theorem State.modDie_ringWait (s : State) (d : Nat) (f : Die → Die) : (s.modDie d f).ringWait = s.ringWait := rfl
@[simp] theorem State.modDie_msgs (s : State) (d : Nat) (f : Die → Die) : (s.modDie d f).msgs = s.msgs := rfl
@[simp] theorem State.modDie_arbiter (s : State) (d : Nat) (f : Die → Die) : (s.modDie d f).arbiter = s.arbiter := rfl
@[simp] theorem State.modDie_drainPort (s : State) (d : Nat) (f : Die → Die) : (s.modDie d f).drainPort = s.drainPort := rfl
@[simp] theorem State.modDie_turns (s : State) (d : Nat) (f : Die → Die) : (s.modDie d f).turns = s.turns := rfl
@[simp] theorem State.modDie_matchers (s : State) (d : Nat) (f : Die → Die) : (s.modDie d f).matchers = s.matchers := rfl
@[simp] theorem State.modDie_filters (s : State) (d : Nat) (f : Die → Die) : (s.modDie d f).filters = s.filters := rfl
@[simp] theorem State.modDie_capRun (s : State) (d : Nat) (f : Die → Die) : (s.modDie d f).capRun = s.capRun := rfl
@[simp] theorem State.modDie_capFrozen (s : State) (d : Nat) (f : Die → Die) : (s.modDie d f).capFrozen = s.capFrozen := rfl
@[simp] theorem State.modDie_capFsel (s : State) (d : Nat) (f : Die → Die) : (s.modDie d f).capFsel = s.capFsel := rfl
@[simp] theorem State.modDie_capLast (s : State) (d : Nat) (f : Die → Die) : (s.modDie d f).capLast = s.capLast := rfl
@[simp] theorem State.modDie_capStopping (s : State) (d : Nat) (f : Die → Die) : (s.modDie d f).capStopping = s.capStopping := rfl
@[simp] theorem State.modDie_capStopped (s : State) (d : Nat) (f : Die → Die) : (s.modDie d f).capStopped = s.capStopped := rfl
@[simp] theorem State.modDie_stopFrom (s : State) (d : Nat) (f : Die → Die) : (s.modDie d f).stopFrom = s.stopFrom := rfl
@[simp] theorem State.modDie_keys (s : State) (d : Nat) (f : Die → Die) : (s.modDie d f).keys = s.keys := rfl
@[simp] theorem State.modDie_kdata (s : State) (d : Nat) (f : Die → Die) : (s.modDie d f).kdata = s.kdata := rfl
@[simp] theorem State.modDie_ksBusy (s : State) (d : Nat) (f : Die → Die) : (s.modDie d f).ksBusy = s.ksBusy := rfl
@[simp] theorem State.modDie_ksOp (s : State) (d : Nat) (f : Die → Die) : (s.modDie d f).ksOp = s.ksOp := rfl
@[simp] theorem State.modDie_hlCount (s : State) (d : Nat) (f : Die → Die) : (s.modDie d f).hlCount = s.hlCount := rfl
@[simp] theorem State.modDie_hlDown (s : State) (d : Nat) (f : Die → Die) : (s.modDie d f).hlDown = s.hlDown := rfl
@[simp] theorem State.modDie_hlRerr (s : State) (d : Nat) (f : Die → Die) : (s.modDie d f).hlRerr = s.hlRerr := rfl
@[simp] theorem State.modDie_hlWerr (s : State) (d : Nat) (f : Die → Die) : (s.modDie d f).hlWerr = s.hlWerr := rfl
@[simp] theorem State.modDie_hlIrqs (s : State) (d : Nat) (f : Die → Die) : (s.modDie d f).hlIrqs = s.hlIrqs := rfl
@[simp] theorem State.modDie_boot (s : State) (d : Nat) (f : Die → Die) : (s.modDie d f).boot = s.boot := rfl
@[simp] theorem State.modDie_flash (s : State) (d : Nat) (f : Die → Die) : (s.modDie d f).flash = s.flash := rfl
@[simp] theorem State.modDie_bootCopy (s : State) (d : Nat) (f : Die → Die) : (s.modDie d f).bootCopy = s.bootCopy := rfl
@[simp] theorem State.modDie_osUp (s : State) (d : Nat) (f : Die → Die) : (s.modDie d f).osUp = s.osUp := rfl
@[simp] theorem State.modDie_meas (s : State) (d : Nat) (f : Die → Die) : (s.modDie d f).meas = s.meas := rfl
@[simp] theorem State.modDie_rollback (s : State) (d : Nat) (f : Die → Die) : (s.modDie d f).rollback = s.rollback := rfl
@[simp] theorem State.modDie_rollWait (s : State) (d : Nat) (f : Die → Die) : (s.modDie d f).rollWait = s.rollWait := rfl
@[simp] theorem State.modDie_copyWritten (s : State) (d : Nat) (f : Die → Die) : (s.modDie d f).copyWritten = s.copyWritten := rfl
@[simp] theorem State.modDie_reports (s : State) (d : Nat) (f : Die → Die) : (s.modDie d f).reports = s.reports := rfl
@[simp] theorem State.modDie_profReplies (s : State) (d : Nat) (f : Die → Die) : (s.modDie d f).profReplies = s.profReplies := rfl
@[simp] theorem State.modDie_clockStep (s : State) (d : Nat) (f : Die → Die) : (s.modDie d f).clockStep = s.clockStep := rfl
@[simp] theorem State.modDie_tooHot (s : State) (d : Nat) (f : Die → Die) : (s.modDie d f).tooHot = s.tooHot := rfl
@[simp] theorem State.modDie_diesOut (s : State) (d : Nat) (f : Die → Die) : (s.modDie d f).diesOut = s.diesOut := rfl
@[simp] theorem State.modDie_lptBase (s : State) (d : Nat) (f : Die → Die) : (s.modDie d f).lptBase = s.lptBase := rfl
@[simp] theorem State.modDie_poisoned (s : State) (d : Nat) (f : Die → Die) : (s.modDie d f).poisoned = s.poisoned := rfl
@[simp] theorem State.modDie_act (s : State) (d : Nat) (f : Die → Die) (j : Nat) : (s.modDie d f).act j = s.act j := rfl
@[simp] theorem State.modDie_me (s : State) (d : Nat) (f : Die → Die) : (s.modDie d f).me = s.me := rfl
@[simp] theorem State.modDie_core_at (s : State) (d : Nat) (f : Die → Die) (j : Nat) : (s.modDie d f).core j = s.core j := rfl
@[simp] theorem State.modDie_part_at (s : State) (d : Nat) (f : Die → Die) (j : Nat) : (s.modDie d f).part j = s.part j := rfl

/-! ## Fields of the state that modPart leaves alone -/

@[simp] theorem State.modPart_agenda (s : State) (p : Nat) (f : Part → Part) : (s.modPart p f).agenda = s.agenda := rfl
@[simp] theorem State.modPart_cur (s : State) (p : Nat) (f : Part → Part) : (s.modPart p f).cur = s.cur := rfl
@[simp] theorem State.modPart_iss (s : State) (p : Nat) (f : Part → Part) : (s.modPart p f).iss = s.iss := rfl
@[simp] theorem State.modPart_later (s : State) (p : Nat) (f : Part → Part) : (s.modPart p f).later = s.later := rfl
@[simp] theorem State.modPart_fresh (s : State) (p : Nat) (f : Part → Part) : (s.modPart p f).fresh = s.fresh := rfl
@[simp] theorem State.modPart_nextWid (s : State) (p : Nat) (f : Part → Part) : (s.modPart p f).nextWid = s.nextWid := rfl
@[simp] theorem State.modPart_nextUid (s : State) (p : Nat) (f : Part → Part) : (s.modPart p f).nextUid = s.nextUid := rfl
@[simp] theorem State.modPart_cycle (s : State) (p : Nat) (f : Part → Part) : (s.modPart p f).cycle = s.cycle := rfl
@[simp] theorem State.modPart_time (s : State) (p : Nat) (f : Part → Part) : (s.modPart p f).time = s.time := rfl
@[simp] theorem State.modPart_acts (s : State) (p : Nat) (f : Part → Part) : (s.modPart p f).acts = s.acts := rfl
@[simp] theorem State.modPart_ports (s : State) (p : Nat) (f : Part → Part) : (s.modPart p f).ports = s.ports := rfl
@[simp] theorem State.modPart_framed (s : State) (p : Nat) (f : Part → Part) : (s.modPart p f).framed = s.framed := rfl
@[simp] theorem State.modPart_cores (s : State) (p : Nat) (f : Part → Part) : (s.modPart p f).cores = s.cores := rfl
@[simp] theorem State.modPart_dies (s : State) (p : Nat) (f : Part → Part) : (s.modPart p f).dies = s.dies := rfl
@[simp] theorem State.modPart_launches (s : State) (p : Nat) (f : Part → Part) : (s.modPart p f).launches = s.launches := rfl
@[simp] theorem State.modPart_loc (s : State) (p : Nat) (f : Part → Part) : (s.modPart p f).loc = s.loc := rfl
@[simp] theorem State.modPart_shm (s : State) (p : Nat) (f : Part → Part) : (s.modPart p f).shm = s.shm := rfl
@[simp] theorem State.modPart_acc (s : State) (p : Nat) (f : Part → Part) : (s.modPart p f).acc = s.acc := rfl
@[simp] theorem State.modPart_accSeed (s : State) (p : Nat) (f : Part → Part) : (s.modPart p f).accSeed = s.accSeed := rfl
@[simp] theorem State.modPart_glb (s : State) (p : Nat) (f : Part → Part) : (s.modPart p f).glb = s.glb := rfl
@[simp] theorem State.modPart_flight (s : State) (p : Nat) (f : Part → Part) : (s.modPart p f).flight = s.flight := rfl
@[simp] theorem State.modPart_host (s : State) (p : Nat) (f : Part → Part) : (s.modPart p f).host = s.host := rfl
@[simp] theorem State.modPart_posted (s : State) (p : Nat) (f : Part → Part) : (s.modPart p f).posted = s.posted := rfl
@[simp] theorem State.modPart_devices (s : State) (p : Nat) (f : Part → Part) : (s.modPart p f).devices = s.devices := rfl
@[simp] theorem State.modPart_roots (s : State) (p : Nat) (f : Part → Part) : (s.modPart p f).roots = s.roots := rfl
@[simp] theorem State.modPart_homes (s : State) (p : Nat) (f : Part → Part) : (s.modPart p f).homes = s.homes := rfl
@[simp] theorem State.modPart_copies (s : State) (p : Nat) (f : Part → Part) : (s.modPart p f).copies = s.copies := rfl
@[simp] theorem State.modPart_dupAsk (s : State) (p : Nat) (f : Part → Part) : (s.modPart p f).dupAsk = s.dupAsk := rfl
@[simp] theorem State.modPart_leases (s : State) (p : Nat) (f : Part → Part) : (s.modPart p f).leases = s.leases := rfl
@[simp] theorem State.modPart_leaseFor (s : State) (p : Nat) (f : Part → Part) : (s.modPart p f).leaseFor = s.leaseFor := rfl
@[simp] theorem State.modPart_omsgs (s : State) (p : Nat) (f : Part → Part) : (s.modPart p f).omsgs = s.omsgs := rfl
@[simp] theorem State.modPart_iface (s : State) (p : Nat) (f : Part → Part) : (s.modPart p f).iface = s.iface := rfl
@[simp] theorem State.modPart_weirs (s : State) (p : Nat) (f : Part → Part) : (s.modPart p f).weirs = s.weirs := rfl
@[simp] theorem State.modPart_weirTot (s : State) (p : Nat) (f : Part → Part) : (s.modPart p f).weirTot = s.weirTot := rfl
@[simp] theorem State.modPart_weirStat (s : State) (p : Nat) (f : Part → Part) : (s.modPart p f).weirStat = s.weirStat := rfl
@[simp] theorem State.modPart_exacts (s : State) (p : Nat) (f : Part → Part) : (s.modPart p f).exacts = s.exacts := rfl
@[simp] theorem State.modPart_sigs (s : State) (p : Nat) (f : Part → Part) : (s.modPart p f).sigs = s.sigs := rfl
@[simp] theorem State.modPart_homeOps (s : State) (p : Nat) (f : Part → Part) : (s.modPart p f).homeOps = s.homeOps := rfl
@[simp] theorem State.modPart_rings (s : State) (p : Nat) (f : Part → Part) : (s.modPart p f).rings = s.rings := rfl
@[simp] theorem State.modPart_ringWait (s : State) (p : Nat) (f : Part → Part) : (s.modPart p f).ringWait = s.ringWait := rfl
@[simp] theorem State.modPart_msgs (s : State) (p : Nat) (f : Part → Part) : (s.modPart p f).msgs = s.msgs := rfl
@[simp] theorem State.modPart_arbiter (s : State) (p : Nat) (f : Part → Part) : (s.modPart p f).arbiter = s.arbiter := rfl
@[simp] theorem State.modPart_drainPort (s : State) (p : Nat) (f : Part → Part) : (s.modPart p f).drainPort = s.drainPort := rfl
@[simp] theorem State.modPart_turns (s : State) (p : Nat) (f : Part → Part) : (s.modPart p f).turns = s.turns := rfl
@[simp] theorem State.modPart_matchers (s : State) (p : Nat) (f : Part → Part) : (s.modPart p f).matchers = s.matchers := rfl
@[simp] theorem State.modPart_filters (s : State) (p : Nat) (f : Part → Part) : (s.modPart p f).filters = s.filters := rfl
@[simp] theorem State.modPart_capRun (s : State) (p : Nat) (f : Part → Part) : (s.modPart p f).capRun = s.capRun := rfl
@[simp] theorem State.modPart_capFrozen (s : State) (p : Nat) (f : Part → Part) : (s.modPart p f).capFrozen = s.capFrozen := rfl
@[simp] theorem State.modPart_capFsel (s : State) (p : Nat) (f : Part → Part) : (s.modPart p f).capFsel = s.capFsel := rfl
@[simp] theorem State.modPart_capLast (s : State) (p : Nat) (f : Part → Part) : (s.modPart p f).capLast = s.capLast := rfl
@[simp] theorem State.modPart_capStopping (s : State) (p : Nat) (f : Part → Part) : (s.modPart p f).capStopping = s.capStopping := rfl
@[simp] theorem State.modPart_capStopped (s : State) (p : Nat) (f : Part → Part) : (s.modPart p f).capStopped = s.capStopped := rfl
@[simp] theorem State.modPart_stopFrom (s : State) (p : Nat) (f : Part → Part) : (s.modPart p f).stopFrom = s.stopFrom := rfl
@[simp] theorem State.modPart_keys (s : State) (p : Nat) (f : Part → Part) : (s.modPart p f).keys = s.keys := rfl
@[simp] theorem State.modPart_kdata (s : State) (p : Nat) (f : Part → Part) : (s.modPart p f).kdata = s.kdata := rfl
@[simp] theorem State.modPart_ksBusy (s : State) (p : Nat) (f : Part → Part) : (s.modPart p f).ksBusy = s.ksBusy := rfl
@[simp] theorem State.modPart_ksOp (s : State) (p : Nat) (f : Part → Part) : (s.modPart p f).ksOp = s.ksOp := rfl
@[simp] theorem State.modPart_hlCount (s : State) (p : Nat) (f : Part → Part) : (s.modPart p f).hlCount = s.hlCount := rfl
@[simp] theorem State.modPart_hlDown (s : State) (p : Nat) (f : Part → Part) : (s.modPart p f).hlDown = s.hlDown := rfl
@[simp] theorem State.modPart_hlRerr (s : State) (p : Nat) (f : Part → Part) : (s.modPart p f).hlRerr = s.hlRerr := rfl
@[simp] theorem State.modPart_hlWerr (s : State) (p : Nat) (f : Part → Part) : (s.modPart p f).hlWerr = s.hlWerr := rfl
@[simp] theorem State.modPart_hlIrqs (s : State) (p : Nat) (f : Part → Part) : (s.modPart p f).hlIrqs = s.hlIrqs := rfl
@[simp] theorem State.modPart_boot (s : State) (p : Nat) (f : Part → Part) : (s.modPart p f).boot = s.boot := rfl
@[simp] theorem State.modPart_flash (s : State) (p : Nat) (f : Part → Part) : (s.modPart p f).flash = s.flash := rfl
@[simp] theorem State.modPart_bootCopy (s : State) (p : Nat) (f : Part → Part) : (s.modPart p f).bootCopy = s.bootCopy := rfl
@[simp] theorem State.modPart_osUp (s : State) (p : Nat) (f : Part → Part) : (s.modPart p f).osUp = s.osUp := rfl
@[simp] theorem State.modPart_meas (s : State) (p : Nat) (f : Part → Part) : (s.modPart p f).meas = s.meas := rfl
@[simp] theorem State.modPart_rollback (s : State) (p : Nat) (f : Part → Part) : (s.modPart p f).rollback = s.rollback := rfl
@[simp] theorem State.modPart_rollWait (s : State) (p : Nat) (f : Part → Part) : (s.modPart p f).rollWait = s.rollWait := rfl
@[simp] theorem State.modPart_copyWritten (s : State) (p : Nat) (f : Part → Part) : (s.modPart p f).copyWritten = s.copyWritten := rfl
@[simp] theorem State.modPart_reports (s : State) (p : Nat) (f : Part → Part) : (s.modPart p f).reports = s.reports := rfl
@[simp] theorem State.modPart_profReplies (s : State) (p : Nat) (f : Part → Part) : (s.modPart p f).profReplies = s.profReplies := rfl
@[simp] theorem State.modPart_clockStep (s : State) (p : Nat) (f : Part → Part) : (s.modPart p f).clockStep = s.clockStep := rfl
@[simp] theorem State.modPart_tooHot (s : State) (p : Nat) (f : Part → Part) : (s.modPart p f).tooHot = s.tooHot := rfl
@[simp] theorem State.modPart_diesOut (s : State) (p : Nat) (f : Part → Part) : (s.modPart p f).diesOut = s.diesOut := rfl
@[simp] theorem State.modPart_lptBase (s : State) (p : Nat) (f : Part → Part) : (s.modPart p f).lptBase = s.lptBase := rfl
@[simp] theorem State.modPart_poisoned (s : State) (p : Nat) (f : Part → Part) : (s.modPart p f).poisoned = s.poisoned := rfl
@[simp] theorem State.modPart_act (s : State) (p : Nat) (f : Part → Part) (j : Nat) : (s.modPart p f).act j = s.act j := rfl
@[simp] theorem State.modPart_me (s : State) (p : Nat) (f : Part → Part) : (s.modPart p f).me = s.me := rfl
@[simp] theorem State.modPart_core_at (s : State) (p : Nat) (f : Part → Part) (j : Nat) : (s.modPart p f).core j = s.core j := rfl
@[simp] theorem State.modPart_die_at (s : State) (p : Nat) (f : Part → Part) (j : Nat) : (s.modPart p f).die j = s.die j := rfl

/-! ## Fields of a slot that sSet leaves alone -/

@[simp] theorem Act.sSet_st (a : Act) (n : Nat) (v : Word) (d : Bool) : (a.sSet n v d).st = a.st := by unfold Act.sSet; split <;> rfl
@[simp] theorem Act.sSet_v (a : Act) (n : Nat) (v : Word) (d : Bool) : (a.sSet n v d).v = a.v := by unfold Act.sSet; split <;> rfl
@[simp] theorem Act.sSet_m (a : Act) (n : Nat) (v : Word) (d : Bool) : (a.sSet n v d).m = a.m := by unfold Act.sSet; split <;> rfl
@[simp] theorem Act.sSet_g (a : Act) (n : Nat) (v : Word) (d : Bool) : (a.sSet n v d).g = a.g := by unfold Act.sSet; split <;> rfl
@[simp] theorem Act.sSet_q (a : Act) (n : Nat) (v : Word) (d : Bool) : (a.sSet n v d).q = a.q := by unfold Act.sSet; split <;> rfl
@[simp] theorem Act.sSet_defV (a : Act) (n : Nat) (v : Word) (d : Bool) : (a.sSet n v d).defV = a.defV := by unfold Act.sSet; split <;> rfl
@[simp] theorem Act.sSet_vl (a : Act) (n : Nat) (v : Word) (d : Bool) : (a.sSet n v d).vl = a.vl := by unfold Act.sSet; split <;> rfl
@[simp] theorem Act.sSet_vlGen (a : Act) (n : Nat) (v : Word) (d : Bool) : (a.sSet n v d).vlGen = a.vlGen := by unfold Act.sSet; split <;> rfl
@[simp] theorem Act.sSet_fpctl (a : Act) (n : Nat) (v : Word) (d : Bool) : (a.sSet n v d).fpctl = a.fpctl := by unfold Act.sSet; split <;> rfl
@[simp] theorem Act.sSet_fpflags (a : Act) (n : Nat) (v : Word) (d : Bool) : (a.sSet n v d).fpflags = a.fpflags := by unfold Act.sSet; split <;> rfl
@[simp] theorem Act.sSet_near (a : Act) (n : Nat) (v : Word) (d : Bool) : (a.sSet n v d).near = a.near := by unfold Act.sSet; split <;> rfl
@[simp] theorem Act.sSet_regions (a : Act) (n : Nat) (v : Word) (d : Bool) : (a.sSet n v d).regions = a.regions := by unfold Act.sSet; split <;> rfl
@[simp] theorem Act.sSet_tumbler (a : Act) (n : Nat) (v : Word) (d : Bool) : (a.sSet n v d).tumbler = a.tumbler := by unfold Act.sSet; split <;> rfl
@[simp] theorem Act.sSet_gcnt (a : Act) (n : Nat) (v : Word) (d : Bool) : (a.sSet n v d).gcnt = a.gcnt := by unfold Act.sSet; split <;> rfl
@[simp] theorem Act.sSet_inh (a : Act) (n : Nat) (v : Word) (d : Bool) : (a.sSet n v d).inh = a.inh := by unfold Act.sSet; split <;> rfl
@[simp] theorem Act.sSet_stamp (a : Act) (n : Nat) (v : Word) (d : Bool) : (a.sSet n v d).stamp = a.stamp := by unfold Act.sSet; split <;> rfl
@[simp] theorem Act.sSet_pc (a : Act) (n : Nat) (v : Word) (d : Bool) : (a.sSet n v d).pc = a.pc := by unfold Act.sSet; split <;> rfl
@[simp] theorem Act.sSet_entry (a : Act) (n : Nat) (v : Word) (d : Bool) : (a.sSet n v d).entry = a.entry := by unfold Act.sSet; split <;> rfl
@[simp] theorem Act.sSet_inline (a : Act) (n : Nat) (v : Word) (d : Bool) : (a.sSet n v d).inline = a.inline := by unfold Act.sSet; split <;> rfl
@[simp] theorem Act.sSet_stage (a : Act) (n : Nat) (v : Word) (d : Bool) : (a.sSet n v d).stage = a.stage := by unfold Act.sSet; split <;> rfl
@[simp] theorem Act.sSet_origin (a : Act) (n : Nat) (v : Word) (d : Bool) : (a.sSet n v d).origin = a.origin := by unfold Act.sSet; split <;> rfl
@[simp] theorem Act.sSet_cls (a : Act) (n : Nat) (v : Word) (d : Bool) : (a.sSet n v d).cls = a.cls := by unfold Act.sSet; split <;> rfl
@[simp] theorem Act.sSet_faultInfo (a : Act) (n : Nat) (v : Word) (d : Bool) : (a.sSet n v d).faultInfo = a.faultInfo := by unfold Act.sSet; split <;> rfl
@[simp] theorem Act.sSet_pend (a : Act) (n : Nat) (v : Word) (d : Bool) : (a.sSet n v d).pend = a.pend := by unfold Act.sSet; split <;> rfl
@[simp] theorem Act.sSet_late (a : Act) (n : Nat) (v : Word) (d : Bool) : (a.sSet n v d).late = a.late := by unfold Act.sSet; split <;> rfl
@[simp] theorem Act.sSet_seq (a : Act) (n : Nat) (v : Word) (d : Bool) : (a.sSet n v d).seq = a.seq := by unfold Act.sSet; split <;> rfl
@[simp] theorem Act.sSet_rpt (a : Act) (n : Nat) (v : Word) (d : Bool) : (a.sSet n v d).rpt = a.rpt := by unfold Act.sSet; split <;> rfl
@[simp] theorem Act.sSet_counted (a : Act) (n : Nat) (v : Word) (d : Bool) : (a.sSet n v d).counted = a.counted := by unfold Act.sSet; split <;> rfl
@[simp] theorem Act.sSet_rstack (a : Act) (n : Nat) (v : Word) (d : Bool) : (a.sSet n v d).rstack = a.rstack := by unfold Act.sSet; split <;> rfl
@[simp] theorem Act.sSet_reply (a : Act) (n : Nat) (v : Word) (d : Bool) : (a.sSet n v d).reply = a.reply := by unfold Act.sSet; split <;> rfl
@[simp] theorem Act.sSet_event (a : Act) (n : Nat) (v : Word) (d : Bool) : (a.sSet n v d).event = a.event := by unfold Act.sSet; split <;> rfl
@[simp] theorem Act.sSet_sluices (a : Act) (n : Nat) (v : Word) (d : Bool) : (a.sSet n v d).sluices = a.sluices := by unfold Act.sSet; split <;> rfl
@[simp] theorem Act.sSet_outbox (a : Act) (n : Nat) (v : Word) (d : Bool) : (a.sSet n v d).outbox = a.outbox := by unfold Act.sSet; split <;> rfl
@[simp] theorem Act.sSet_own (a : Act) (n : Nat) (v : Word) (d : Bool) : (a.sSet n v d).own = a.own := by unfold Act.sSet; split <;> rfl
@[simp] theorem Act.sSet_deps (a : Act) (n : Nat) (v : Word) (d : Bool) : (a.sSet n v d).deps = a.deps := by unfold Act.sSet; split <;> rfl
@[simp] theorem Act.sSet_acq (a : Act) (n : Nat) (v : Word) (d : Bool) : (a.sSet n v d).acq = a.acq := by unfold Act.sSet; split <;> rfl
@[simp] theorem Act.sSet_wait (a : Act) (n : Nat) (v : Word) (d : Bool) : (a.sSet n v d).wait = a.wait := by unfold Act.sSet; split <;> rfl
@[simp] theorem Act.sSet_wrel (a : Act) (n : Nat) (v : Word) (d : Bool) : (a.sSet n v d).wrel = a.wrel := by unfold Act.sSet; split <;> rfl
@[simp] theorem Act.sSet_asked (a : Act) (n : Nat) (v : Word) (d : Bool) : (a.sSet n v d).asked = a.asked := by unfold Act.sSet; split <;> rfl
@[simp] theorem Act.sSet_save (a : Act) (n : Nat) (v : Word) (d : Bool) : (a.sSet n v d).save = a.save := by unfold Act.sSet; split <;> rfl
@[simp] theorem Act.sSet_prog (a : Act) (n : Nat) (v : Word) (d : Bool) : (a.sSet n v d).prog = a.prog := by unfold Act.sSet; split <;> rfl
@[simp] theorem Act.sSet_progIdx (a : Act) (n : Nat) (v : Word) (d : Bool) : (a.sSet n v d).progIdx = a.progIdx := by unfold Act.sSet; split <;> rfl
@[simp] theorem Act.sSet_dseq (a : Act) (n : Nat) (v : Word) (d : Bool) : (a.sSet n v d).dseq = a.dseq := by unfold Act.sSet; split <;> rfl
@[simp] theorem Act.sSet_hostFrame (a : Act) (n : Nat) (v : Word) (d : Bool) : (a.sSet n v d).hostFrame = a.hostFrame := by unfold Act.sSet; split <;> rfl
@[simp] theorem Act.sSet_savedOn (a : Act) (n : Nat) (v : Word) (d : Bool) : (a.sSet n v d).savedOn = a.savedOn := by unfold Act.sSet; split <;> rfl
@[simp] theorem Act.sSet_savedSlot (a : Act) (n : Nat) (v : Word) (d : Bool) : (a.sSet n v d).savedSlot = a.savedSlot := by unfold Act.sSet; split <;> rfl
@[simp] theorem Act.sSet_tokens (a : Act) (n : Nat) (v : Word) (d : Bool) : (a.sSet n v d).tokens = a.tokens := by unfold Act.sSet; split <;> rfl
@[simp] theorem Act.sSet_traceSeq (a : Act) (n : Nat) (v : Word) (d : Bool) : (a.sSet n v d).traceSeq = a.traceSeq := by unfold Act.sSet; split <;> rfl
@[simp] theorem Act.sSet_traceTag (a : Act) (n : Nat) (v : Word) (d : Bool) : (a.sSet n v d).traceTag = a.traceTag := by unfold Act.sSet; split <;> rfl
@[simp] theorem Act.sSet_sender (a : Act) (n : Nat) (v : Word) (d : Bool) : (a.sSet n v d).sender = a.sender := by unfold Act.sSet; split <;> rfl
@[simp] theorem Act.sSet_transit (a : Act) (n : Nat) (v : Word) (d : Bool) : (a.sSet n v d).transit = a.transit := by unfold Act.sSet; split <;> rfl
@[simp] theorem Act.sSet_qwait (a : Act) (n : Nat) (v : Word) (d : Bool) : (a.sSet n v d).qwait = a.qwait := by unfold Act.sSet; split <;> rfl
@[simp] theorem Act.sSet_started (a : Act) (n : Nat) (v : Word) (d : Bool) : (a.sSet n v d).started = a.started := by unfold Act.sSet; split <;> rfl
@[simp] theorem Act.sSet_uid (a : Act) (n : Nat) (v : Word) (d : Bool) : (a.sSet n v d).uid = a.uid := by unfold Act.sSet; split <;> rfl
@[simp] theorem Act.sSet_lastIssue (a : Act) (n : Nat) (v : Word) (d : Bool) : (a.sSet n v d).lastIssue = a.lastIssue := by unfold Act.sSet; split <;> rfl
@[simp] theorem Act.sSet_chain (a : Act) (n : Nat) (v : Word) (d : Bool) : (a.sSet n v d).chain = a.chain := by unfold Act.sSet; split <;> rfl
@[simp] theorem Act.sSet_hostRead (a : Act) (n : Nat) (v : Word) (d : Bool) : (a.sSet n v d).hostRead = a.hostRead := by unfold Act.sSet; split <;> rfl
@[simp] theorem Act.sSet_hostFail (a : Act) (n : Nat) (v : Word) (d : Bool) : (a.sSet n v d).hostFail = a.hostFail := by unfold Act.sSet; split <;> rfl
@[simp] theorem Act.sSet_words (a : Act) (n : Nat) (v : Word) (d : Bool) : (a.sSet n v d).words = a.words := by unfold Act.sSet; split <;> rfl
@[simp] theorem Act.sSet_promoted (a : Act) (n : Nat) (v : Word) (d : Bool) : (a.sSet n v d).promoted = a.promoted := by unfold Act.sSet; split <;> rfl
@[simp] theorem Act.sSet_part (a : Act) (n : Nat) (v : Word) (d : Bool) : (a.sSet n v d).part = a.part := by unfold Act.sSet; split <;> rfl

/-! ## Fields of a slot that vSet leaves alone -/

@[simp] theorem Act.vSet_st (a : Act) (n : Nat) (v : Vec) (d : Bool) : (a.vSet n v d).st = a.st := rfl
@[simp] theorem Act.vSet_s (a : Act) (n : Nat) (v : Vec) (d : Bool) : (a.vSet n v d).s = a.s := rfl
@[simp] theorem Act.vSet_m (a : Act) (n : Nat) (v : Vec) (d : Bool) : (a.vSet n v d).m = a.m := rfl
@[simp] theorem Act.vSet_g (a : Act) (n : Nat) (v : Vec) (d : Bool) : (a.vSet n v d).g = a.g := rfl
@[simp] theorem Act.vSet_q (a : Act) (n : Nat) (v : Vec) (d : Bool) : (a.vSet n v d).q = a.q := rfl
@[simp] theorem Act.vSet_defS (a : Act) (n : Nat) (v : Vec) (d : Bool) : (a.vSet n v d).defS = a.defS := rfl
@[simp] theorem Act.vSet_vl (a : Act) (n : Nat) (v : Vec) (d : Bool) : (a.vSet n v d).vl = a.vl := rfl
@[simp] theorem Act.vSet_vlGen (a : Act) (n : Nat) (v : Vec) (d : Bool) : (a.vSet n v d).vlGen = a.vlGen := rfl
@[simp] theorem Act.vSet_fpctl (a : Act) (n : Nat) (v : Vec) (d : Bool) : (a.vSet n v d).fpctl = a.fpctl := rfl
@[simp] theorem Act.vSet_fpflags (a : Act) (n : Nat) (v : Vec) (d : Bool) : (a.vSet n v d).fpflags = a.fpflags := rfl
@[simp] theorem Act.vSet_near (a : Act) (n : Nat) (v : Vec) (d : Bool) : (a.vSet n v d).near = a.near := rfl
@[simp] theorem Act.vSet_regions (a : Act) (n : Nat) (v : Vec) (d : Bool) : (a.vSet n v d).regions = a.regions := rfl
@[simp] theorem Act.vSet_tumbler (a : Act) (n : Nat) (v : Vec) (d : Bool) : (a.vSet n v d).tumbler = a.tumbler := rfl
@[simp] theorem Act.vSet_gcnt (a : Act) (n : Nat) (v : Vec) (d : Bool) : (a.vSet n v d).gcnt = a.gcnt := rfl
@[simp] theorem Act.vSet_inh (a : Act) (n : Nat) (v : Vec) (d : Bool) : (a.vSet n v d).inh = a.inh := rfl
@[simp] theorem Act.vSet_stamp (a : Act) (n : Nat) (v : Vec) (d : Bool) : (a.vSet n v d).stamp = a.stamp := rfl
@[simp] theorem Act.vSet_pc (a : Act) (n : Nat) (v : Vec) (d : Bool) : (a.vSet n v d).pc = a.pc := rfl
@[simp] theorem Act.vSet_entry (a : Act) (n : Nat) (v : Vec) (d : Bool) : (a.vSet n v d).entry = a.entry := rfl
@[simp] theorem Act.vSet_inline (a : Act) (n : Nat) (v : Vec) (d : Bool) : (a.vSet n v d).inline = a.inline := rfl
@[simp] theorem Act.vSet_stage (a : Act) (n : Nat) (v : Vec) (d : Bool) : (a.vSet n v d).stage = a.stage := rfl
@[simp] theorem Act.vSet_origin (a : Act) (n : Nat) (v : Vec) (d : Bool) : (a.vSet n v d).origin = a.origin := rfl
@[simp] theorem Act.vSet_cls (a : Act) (n : Nat) (v : Vec) (d : Bool) : (a.vSet n v d).cls = a.cls := rfl
@[simp] theorem Act.vSet_faultInfo (a : Act) (n : Nat) (v : Vec) (d : Bool) : (a.vSet n v d).faultInfo = a.faultInfo := rfl
@[simp] theorem Act.vSet_pend (a : Act) (n : Nat) (v : Vec) (d : Bool) : (a.vSet n v d).pend = a.pend := rfl
@[simp] theorem Act.vSet_late (a : Act) (n : Nat) (v : Vec) (d : Bool) : (a.vSet n v d).late = a.late := rfl
@[simp] theorem Act.vSet_seq (a : Act) (n : Nat) (v : Vec) (d : Bool) : (a.vSet n v d).seq = a.seq := rfl
@[simp] theorem Act.vSet_rpt (a : Act) (n : Nat) (v : Vec) (d : Bool) : (a.vSet n v d).rpt = a.rpt := rfl
@[simp] theorem Act.vSet_counted (a : Act) (n : Nat) (v : Vec) (d : Bool) : (a.vSet n v d).counted = a.counted := rfl
@[simp] theorem Act.vSet_rstack (a : Act) (n : Nat) (v : Vec) (d : Bool) : (a.vSet n v d).rstack = a.rstack := rfl
@[simp] theorem Act.vSet_reply (a : Act) (n : Nat) (v : Vec) (d : Bool) : (a.vSet n v d).reply = a.reply := rfl
@[simp] theorem Act.vSet_event (a : Act) (n : Nat) (v : Vec) (d : Bool) : (a.vSet n v d).event = a.event := rfl
@[simp] theorem Act.vSet_sluices (a : Act) (n : Nat) (v : Vec) (d : Bool) : (a.vSet n v d).sluices = a.sluices := rfl
@[simp] theorem Act.vSet_outbox (a : Act) (n : Nat) (v : Vec) (d : Bool) : (a.vSet n v d).outbox = a.outbox := rfl
@[simp] theorem Act.vSet_own (a : Act) (n : Nat) (v : Vec) (d : Bool) : (a.vSet n v d).own = a.own := rfl
@[simp] theorem Act.vSet_deps (a : Act) (n : Nat) (v : Vec) (d : Bool) : (a.vSet n v d).deps = a.deps := rfl
@[simp] theorem Act.vSet_acq (a : Act) (n : Nat) (v : Vec) (d : Bool) : (a.vSet n v d).acq = a.acq := rfl
@[simp] theorem Act.vSet_wait (a : Act) (n : Nat) (v : Vec) (d : Bool) : (a.vSet n v d).wait = a.wait := rfl
@[simp] theorem Act.vSet_wrel (a : Act) (n : Nat) (v : Vec) (d : Bool) : (a.vSet n v d).wrel = a.wrel := rfl
@[simp] theorem Act.vSet_asked (a : Act) (n : Nat) (v : Vec) (d : Bool) : (a.vSet n v d).asked = a.asked := rfl
@[simp] theorem Act.vSet_save (a : Act) (n : Nat) (v : Vec) (d : Bool) : (a.vSet n v d).save = a.save := rfl
@[simp] theorem Act.vSet_prog (a : Act) (n : Nat) (v : Vec) (d : Bool) : (a.vSet n v d).prog = a.prog := rfl
@[simp] theorem Act.vSet_progIdx (a : Act) (n : Nat) (v : Vec) (d : Bool) : (a.vSet n v d).progIdx = a.progIdx := rfl
@[simp] theorem Act.vSet_dseq (a : Act) (n : Nat) (v : Vec) (d : Bool) : (a.vSet n v d).dseq = a.dseq := rfl
@[simp] theorem Act.vSet_hostFrame (a : Act) (n : Nat) (v : Vec) (d : Bool) : (a.vSet n v d).hostFrame = a.hostFrame := rfl
@[simp] theorem Act.vSet_savedOn (a : Act) (n : Nat) (v : Vec) (d : Bool) : (a.vSet n v d).savedOn = a.savedOn := rfl
@[simp] theorem Act.vSet_savedSlot (a : Act) (n : Nat) (v : Vec) (d : Bool) : (a.vSet n v d).savedSlot = a.savedSlot := rfl
@[simp] theorem Act.vSet_tokens (a : Act) (n : Nat) (v : Vec) (d : Bool) : (a.vSet n v d).tokens = a.tokens := rfl
@[simp] theorem Act.vSet_traceSeq (a : Act) (n : Nat) (v : Vec) (d : Bool) : (a.vSet n v d).traceSeq = a.traceSeq := rfl
@[simp] theorem Act.vSet_traceTag (a : Act) (n : Nat) (v : Vec) (d : Bool) : (a.vSet n v d).traceTag = a.traceTag := rfl
@[simp] theorem Act.vSet_sender (a : Act) (n : Nat) (v : Vec) (d : Bool) : (a.vSet n v d).sender = a.sender := rfl
@[simp] theorem Act.vSet_transit (a : Act) (n : Nat) (v : Vec) (d : Bool) : (a.vSet n v d).transit = a.transit := rfl
@[simp] theorem Act.vSet_qwait (a : Act) (n : Nat) (v : Vec) (d : Bool) : (a.vSet n v d).qwait = a.qwait := rfl
@[simp] theorem Act.vSet_started (a : Act) (n : Nat) (v : Vec) (d : Bool) : (a.vSet n v d).started = a.started := rfl
@[simp] theorem Act.vSet_uid (a : Act) (n : Nat) (v : Vec) (d : Bool) : (a.vSet n v d).uid = a.uid := rfl
@[simp] theorem Act.vSet_lastIssue (a : Act) (n : Nat) (v : Vec) (d : Bool) : (a.vSet n v d).lastIssue = a.lastIssue := rfl
@[simp] theorem Act.vSet_chain (a : Act) (n : Nat) (v : Vec) (d : Bool) : (a.vSet n v d).chain = a.chain := rfl
@[simp] theorem Act.vSet_hostRead (a : Act) (n : Nat) (v : Vec) (d : Bool) : (a.vSet n v d).hostRead = a.hostRead := rfl
@[simp] theorem Act.vSet_hostFail (a : Act) (n : Nat) (v : Vec) (d : Bool) : (a.vSet n v d).hostFail = a.hostFail := rfl
@[simp] theorem Act.vSet_words (a : Act) (n : Nat) (v : Vec) (d : Bool) : (a.vSet n v d).words = a.words := rfl
@[simp] theorem Act.vSet_promoted (a : Act) (n : Nat) (v : Vec) (d : Bool) : (a.vSet n v d).promoted = a.promoted := rfl
@[simp] theorem Act.vSet_part (a : Act) (n : Nat) (v : Vec) (d : Bool) : (a.vSet n v d).part = a.part := rfl

/-! ## Fields of a slot that mSet leaves alone -/

@[simp] theorem Act.mSet_st (a : Act) (n : Nat) (v : BitVec 16) : (a.mSet n v).st = a.st := by unfold Act.mSet; split <;> rfl
@[simp] theorem Act.mSet_s (a : Act) (n : Nat) (v : BitVec 16) : (a.mSet n v).s = a.s := by unfold Act.mSet; split <;> rfl
@[simp] theorem Act.mSet_v (a : Act) (n : Nat) (v : BitVec 16) : (a.mSet n v).v = a.v := by unfold Act.mSet; split <;> rfl
@[simp] theorem Act.mSet_g (a : Act) (n : Nat) (v : BitVec 16) : (a.mSet n v).g = a.g := by unfold Act.mSet; split <;> rfl
@[simp] theorem Act.mSet_q (a : Act) (n : Nat) (v : BitVec 16) : (a.mSet n v).q = a.q := by unfold Act.mSet; split <;> rfl
@[simp] theorem Act.mSet_defS (a : Act) (n : Nat) (v : BitVec 16) : (a.mSet n v).defS = a.defS := by unfold Act.mSet; split <;> rfl
@[simp] theorem Act.mSet_defV (a : Act) (n : Nat) (v : BitVec 16) : (a.mSet n v).defV = a.defV := by unfold Act.mSet; split <;> rfl
@[simp] theorem Act.mSet_vl (a : Act) (n : Nat) (v : BitVec 16) : (a.mSet n v).vl = a.vl := by unfold Act.mSet; split <;> rfl
@[simp] theorem Act.mSet_vlGen (a : Act) (n : Nat) (v : BitVec 16) : (a.mSet n v).vlGen = a.vlGen := by unfold Act.mSet; split <;> rfl
@[simp] theorem Act.mSet_fpctl (a : Act) (n : Nat) (v : BitVec 16) : (a.mSet n v).fpctl = a.fpctl := by unfold Act.mSet; split <;> rfl
@[simp] theorem Act.mSet_fpflags (a : Act) (n : Nat) (v : BitVec 16) : (a.mSet n v).fpflags = a.fpflags := by unfold Act.mSet; split <;> rfl
@[simp] theorem Act.mSet_near (a : Act) (n : Nat) (v : BitVec 16) : (a.mSet n v).near = a.near := by unfold Act.mSet; split <;> rfl
@[simp] theorem Act.mSet_regions (a : Act) (n : Nat) (v : BitVec 16) : (a.mSet n v).regions = a.regions := by unfold Act.mSet; split <;> rfl
@[simp] theorem Act.mSet_tumbler (a : Act) (n : Nat) (v : BitVec 16) : (a.mSet n v).tumbler = a.tumbler := by unfold Act.mSet; split <;> rfl
@[simp] theorem Act.mSet_gcnt (a : Act) (n : Nat) (v : BitVec 16) : (a.mSet n v).gcnt = a.gcnt := by unfold Act.mSet; split <;> rfl
@[simp] theorem Act.mSet_inh (a : Act) (n : Nat) (v : BitVec 16) : (a.mSet n v).inh = a.inh := by unfold Act.mSet; split <;> rfl
@[simp] theorem Act.mSet_stamp (a : Act) (n : Nat) (v : BitVec 16) : (a.mSet n v).stamp = a.stamp := by unfold Act.mSet; split <;> rfl
@[simp] theorem Act.mSet_pc (a : Act) (n : Nat) (v : BitVec 16) : (a.mSet n v).pc = a.pc := by unfold Act.mSet; split <;> rfl
@[simp] theorem Act.mSet_entry (a : Act) (n : Nat) (v : BitVec 16) : (a.mSet n v).entry = a.entry := by unfold Act.mSet; split <;> rfl
@[simp] theorem Act.mSet_inline (a : Act) (n : Nat) (v : BitVec 16) : (a.mSet n v).inline = a.inline := by unfold Act.mSet; split <;> rfl
@[simp] theorem Act.mSet_stage (a : Act) (n : Nat) (v : BitVec 16) : (a.mSet n v).stage = a.stage := by unfold Act.mSet; split <;> rfl
@[simp] theorem Act.mSet_origin (a : Act) (n : Nat) (v : BitVec 16) : (a.mSet n v).origin = a.origin := by unfold Act.mSet; split <;> rfl
@[simp] theorem Act.mSet_cls (a : Act) (n : Nat) (v : BitVec 16) : (a.mSet n v).cls = a.cls := by unfold Act.mSet; split <;> rfl
@[simp] theorem Act.mSet_faultInfo (a : Act) (n : Nat) (v : BitVec 16) : (a.mSet n v).faultInfo = a.faultInfo := by unfold Act.mSet; split <;> rfl
@[simp] theorem Act.mSet_pend (a : Act) (n : Nat) (v : BitVec 16) : (a.mSet n v).pend = a.pend := by unfold Act.mSet; split <;> rfl
@[simp] theorem Act.mSet_late (a : Act) (n : Nat) (v : BitVec 16) : (a.mSet n v).late = a.late := by unfold Act.mSet; split <;> rfl
@[simp] theorem Act.mSet_seq (a : Act) (n : Nat) (v : BitVec 16) : (a.mSet n v).seq = a.seq := by unfold Act.mSet; split <;> rfl
@[simp] theorem Act.mSet_rpt (a : Act) (n : Nat) (v : BitVec 16) : (a.mSet n v).rpt = a.rpt := by unfold Act.mSet; split <;> rfl
@[simp] theorem Act.mSet_counted (a : Act) (n : Nat) (v : BitVec 16) : (a.mSet n v).counted = a.counted := by unfold Act.mSet; split <;> rfl
@[simp] theorem Act.mSet_spill (a : Act) (n : Nat) (v : BitVec 16) : (a.mSet n v).spill = a.spill := by unfold Act.mSet; split <;> rfl
@[simp] theorem Act.mSet_rstack (a : Act) (n : Nat) (v : BitVec 16) : (a.mSet n v).rstack = a.rstack := by unfold Act.mSet; split <;> rfl
@[simp] theorem Act.mSet_reply (a : Act) (n : Nat) (v : BitVec 16) : (a.mSet n v).reply = a.reply := by unfold Act.mSet; split <;> rfl
@[simp] theorem Act.mSet_event (a : Act) (n : Nat) (v : BitVec 16) : (a.mSet n v).event = a.event := by unfold Act.mSet; split <;> rfl
@[simp] theorem Act.mSet_sluices (a : Act) (n : Nat) (v : BitVec 16) : (a.mSet n v).sluices = a.sluices := by unfold Act.mSet; split <;> rfl
@[simp] theorem Act.mSet_outbox (a : Act) (n : Nat) (v : BitVec 16) : (a.mSet n v).outbox = a.outbox := by unfold Act.mSet; split <;> rfl
@[simp] theorem Act.mSet_own (a : Act) (n : Nat) (v : BitVec 16) : (a.mSet n v).own = a.own := by unfold Act.mSet; split <;> rfl
@[simp] theorem Act.mSet_deps (a : Act) (n : Nat) (v : BitVec 16) : (a.mSet n v).deps = a.deps := by unfold Act.mSet; split <;> rfl
@[simp] theorem Act.mSet_acq (a : Act) (n : Nat) (v : BitVec 16) : (a.mSet n v).acq = a.acq := by unfold Act.mSet; split <;> rfl
@[simp] theorem Act.mSet_wait (a : Act) (n : Nat) (v : BitVec 16) : (a.mSet n v).wait = a.wait := by unfold Act.mSet; split <;> rfl
@[simp] theorem Act.mSet_wrel (a : Act) (n : Nat) (v : BitVec 16) : (a.mSet n v).wrel = a.wrel := by unfold Act.mSet; split <;> rfl
@[simp] theorem Act.mSet_asked (a : Act) (n : Nat) (v : BitVec 16) : (a.mSet n v).asked = a.asked := by unfold Act.mSet; split <;> rfl
@[simp] theorem Act.mSet_save (a : Act) (n : Nat) (v : BitVec 16) : (a.mSet n v).save = a.save := by unfold Act.mSet; split <;> rfl
@[simp] theorem Act.mSet_prog (a : Act) (n : Nat) (v : BitVec 16) : (a.mSet n v).prog = a.prog := by unfold Act.mSet; split <;> rfl
@[simp] theorem Act.mSet_progIdx (a : Act) (n : Nat) (v : BitVec 16) : (a.mSet n v).progIdx = a.progIdx := by unfold Act.mSet; split <;> rfl
@[simp] theorem Act.mSet_dseq (a : Act) (n : Nat) (v : BitVec 16) : (a.mSet n v).dseq = a.dseq := by unfold Act.mSet; split <;> rfl
@[simp] theorem Act.mSet_hostFrame (a : Act) (n : Nat) (v : BitVec 16) : (a.mSet n v).hostFrame = a.hostFrame := by unfold Act.mSet; split <;> rfl
@[simp] theorem Act.mSet_savedOn (a : Act) (n : Nat) (v : BitVec 16) : (a.mSet n v).savedOn = a.savedOn := by unfold Act.mSet; split <;> rfl
@[simp] theorem Act.mSet_savedSlot (a : Act) (n : Nat) (v : BitVec 16) : (a.mSet n v).savedSlot = a.savedSlot := by unfold Act.mSet; split <;> rfl
@[simp] theorem Act.mSet_tokens (a : Act) (n : Nat) (v : BitVec 16) : (a.mSet n v).tokens = a.tokens := by unfold Act.mSet; split <;> rfl
@[simp] theorem Act.mSet_traceSeq (a : Act) (n : Nat) (v : BitVec 16) : (a.mSet n v).traceSeq = a.traceSeq := by unfold Act.mSet; split <;> rfl
@[simp] theorem Act.mSet_traceTag (a : Act) (n : Nat) (v : BitVec 16) : (a.mSet n v).traceTag = a.traceTag := by unfold Act.mSet; split <;> rfl
@[simp] theorem Act.mSet_sender (a : Act) (n : Nat) (v : BitVec 16) : (a.mSet n v).sender = a.sender := by unfold Act.mSet; split <;> rfl
@[simp] theorem Act.mSet_transit (a : Act) (n : Nat) (v : BitVec 16) : (a.mSet n v).transit = a.transit := by unfold Act.mSet; split <;> rfl
@[simp] theorem Act.mSet_qwait (a : Act) (n : Nat) (v : BitVec 16) : (a.mSet n v).qwait = a.qwait := by unfold Act.mSet; split <;> rfl
@[simp] theorem Act.mSet_started (a : Act) (n : Nat) (v : BitVec 16) : (a.mSet n v).started = a.started := by unfold Act.mSet; split <;> rfl
@[simp] theorem Act.mSet_uid (a : Act) (n : Nat) (v : BitVec 16) : (a.mSet n v).uid = a.uid := by unfold Act.mSet; split <;> rfl
@[simp] theorem Act.mSet_lastIssue (a : Act) (n : Nat) (v : BitVec 16) : (a.mSet n v).lastIssue = a.lastIssue := by unfold Act.mSet; split <;> rfl
@[simp] theorem Act.mSet_chain (a : Act) (n : Nat) (v : BitVec 16) : (a.mSet n v).chain = a.chain := by unfold Act.mSet; split <;> rfl
@[simp] theorem Act.mSet_hostRead (a : Act) (n : Nat) (v : BitVec 16) : (a.mSet n v).hostRead = a.hostRead := by unfold Act.mSet; split <;> rfl
@[simp] theorem Act.mSet_hostFail (a : Act) (n : Nat) (v : BitVec 16) : (a.mSet n v).hostFail = a.hostFail := by unfold Act.mSet; split <;> rfl
@[simp] theorem Act.mSet_words (a : Act) (n : Nat) (v : BitVec 16) : (a.mSet n v).words = a.words := by unfold Act.mSet; split <;> rfl
@[simp] theorem Act.mSet_promoted (a : Act) (n : Nat) (v : BitVec 16) : (a.mSet n v).promoted = a.promoted := by unfold Act.mSet; split <;> rfl
@[simp] theorem Act.mSet_part (a : Act) (n : Nat) (v : BitVec 16) : (a.mSet n v).part = a.part := by unfold Act.mSet; split <;> rfl

/-! ## Fields of a slot that gSet leaves alone -/

@[simp] theorem Act.gSet_st (a : Act) (n : Nat) (v : GVal) : (a.gSet n v).st = a.st := by unfold Act.gSet; split <;> rfl
@[simp] theorem Act.gSet_s (a : Act) (n : Nat) (v : GVal) : (a.gSet n v).s = a.s := by unfold Act.gSet; split <;> rfl
@[simp] theorem Act.gSet_v (a : Act) (n : Nat) (v : GVal) : (a.gSet n v).v = a.v := by unfold Act.gSet; split <;> rfl
@[simp] theorem Act.gSet_m (a : Act) (n : Nat) (v : GVal) : (a.gSet n v).m = a.m := by unfold Act.gSet; split <;> rfl
@[simp] theorem Act.gSet_q (a : Act) (n : Nat) (v : GVal) : (a.gSet n v).q = a.q := by unfold Act.gSet; split <;> rfl
@[simp] theorem Act.gSet_defS (a : Act) (n : Nat) (v : GVal) : (a.gSet n v).defS = a.defS := by unfold Act.gSet; split <;> rfl
@[simp] theorem Act.gSet_defV (a : Act) (n : Nat) (v : GVal) : (a.gSet n v).defV = a.defV := by unfold Act.gSet; split <;> rfl
@[simp] theorem Act.gSet_vl (a : Act) (n : Nat) (v : GVal) : (a.gSet n v).vl = a.vl := by unfold Act.gSet; split <;> rfl
@[simp] theorem Act.gSet_vlGen (a : Act) (n : Nat) (v : GVal) : (a.gSet n v).vlGen = a.vlGen := by unfold Act.gSet; split <;> rfl
@[simp] theorem Act.gSet_fpctl (a : Act) (n : Nat) (v : GVal) : (a.gSet n v).fpctl = a.fpctl := by unfold Act.gSet; split <;> rfl
@[simp] theorem Act.gSet_fpflags (a : Act) (n : Nat) (v : GVal) : (a.gSet n v).fpflags = a.fpflags := by unfold Act.gSet; split <;> rfl
@[simp] theorem Act.gSet_near (a : Act) (n : Nat) (v : GVal) : (a.gSet n v).near = a.near := by unfold Act.gSet; split <;> rfl
@[simp] theorem Act.gSet_regions (a : Act) (n : Nat) (v : GVal) : (a.gSet n v).regions = a.regions := by unfold Act.gSet; split <;> rfl
@[simp] theorem Act.gSet_tumbler (a : Act) (n : Nat) (v : GVal) : (a.gSet n v).tumbler = a.tumbler := by unfold Act.gSet; split <;> rfl
@[simp] theorem Act.gSet_gcnt (a : Act) (n : Nat) (v : GVal) : (a.gSet n v).gcnt = a.gcnt := by unfold Act.gSet; split <;> rfl
@[simp] theorem Act.gSet_inh (a : Act) (n : Nat) (v : GVal) : (a.gSet n v).inh = a.inh := by unfold Act.gSet; split <;> rfl
@[simp] theorem Act.gSet_stamp (a : Act) (n : Nat) (v : GVal) : (a.gSet n v).stamp = a.stamp := by unfold Act.gSet; split <;> rfl
@[simp] theorem Act.gSet_pc (a : Act) (n : Nat) (v : GVal) : (a.gSet n v).pc = a.pc := by unfold Act.gSet; split <;> rfl
@[simp] theorem Act.gSet_entry (a : Act) (n : Nat) (v : GVal) : (a.gSet n v).entry = a.entry := by unfold Act.gSet; split <;> rfl
@[simp] theorem Act.gSet_inline (a : Act) (n : Nat) (v : GVal) : (a.gSet n v).inline = a.inline := by unfold Act.gSet; split <;> rfl
@[simp] theorem Act.gSet_stage (a : Act) (n : Nat) (v : GVal) : (a.gSet n v).stage = a.stage := by unfold Act.gSet; split <;> rfl
@[simp] theorem Act.gSet_origin (a : Act) (n : Nat) (v : GVal) : (a.gSet n v).origin = a.origin := by unfold Act.gSet; split <;> rfl
@[simp] theorem Act.gSet_cls (a : Act) (n : Nat) (v : GVal) : (a.gSet n v).cls = a.cls := by unfold Act.gSet; split <;> rfl
@[simp] theorem Act.gSet_faultInfo (a : Act) (n : Nat) (v : GVal) : (a.gSet n v).faultInfo = a.faultInfo := by unfold Act.gSet; split <;> rfl
@[simp] theorem Act.gSet_pend (a : Act) (n : Nat) (v : GVal) : (a.gSet n v).pend = a.pend := by unfold Act.gSet; split <;> rfl
@[simp] theorem Act.gSet_late (a : Act) (n : Nat) (v : GVal) : (a.gSet n v).late = a.late := by unfold Act.gSet; split <;> rfl
@[simp] theorem Act.gSet_seq (a : Act) (n : Nat) (v : GVal) : (a.gSet n v).seq = a.seq := by unfold Act.gSet; split <;> rfl
@[simp] theorem Act.gSet_rpt (a : Act) (n : Nat) (v : GVal) : (a.gSet n v).rpt = a.rpt := by unfold Act.gSet; split <;> rfl
@[simp] theorem Act.gSet_counted (a : Act) (n : Nat) (v : GVal) : (a.gSet n v).counted = a.counted := by unfold Act.gSet; split <;> rfl
@[simp] theorem Act.gSet_spill (a : Act) (n : Nat) (v : GVal) : (a.gSet n v).spill = a.spill := by unfold Act.gSet; split <;> rfl
@[simp] theorem Act.gSet_rstack (a : Act) (n : Nat) (v : GVal) : (a.gSet n v).rstack = a.rstack := by unfold Act.gSet; split <;> rfl
@[simp] theorem Act.gSet_reply (a : Act) (n : Nat) (v : GVal) : (a.gSet n v).reply = a.reply := by unfold Act.gSet; split <;> rfl
@[simp] theorem Act.gSet_event (a : Act) (n : Nat) (v : GVal) : (a.gSet n v).event = a.event := by unfold Act.gSet; split <;> rfl
@[simp] theorem Act.gSet_sluices (a : Act) (n : Nat) (v : GVal) : (a.gSet n v).sluices = a.sluices := by unfold Act.gSet; split <;> rfl
@[simp] theorem Act.gSet_outbox (a : Act) (n : Nat) (v : GVal) : (a.gSet n v).outbox = a.outbox := by unfold Act.gSet; split <;> rfl
@[simp] theorem Act.gSet_own (a : Act) (n : Nat) (v : GVal) : (a.gSet n v).own = a.own := by unfold Act.gSet; split <;> rfl
@[simp] theorem Act.gSet_deps (a : Act) (n : Nat) (v : GVal) : (a.gSet n v).deps = a.deps := by unfold Act.gSet; split <;> rfl
@[simp] theorem Act.gSet_acq (a : Act) (n : Nat) (v : GVal) : (a.gSet n v).acq = a.acq := by unfold Act.gSet; split <;> rfl
@[simp] theorem Act.gSet_wait (a : Act) (n : Nat) (v : GVal) : (a.gSet n v).wait = a.wait := by unfold Act.gSet; split <;> rfl
@[simp] theorem Act.gSet_wrel (a : Act) (n : Nat) (v : GVal) : (a.gSet n v).wrel = a.wrel := by unfold Act.gSet; split <;> rfl
@[simp] theorem Act.gSet_asked (a : Act) (n : Nat) (v : GVal) : (a.gSet n v).asked = a.asked := by unfold Act.gSet; split <;> rfl
@[simp] theorem Act.gSet_save (a : Act) (n : Nat) (v : GVal) : (a.gSet n v).save = a.save := by unfold Act.gSet; split <;> rfl
@[simp] theorem Act.gSet_prog (a : Act) (n : Nat) (v : GVal) : (a.gSet n v).prog = a.prog := by unfold Act.gSet; split <;> rfl
@[simp] theorem Act.gSet_progIdx (a : Act) (n : Nat) (v : GVal) : (a.gSet n v).progIdx = a.progIdx := by unfold Act.gSet; split <;> rfl
@[simp] theorem Act.gSet_dseq (a : Act) (n : Nat) (v : GVal) : (a.gSet n v).dseq = a.dseq := by unfold Act.gSet; split <;> rfl
@[simp] theorem Act.gSet_hostFrame (a : Act) (n : Nat) (v : GVal) : (a.gSet n v).hostFrame = a.hostFrame := by unfold Act.gSet; split <;> rfl
@[simp] theorem Act.gSet_savedOn (a : Act) (n : Nat) (v : GVal) : (a.gSet n v).savedOn = a.savedOn := by unfold Act.gSet; split <;> rfl
@[simp] theorem Act.gSet_savedSlot (a : Act) (n : Nat) (v : GVal) : (a.gSet n v).savedSlot = a.savedSlot := by unfold Act.gSet; split <;> rfl
@[simp] theorem Act.gSet_tokens (a : Act) (n : Nat) (v : GVal) : (a.gSet n v).tokens = a.tokens := by unfold Act.gSet; split <;> rfl
@[simp] theorem Act.gSet_traceSeq (a : Act) (n : Nat) (v : GVal) : (a.gSet n v).traceSeq = a.traceSeq := by unfold Act.gSet; split <;> rfl
@[simp] theorem Act.gSet_traceTag (a : Act) (n : Nat) (v : GVal) : (a.gSet n v).traceTag = a.traceTag := by unfold Act.gSet; split <;> rfl
@[simp] theorem Act.gSet_sender (a : Act) (n : Nat) (v : GVal) : (a.gSet n v).sender = a.sender := by unfold Act.gSet; split <;> rfl
@[simp] theorem Act.gSet_transit (a : Act) (n : Nat) (v : GVal) : (a.gSet n v).transit = a.transit := by unfold Act.gSet; split <;> rfl
@[simp] theorem Act.gSet_qwait (a : Act) (n : Nat) (v : GVal) : (a.gSet n v).qwait = a.qwait := by unfold Act.gSet; split <;> rfl
@[simp] theorem Act.gSet_started (a : Act) (n : Nat) (v : GVal) : (a.gSet n v).started = a.started := by unfold Act.gSet; split <;> rfl
@[simp] theorem Act.gSet_uid (a : Act) (n : Nat) (v : GVal) : (a.gSet n v).uid = a.uid := by unfold Act.gSet; split <;> rfl
@[simp] theorem Act.gSet_lastIssue (a : Act) (n : Nat) (v : GVal) : (a.gSet n v).lastIssue = a.lastIssue := by unfold Act.gSet; split <;> rfl
@[simp] theorem Act.gSet_chain (a : Act) (n : Nat) (v : GVal) : (a.gSet n v).chain = a.chain := by unfold Act.gSet; split <;> rfl
@[simp] theorem Act.gSet_hostRead (a : Act) (n : Nat) (v : GVal) : (a.gSet n v).hostRead = a.hostRead := by unfold Act.gSet; split <;> rfl
@[simp] theorem Act.gSet_hostFail (a : Act) (n : Nat) (v : GVal) : (a.gSet n v).hostFail = a.hostFail := by unfold Act.gSet; split <;> rfl
@[simp] theorem Act.gSet_words (a : Act) (n : Nat) (v : GVal) : (a.gSet n v).words = a.words := by unfold Act.gSet; split <;> rfl
@[simp] theorem Act.gSet_promoted (a : Act) (n : Nat) (v : GVal) : (a.gSet n v).promoted = a.promoted := by unfold Act.gSet; split <;> rfl
@[simp] theorem Act.gSet_part (a : Act) (n : Nat) (v : GVal) : (a.gSet n v).part = a.part := by unfold Act.gSet; split <;> rfl

/-! ## Fields of a slot that qSet leaves alone -/

@[simp] theorem Act.qSet_st (a : Act) (n : Nat) (l : List Word) : (a.qSet n l).st = a.st := rfl
@[simp] theorem Act.qSet_s (a : Act) (n : Nat) (l : List Word) : (a.qSet n l).s = a.s := rfl
@[simp] theorem Act.qSet_v (a : Act) (n : Nat) (l : List Word) : (a.qSet n l).v = a.v := rfl
@[simp] theorem Act.qSet_m (a : Act) (n : Nat) (l : List Word) : (a.qSet n l).m = a.m := rfl
@[simp] theorem Act.qSet_g (a : Act) (n : Nat) (l : List Word) : (a.qSet n l).g = a.g := rfl
@[simp] theorem Act.qSet_defS (a : Act) (n : Nat) (l : List Word) : (a.qSet n l).defS = a.defS := rfl
@[simp] theorem Act.qSet_defV (a : Act) (n : Nat) (l : List Word) : (a.qSet n l).defV = a.defV := rfl
@[simp] theorem Act.qSet_vl (a : Act) (n : Nat) (l : List Word) : (a.qSet n l).vl = a.vl := rfl
@[simp] theorem Act.qSet_vlGen (a : Act) (n : Nat) (l : List Word) : (a.qSet n l).vlGen = a.vlGen := rfl
@[simp] theorem Act.qSet_fpctl (a : Act) (n : Nat) (l : List Word) : (a.qSet n l).fpctl = a.fpctl := rfl
@[simp] theorem Act.qSet_fpflags (a : Act) (n : Nat) (l : List Word) : (a.qSet n l).fpflags = a.fpflags := rfl
@[simp] theorem Act.qSet_near (a : Act) (n : Nat) (l : List Word) : (a.qSet n l).near = a.near := rfl
@[simp] theorem Act.qSet_regions (a : Act) (n : Nat) (l : List Word) : (a.qSet n l).regions = a.regions := rfl
@[simp] theorem Act.qSet_tumbler (a : Act) (n : Nat) (l : List Word) : (a.qSet n l).tumbler = a.tumbler := rfl
@[simp] theorem Act.qSet_gcnt (a : Act) (n : Nat) (l : List Word) : (a.qSet n l).gcnt = a.gcnt := rfl
@[simp] theorem Act.qSet_inh (a : Act) (n : Nat) (l : List Word) : (a.qSet n l).inh = a.inh := rfl
@[simp] theorem Act.qSet_stamp (a : Act) (n : Nat) (l : List Word) : (a.qSet n l).stamp = a.stamp := rfl
@[simp] theorem Act.qSet_pc (a : Act) (n : Nat) (l : List Word) : (a.qSet n l).pc = a.pc := rfl
@[simp] theorem Act.qSet_entry (a : Act) (n : Nat) (l : List Word) : (a.qSet n l).entry = a.entry := rfl
@[simp] theorem Act.qSet_inline (a : Act) (n : Nat) (l : List Word) : (a.qSet n l).inline = a.inline := rfl
@[simp] theorem Act.qSet_stage (a : Act) (n : Nat) (l : List Word) : (a.qSet n l).stage = a.stage := rfl
@[simp] theorem Act.qSet_origin (a : Act) (n : Nat) (l : List Word) : (a.qSet n l).origin = a.origin := rfl
@[simp] theorem Act.qSet_cls (a : Act) (n : Nat) (l : List Word) : (a.qSet n l).cls = a.cls := rfl
@[simp] theorem Act.qSet_faultInfo (a : Act) (n : Nat) (l : List Word) : (a.qSet n l).faultInfo = a.faultInfo := rfl
@[simp] theorem Act.qSet_pend (a : Act) (n : Nat) (l : List Word) : (a.qSet n l).pend = a.pend := rfl
@[simp] theorem Act.qSet_late (a : Act) (n : Nat) (l : List Word) : (a.qSet n l).late = a.late := rfl
@[simp] theorem Act.qSet_seq (a : Act) (n : Nat) (l : List Word) : (a.qSet n l).seq = a.seq := rfl
@[simp] theorem Act.qSet_rpt (a : Act) (n : Nat) (l : List Word) : (a.qSet n l).rpt = a.rpt := rfl
@[simp] theorem Act.qSet_counted (a : Act) (n : Nat) (l : List Word) : (a.qSet n l).counted = a.counted := rfl
@[simp] theorem Act.qSet_spill (a : Act) (n : Nat) (l : List Word) : (a.qSet n l).spill = a.spill := rfl
@[simp] theorem Act.qSet_rstack (a : Act) (n : Nat) (l : List Word) : (a.qSet n l).rstack = a.rstack := rfl
@[simp] theorem Act.qSet_reply (a : Act) (n : Nat) (l : List Word) : (a.qSet n l).reply = a.reply := rfl
@[simp] theorem Act.qSet_event (a : Act) (n : Nat) (l : List Word) : (a.qSet n l).event = a.event := rfl
@[simp] theorem Act.qSet_sluices (a : Act) (n : Nat) (l : List Word) : (a.qSet n l).sluices = a.sluices := rfl
@[simp] theorem Act.qSet_outbox (a : Act) (n : Nat) (l : List Word) : (a.qSet n l).outbox = a.outbox := rfl
@[simp] theorem Act.qSet_own (a : Act) (n : Nat) (l : List Word) : (a.qSet n l).own = a.own := rfl
@[simp] theorem Act.qSet_deps (a : Act) (n : Nat) (l : List Word) : (a.qSet n l).deps = a.deps := rfl
@[simp] theorem Act.qSet_acq (a : Act) (n : Nat) (l : List Word) : (a.qSet n l).acq = a.acq := rfl
@[simp] theorem Act.qSet_wait (a : Act) (n : Nat) (l : List Word) : (a.qSet n l).wait = a.wait := rfl
@[simp] theorem Act.qSet_wrel (a : Act) (n : Nat) (l : List Word) : (a.qSet n l).wrel = a.wrel := rfl
@[simp] theorem Act.qSet_asked (a : Act) (n : Nat) (l : List Word) : (a.qSet n l).asked = a.asked := rfl
@[simp] theorem Act.qSet_save (a : Act) (n : Nat) (l : List Word) : (a.qSet n l).save = a.save := rfl
@[simp] theorem Act.qSet_prog (a : Act) (n : Nat) (l : List Word) : (a.qSet n l).prog = a.prog := rfl
@[simp] theorem Act.qSet_progIdx (a : Act) (n : Nat) (l : List Word) : (a.qSet n l).progIdx = a.progIdx := rfl
@[simp] theorem Act.qSet_dseq (a : Act) (n : Nat) (l : List Word) : (a.qSet n l).dseq = a.dseq := rfl
@[simp] theorem Act.qSet_hostFrame (a : Act) (n : Nat) (l : List Word) : (a.qSet n l).hostFrame = a.hostFrame := rfl
@[simp] theorem Act.qSet_savedOn (a : Act) (n : Nat) (l : List Word) : (a.qSet n l).savedOn = a.savedOn := rfl
@[simp] theorem Act.qSet_savedSlot (a : Act) (n : Nat) (l : List Word) : (a.qSet n l).savedSlot = a.savedSlot := rfl
@[simp] theorem Act.qSet_tokens (a : Act) (n : Nat) (l : List Word) : (a.qSet n l).tokens = a.tokens := rfl
@[simp] theorem Act.qSet_traceSeq (a : Act) (n : Nat) (l : List Word) : (a.qSet n l).traceSeq = a.traceSeq := rfl
@[simp] theorem Act.qSet_traceTag (a : Act) (n : Nat) (l : List Word) : (a.qSet n l).traceTag = a.traceTag := rfl
@[simp] theorem Act.qSet_sender (a : Act) (n : Nat) (l : List Word) : (a.qSet n l).sender = a.sender := rfl
@[simp] theorem Act.qSet_transit (a : Act) (n : Nat) (l : List Word) : (a.qSet n l).transit = a.transit := rfl
@[simp] theorem Act.qSet_qwait (a : Act) (n : Nat) (l : List Word) : (a.qSet n l).qwait = a.qwait := rfl
@[simp] theorem Act.qSet_started (a : Act) (n : Nat) (l : List Word) : (a.qSet n l).started = a.started := rfl
@[simp] theorem Act.qSet_uid (a : Act) (n : Nat) (l : List Word) : (a.qSet n l).uid = a.uid := rfl
@[simp] theorem Act.qSet_lastIssue (a : Act) (n : Nat) (l : List Word) : (a.qSet n l).lastIssue = a.lastIssue := rfl
@[simp] theorem Act.qSet_chain (a : Act) (n : Nat) (l : List Word) : (a.qSet n l).chain = a.chain := rfl
@[simp] theorem Act.qSet_hostRead (a : Act) (n : Nat) (l : List Word) : (a.qSet n l).hostRead = a.hostRead := rfl
@[simp] theorem Act.qSet_hostFail (a : Act) (n : Nat) (l : List Word) : (a.qSet n l).hostFail = a.hostFail := rfl
@[simp] theorem Act.qSet_words (a : Act) (n : Nat) (l : List Word) : (a.qSet n l).words = a.words := rfl
@[simp] theorem Act.qSet_promoted (a : Act) (n : Nat) (l : List Word) : (a.qSet n l).promoted = a.promoted := rfl
@[simp] theorem Act.qSet_part (a : Act) (n : Nat) (l : List Word) : (a.qSet n l).part = a.part := rfl

end Sys2Proof.Machine
end

