-- ==== Sys2Proof/Laws/Access.lean ====
section
/-!
SUPPORT. What the operations that words share do: results written or pushed, the checks of an access, the bytes of a number,
a signal operation at its block's home.
-/

namespace Sys2Proof

/-! ## Bytes -/

@[simp] theorem leBytes_length (n v : Nat) : (leBytes n v).length = n := by
  induction n generalizing v with
  | zero => rfl
  | succ n ih => simp [leBytes, ih]

theorem leBytes_getD {n i : Nat} (v : Nat) (h : i < n) : (leBytes n v).getD i 0 = BitVec.ofNat 8 (v / 256 ^ i) := by
  induction n generalizing v i with
  | zero => omega
  | succ n ih =>
    cases i with
    | zero => simp [leBytes]
    | succ i => simp only [leBytes, List.getD_cons_succ]; rw [ih _ (by omega), Nat.div_div_eq_div_mul, pow_succ']

/-- A stored number reads back byte by byte, and nothing else changes. -/
theorem mget_mwrite_leBytes (a n v x : Nat) (m : Mem) :
    mget x (mwrite a (leBytes n v) m) = if a ≤ x ∧ x < a + n then BitVec.ofNat 8 (v / 256 ^ (x - a)) else mget x m := by
  split
  · next h =>
    obtain ⟨i, rfl⟩ := Nat.exists_eq_add_of_le h.1
    rw [mget_mwrite_same _ _ (by simp; omega), leBytes_getD v (by omega), Nat.add_sub_cancel_left]
  · next h => exact mget_mwrite_other _ _ (by simp; omega)

theorem mem_upTo {n i : Nat} : i ∈ upTo n ↔ i < n := by
  induction n with
  | zero => simp [upTo]
  | succ n ih => simp [upTo, ih]; omega

theorem mem_from {n a i : Nat} : i ∈ from_ a n ↔ a ≤ i ∧ i < a + n := by
  induction n generalizing a with
  | zero => simp [from_]
  | succ n ih => simp [from_, ih]; omega

namespace Machine

/-! ## Results -/

theorem put_reg (s s0 : State) (rot : Bool) (n : BitVec 6) (v fl : Word) :
    s.put s0 (.reg .s rot n) v fl = .done ((s.raise fl).modMe (fun a => a.sSet n.toNat v)) := rfl

theorem push_of_room {s : State} {n : Nat} (h : (s.me.qGet n).length < 8) (v : Word) :
    s.push n v = some (s.pushed n v) := by
  have hn : ¬ 8 ≤ (s.me.qGet n).length := by omega
  have he : (s.modMe fun a => a.qSet n (s.me.qGet n ++ [v])) = s.modMe (fun a => a.qSet n (a.qGet n ++ [v])) := rfl
  rcases hp : s.poisoned with _ | ⟨g, l⟩
  · simp only [State.push, State.pushed, hn, hp, he, if_false, State.modMe_poisoned, List.isEmpty_nil, if_true, List.filter_nil]
    rw [← hp]; rfl
  · simp only [State.push, State.pushed, hn, hp, he, if_false, State.modMe_poisoned, List.isEmpty_cons, Bool.false_eq_true]; rfl

theorem put_queue {s s0 : State} {pk : Bool} {n : BitVec 3} (h : (s.me.qGet n.toNat).length < 8) (v fl : Word) :
    s.put s0 (.queue pk n) v fl = .done ((s.pushed n.toNat v).raise fl) := by
  simp [State.put, push_of_room h]

/-- A condition under which a release does not hold a word. -/
theorem release_ok {b c : Bool} (h : b = true → c = true) : (b && !c) = false := by cases b <;> simp_all

/-! ## Accesses (R104, R107, R112) -/

theorem access_loc {s : State} {u : Use} {va n : Nat} {extra : Nat → Page → Option FaultReq}
    (h : ∀ o ∈ from_ va n, (if u == .load then s.me.locRead o else s.me.locWrite o) = true) :
    s.access 1 u va n extra = .ok s [{ at_ := .loc, key := 32768 * s.myCore + va, va := va, n := n }] := by
  have : (from_ va n).all (fun o => if u == .load then s.me.locRead o else s.me.locWrite o) = true :=
    List.all_eq_true.mpr h
  simp only [State.access, this, if_true]

theorem access_shm {s : State} {u : Use} {va n : Nat} {extra : Nat → Page → Option FaultReq}
    (h1 : s.myPart.shmBase s.myDie ≤ va) (h2 : va + n ≤ s.myPart.shmBase s.myDie + s.myPart.shmSize s.myDie) :
    s.access 2 u va n extra = .ok s [{ at_ := .shm, key := 2 ^ 27 * s.myDie + va, va := va, n := n }] := by
  simp [State.access, h1, h2]

/-! ## Signals (R135, R404) -/

/-- A signal operation whose checks pass is its step at the home. -/
theorem signalOp_reached {s t u : State} {opc : Nat} {w : Operands} {fields : List Nat} {r : Word} {rel : Bool} {p : Piece}
    {home : Nat} {at_ : State → Piece → Nat → Res} (hd : s.deferredIn opc w fields = none) (hr : s.reach r = .ok t p home)
    (hrel : rel = true → t.releaseReady (sigScope w p) = true) (ho : t.ownerReady p false = (true, u))
    (hp : (if p.at_ == .shm then u.poisonAt shmGranule p.key 32 else u.poisonAt glbGranule p.key 32) = false) :
    s.signalOp opc w fields r rel none at_ = at_ (u.noteIds u.cur (if p.at_ == .shm then [] else u.ownerIds p.key 32)) p home := by
  simp only [State.signalOp, hd, hr, release_ok hrel, ho, hp]; rfl

theorem liveFault_none {r : Word} {b : Block} (h1 : b.live = true) (h2 : b.bad = false) : liveFault r b = none := by
  simp [liveFault, h1, h2]

end Machine

end Sys2Proof
end

