-- ==== Sys2Proof/Laws/Issue.lean ====
section
/-!
SUPPORT. What the issue of a word does, once for all words: a word that issues ends as its effect ends.
-/

namespace Sys2Proof.Machine

/-- A word that issues: its meaning is its effect on the state with its registers home, concluded. -/
theorem issueWord_of_issues {opc : Nat} {w : Operands} {serial : Bool} {s r : State} (h : Issues opc w serial s r)
    (eff : State → Res) :
    ∃ q, issueWord opc w serial eff s = conclude opc w q (eff r) := by
  obtain ⟨hm, ht, hg, hf, hr, hc, hn⟩ := h
  have hrun : s.run opc w eff = eff r := by simp [State.run, hr, hc]
  unfold issueWord
  simp only [hm, hn, Bool.false_and, Bool.false_eq_true, if_false, Bool.not_true]
  cases hi : s.iss with
  | hold => simp [State.inTurn, hi] at ht
  | queued p =>
    refine ⟨false, ?_⟩
    simp only [State.inTurn, hi, Bool.not_eq_true'] at ht
    simp [State.fromQueue, ht, hg, hf, hrun]
  | front =>
    refine ⟨!serial, ?_⟩
    simp only [State.inTurn, hi, Bool.and_eq_true, Bool.or_eq_true, Bool.not_eq_true', beq_iff_eq] at ht
    obtain ⟨⟨⟨hv, hgd⟩, hq⟩, hs⟩ := ht
    have hser : (serial && (!s.me.pend.isEmpty || !s.me.late.isEmpty || s.accepting)) = false := by
      rcases hs with hs | ⟨⟨h1, h2⟩, h3⟩
      · simp [hs]
      · simp [h1, h2, h3]
    rcases hq with hS | ⟨⟨hroom, hbusy⟩, hacc⟩
    · simp [State.atFront, hv, hgd, hser, hS, hg, hf, hrun]
    · simp [State.atFront, hv, hgd, hser, hroom, hbusy, hacc, hg, hf, hrun]

/-- An engine command that enters its queue: its meaning is its effect on the state with its registers home, concluded. One whose
guard is unresolved enters only where its acceptance does not fault (R74). -/
theorem issueWord_of_enters {opc : Nat} {w : Operands} {serial : Bool} {s r : State} (h : Enters opc w serial s r)
    (eff : State → Res) (hnf : s.guardOf w.head = none → ∀ f t, eff r ≠ .fault f t) :
    ∃ q, issueWord opc w serial eff s = conclude opc w q (eff r) := by
  obtain ⟨hcmd, hm, ht, hf, hp, hr, hc⟩ := h
  have hrun (hg : s.guardOf w.head ≠ some false) : s.run opc w eff = eff r := by simp [State.run, hr, hc hg]
  have hoff : s.runOff opc w eff = eff r := by simp [State.runOff, hr]
  have hheld (hg : s.guardOf w.head = none) : s.runHeld opc w eff = conclude opc w false (eff r) := by
    rw [State.runHeld, hrun (by simp [hg])]
    cases he : eff r with
    | fault f t => exact absurd he (hnf hg f t)
    | _ => rfl
  have hd : deferrable opc = false := by
    simp only [isEngineCmd, List.contains_eq_mem, List.mem_cons, List.not_mem_nil, or_false, decide_eq_true_eq] at hcmd
    rcases hcmd with rfl | rfl | rfl | rfl | rfl | rfl | rfl <;> simp [deferrable]
  unfold issueWord
  simp only [hm, hd, Bool.and_false, Bool.false_and, Bool.false_eq_true, if_false, Bool.not_true]
  cases hi : s.iss with
  | hold => simp [State.inTurn, hi] at ht
  | queued p =>
    refine ⟨false, ?_⟩
    simp only [State.inTurn, hi, Bool.not_eq_true'] at ht
    cases hg : s.guardOf w.head with
    | none => simp [State.fromQueue, ht, hg, hcmd, hf (by simp [hg]), hheld hg]
    | some b =>
      cases b with
      | false => simp [State.fromQueue, ht, hg, hcmd, hoff]
      | true => simp [State.fromQueue, ht, hg, hf (by simp [hg]), hrun (by simp [hg])]
  | front =>
    refine ⟨!serial, ?_⟩
    simp only [State.inTurn, hi, Bool.and_eq_true, Bool.or_eq_true, Bool.not_eq_true', beq_iff_eq] at ht
    obtain ⟨⟨⟨hv, hgd⟩, hq⟩, hs⟩ := ht
    have hser : (serial && (!s.me.pend.isEmpty || !s.me.late.isEmpty || s.accepting)) = false := by
      rcases hs with hs | ⟨⟨h1, h2⟩, h3⟩
      · simp [hs]
      · simp [h1, h2, h3]
    have hq' : (w.head.stream != .S && !s.queueRoom opc w) = false ∧ (w.head.stream != .S && !serial &&
        (s.me.pend.any (fun p => p.strm == w.head.stream) || (w.head.stream == .E && s.accepting))) = false := by
      rcases hq with hS | ⟨⟨hroom, hbusy⟩, hacc⟩
      · simp [hS]
      · simp [hroom, hbusy, hacc]
    cases hg : s.guardOf w.head with
    | none => obtain ⟨p, h⟩ := hp hg; simp [hi] at h
    | some b =>
      cases b with
      | false => simp [State.atFront, hv, hgd, hser, hq'.1, hq'.2, hg, hcmd, hoff]
      | true => simp [State.atFront, hv, hgd, hser, hq'.1, hq'.2, hg, hf (by simp [hg]), hrun (by simp [hg])]

/-- A word whose effect is done has issued. -/
theorem issue_done {opc : Nat} {w : Operands} {s r t : State} {eff : State → Res} (h : Issues opc w false s r)
    (he : eff r = .done t) : issue opc w eff s = .next (t.issued opc w) := by
  obtain ⟨q, hq⟩ := issueWord_of_issues h eff
  rw [issue, hq, he]; rfl

/-- The same of a word that serialises. -/
theorem issueSerial_done {opc : Nat} {w : Operands} {s r t : State} {eff : State → Res} (h : Issues opc w true s r)
    (he : eff r = .done t) : issueSerial opc w eff s = .next (t.issued opc w) := by
  obtain ⟨q, hq⟩ := issueWord_of_issues h eff
  rw [issueSerial, hq, he]; rfl

/-- A control transfer that is taken. -/
theorem issue_goto {opc : Nat} {w : Operands} {s r t : State} {pc : Word} {eff : State → Res} (h : Issues opc w false s r)
    (he : eff r = .goto t pc) : issue opc w eff s = .next (t.jumped opc w pc) := by
  obtain ⟨q, hq⟩ := issueWord_of_issues h eff
  rw [issue, hq, he]; rfl

theorem issueSerial_goto {opc : Nat} {w : Operands} {s r t : State} {pc : Word} {eff : State → Res}
    (h : Issues opc w true s r) (he : eff r = .goto t pc) : issueSerial opc w eff s = .next (t.jumped opc w pc) := by
  obtain ⟨q, hq⟩ := issueWord_of_issues h eff
  rw [issueSerial, hq, he]; rfl

/-- A word that has issued and says itself where its slot stands: it has gone through its port (R76). -/
theorem issue_halt {opc : Nat} {w : Operands} {s r t : State} {eff : State → Res} (h : Issues opc w false s r)
    (he : eff r = .halt t) : issue opc w eff s = .next (t.turned opc w.head) := by
  obtain ⟨q, hq⟩ := issueWord_of_issues h eff
  rw [issue, hq, he]; rfl

theorem issueSerial_halt {opc : Nat} {w : Operands} {s r t : State} {eff : State → Res} (h : Issues opc w true s r)
    (he : eff r = .halt t) : issueSerial opc w eff s = .next (t.turned opc w.head) := by
  obtain ⟨q, hq⟩ := issueWord_of_issues h eff
  rw [issueSerial, hq, he]; rfl

/-- A word that faults. -/
theorem issue_fault {opc : Nat} {w : Operands} {s r t : State} {f : FaultReq} {eff : State → Res}
    (h : Issues opc w false s r) (he : eff r = .fault f t) : issue opc w eff s = .next (t.takeFault opc w f) := by
  obtain ⟨q, hq⟩ := issueWord_of_issues h eff
  rw [issue, hq, he]; rfl

theorem issueSerial_fault {opc : Nat} {w : Operands} {s r t : State} {f : FaultReq} {eff : State → Res}
    (h : Issues opc w true s r) (he : eff r = .fault f t) : issueSerial opc w eff s = .next (t.takeFault opc w f) := by
  obtain ⟨q, hq⟩ := issueWord_of_issues h eff
  rw [issueSerial, hq, he]; rfl

/-- The scalar AR instructions: both sources there and none of them deferred. -/
theorem arith_done {w : Operands} {tied : Bool} {f : (d x y : Word) → Val} {s s1 s2 : State} {x y : Word}
    (hx : s.src (if tied then w.b else opndB w) = some (x, false, s1)) (hy : s1.srcC w = some (y, false, s2))
    (hd : (tied && s.dfr w.a) = false) :
    arith w tied f s = s2.put s w.a (f (if tied then s.val w.a else 0) x y).1 (f (if tied then s.val w.a else 0) x y).2 := by
  simp [arith, hx, hy, hd]

end Sys2Proof.Machine
end

