-- ==== Sys2Proof/Laws/Memory.lean ====
section
/-!
SUPPORT. The memories keep their canonical form under every operation that writes one of them, and the form holds after
reset.
-/

namespace Sys2Proof.Machine

/-- An operation that leaves the five memories alone. -/
theorem MemInv.of_eq {s t : State} (h : MemInv s) (hg : t.glb = s.glb) (hl : t.loc = s.loc) (hs : t.shm = s.shm)
    (hh : t.host = s.host) (hf : t.flash = s.flash) : MemInv t :=
  ⟨hg ▸ h.glb, hl ▸ h.loc, hs ▸ h.shm, hh ▸ h.host, hf ▸ h.flash⟩

theorem MemInv.reset : MemInv State.reset := ⟨rfl, rfl, rfl, rfl, rfl⟩

theorem MemInv.setAct {s : State} (h : MemInv s) (k : Nat) (a : Act) : MemInv (s.setAct k a) := h.of_eq rfl rfl rfl rfl rfl
theorem MemInv.modAct {s : State} (h : MemInv s) (k : Nat) (f : Act → Act) : MemInv (s.modAct k f) := h.of_eq rfl rfl rfl rfl rfl
theorem MemInv.modMe {s : State} (h : MemInv s) (f : Act → Act) : MemInv (s.modMe f) := h.of_eq rfl rfl rfl rfl rfl
theorem MemInv.modCore {s : State} (h : MemInv s) (c : Nat) (f : Core → Core) : MemInv (s.modCore c f) := h.of_eq rfl rfl rfl rfl rfl
theorem MemInv.modDie {s : State} (h : MemInv s) (d : Nat) (f : Die → Die) : MemInv (s.modDie d f) := h.of_eq rfl rfl rfl rfl rfl
theorem MemInv.modPart {s : State} (h : MemInv s) (p : Nat) (f : Part → Part) : MemInv (s.modPart p f) := h.of_eq rfl rfl rfl rfl rfl

/-- A fold of an operation that keeps the form. -/
theorem MemInv.foldl {α : Type} {f : State → α → State} (hf : ∀ s x, MemInv s → MemInv (f s x)) (l : List α) :
    ∀ {s : State}, MemInv s → MemInv (l.foldl f s) := by
  induction l with
  | nil => intro s h; exact h
  | cons x l ih => intro s h; exact ih (hf s x h)

/-! ## Operations that change what surrounds the memories -/

theorem MemInv.raise {s : State} (h : MemInv s) (fl : Word) : MemInv (s.raise fl) := by
  unfold State.raise; split <;> exact h.of_eq rfl rfl rfl rfl rfl

theorem MemInv.unpoison {s : State} (h : MemInv s) (g : Nat → Granule) (a n : Nat) : MemInv (s.unpoison g a n) := by
  unfold State.unpoison; split
  · exact h
  · exact h.of_eq rfl rfl rfl rfl rfl

theorem MemInv.closeExact {s : State} (h : MemInv s) (a n : Nat) (keep : Option Nat) : MemInv (s.closeExact a n keep) := by
  unfold State.closeExact; split
  · exact h
  · exact h.of_eq rfl rfl rfl rfl rfl

theorem MemInv.cover {s : State} (h : MemInv s) (g : Nat → Granule) (cells : List (Nat × Byte)) : MemInv (s.cover g cells) := by
  unfold State.cover; split
  · exact h
  · exact h.of_eq rfl rfl rfl rfl rfl

theorem MemInv.cleanDest {s : State} (h : MemInv s) (opc : Nat) (w : Operands) : MemInv (s.cleanDest opc w) := by
  unfold State.cleanDest
  repeat' split
  all_goals exact h.of_eq rfl rfl rfl rfl rfl

theorem MemInv.modPort {s : State} (h : MemInv s) (c : Nat) (st : Stream) (f : Port → Port) : MemInv (s.modPort c st f) :=
  h.of_eq rfl rfl rfl rfl rfl

theorem MemInv.endTurn {s : State} (h : MemInv s) (c : Nat) (st : Stream) : MemInv (s.endTurn c st) := by
  unfold State.endTurn; split
  · exact h
  · exact (h.modAct _ _).modPort _ _ _

theorem MemInv.beginTurn {s : State} (h : MemInv s) (c j : Nat) (st : Stream) : MemInv (s.beginTurn c j st) := by
  unfold State.beginTurn; split
  · exact h
  · exact (h.endTurn _ _).modPort _ _ _

theorem MemInv.yieldSlot {s : State} (h : MemInv s) (c j : Nat) : MemInv (s.yieldSlot c j) := by
  unfold State.yieldSlot
  refine MemInv.foldl (fun s st h => ?_) _ h
  dsimp only; split
  · exact (h.endTurn _ _).modPort _ _ _
  · exact h.modPort _ _ _

theorem MemInv.turned {s : State} (h : MemInv s) (opc : Nat) (hd : Head) : MemInv (s.turned opc hd) := by
  have ht : MemInv (s.turnTaken opc hd) := by
    unfold State.turnTaken; exact ((h.beginTurn s.myCore (slotOf s.cur) hd.stream).modMe _).modPort _ _ _
  have he : MemInv ((s.turnTaken opc hd).turnEnded opc hd) := by
    unfold State.turnEnded; split
    · exact ht.endTurn _ _
    · exact ht
  unfold State.turned
  repeat' split
  · exact h
  · exact he.yieldSlot _ _
  · exact he

theorem MemInv.advance {s : State} (h : MemInv s) : MemInv s.advance := by
  unfold State.advance; split <;> exact h.modMe _

theorem MemInv.issued {s : State} (h : MemInv s) (opc : Nat) (w : Operands) : MemInv (s.issued opc w) :=
  ((h.cleanDest opc w).turned _ _).advance

theorem MemInv.jumped {s : State} (h : MemInv s) (opc : Nat) (w : Operands) (pc : Word) : MemInv (s.jumped opc w pc) :=
  ((h.cleanDest opc w).turned _ _).modMe _

theorem MemInv.issueEntries {s : State} (h : MemInv s) (k : Nat) (es : List (OutEntry × List Nat)) :
    MemInv (s.issueEntries k es) := h.of_eq rfl rfl rfl rfl rfl

theorem MemInv.acquireFrom {s : State} (h : MemInv s) (k first : Nat) (sc : Scope) : MemInv (s.acquireFrom k first sc) :=
  h.modAct _ _

theorem MemInv.applyAt {s : State} (h : MemInv s) (die index : Nat) : MemInv (s.applyAt die index) := by
  unfold State.applyAt; split
  · exact h
  · exact (MemInv.foldl (fun s d h => h.modDie _ _) _ h).of_eq rfl rfl rfl rfl rfl

/-! ## Operations that write GLB -/

theorem MemInv.tagFrom {s : State} (h : MemInv s) (d : Nat) : MemInv (s.tagFrom d).2 :=
  h.modDie d (fun x => { x with drained := (s.die d).drained + 1 })

theorem MemInv.tagAll (l : List Nat) : ∀ {s : State}, MemInv s → MemInv (s.tagAll l).2 := by
  induction l with
  | nil => intro s h; exact h
  | cons d r ih => intro s h; exact ih (h.tagFrom d)

theorem MemInv.drainCells {s : State} (h : MemInv s) (d wid : Nat) (cells : List (Nat × Byte)) (dup : Bool)
    (merged : List (Nat × Nat)) : MemInv (s.drainCells d wid cells dup merged) := by
  have hg := wf_mput cells h.glb
  have key : ∀ t : State, MemInv t → MemInv { t with glb := mput cells s.glb } := fun t ht => ⟨hg, ht.loc, ht.shm, ht.host, ht.flash⟩
  unfold State.drainCells
  dsimp only
  split
  · exact (key _ (h.tagFrom d)).of_eq rfl rfl rfl rfl rfl
  · exact (key _ (h.tagAll _)).of_eq rfl rfl rfl rfl rfl

theorem MemInv.poke {s : State} (h : MemInv s) (a : Nat) (bs : List Byte) : MemInv (s.poke a bs) :=
  have hu := (h.closeExact a bs.length none).unpoison glbGranule a bs.length
  ⟨wf_mwrite bs a h.glb, hu.loc, hu.shm, hu.host, hu.flash⟩

theorem MemInv.pokeWord {s : State} (h : MemInv s) (a : Nat) (v : Word) : MemInv (s.pokeWord a v) := h.poke a _

theorem MemInv.writeGlb {s : State} (h : MemInv s) (d wid key : Nat) (dup : Bool) (bs : List Byte)
    (merged : List (Nat × Nat)) : MemInv (s.writeGlb d wid key dup bs merged) :=
  (h.unpoison _ _ _).drainCells _ _ _ _ _

theorem MemInv.moveFrame {s : State} (h : MemInv s) (old new size : Nat) : MemInv (s.moveFrame old new size) :=
  ⟨wf_mput _ (wf_filter h.glb _), h.loc, h.shm, h.host, h.flash⟩

theorem MemInv.sealByte {s : State} (h : MemInv s) (pa va : Nat) : MemInv (s.sealByte pa va) := by
  unfold State.sealByte; split
  · exact h
  · exact h.of_eq rfl rfl rfl rfl rfl

theorem MemInv.sealPhys {s : State} (h : MemInv s) (pa : Nat) : MemInv (s.sealPhys pa) := by
  unfold State.sealPhys
  repeat' split
  all_goals first | exact h | exact h.sealByte _ _

theorem MemInv.fillGlb {s : State} (h : MemInv s) (cells : List (Nat × Byte)) : MemInv (s.fillGlb cells) := by
  have hf := MemInv.foldl (fun (s : State) (c : Nat × Byte) (h : MemInv s) => (h.sealPhys c.1).closeExact c.1 1 none) cells
    (h.cover glbGranule cells)
  exact ⟨wf_mput cells hf.glb, hf.loc, hf.shm, hf.host, hf.flash⟩

/-! ## Operations that write LOC, SHM and host memory -/

theorem MemInv.toFall {s : State} (h : MemInv s) (core : Nat) (isV : Bool) (fall : Nat) (v : Vec) (poison : BitVec 8) :
    MemInv (s.toFall core isV fall v poison) := by
  have key : ∀ (a : Nat) (bs : List Byte),
      MemInv { s.unpoison locGranule a bs.length with loc := mwrite a bs s.loc } := fun a bs =>
    have hu := h.unpoison locGranule a bs.length
    ⟨hu.glb, wf_mwrite bs a h.loc, hu.shm, hu.host, hu.flash⟩
  simp only [State.toFall]
  split
  · exact key _ _
  · exact (key _ _).of_eq rfl rfl rfl rfl rfl

theorem MemInv.locPut {s : State} (h : MemInv s) (key : Nat) (bs : List Byte) : MemInv (s.locPut key bs) := by
  have hu := h.unpoison locGranule key bs.length
  exact ⟨hu.glb, wf_mwrite bs key h.loc, hu.shm, hu.host, hu.flash⟩

theorem MemInv.fillLoc {s : State} (h : MemInv s) (cells : List (Nat × Byte)) (core : Nat) : MemInv (s.fillLoc cells core) := by
  have hc := h.cover locGranule (cells.map (fun c => (32768 * core + c.1, c.2)))
  exact ⟨hc.glb, wf_mput _ h.loc, hc.shm, hc.host, hc.flash⟩

theorem MemInv.fillShm {s : State} (h : MemInv s) (base : Nat) (cells : List (Nat × Byte)) (d : Nat) :
    MemInv (s.fillShm base cells d) := by
  have hc := h.cover shmGranule (cells.map (fun c => (2 ^ 27 * d + base + c.1, c.2)))
  exact ⟨hc.glb, hc.loc, wf_mput _ h.shm, hc.host, hc.flash⟩

/-- A run of bytes written to LOC, to SHM or to host memory. -/
theorem MemInv.setLoc {s : State} (h : MemInv s) {m : Mem} (hm : Memory.wf m = true) : MemInv { s with loc := m } :=
  ⟨h.glb, hm, h.shm, h.host, h.flash⟩
theorem MemInv.setShm {s : State} (h : MemInv s) {m : Mem} (hm : Memory.wf m = true) : MemInv { s with shm := m } :=
  ⟨h.glb, h.loc, hm, h.host, h.flash⟩
theorem MemInv.setHost {s : State} (h : MemInv s) {m : Mem} (hm : Memory.wf m = true) : MemInv { s with host := m } :=
  ⟨h.glb, h.loc, h.shm, hm, h.flash⟩

theorem MemInv.putBlock {s : State} (h : MemInv s) (d wid home : Nat) (dup : Bool) (b : Block) :
    MemInv (s.putBlock d wid home dup b) := by
  simp only [State.putBlock]; split
  · exact h.setShm (wf_mwrite _ _ h.shm)
  · exact (h.closeExact home 32 none).writeGlb d wid home dup _ _

theorem MemInv.storeCells {s : State} (h : MemInv s) (sc : Scope) (l : List (Piece × Nat × Byte)) :
    MemInv (s.storeCells sc l) := by
  simp only [State.storeCells]
  refine MemInv.issueEntries (MemInv.foldl (fun s x h => ?_) _ h) _ _
  split
  · exact h.setLoc (wf_mput x.2 h.loc)
  · exact (h.setLoc (wf_mput x.2 h.loc)).of_eq rfl rfl rfl rfl rfl

theorem MemInv.hostWrite {s : State} (h : MemInv s) (a : Nat) (bs : List Byte) : MemInv (s.hostWrite a bs) := by
  unfold State.hostWrite; split
  · exact h.of_eq rfl rfl rfl rfl rfl
  · exact (h.setHost (wf_mwrite bs a h.host)).of_eq rfl rfl rfl rfl rfl

theorem MemInv.storeDirect {s : State} (h : MemInv s) (p : Piece) (bs : List Byte) : MemInv (s.storeDirect p bs) := by
  unfold State.storeDirect
  repeat' split
  all_goals first | exact h.hostWrite _ _ | exact h.of_eq rfl rfl rfl rfl rfl

theorem MemInv.storeAll {s : State} (h : MemInv s) (sc : Scope) (l : List (List Piece × List Byte)) :
    MemInv (s.storeAll sc l) :=
  MemInv.storeCells (MemInv.foldl (fun _ x h => h.storeDirect x.1 x.2) _ h) _ _

theorem MemInv.storePieces {s : State} (h : MemInv s) (sc : Scope) (ps : List Piece) (bs : List Byte) :
    MemInv (s.storePieces sc ps bs) := h.storeAll _ _

theorem MemInv.engStore {s : State} (h : MemInv s) (d : Nat) (p : Piece) (bs : List Byte) : MemInv (s.engStore d p bs).2 := by
  unfold State.engStore
  split
  · have hc : MemInv { s.closeExact p.key p.n with nextWid := s.nextWid + 1 } :=
      (h.closeExact p.key p.n none).of_eq rfl rfl rfl rfl rfl
    exact hc.writeGlb d s.nextWid p.key p.page.dup bs []
  · exact (h.unpoison shmGranule p.key p.n).setShm (wf_mwrite bs p.key h.shm)
  · exact h.locPut _ _
  · exact h.hostWrite _ _
  · exact h.of_eq rfl rfl rfl rfl rfl

theorem MemInv.engStores (d : Nat) (ps : List Piece) : ∀ {s : State} (bs : List Byte), MemInv s → MemInv (s.engStores d ps bs).2 := by
  induction ps with
  | nil => intro s bs h; exact h
  | cons p r ih => intro s bs h; exact ih (bs.drop p.n) (h.engStore d p (bs.take p.n))

end Sys2Proof.Machine
end

