-- ==== Sys2Proof/Laws/PerInstr.lean ====
section
/-!
SUPPORT. Lemmas per instruction. Codec: the opcode and the operands that an instruction is written with are read back as that
instruction; an event has no word.
-/

namespace Sys2Proof.Laws.Codec

/-- The opcode map read backwards gives the instruction again. -/
def Statement (i : Instr) : Prop :=
  match toOpcode i with
  | some (opc, w) => ofOpcode opc w = some i
  | none => True

theorem abs (w : Operands) : Statement (.abs w) := rfl
theorem add (w : Operands) : Statement (.add w) := rfl
theorem and (w : Operands) : Statement (.and w) := rfl
theorem andn (w : Operands) : Statement (.andn w) := rfl
theorem bswap (w : Operands) : Statement (.bswap w) := rfl
theorem clz (w : Operands) : Statement (.clz w) := rfl
theorem ctz (w : Operands) : Statement (.ctz w) := rfl
theorem cmp (w : Operands) : Statement (.cmp w) := rfl
theorem div (w : Operands) : Statement (.div w) := rfl
theorem exts (w : Operands) : Statement (.exts w) := rfl
theorem extz (w : Operands) : Statement (.extz w) := rfl
theorem ins (w : Operands) : Statement (.ins w) := rfl
theorem li (w : Operands) : Statement (.li w) := rfl
theorem lih (w : Operands) : Statement (.lih w) := rfl
theorem madr (w : Operands) : Statement (.madr w) := rfl
theorem max (w : Operands) : Statement (.max w) := rfl
theorem min (w : Operands) : Statement (.min w) := rfl
theorem mov (w : Operands) : Statement (.mov w) := rfl
theorem mul (w : Operands) : Statement (.mul w) := rfl
theorem mulh (w : Operands) : Statement (.mulh w) := rfl
theorem neg (w : Operands) : Statement (.neg w) := rfl
theorem or (w : Operands) : Statement (.or w) := rfl
theorem popc (w : Operands) : Statement (.popc w) := rfl
theorem rem (w : Operands) : Statement (.rem w) := rfl
theorem rol (w : Operands) : Statement (.rol w) := rfl
theorem sar (w : Operands) : Statement (.sar w) := rfl
theorem sel (w : Operands) : Statement (.sel w) := rfl
theorem shl (w : Operands) : Statement (.shl w) := rfl
theorem shr (w : Operands) : Statement (.shr w) := rfl
theorem sub (w : Operands) : Statement (.sub w) := rfl
theorem xor (w : Operands) : Statement (.xor w) := rfl
theorem fabs (w : Operands) : Statement (.fabs w) := rfl
theorem fadd (w : Operands) : Statement (.fadd w) := rfl
theorem fcmp (w : Operands) : Statement (.fcmp w) := rfl
theorem fcvt (w : Operands) : Statement (.fcvt w) := rfl
theorem fdiv (w : Operands) : Statement (.fdiv w) := rfl
theorem ffma (w : Operands) : Statement (.ffma w) := rfl
theorem fmax (w : Operands) : Statement (.fmax w) := rfl
theorem fmin (w : Operands) : Statement (.fmin w) := rfl
theorem fmul (w : Operands) : Statement (.fmul w) := rfl
theorem fneg (w : Operands) : Statement (.fneg w) := rfl
theorem fsqrt (w : Operands) : Statement (.fsqrt w) := rfl
theorem fsub (w : Operands) : Statement (.fsub w) := rfl
theorem br (w : Operands) : Statement (.br w) := rfl
theorem brl (w : Operands) : Statement (.brl w) := rfl
theorem chk (w : Operands) : Statement (.chk w) := rfl
theorem endOp (w : Operands) : Statement (.endOp w) := rfl
theorem jmp (w : Operands) : Statement (.jmp w) := rfl
theorem loop (w : Operands) : Statement (.loop w) := rfl
theorem nop (w : Operands) : Statement (.nop w) := rfl
theorem ret (w : Operands) : Statement (.ret w) := rfl
theorem yield (w : Operands) : Statement (.yield w) := rfl
theorem gand (w : Operands) : Statement (.gand w) := rfl
theorem gnot (w : Operands) : Statement (.gnot w) := rfl
theorem gor (w : Operands) : Statement (.gor w) := rfl
theorem mall (w : Operands) : Statement (.mall w) := rfl
theorem mand (w : Operands) : Statement (.mand w) := rfl
theorem many (w : Operands) : Statement (.many w) := rfl
theorem mfirst (w : Operands) : Statement (.mfirst w) := rfl
theorem mnot (w : Operands) : Statement (.mnot w) := rfl
theorem mor (w : Operands) : Statement (.mor w) := rfl
theorem mpop (w : Operands) : Statement (.mpop w) := rfl
theorem vabs (w : Operands) : Statement (.vabs w) := rfl
theorem vadd (w : Operands) : Statement (.vadd w) := rfl
theorem vand (w : Operands) : Statement (.vand w) := rfl
theorem vcmp (w : Operands) : Statement (.vcmp w) := rfl
theorem vcvt (w : Operands) : Statement (.vcvt w) := rfl
theorem vdot4 (w : Operands) : Statement (.vdot4 w) := rfl
theorem vexp2 (w : Operands) : Statement (.vexp2 w) := rfl
theorem vext (w : Operands) : Statement (.vext w) := rfl
theorem vfma (w : Operands) : Statement (.vfma w) := rfl
theorem vins (w : Operands) : Statement (.vins w) := rfl
theorem vlget (w : Operands) : Statement (.vlget w) := rfl
theorem vlog2 (w : Operands) : Statement (.vlog2 w) := rfl
theorem vmax (w : Operands) : Statement (.vmax w) := rfl
theorem vmin (w : Operands) : Statement (.vmin w) := rfl
theorem vmov (w : Operands) : Statement (.vmov w) := rfl
theorem vmul (w : Operands) : Statement (.vmul w) := rfl
theorem vor (w : Operands) : Statement (.vor w) := rfl
theorem vperm (w : Operands) : Statement (.vperm w) := rfl
theorem vqnt (w : Operands) : Statement (.vqnt w) := rfl
theorem vrcp (w : Operands) : Statement (.vrcp w) := rfl
theorem vred (w : Operands) : Statement (.vred w) := rfl
theorem vrsq (w : Operands) : Statement (.vrsq w) := rfl
theorem vsar (w : Operands) : Statement (.vsar w) := rfl
theorem vscan (w : Operands) : Statement (.vscan w) := rfl
theorem vsel (w : Operands) : Statement (.vsel w) := rfl
theorem vshl (w : Operands) : Statement (.vshl w) := rfl
theorem vshr (w : Operands) : Statement (.vshr w) := rfl
theorem vslide (w : Operands) : Statement (.vslide w) := rfl
theorem vsplat (w : Operands) : Statement (.vsplat w) := rfl
theorem vsub (w : Operands) : Statement (.vsub w) := rfl
theorem vxor (w : Operands) : Statement (.vxor w) := rfl
theorem ldg (w : Operands) : Statement (.ldg w) := rfl
theorem ldl (w : Operands) : Statement (.ldl w) := rfl
theorem lds (w : Operands) : Statement (.lds w) := rfl
theorem ldz (w : Operands) : Statement (.ldz w) := rfl
theorem stg (w : Operands) : Statement (.stg w) := rfl
theorem stl (w : Operands) : Statement (.stl w) := rfl
theorem sts (w : Operands) : Statement (.sts w) := rfl
theorem stz (w : Operands) : Statement (.stz w) := rfl
theorem vldg (w : Operands) : Statement (.vldg w) := rfl
theorem vldl (w : Operands) : Statement (.vldl w) := rfl
theorem vlds (w : Operands) : Statement (.vlds w) := rfl
theorem vstg (w : Operands) : Statement (.vstg w) := rfl
theorem vstl (w : Operands) : Statement (.vstl w) := rfl
theorem vsts (w : Operands) : Statement (.vsts w) := rfl
theorem vgthg (w : Operands) : Statement (.vgthg w) := rfl
theorem vgthl (w : Operands) : Statement (.vgthl w) := rfl
theorem vgths (w : Operands) : Statement (.vgths w) := rfl
theorem vsctg (w : Operands) : Statement (.vsctg w) := rfl
theorem vsctl (w : Operands) : Statement (.vsctl w) := rfl
theorem vscts (w : Operands) : Statement (.vscts w) := rfl
theorem pref (w : Operands) : Statement (.pref w) := rfl
theorem amog (w : Operands) : Statement (.amog w) := rfl
theorem amos (w : Operands) : Statement (.amos w) := rfl
theorem casg (w : Operands) : Statement (.casg w) := rfl
theorem cass (w : Operands) : Statement (.cass w) := rfl
theorem redg (w : Operands) : Statement (.redg w) := rfl
theorem reds (w : Operands) : Statement (.reds w) := rfl
theorem vreds (w : Operands) : Statement (.vreds w) := rfl
theorem fence (w : Operands) : Statement (.fence w) := rfl
theorem fencer (w : Operands) : Statement (.fencer w) := rfl
theorem waita (w : Operands) : Statement (.waita w) := rfl
theorem wakea (w : Operands) : Statement (.wakea w) := rfl
theorem oblgive (w : Operands) : Statement (.oblgive w) := rfl
theorem oblqry (w : Operands) : Statement (.oblqry w) := rfl
theorem obltake (w : Operands) : Statement (.obltake w) := rfl
theorem sigadd (w : Operands) : Statement (.sigadd w) := rfl
theorem sigfree (w : Operands) : Statement (.sigfree w) := rfl
theorem signew (w : Operands) : Statement (.signew w) := rfl
theorem sigset (w : Operands) : Statement (.sigset w) := rfl
theorem sigwait (w : Operands) : Statement (.sigwait w) := rfl
theorem bara (w : Operands) : Statement (.bara w) := rfl
theorem barw (w : Operands) : Statement (.barw w) := rfl
theorem grpqry (w : Operands) : Statement (.grpqry w) := rfl
theorem bind (w : Operands) : Statement (.bind w) := rfl
theorem unbind (w : Operands) : Statement (.unbind w) := rfl
theorem send (w : Operands) : Statement (.send w) := rfl
theorem spawn (w : Operands) : Statement (.spawn w) := rfl
theorem slopen (w : Operands) : Statement (.slopen w) := rfl
theorem slwr (w : Operands) : Statement (.slwr w) := rfl
theorem slclose (w : Operands) : Statement (.slclose w) := rfl
theorem ltadv (w : Operands) : Statement (.ltadv w) := rfl
theorem ltann (w : Operands) : Statement (.ltann w) := rfl
theorem ltget (w : Operands) : Statement (.ltget w) := rfl
theorem ltlook (w : Operands) : Statement (.ltlook w) := rfl
theorem ltnull (w : Operands) : Statement (.ltnull w) := rfl
theorem ltset (w : Operands) : Statement (.ltset w) := rfl
theorem ltwait (w : Operands) : Statement (.ltwait w) := rfl
theorem mma (w : Operands) : Statement (.mma w) := rfl
theorem mmdrain (w : Operands) : Statement (.mmdrain w) := rfl
theorem mmrow (w : Operands) : Statement (.mmrow w) := rfl
theorem mmz (w : Operands) : Statement (.mmz w) := rfl
theorem cpy (w : Operands) : Statement (.cpy w) := rfl
theorem cpyg (w : Operands) : Statement (.cpyg w) := rfl
theorem colag (w : Operands) : Statement (.colag w) := rfl
theorem colrs (w : Operands) : Statement (.colrs w) := rfl
theorem rpt (w : Operands) : Statement (.rpt w) := rfl
theorem rptend (w : Operands) : Statement (.rptend w) := rfl
theorem tblld (w : Operands) : Statement (.tblld w) := rfl
theorem tblx (w : Operands) : Statement (.tblx w) := rfl
theorem tldef (w : Operands) : Statement (.tldef w) := rfl
theorem tlqry (w : Operands) : Statement (.tlqry w) := rfl
theorem tlset (w : Operands) : Statement (.tlset w) := rfl
theorem brk (w : Operands) : Statement (.brk w) := rfl
theorem mfc (w : Operands) : Statement (.mfc w) := rfl
theorem mtc (w : Operands) : Statement (.mtc w) := rfl
theorem park (w : Operands) : Statement (.park w) := rfl
theorem unpark (w : Operands) : Statement (.unpark w) := rfl
theorem stamp (w : Operands) : Statement (.stamp w) := rfl
theorem trace (w : Operands) : Statement (.trace w) := rfl
theorem trap (w : Operands) : Statement (.trap w) := rfl
theorem trig (w : Operands) : Statement (.trig w) := rfl
theorem streamDeadlock (core slot : Nat) : Statement (.streamDeadlock core slot) := trivial
theorem slotStartDone (core slot : Nat) : Statement (.slotStartDone core slot) := trivial
theorem starvationPromotion (core slot : Nat) (port : Stream) : Statement (.starvationPromotion core slot port) := trivial
theorem dispatch (core : Nat) : Statement (.dispatch core) := trivial
theorem bindwaitExpiry (core : Nat) : Statement (.bindwaitExpiry core) := trivial
theorem bindComplete (core slot : Nat) : Statement (.bindComplete core slot) := trivial
theorem deadQueueRetry (core : Nat) : Statement (.deadQueueRetry core) := trivial
theorem firingStart (part stage : Nat) : Statement (.firingStart part stage) := trivial
theorem rebalanceTick (part : Nat) : Statement (.rebalanceTick part) := trivial
theorem spawnRequest (core : Nat) : Statement (.spawnRequest core) := trivial
theorem spawnAnswer (core slot : Nat) : Statement (.spawnAnswer core slot) := trivial
theorem messageDelivery (index : Nat) : Statement (.messageDelivery index) := trivial
theorem sendEnqueue (core slot : Nat) : Statement (.sendEnqueue core slot) := trivial
theorem signalHomeOp (index : Nat) : Statement (.signalHomeOp index) := trivial
theorem drain (core slot index : Nat) : Statement (.drain core slot index) := trivial
theorem apply (die index : Nat) : Statement (.apply die index) := trivial
theorem atomicAtOwner (core slot index : Nat) : Statement (.atomicAtOwner core slot index) := trivial
theorem counterHalving (die : Nat) : Statement (.counterHalving die) := trivial
theorem ownerQuery (index : Nat) : Statement (.ownerQuery index) := trivial
theorem ownerReply (index : Nat) : Statement (.ownerReply index) := trivial
theorem redirect (index : Nat) : Statement (.redirect index) := trivial
theorem notOwner (index : Nat) : Statement (.notOwner index) := trivial
theorem migrateBegin (index : Nat) : Statement (.migrateBegin index) := trivial
theorem pageLines (index : Nat) : Statement (.pageLines index) := trivial
theorem migrateDone (index : Nat) : Statement (.migrateDone index) := trivial
theorem ownerUpdate (index : Nat) : Statement (.ownerUpdate index) := trivial
theorem stubExpiry (die page : Nat) : Statement (.stubExpiry die page) := trivial
theorem stubRetire (index : Nat) : Statement (.stubRetire index) := trivial
theorem ownerInval (index : Nat) : Statement (.ownerInval index) := trivial
theorem ownerInvalAck (index : Nat) : Statement (.ownerInvalAck index) := trivial
theorem retireOk (index : Nat) : Statement (.retireOk index) := trivial
theorem stubRelay (index : Nat) : Statement (.stubRelay index) := trivial
theorem chainLimit (index : Nat) : Statement (.chainLimit index) := trivial
theorem dupInval (index : Nat) : Statement (.dupInval index) := trivial
theorem dupInvalAck (index : Nat) : Statement (.dupInvalAck index) := trivial
theorem leaseGrant (index : Nat) : Statement (.leaseGrant index) := trivial
theorem leaseRecall (index : Nat) : Statement (.leaseRecall index) := trivial
theorem leaseReturn (index : Nat) : Statement (.leaseReturn index) := trivial
theorem reservedKind (kind : FabricKind) (src dst : Nat) : Statement (.reservedKind kind src dst) := trivial
theorem migctlPin (part page : Nat) : Statement (.migctlPin part page) := trivial
theorem migctlUnpin (part page : Nat) : Statement (.migctlUnpin part page) := trivial
theorem migctlMove (part page dest destMod : Nat) : Statement (.migctlMove part page dest destMod) := trivial
theorem atmmodeHintWrite (part : Nat) (hint : Bool) : Statement (.atmmodeHintWrite part hint) := trivial
theorem barrierArrival (part group cluster : Nat) : Statement (.barrierArrival part group cluster) := trivial
theorem barrierRelease (part group : Nat) : Statement (.barrierRelease part group) := trivial
theorem mmaStep (octet : Nat) : Statement (.mmaStep octet) := trivial
theorem mmzExec (octet : Nat) : Statement (.mmzExec octet) := trivial
theorem drainStart (core : Nat) : Statement (.drainStart core) := trivial
theorem drainComplete (core : Nat) : Statement (.drainComplete core) := trivial
theorem copyLine (core index : Nat) : Statement (.copyLine core index) := trivial
theorem copyComplete (core index : Nat) : Statement (.copyComplete core index) := trivial
theorem collectiveLine (core index part : Nat) : Statement (.collectiveLine core index part) := trivial
theorem collectiveComplete (core index : Nat) : Statement (.collectiveComplete core index) := trivial
theorem sluiceAnswer (core slot : Nat) (returns : Bool) : Statement (.sluiceAnswer core slot returns) := trivial
theorem sluiceCloseAck (core slot : Nat) : Statement (.sluiceCloseAck core slot) := trivial
theorem eventDispatch (core : Nat) : Statement (.eventDispatch core) := trivial
theorem announcement (core link : Nat) : Statement (.announcement core link) := trivial
theorem nullEvent (core link : Nat) : Statement (.nullEvent core link) := trivial
theorem demand (core link : Nat) : Statement (.demand core link) := trivial
theorem frameSave (core slot : Nat) : Statement (.frameSave core slot) := trivial
theorem frameRestore (core : Nat) : Statement (.frameRestore core) := trivial
theorem preempt (core : Nat) (mask : BitVec 8) : Statement (.preempt core mask) := trivial
theorem pageReady (die asid page : Nat) : Statement (.pageReady die asid page) := trivial
theorem releaseEntry (die entry : Nat) : Statement (.releaseEntry die entry) := trivial
theorem pushFreeFrame (die frame : Nat) : Statement (.pushFreeFrame die frame) := trivial
theorem resumeAtWord (target : ResumeTarget) : Statement (.resumeAtWord target) := trivial
theorem resumeAfterWord (target : ResumeTarget) : Statement (.resumeAfterWord target) := trivial
theorem resumeWithRecovery (target : ResumeTarget) : Statement (.resumeWithRecovery target) := trivial
theorem ringTailWrite (ring : Nat) (tail : BitVec 32) : Statement (.ringTailWrite ring tail) := trivial
theorem processTerminate (part : Nat) : Statement (.processTerminate part) := trivial
theorem eccCorrected (granule : Granule) : Statement (.eccCorrected granule) := trivial
theorem eccUncorrected (granule : Granule) : Statement (.eccUncorrected granule) := trivial
theorem launch (image : Image) : Statement (.launch image) := trivial
theorem launchClose (part : Nat) : Statement (.launchClose part) := trivial
theorem launchEnd (part : Nat) : Statement (.launchEnd part) := trivial
theorem partitionGrow (part : Nat) (clusters : List Nat) : Statement (.partitionGrow part clusters) := trivial
theorem partitionShrink (part : Nat) (clusters : List Nat) : Statement (.partitionShrink part clusters) := trivial
theorem departureTimeout (core : Nat) : Statement (.departureTimeout core) := trivial
theorem creditAudit (die partner : Nat) (vn : VN) : Statement (.creditAudit die partner vn) := trivial
theorem creditReturn (die partner : Nat) (vn : VN) : Statement (.creditReturn die partner vn) := trivial
theorem routerGate (die router : Nat) : Statement (.routerGate die router) := trivial
theorem routerWake (die router : Nat) : Statement (.routerWake die router) := trivial
theorem captureStart (event : SysEvent) : Statement (.captureStart event) := trivial
theorem captureStop (event : SysEvent) : Statement (.captureStop event) := trivial
theorem captureFreeze (event : SysEvent) : Statement (.captureFreeze event) := trivial
theorem selectFilter (event : SysEvent) : Statement (.selectFilter event) := trivial
theorem preciseStop (event : SysEvent) : Statement (.preciseStop event) := trivial
theorem preciseStopTimeout (core slot : Nat) : Statement (.preciseStopTimeout core slot) := trivial
theorem preciseStopLanding (core : Nat) : Statement (.preciseStopLanding core) := trivial
theorem preciseStopResume : Statement (.preciseStopResume) := trivial
theorem captureUnfreeze : Statement (.captureUnfreeze) := trivial
theorem panic (sysCore : Nat) : Statement (.panic sysCore) := trivial
theorem profileClear (core : Nat) : Statement (.profileClear core) := trivial
theorem profileRead (core addr : Nat) : Statement (.profileRead core addr) := trivial
theorem replayTimeout (core : Nat) : Statement (.replayTimeout core) := trivial
theorem keySlotLoad (slot : Nat) : Statement (.keySlotLoad slot) := trivial
theorem keySlotClear (slot : Nat) : Statement (.keySlotClear slot) := trivial
theorem keySlotDone : Statement (.keySlotDone) := trivial
theorem hostReadFail (core slot : Nat) : Statement (.hostReadFail core slot) := trivial
theorem hostWriteFail : Statement (.hostWriteFail) := trivial
theorem hostLinkDown : Statement (.hostLinkDown) := trivial
theorem powerGood : Statement (.powerGood) := trivial
theorem identityReport (nonce : List Byte) : Statement (.identityReport nonce) := trivial
theorem rollbackRaise (value : Word) : Statement (.rollbackRaise value) := trivial
theorem clockStepDown : Statement (.clockStepDown) := trivial
theorem clockStepUp : Statement (.clockStepUp) := trivial
theorem overTemperatureShutdown : Statement (.overTemperatureShutdown) := trivial
theorem weirTableWrite (index : Nat) (entry : WeirEntry) : Statement (.weirTableWrite index entry) := trivial
theorem registerWrite (reg : SysReg) (value : Word) : Statement (.registerWrite reg value) := trivial
theorem pageLineSend (die page : Nat) : Statement (.pageLineSend die page) := trivial
theorem pageEntryInvalidation (addr : Nat) (entry : Word) : Statement (.pageEntryInvalidation addr entry) := trivial
theorem deadMessageRedispatch (part index : Nat) (poison : Bool) : Statement (.deadMessageRedispatch part index poison) := trivial
theorem corruptedFlit (index : Nat) : Statement (.corruptedFlit index) := trivial
theorem hostLinkUp : Statement (.hostLinkUp) := trivial
theorem computeDieResetRelease : Statement (.computeDieResetRelease) := trivial
theorem recoveryCopyWrite (copy : Nat) (contents : BootCopy) : Statement (.recoveryCopyWrite copy contents) := trivial

end Sys2Proof.Laws.Codec
end

