-- ==== Sys2Proof/Tests/Slice0.lean ====
section
/-!
SUPPORT. Tests: ill-formed terms that the checks refuse, words written out from the spec's encoding that the decoder reads, a few
steps, and for each statement with hypotheses a concrete state and operands that meet them (the theorems named witness_…).
-/

namespace Sys2Proof.Tests

open Machine

set_option Elab.async false

/-- The decoder reads an instruction from a word. -/
def reads (w : IWord) (i : Instr) : Bool := match decodeWord false w with | .ok j => decide (j = i) | .error _ => false
/-- The decoder refuses a word under a cause and a field (R55). -/
def refuses (w : IWord) (cause field : Nat) : Bool :=
  match decodeWord false w with | .ok _ => false | .error c => decide (c = (cause, field))
/-- An s register as an operand. -/
def S (n : BitVec 6) : Opnd := .reg .s false n
/-- A v register as an operand. -/
def V (n : BitVec 6) : Opnd := .reg .v false n
/-- A mask as an operand. -/
def M (n : BitVec 6) : Opnd := .reg .m false n
/-- A guard as an operand. -/
def G (n : BitVec 6) : Opnd := .reg .g false n
/-- The head of a word of V. -/
def inV : Head := { stream := .V }
/-- The head of a word of E. -/
def inE : Head := { stream := .E }

/-! ## Ill-formed terms, one for each check -/

/-- A modifier that the layout does not hold. -/
theorem test_wf_canonical : Instr.wf false (.nop { ty := .i64 }) = false := by decide +kernel
/-- An immediate in A, which no field A holds. -/
theorem test_wf_immediate_in_a : Instr.wf false (.add { a := .imm 1, b := S 1, c := S 2, ty := .i64 }) = false := by decide +kernel
/-- B under the pair. -/
theorem test_wf_pair_with_b : Instr.wf false (.add { a := S 1, b := S 2, pair := some 5, ty := .i64 }) = false := by decide +kernel
/-- Cause 0x02: a stream that the opcode does not list (R53). -/
theorem test_wf_stream : Instr.wf false (.add { head := inE, a := S 1, b := S 2, c := S 3, ty := .i64 }) = false := by decide +kernel
/-- Cause 0x03: LIKELY on no branch. -/
theorem test_wf_hint : Instr.wf false (.nop { head := { likely := true } }) = false := by decide +kernel
/-- Cause 0x04: the pair on an opcode without it. -/
theorem test_wf_pair : Instr.wf false (.andn { a := S 1, pair := some 5, ty := .i64 }) = false := by decide +kernel
/-- Cause 0x05: an operand missing. -/
theorem test_wf_kind : Instr.wf false (.add { a := S 1, b := S 2, ty := .i64 }) = false := by decide +kernel
/-- Cause 0x06: a file that the position does not accept. -/
theorem test_wf_file : Instr.wf false (.add { a := S 1, b := V 2, c := S 3, ty := .i64 }) = false := by decide +kernel
/-- Cause 0x07: g0 as a destination. -/
theorem test_wf_number : Instr.wf false (.gnot { a := G 0, c := G 1 }) = false := by decide +kernel
/-- Cause 0x08: a TYPE that the instruction does not list. -/
theorem test_wf_modifier : Instr.wf false (.add { a := S 1, b := S 2, c := S 3, ty := .f32 }) = false := by decide +kernel
/-- Cause 0x09: ROT outside a captured body. -/
theorem test_wf_rotate : Instr.wf false (.vadd { head := inV, a := .reg .v true 1, b := V 2, c := V 3, ty := .i32 }) = false ∧
    Instr.wf true (.vadd { head := inV, a := .reg .v true 1, b := V 2, c := V 3, ty := .i32 }) = true := by decide +kernel

/-- R55: one word for each cause: an unassigned opcode, stream 0b11, HINT[64], the pair on ANDN, ADD without C, a v register in B of
ADD, g0 as a destination, TYPE .f32 on ADD, ROT outside a body, special code 1. -/
theorem test_refused_words :
    refuses 0xE80000006000030000180000#96 0x01 0 ∧
    refuses 0x0080C0000019800100000A00#96 0x02 0 ∧
    refuses 0x008000010019800100000A00#96 0x03 0 ∧
    refuses 0x010000008019800000000005#96 0x04 0 ∧
    refuses 0x008000000019800100180000#96 0x05 3 ∧
    refuses 0x008000000019802100000A00#96 0x06 2 ∧
    refuses 0x284000000C00030000030200#96 0x07 1 ∧
    refuses 0x00800000001D000100000A00#96 0x08 1 ∧
    refuses 0x008000000219800100000A00#96 0x09 1 ∧
    refuses 0x004000000019830040000A00#96 0x0A 2 := by
  decide +kernel

/-- Words of R343, R362, R365, R379, R383, R389, R401, R445, written out from R41 to R54. -/
theorem test_decode_scalar :
    reads 0x004300000019C30000000A00#96 (.abs { head := { guard := 3 }, a := .reg .s false 3, c := .reg .s false 5, ty := .i64, sat := true }) ∧
    reads 0x00830000001BC00100000A00#96 (.add { head := { guard := 3 }, a := .reg .s false 3, b := .reg .s false 4, c := .reg .s false 5, ty := .n64, sat := true }) ∧
    reads 0x00C30000001B800100000A00#96 (.and { head := { guard := 3 }, a := .reg .s false 3, b := .reg .s false 4, c := .reg .s false 5, ty := .n64 }) ∧
    reads 0x01030000001B800100000A00#96 (.andn { head := { guard := 3 }, a := .reg .s false 3, b := .reg .s false 4, c := .reg .s false 5, ty := .n64 }) ∧
    reads 0x01430000001B830000000A00#96 (.bswap { head := { guard := 3 }, a := .reg .s false 3, c := .reg .s false 5, ty := .n64 }) ∧
    reads 0x01830000001B830000000A00#96 (.clz { head := { guard := 3 }, a := .reg .s false 3, c := .reg .s false 5, ty := .n64 }) ∧
    reads 0x01C300000C4B800100000A00#96 (.cmp { head := { guard := 3 }, a := .reg .g false 9, b := .reg .s false 4, c := .reg .s false 5, ty := .n64 }) ∧
    reads 0x02030000001B830000000A00#96 (.ctz { head := { guard := 3 }, a := .reg .s false 3, c := .reg .s false 5, ty := .n64 }) ∧
    reads 0x02430000001BC00100000A00#96 (.div { head := { guard := 3 }, a := .reg .s false 3, b := .reg .s false 4, c := .reg .s false 5, ty := .n64, sat := true }) ∧
    reads 0x028300000019800100000A00#96 (.exts { head := { guard := 3 }, a := .reg .s false 3, b := .reg .s false 4, c := .reg .s false 5, ty := .i64 }) ∧
    reads 0x02C300000019800100000A00#96 (.extz { head := { guard := 3 }, a := .reg .s false 3, b := .reg .s false 4, c := .reg .s false 5, ty := .i64 }) ∧
    reads 0x030300000019800100000A00#96 (.ins { head := { guard := 3 }, a := .reg .s false 3, b := .reg .s false 4, c := .reg .s false 5, ty := .i64 }) ∧
    reads 0x03430000001B830000080005#96 (.li { head := { guard := 3 }, a := .reg .s false 3, c := .imm 5, ty := .n64 }) ∧
    reads 0x038300000019830000080005#96 (.lih { head := { guard := 3 }, a := .reg .s false 3, c := .imm 5, ty := .i64 }) ∧
    reads 0x03C30000001BC00100000A00#96 (.madr { head := { guard := 3 }, a := .reg .s false 3, b := .reg .s false 4, c := .reg .s false 5, ty := .n64, sat := true }) ∧
    reads 0x04030000001B800100000A00#96 (.max { head := { guard := 3 }, a := .reg .s false 3, b := .reg .s false 4, c := .reg .s false 5, ty := .n64 }) ∧
    reads 0x04430000001B800100000A00#96 (.min { head := { guard := 3 }, a := .reg .s false 3, b := .reg .s false 4, c := .reg .s false 5, ty := .n64 }) ∧
    reads 0x048300000019830000000A00#96 (.mov { head := { guard := 3 }, a := .reg .s false 3, c := .reg .s false 5, ty := .i64 }) ∧
    reads 0x04C30000001BC00100000A00#96 (.mul { head := { guard := 3 }, a := .reg .s false 3, b := .reg .s false 4, c := .reg .s false 5, ty := .n64, sat := true }) ∧
    reads 0x05030000001B800100000A00#96 (.mulh { head := { guard := 3 }, a := .reg .s false 3, b := .reg .s false 4, c := .reg .s false 5, ty := .n64 }) ∧
    reads 0x05430000001BC30000000A00#96 (.neg { head := { guard := 3 }, a := .reg .s false 3, c := .reg .s false 5, ty := .n64, sat := true }) ∧
    reads 0x05830000001B800100000A00#96 (.or { head := { guard := 3 }, a := .reg .s false 3, b := .reg .s false 4, c := .reg .s false 5, ty := .n64 }) ∧
    reads 0x05C30000001B830000000A00#96 (.popc { head := { guard := 3 }, a := .reg .s false 3, c := .reg .s false 5, ty := .n64 }) ∧
    reads 0x06030000001B800100000A00#96 (.rem { head := { guard := 3 }, a := .reg .s false 3, b := .reg .s false 4, c := .reg .s false 5, ty := .n64 }) ∧
    reads 0x06430000001B800100000A00#96 (.rol { head := { guard := 3 }, a := .reg .s false 3, b := .reg .s false 4, c := .reg .s false 5, ty := .n64 }) ∧
    reads 0x06830000001B800100000A00#96 (.sar { head := { guard := 3 }, a := .reg .s false 3, b := .reg .s false 4, c := .reg .s false 5, ty := .n64 }) ∧
    reads 0x06C30000001B800100000A00#96 (.sel { head := { guard := 3 }, a := .reg .s false 3, b := .reg .s false 4, c := .reg .s false 5, ty := .n64 }) ∧
    reads 0x07030000001B800100000A00#96 (.shl { head := { guard := 3 }, a := .reg .s false 3, b := .reg .s false 4, c := .reg .s false 5, ty := .n64 }) ∧
    reads 0x07430000001B800100000A00#96 (.shr { head := { guard := 3 }, a := .reg .s false 3, b := .reg .s false 4, c := .reg .s false 5, ty := .n64 }) ∧
    reads 0x07830000001BC00100000A00#96 (.sub { head := { guard := 3 }, a := .reg .s false 3, b := .reg .s false 4, c := .reg .s false 5, ty := .n64, sat := true }) ∧
    reads 0x07C30000001B800100000A00#96 (.xor { head := { guard := 3 }, a := .reg .s false 3, b := .reg .s false 4, c := .reg .s false 5, ty := .n64 }) := by
  decide +kernel

/-- Words of R367 to R370, written out from R41 to R54. -/
theorem test_decode_float :
    reads 0x20030000001D830000000A00#96 (.fabs { head := { guard := 3 }, a := .reg .s false 3, c := .reg .s false 5, ty := .f64 }) ∧
    reads 0x20430000001D900100000A00#96 (.fadd { head := { guard := 3 }, a := .reg .s false 3, b := .reg .s false 4, c := .reg .s false 5, ty := .f64, rnd := .rdn }) ∧
    reads 0x208300000C4D800100000A00#96 (.fcmp { head := { guard := 3 }, a := .reg .g false 9, b := .reg .s false 4, c := .reg .s false 5, ty := .f64 }) ∧
    reads 0x20C30000001DD30000000B40#96 (.fcvt { head := { guard := 3 }, a := .reg .s false 3, c := .reg .s false 5, ty := .f64, sat := true, rnd := .rdn, opf := 20 }) ∧
    reads 0x21030000001D900100000A00#96 (.fdiv { head := { guard := 3 }, a := .reg .s false 3, b := .reg .s false 4, c := .reg .s false 5, ty := .f64, rnd := .rdn }) ∧
    reads 0x21430000001D900100000A00#96 (.ffma { head := { guard := 3 }, a := .reg .s false 3, b := .reg .s false 4, c := .reg .s false 5, ty := .f64, rnd := .rdn }) ∧
    reads 0x21830000001D800100000A00#96 (.fmax { head := { guard := 3 }, a := .reg .s false 3, b := .reg .s false 4, c := .reg .s false 5, ty := .f64 }) ∧
    reads 0x21C30000001D800100000A00#96 (.fmin { head := { guard := 3 }, a := .reg .s false 3, b := .reg .s false 4, c := .reg .s false 5, ty := .f64 }) ∧
    reads 0x22030000001D900100000A00#96 (.fmul { head := { guard := 3 }, a := .reg .s false 3, b := .reg .s false 4, c := .reg .s false 5, ty := .f64, rnd := .rdn }) ∧
    reads 0x22430000001D830000000A00#96 (.fneg { head := { guard := 3 }, a := .reg .s false 3, c := .reg .s false 5, ty := .f64 }) ∧
    reads 0x22830000001D930000000A00#96 (.fsqrt { head := { guard := 3 }, a := .reg .s false 3, c := .reg .s false 5, ty := .f64, rnd := .rdn }) ∧
    reads 0x22C30000001D900100000A00#96 (.fsub { head := { guard := 3 }, a := .reg .s false 3, b := .reg .s false 4, c := .reg .s false 5, ty := .f64, rnd := .rdn }) := by
  decide +kernel

/-- Words of R354, R357, R364, R374, R380, R390, R397, R446, written out from R41 to R54. -/
theorem test_decode_control :
    reads 0x240300006000030000080005#96 (.br { head := { guard := 3 }, c := .imm 5 }) ∧
    reads 0x244300000018030000000A00#96 (.brl { head := { guard := 3 }, a := .reg .s false 3, c := .reg .s false 5 }) ∧
    reads 0x248300000018030000080005#96 (.chk { head := { guard := 3 }, a := .reg .s false 3, c := .imm 5 }) ∧
    reads 0x24C300006000030000180000#96 (.endOp { head := { guard := 3 } }) ∧
    reads 0x250300006000030000000A00#96 (.jmp { head := { guard := 3 }, c := .reg .s false 5 }) ∧
    reads 0x254300000018030000080005#96 (.loop { head := { guard := 3 }, a := .reg .s false 3, c := .imm 5 }) ∧
    reads 0x258300006000030000180000#96 (.nop { head := { guard := 3 } }) ∧
    reads 0x25C300006000030000000A00#96 (.ret { head := { guard := 3 }, c := .reg .s false 5 }) ∧
    reads 0x260300006000030000180000#96 (.yield { head := { guard := 3 } }) := by
  decide +kernel

/-- Words of R372, R385, written out from R41 to R54. -/
theorem test_decode_guards_and_masks :
    reads 0x280300000C480062C0031800#96 (.gand { head := { guard := 3 }, a := .reg .g false 9, b := .reg .g false 11, c := .reg .g false 12 }) ∧
    reads 0x284300000C48030000031800#96 (.gnot { head := { guard := 3 }, a := .reg .g false 9, c := .reg .g false 12 }) ∧
    reads 0x288300000C480062C0031800#96 (.gor { head := { guard := 3 }, a := .reg .g false 9, b := .reg .g false 11, c := .reg .g false 12 }) ∧
    reads 0x28C340000C48030000020800#96 (.mall { head := { guard := 3, stream := .V }, a := .reg .g false 9, c := .reg .m false 4 }) ∧
    reads 0x2903400008100040C0020800#96 (.mand { head := { guard := 3, stream := .V }, a := .reg .m false 2, b := .reg .m false 3, c := .reg .m false 4 }) ∧
    reads 0x294340000C48030000020800#96 (.many { head := { guard := 3, stream := .V }, a := .reg .g false 9, c := .reg .m false 4 }) ∧
    reads 0x298340000810030000020800#96 (.mfirst { head := { guard := 3, stream := .V }, a := .reg .m false 2, c := .reg .m false 4 }) ∧
    reads 0x29C340000810030000020800#96 (.mnot { head := { guard := 3, stream := .V }, a := .reg .m false 2, c := .reg .m false 4 }) ∧
    reads 0x2A03400008100040C0020800#96 (.mor { head := { guard := 3, stream := .V }, a := .reg .m false 2, b := .reg .m false 3, c := .reg .m false 4 }) ∧
    reads 0x2A4340000430030000020800#96 (.mpop { head := { guard := 3, stream := .V }, a := .reg .v false 6, c := .reg .m false 4 }) := by
  decide +kernel

/-- Words of R423 to R436, written out from R41 to R54. -/
theorem test_decode_vector_a :
    reads 0x40034000043543000A011000#96 (.vabs { head := { guard := 3, stream := .V }, a := .reg .v false 6, c := .reg .v false 8, ty := .f32, sat := true, msk := 5 }) ∧
    reads 0x4043400004355021CA011000#96 (.vadd { head := { guard := 3, stream := .V }, a := .reg .v false 6, b := .reg .v false 7, c := .reg .v false 8, ty := .f32, sat := true, rnd := .rdn, msk := 5 }) ∧
    reads 0x4083400004330021CA011000#96 (.vand { head := { guard := 3, stream := .V }, a := .reg .v false 6, b := .reg .v false 7, c := .reg .v false 8, ty := .n32, msk := 5 }) ∧
    reads 0x40C34000081D0021CA011000#96 (.vcmp { head := { guard := 3, stream := .V }, a := .reg .m false 3, b := .reg .v false 7, c := .reg .v false 8, ty := .f32, msk := 5 }) ∧
    reads 0x41034000043553000A011140#96 (.vcvt { head := { guard := 3, stream := .V }, a := .reg .v false 6, c := .reg .v false 8, ty := .f32, sat := true, rnd := .rdn, msk := 5, opf := 20 }) ∧
    reads 0x4143400004355021CA011000#96 (.vdot4 { head := { guard := 3, stream := .V }, a := .reg .v false 6, b := .reg .v false 7, c := .reg .v false 8, ty := .f32, sat := true, rnd := .rdn, msk := 5 }) ∧
    reads 0x41834000043503000A011000#96 (.vexp2 { head := { guard := 3, stream := .V }, a := .reg .v false 6, c := .reg .v false 8, ty := .f32, msk := 5 }) ∧
    reads 0x41C34000540D0021C0000A00#96 (.vext { head := { guard := 3, stream := .V }, a := .queue false 1, b := .reg .v false 7, c := .reg .s false 5, ty := .f32 }) ∧
    reads 0x4203400004351021CA011000#96 (.vfma { head := { guard := 3, stream := .V }, a := .reg .v false 6, b := .reg .v false 7, c := .reg .v false 8, ty := .f32, rnd := .rdn, msk := 5 }) ∧
    reads 0x424340000435000100000A00#96 (.vins { head := { guard := 3, stream := .V }, a := .reg .v false 6, b := .reg .s false 4, c := .reg .s false 5, ty := .f32 }) ∧
    reads 0x428300000018030000000A00#96 (.vlget { head := { guard := 3 }, a := .reg .s false 3, c := .reg .s false 5 }) ∧
    reads 0x42C34000043503000A011000#96 (.vlog2 { head := { guard := 3, stream := .V }, a := .reg .v false 6, c := .reg .v false 8, ty := .f32, msk := 5 }) ∧
    reads 0x4303400004350021CA011000#96 (.vmax { head := { guard := 3, stream := .V }, a := .reg .v false 6, b := .reg .v false 7, c := .reg .v false 8, ty := .f32, msk := 5 }) ∧
    reads 0x4343400004350021CA011000#96 (.vmin { head := { guard := 3, stream := .V }, a := .reg .v false 6, b := .reg .v false 7, c := .reg .v false 8, ty := .f32, msk := 5 }) ∧
    reads 0x43834000043503000A011000#96 (.vmov { head := { guard := 3, stream := .V }, a := .reg .v false 6, c := .reg .v false 8, ty := .f32, msk := 5 }) ∧
    reads 0x43C3400004355021CA011000#96 (.vmul { head := { guard := 3, stream := .V }, a := .reg .v false 6, b := .reg .v false 7, c := .reg .v false 8, ty := .f32, sat := true, rnd := .rdn, msk := 5 }) := by
  decide +kernel

/-- Words of R423 to R436, written out from R41 to R54. -/
theorem test_decode_vector_b :
    reads 0x4403400004330021CA011000#96 (.vor { head := { guard := 3, stream := .V }, a := .reg .v false 6, b := .reg .v false 7, c := .reg .v false 8, ty := .n32, msk := 5 }) ∧
    reads 0x4443400004350021CA011000#96 (.vperm { head := { guard := 3, stream := .V }, a := .reg .v false 6, b := .reg .v false 7, c := .reg .v false 8, ty := .f32, msk := 5 }) ∧
    reads 0x44834000043703000A011000#96 (.vqnt { head := { guard := 3, stream := .V }, a := .reg .v false 6, c := .reg .v false 8, ty := .sb9, msk := 5 }) ∧
    reads 0x44C34000043503000A011000#96 (.vrcp { head := { guard := 3, stream := .V }, a := .reg .v false 6, c := .reg .v false 8, ty := .f32, msk := 5 }) ∧
    reads 0x4503400004355021CA080001#96 (.vred { head := { guard := 3, stream := .V }, a := .reg .v false 6, b := .reg .v false 7, c := .imm 1, ty := .f32, sat := true, rnd := .rdn, msk := 5 }) ∧
    reads 0x45434000043503000A011000#96 (.vrsq { head := { guard := 3, stream := .V }, a := .reg .v false 6, c := .reg .v false 8, ty := .f32, msk := 5 }) ∧
    reads 0x4583400004330021CA011000#96 (.vsar { head := { guard := 3, stream := .V }, a := .reg .v false 6, b := .reg .v false 7, c := .reg .v false 8, ty := .n32, msk := 5 }) ∧
    reads 0x45C3400004355021CA080001#96 (.vscan { head := { guard := 3, stream := .V }, a := .reg .v false 6, b := .reg .v false 7, c := .imm 1, ty := .f32, sat := true, rnd := .rdn, msk := 5 }) ∧
    reads 0x4603400004350021CA011000#96 (.vsel { head := { guard := 3, stream := .V }, a := .reg .v false 6, b := .reg .v false 7, c := .reg .v false 8, ty := .f32, msk := 5 }) ∧
    reads 0x4643400004330021CA011000#96 (.vshl { head := { guard := 3, stream := .V }, a := .reg .v false 6, b := .reg .v false 7, c := .reg .v false 8, ty := .n32, msk := 5 }) ∧
    reads 0x4683400004330021CA011000#96 (.vshr { head := { guard := 3, stream := .V }, a := .reg .v false 6, b := .reg .v false 7, c := .reg .v false 8, ty := .n32, msk := 5 }) ∧
    reads 0x46C3400004350021CA000A00#96 (.vslide { head := { guard := 3, stream := .V }, a := .reg .v false 6, b := .reg .v false 7, c := .reg .s false 5, ty := .f32, msk := 5 }) ∧
    reads 0x47034000043503000A000A00#96 (.vsplat { head := { guard := 3, stream := .V }, a := .reg .v false 6, c := .reg .s false 5, ty := .f32, msk := 5 }) ∧
    reads 0x4743400004355021CA011000#96 (.vsub { head := { guard := 3, stream := .V }, a := .reg .v false 6, b := .reg .v false 7, c := .reg .v false 8, ty := .f32, sat := true, rnd := .rdn, msk := 5 }) ∧
    reads 0x4783400004330021CA011000#96 (.vxor { head := { guard := 3, stream := .V }, a := .reg .v false 6, b := .reg .v false 7, c := .reg .v false 8, ty := .n32, msk := 5 }) := by
  decide +kernel

/-- Words of R375, R378, R412, R415, R437, R439, R394, written out from R41 to R54. -/
theorem test_decode_memory :
    reads 0x60030000001DFC0100600A00#96 (.ldg { head := { guard := 3 }, a := .reg .s false 3, b := .reg .s false 4, c := .reg .s false 5, ty := .f64, scope := .dom, ord := .acqrel, flg := 3 }) ∧
    reads 0x60430000001D800100200A00#96 (.ldl { head := { guard := 3 }, a := .reg .s false 3, b := .reg .s false 4, c := .reg .s false 5, ty := .f64, scope := .none, ord := .rlx, flg := 1 }) ∧
    reads 0x60830000001DDC0100200A00#96 (.lds { head := { guard := 3 }, a := .reg .s false 3, b := .reg .s false 4, c := .reg .s false 5, ty := .f64, scope := .die, ord := .acqrel, flg := 1 }) ∧
    reads 0x60C340000431008080000A00#96 (.ldz { head := { guard := 3, stream := .V }, a := .reg .v false 6, b := .reg .z false 2, c := .reg .s false 5, ty := .i32, scope := .none, ord := .rlx }) ∧
    reads 0x61030000001DFC0100000A00#96 (.stg { head := { guard := 3 }, a := .reg .s false 3, b := .reg .s false 4, c := .reg .s false 5, ty := .f64, scope := .dom, ord := .acqrel }) ∧
    reads 0x61430000001D800100000A00#96 (.stl { head := { guard := 3 }, a := .reg .s false 3, b := .reg .s false 4, c := .reg .s false 5, ty := .f64, scope := .none, ord := .rlx }) ∧
    reads 0x61830000001DDC0100000A00#96 (.sts { head := { guard := 3 }, a := .reg .s false 3, b := .reg .s false 4, c := .reg .s false 5, ty := .f64, scope := .die, ord := .acqrel }) ∧
    reads 0x61C3400010090021C0000A00#96 (.stz { head := { guard := 3, stream := .V }, a := .reg .z false 1, b := .reg .v false 7, c := .reg .s false 5, ty := .i32, scope := .none, ord := .rlx }) ∧
    reads 0x6203400004357C010A600A00#96 (.vldg { head := { guard := 3, stream := .V }, a := .reg .v false 6, b := .reg .s false 4, c := .reg .s false 5, ty := .f32, scope := .dom, ord := .acqrel, msk := 5, flg := 3 }) ∧
    reads 0x62434000043500010A200A00#96 (.vldl { head := { guard := 3, stream := .V }, a := .reg .v false 6, b := .reg .s false 4, c := .reg .s false 5, ty := .f32, scope := .none, ord := .rlx, msk := 5, flg := 1 }) ∧
    reads 0x6283400004355C010A200A00#96 (.vlds { head := { guard := 3, stream := .V }, a := .reg .v false 6, b := .reg .s false 4, c := .reg .s false 5, ty := .f32, scope := .die, ord := .acqrel, msk := 5, flg := 1 }) ∧
    reads 0x62C34000001D7C21CA000A00#96 (.vstg { head := { guard := 3, stream := .V }, a := .reg .s false 3, b := .reg .v false 7, c := .reg .s false 5, ty := .f32, scope := .dom, ord := .acqrel, msk := 5 }) ∧
    reads 0x63034000001D0021CA000A00#96 (.vstl { head := { guard := 3, stream := .V }, a := .reg .s false 3, b := .reg .v false 7, c := .reg .s false 5, ty := .f32, scope := .none, ord := .rlx, msk := 5 }) ∧
    reads 0x63434000001D5C21CA000A00#96 (.vsts { head := { guard := 3, stream := .V }, a := .reg .s false 3, b := .reg .v false 7, c := .reg .s false 5, ty := .f32, scope := .die, ord := .acqrel, msk := 5 }) ∧
    reads 0x6403400004357C010A611120#96 (.vgthg { head := { guard := 3, stream := .V }, a := .reg .v false 6, b := .reg .s false 4, c := .reg .v false 8, ty := .f32, scope := .dom, ord := .acqrel, msk := 5, flg := 3, opf := 18 }) ∧
    reads 0x64434000043500010A211120#96 (.vgthl { head := { guard := 3, stream := .V }, a := .reg .v false 6, b := .reg .s false 4, c := .reg .v false 8, ty := .f32, scope := .none, ord := .rlx, msk := 5, flg := 1, opf := 18 }) ∧
    reads 0x6483400004355C010A211120#96 (.vgths { head := { guard := 3, stream := .V }, a := .reg .v false 6, b := .reg .s false 4, c := .reg .v false 8, ty := .f32, scope := .die, ord := .acqrel, msk := 5, flg := 1, opf := 18 }) ∧
    reads 0x64C34000001D7C21CA011120#96 (.vsctg { head := { guard := 3, stream := .V }, a := .reg .s false 3, b := .reg .v false 7, c := .reg .v false 8, ty := .f32, scope := .dom, ord := .acqrel, msk := 5, opf := 18 }) ∧
    reads 0x65034000001D0021CA011120#96 (.vsctl { head := { guard := 3, stream := .V }, a := .reg .s false 3, b := .reg .v false 7, c := .reg .v false 8, ty := .f32, scope := .none, ord := .rlx, msk := 5, opf := 18 }) ∧
    reads 0x65434000001D5C21CA011120#96 (.vscts { head := { guard := 3, stream := .V }, a := .reg .s false 3, b := .reg .v false 7, c := .reg .v false 8, ty := .f32, scope := .die, ord := .acqrel, msk := 5, opf := 18 }) ∧
    reads 0x658300000019E30000000A00#96 (.pref { head := { guard := 3 }, a := .reg .s false 3, c := .reg .s false 5, ty := .i64, scope := .mod, ord := .rlx }) := by
  decide +kernel

/-- Words of R345, R356, R395, R163, R164, written out from R41 to R54. -/
theorem test_decode_atomics :
    reads 0x80030000001DFC0100080000#96 (.amog { head := { guard := 3 }, a := .reg .s false 3, b := .reg .s false 4, c := .imm 0, ty := .f64, scope := .dom, ord := .acqrel }) ∧
    reads 0x80430000001DFC0100080000#96 (.amos { head := { guard := 3 }, a := .reg .s false 3, b := .reg .s false 4, c := .imm 0, ty := .f64, scope := .dom, ord := .acqrel }) ∧
    reads 0x80830000001DFC0100000A00#96 (.casg { head := { guard := 3 }, a := .reg .s false 3, b := .reg .s false 4, c := .reg .s false 5, ty := .f64, scope := .dom, ord := .acqrel }) ∧
    reads 0x80C30000001DFC0100000A00#96 (.cass { head := { guard := 3 }, a := .reg .s false 3, b := .reg .s false 4, c := .reg .s false 5, ty := .f64, scope := .dom, ord := .acqrel }) ∧
    reads 0x81030000001DF80100200A00#96 (.redg { head := { guard := 3 }, a := .reg .s false 3, b := .reg .s false 4, c := .reg .s false 5, ty := .f64, scope := .dom, ord := .rel, flg := 1 }) ∧
    reads 0x81430000001DD80100000A00#96 (.reds { head := { guard := 3 }, a := .reg .s false 3, b := .reg .s false 4, c := .reg .s false 5, ty := .f64, scope := .die, ord := .rel }) ∧
    reads 0x81834000001D5821CA011120#96 (.vreds { head := { guard := 3, stream := .V }, a := .reg .s false 3, b := .reg .v false 7, c := .reg .v false 8, ty := .f32, scope := .die, ord := .rel, msk := 5, opf := 18 }) ∧
    reads 0x820300006007830000180000#96 (.fence { head := { guard := 3 }, scope := .dom, ord := .rel }) ∧
    reads 0x82430000001F830000000A00#96 (.fencer { head := { guard := 3 }, a := .reg .s false 3, c := .reg .s false 5, scope := .dom, ord := .rel }) := by
  decide +kernel

/-- Words of R350, R373, R391, R392, R403 to R408, R443, written out from R41 to R54. -/
theorem test_decode_signals :
    reads 0x82830000001F430000180000#96 (.waita { head := { guard := 3 }, a := .reg .s false 3, scope := .dom, ord := .acq }) ∧
    reads 0x82C30000001F830000000A00#96 (.wakea { head := { guard := 3 }, a := .reg .s false 3, c := .reg .s false 5, scope := .dom, ord := .rel }) ∧
    reads 0x840300000018030000000A00#96 (.oblgive { head := { guard := 3 }, a := .reg .s false 3, c := .reg .s false 5 }) ∧
    reads 0x844300000018030000000A00#96 (.oblqry { head := { guard := 3 }, a := .reg .s false 3, c := .reg .s false 5 }) ∧
    reads 0x848300000018030000000A00#96 (.obltake { head := { guard := 3 }, a := .reg .s false 3, c := .reg .s false 5 }) ∧
    reads 0x84C30000001FC30000000A00#96 (.sigadd { head := { guard := 3 }, a := .reg .s false 3, c := .reg .s false 5, scope := .dom, ord := .acqrel }) ∧
    reads 0x85030000001F830000180000#96 (.sigfree { head := { guard := 3 }, a := .reg .s false 3, scope := .dom, ord := .rel }) ∧
    reads 0x85430000001F800100C00A00#96 (.signew { head := { guard := 3 }, a := .reg .s false 3, b := .reg .s false 4, c := .reg .s false 5, scope := .dom, ord := .rel, flg := 6 }) ∧
    reads 0x85830000001FC30000000A00#96 (.sigset { head := { guard := 3 }, a := .reg .s false 3, c := .reg .s false 5, scope := .dom, ord := .acqrel }) ∧
    reads 0x85C30000001F430000000A00#96 (.sigwait { head := { guard := 3 }, a := .reg .s false 3, c := .reg .s false 5, scope := .dom, ord := .acq }) ∧
    reads 0x860300006007830000000A00#96 (.bara { head := { guard := 3 }, c := .reg .s false 5, scope := .dom, ord := .rel }) ∧
    reads 0x864300006007430000000A00#96 (.barw { head := { guard := 3 }, c := .reg .s false 5, scope := .dom, ord := .acq }) ∧
    reads 0x868300000018030000000A00#96 (.grpqry { head := { guard := 3 }, a := .reg .s false 3, c := .reg .s false 5 }) := by
  decide +kernel

/-- Words of R352, R409, R410, R277, written out from R41 to R54. -/
theorem test_decode_messages :
    reads 0xA00300000018030000000A00#96 (.bind { head := { guard := 3 }, a := .reg .s false 3, c := .reg .s false 5 }) ∧
    reads 0xA04300006000030000000A00#96 (.unbind { head := { guard := 3 }, c := .reg .s false 5 }) ∧
    reads 0xA0830000001F800100600A00#96 (.send { head := { guard := 3 }, a := .reg .s false 3, b := .reg .s false 4, c := .reg .s false 5, scope := .dom, ord := .rel, flg := 3 }) ∧
    reads 0xA0C30000001F800100000A00#96 (.spawn { head := { guard := 3 }, a := .reg .s false 3, b := .reg .s false 4, c := .reg .s false 5, scope := .dom, ord := .rel }) ∧
    reads 0xA10300000C4F000100080005#96 (.slopen { head := { guard := 3 }, a := .reg .g false 9, b := .reg .s false 4, c := .imm 5, scope := .dom, ord := .rlx }) ∧
    reads 0xA14300000018030000080005#96 (.slwr { head := { guard := 3 }, a := .reg .s false 3, c := .imm 5 }) ∧
    reads 0xA18300006007830000080005#96 (.slclose { head := { guard := 3 }, c := .imm 5, scope := .dom, ord := .rel }) := by
  decide +kernel

/-- Words of R304 to R309, written out from R41 to R54. -/
theorem test_decode_local_time :
    reads 0xA20300006000030000000A00#96 (.ltadv { head := { guard := 3 }, c := .reg .s false 5 }) ∧
    reads 0xA24300006000030000180000#96 (.ltann { head := { guard := 3 } }) ∧
    reads 0xA28300000018030000000A00#96 (.ltget { head := { guard := 3 }, a := .reg .s false 3, c := .reg .s false 5 }) ∧
    reads 0xA2C300000018000100000A00#96 (.ltlook { head := { guard := 3 }, a := .reg .s false 3, b := .reg .s false 4, c := .reg .s false 5 }) ∧
    reads 0xA30300000018030000000A00#96 (.ltnull { head := { guard := 3 }, a := .reg .s false 3, c := .reg .s false 5 }) ∧
    reads 0xA34300006000030000000A00#96 (.ltset { head := { guard := 3 }, c := .reg .s false 5 }) ∧
    reads 0xA38300006000030000000A00#96 (.ltwait { head := { guard := 3 }, c := .reg .s false 5 }) := by
  decide +kernel

/-- Words of R359, R381, R398, written out from R41 to R54. -/
theorem test_decode_engines :
    reads 0xC0038000100FC00100000A00#96 (.mma { head := { guard := 3, stream := .E }, a := .reg .z false 1, b := .reg .s false 4, c := .reg .s false 5, scope := .dom, ord := .acqrel }) ∧
    reads 0xC0438000100F7C0100000A00#96 (.mmdrain { head := { guard := 3, stream := .E }, a := .reg .z false 1, b := .reg .s false 4, c := .reg .s false 5, ty := .sb9, scope := .dom, ord := .acqrel }) ∧
    reads 0xC08300000018030000000A00#96 (.mmrow { head := { guard := 3 }, a := .reg .s false 3, c := .reg .s false 5 }) ∧
    reads 0xC0C38000100FC30000180000#96 (.mmz { head := { guard := 3, stream := .E }, a := .reg .z false 1, scope := .dom, ord := .acqrel }) ∧
    reads 0xC1038000001FC00100000A00#96 (.cpy { head := { guard := 3, stream := .E }, a := .reg .s false 3, b := .reg .s false 4, c := .reg .s false 5, scope := .dom, ord := .acqrel }) ∧
    reads 0xC1438000001FC00100000A00#96 (.cpyg { head := { guard := 3, stream := .E }, a := .reg .s false 3, b := .reg .s false 4, c := .reg .s false 5, scope := .dom, ord := .acqrel }) ∧
    reads 0xC1838000001BFC0100000A00#96 (.colag { head := { guard := 3, stream := .E }, a := .reg .s false 3, b := .reg .s false 4, c := .reg .s false 5, ty := .n64, scope := .dom, ord := .acqrel }) ∧
    reads 0xC1C380000019FC0100000A00#96 (.colrs { head := { guard := 3, stream := .E }, a := .reg .s false 3, b := .reg .s false 4, c := .reg .s false 5, ty := .i64, scope := .dom, ord := .acqrel }) ∧
    reads 0xC20340006000030000000A00#96 (.rpt { head := { guard := 3, stream := .V }, c := .reg .s false 5 }) ∧
    reads 0xC24340006000030000180000#96 (.rptend { head := { guard := 3, stream := .V } }) := by
  decide +kernel

/-- Words of R416, R417 to R419, written out from R41 to R54. -/
theorem test_decode_tables :
    reads 0xC40340000430030000180000#96 (.tblld { head := { guard := 3, stream := .V }, a := .reg .v false 6 }) ∧
    reads 0xC443400004350021CA000A00#96 (.tblx { head := { guard := 3, stream := .V }, a := .reg .v false 6, b := .reg .v false 7, c := .reg .s false 5, ty := .f32, msk := 5 }) ∧
    reads 0xC48300000018030000000A00#96 (.tldef { head := { guard := 3 }, a := .reg .s false 3, c := .reg .s false 5 }) ∧
    reads 0xC4C300000018030000000A00#96 (.tlqry { head := { guard := 3 }, a := .reg .s false 3, c := .reg .s false 5 }) ∧
    reads 0xC50300006000030000000A00#96 (.tlset { head := { guard := 3 }, c := .reg .s false 5 }) := by
  decide +kernel

/-- Words of R355, R387, R393, R411, R420 to R422, written out from R41 to R54. -/
theorem test_decode_system :
    reads 0xE003000060000300000BFFFF#96 (.brk { head := { guard := 3 }, c := .imm 262143 }) ∧
    reads 0xE0430000001803000008000A#96 (.mfc { head := { guard := 3 }, a := .reg .s false 3, c := .imm 10 }) ∧
    reads 0xE0830000001803000008000A#96 (.mtc { head := { guard := 3 }, a := .reg .s false 3, c := .imm 10 }) ∧
    reads 0xE0C300000018030000000A00#96 (.park { head := { guard := 3 }, a := .reg .s false 3, c := .reg .s false 5 }) ∧
    reads 0xE10300000018030000180000#96 (.unpark { head := { guard := 3 }, a := .reg .s false 3 }) ∧
    reads 0xE14300000018030000000A00#96 (.stamp { head := { guard := 3 }, a := .reg .s false 3, c := .reg .s false 5 }) ∧
    reads 0xE183000000180300000BFFFF#96 (.trace { head := { guard := 3 }, a := .reg .s false 3, c := .imm 262143 }) ∧
    reads 0xE1C3000060000300000BFFFF#96 (.trap { head := { guard := 3 }, c := .imm 262143 }) ∧
    reads 0xE20300006000030000180000#96 (.trig { head := { guard := 3 } }) := by
  decide +kernel

/-! ## Small states -/

/-- Partition 0 live with a launched program at address 0, slot 0 of core 0 about to fetch there; region 0 opens all of LOC, the
partition is granted the first 4 KiB of SHM, and a few registers hold values. -/
def base : State :=
  ((State.reset.withFetchWord 96 0).modAct 0 (fun a =>
    { a with regions := [(0, 0x400003)], s := [(3, 5), (4, 7), (6, 8), (7, 64)], v := [(1, List.replicate 16 3)], m := [(1, 0xF)],
             g := [(1, .t)], q := [(1, [9])], pc := 0x100, uid := 1 })).modPart 0
    (fun p => { p with shm := [(0, (0, 0x1000))] })

/-- base with a deferred register, s9. -/
def deferring : State := base.modAct 0 (fun a => { a with defS := [(9, true)] })

/-- A word that issues in a state where it reads no parked register. -/
theorem ok {opc : Nat} {w : Operands} {serial : Bool} {s : State}
    (h : (s.mayIssue && s.inTurn opc w serial && s.guardOf w.head == some true && !s.accessHeld opc w &&
      (s.poisonedReg opc w).isNone && !(s.later && deferrable opc) && decide (s.unparkSources opc w = s)) = true) :
    Issues opc w serial s s := by
  simp only [Bool.and_eq_true, beq_iff_eq, Bool.not_eq_true', Option.isNone_iff_eq_none, decide_eq_true_eq] at h
  obtain ⟨⟨⟨⟨⟨⟨a, b⟩, c⟩, d⟩, e⟩, f⟩, g⟩ := h
  exact ⟨a, b, c, d, g, e, f⟩
/-- An engine command that enters its queue in a state where it reads no parked register. -/
theorem enters {opc : Nat} {w : Operands} {serial : Bool} {s : State}
    (h : (isEngineCmd opc && s.mayIssue && s.inTurn opc w serial && (s.guardOf w.head == some false || !s.accessHeld opc w) &&
      (s.guardOf w.head).isSome && (s.poisonedReg opc w).isNone && decide (s.unparkSources opc w = s)) = true) :
    Enters opc w serial s s := by
  simp only [Bool.and_eq_true, Bool.or_eq_true, beq_iff_eq, Bool.not_eq_true', Option.isNone_iff_eq_none, decide_eq_true_eq] at h
  obtain ⟨⟨⟨⟨⟨⟨a, b⟩, c⟩, d⟩, e⟩, f⟩, g⟩ := h
  refine ⟨a, b, c, fun n => d.resolve_left n, fun n => ?_, g, fun _ => f⟩
  rw [n] at e; exact absurd e (by decide)

/-! ## A few steps -/

/-- R218, R219: 0x7FFFFFFF + 1 under .i32.sat is 0x7FFFFFFF and raises ISAT. -/
theorem test_add_saturates : addVal .i32 true 0x7FFFFFFF 1 = (0x7FFFFFFF, flagISAT) := by decide +kernel
/-- R218: without .sat it wraps, and s registers hold a 32-bit result sign-extended (R217). -/
theorem test_add_wraps : addVal .i32 false 0x7FFFFFFF 1 = (0xFFFFFFFF80000000, 0) := by decide +kernel
/-- R220: ROL of .n8 by 9 is a rotation by 1. -/
theorem test_rol : (rolVal .n8 0x81 9).1 = 3 := by decide +kernel
/-- R46: a write to s0 is discarded. -/
theorem test_s0 : (base.wroteS 0 5).me.sGet 0 = 0 := by decide +kernel
/-- R8, R157: a store to LOC puts its lowest byte at its lowest address. -/
theorem test_store_loc :
    (match execStl { a := S 6, b := S 3, c := .imm 0, ty := .i64, scope := .core } base with
      | .next t => (t.locByte 8, t.locByte 9, t.locByte 7) | _ => (0xFF, 0xFF, 0xFF)) = (5, 0, 0) := by decide +kernel
/-- R157: a store to GLB stays in the outbox until it drains. -/
theorem test_store_glb_waits :
    (match execStg { a := S 6, b := S 3, c := .imm 8, ty := .i64, scope := .core } base with
      | .next t => (t.me.outbox.length, t.glbByte 0x20010, t.me.pc) | _ => (0, 0xFF, 0)) = (1, 0, 0x10C) := by decide +kernel
/-- R41 to R57: the step after reset with a word placed where it is fetched runs the word: ADD s3 = s4 + s5 moves PC on. -/
theorem test_step_fetches :
    (match step (State.reset.withFetchWord 96 0x0080_0000_0019_4001_0000_0A00) with
      | .next t => (t.me.pc, t.me.sGet 3) | _ => (0, 1)) = (12, 0) := by decide +kernel
/-- R55, R60, R204: a word of zeros is no instruction: ILLEGAL_ENCODING, which is Held, cause 0x01. -/
theorem test_step_illegal :
    (match step (State.reset.withFetchWord 96 0) with
      | .next t => (decide (t.me.st = .saving), t.me.pc) | _ => (false, 1)) = (true, 0) := by decide +kernel
/-- An agenda that names no existing slot stops. -/
theorem test_no_such_slot : (match step { base with agenda := [.hold (8 * numCores)] } with | .fault f => decide (f = .noSuchSlot) | _ => false) = true := by
  decide +kernel

/-! ## Witnesses: words -/

theorem witness_ScalarResults :
    (∃ w r s1 s2 x y, Issues 0x002 w false base r ∧ r.src (opndB w) = some (x, false, s1) ∧ s1.srcC w = some (y, false, s2) ∧
      ∃ rot n, w.a = .reg .s rot n) ∧
    (∃ w r s1 s2 x y, Issues 0x002 w false base r ∧ r.src (opndB w) = some (x, false, s1) ∧ s1.srcC w = some (y, false, s2) ∧
      ∃ pk n, w.a = .queue pk n ∧ (s2.me.qGet n.toNat).length < 8) ∧
    (∃ w r s1 s2 x y, Issues 0x00F w false base r ∧ r.src w.b = some (x, false, s1) ∧ s1.srcC w = some (y, false, s2) ∧
      r.dfr w.a = false ∧ ∃ rot n, w.a = .reg .s rot n) :=
  ⟨⟨{ a := S 5, b := S 3, c := S 4, ty := .i64 }, base, _, _, _, _, ok rfl, rfl, rfl, _, _, rfl⟩,
   ⟨{ a := .queue false 0, b := S 3, c := .queue false 1, ty := .i64 }, base, _, _, _, _, ok rfl, rfl, rfl, _, _, rfl, by decide⟩,
   ⟨{ a := S 5, b := S 3, c := S 4, ty := .i64 }, base, _, _, _, _, ok rfl, rfl, rfl, rfl, _, _, rfl⟩⟩

theorem witness_ScalarDeferral :
    (∃ w r s1 s2 x y dx dy rot n, Issues 0x002 w false deferring r ∧ w.a = .reg .s rot n ∧ r.src (opndB w) = some (x, dx, s1) ∧
      s1.srcC w = some (y, dy, s2) ∧ (dx || dy) = true) ∧
    (∃ w r s1 s2 x y dx dy pk n, Issues 0x002 w false deferring r ∧ w.a = .queue pk n ∧ r.src (opndB w) = some (x, dx, s1) ∧
      s1.srcC w = some (y, dy, s2) ∧ (dx || dy) = true) ∧
    (∃ w r s1 s2 x y dx dy rot n, Issues 0x00F w false deferring r ∧ w.a = .reg .s rot n ∧ r.src w.b = some (x, dx, s1) ∧
      s1.srcC w = some (y, dy, s2) ∧ (dx || dy || r.dfr w.a) = true) :=
  ⟨⟨{ a := S 5, b := S 9, c := S 4, ty := .i64 }, deferring, _, _, _, _, _, _, _, _, ok rfl, rfl, rfl, rfl, rfl⟩,
   ⟨{ a := .queue false 0, b := .queue false 1, c := S 9, ty := .i64 }, deferring, _, _, _, _, _, _, _, _, ok rfl, rfl, rfl, rfl, rfl⟩,
   ⟨{ a := S 9, b := S 3, c := S 4, ty := .i64 }, deferring, _, _, _, _, _, _, _, _, ok rfl, rfl, rfl, rfl, rfl⟩⟩

theorem witness_ComparesAndMoves :
    (∃ w r s1 s2 x y rot n, Issues 0x007 w false base r ∧ w.a = .reg .g rot n ∧ r.src w.b = some (x, false, s1) ∧
      s1.srcC w = some (y, false, s2)) ∧
    (∃ w r s1 s2 x y dy, Issues 0x082 w false deferring r ∧ r.src w.b = some (x, true, s1) ∧ s1.srcC w = some (y, dy, s2)) ∧
    (∃ w r s1 s2 x y, Issues 0x007 w false deferring r ∧ r.src w.b = some (x, false, s1) ∧ s1.srcC w = some (y, true, s2)) ∧
    (∃ w r rot n, Issues 0x00D w false base r ∧ w.a = .reg .s rot n) ∧
    (∃ w r pk n, Issues 0x00D w false base r ∧ w.a = .queue pk n ∧ (r.me.qGet n.toNat).length < 8) ∧
    (∃ w r rot n, Issues 0x00E w false deferring r ∧ w.a = .reg .s rot n) ∧
    (∃ w r s1 s2 x y dx dy rot n, w.head.stream = .S ∧ Issues 0x012 w false base r ∧ w.a = .reg .s rot n ∧
      r.src (opndB w) = some (x, dx, s1) ∧ s1.srcC w = some (y, dy, s2)) ∧
    (∃ w r s1 s2 x y pk n, w.head.stream = .S ∧ Issues 0x012 w false base r ∧ w.a = .queue pk n ∧
      r.src (opndB w) = some (x, false, s1) ∧ s1.srcC w = some (y, false, s2) ∧ (s2.me.qGet n.toNat).length < 8) ∧
    (∃ w r s1 s2 x y pk n, w.head.stream = .S ∧ Issues 0x012 w false deferring r ∧ w.a = .queue pk n ∧
      r.src (opndB w) = some (x, false, s1) ∧ s1.srcC w = some (y, true, s2)) ∧
    (∃ w r p q n c, w.head.stream ≠ .S ∧ Issues 0x012 w false base r ∧ w.a = .reg .v p n ∧ w.c = .reg .v q c) ∧
    (∃ w r p q n c, w.head.stream ≠ .S ∧ Issues 0x012 w false base r ∧ w.a = .reg .m p n ∧ w.c = .reg .m q c) ∧
    (∃ w r s1 x d pk pc n c, w.head.stream ≠ .S ∧ Issues 0x012 w false base r ∧ w.a = .queue pk n ∧ w.c = .queue pc c ∧
      r.src w.c = some (x, d, s1) ∧ (s1.me.qGet n.toNat).length < 8) :=
  ⟨⟨{ a := G 1, b := S 3, c := S 4, ty := .i64 }, base, _, _, _, _, _, _, ok rfl, rfl, rfl, rfl⟩,
   ⟨{ a := G 1, b := S 9, c := S 4, ty := .f64 }, deferring, _, _, _, _, _, ok rfl, rfl, rfl⟩,
   ⟨{ a := G 1, b := S 4, c := S 9, ty := .i64 }, deferring, _, _, _, _, ok rfl, rfl, rfl⟩,
   ⟨{ a := S 5, c := .imm 7, ty := .i64 }, base, _, _, ok rfl, rfl⟩,
   ⟨{ a := .queue false 1, c := .imm 7, ty := .i64 }, base, _, _, ok rfl, rfl, by decide⟩,
   ⟨{ a := S 9, pair := some 7 }, deferring, _, _, ok rfl, rfl⟩,
   ⟨{ a := S 5, c := S 3 }, base, _, _, _, _, _, _, _, _, rfl, ok rfl, rfl, rfl, rfl⟩,
   ⟨{ a := .queue false 0, c := S 3 }, base, _, _, _, _, _, _, rfl, ok rfl, rfl, rfl, rfl, by decide⟩,
   ⟨{ a := .queue false 0, c := S 9 }, deferring, _, _, _, _, _, _, rfl, ok rfl, rfl, rfl, rfl⟩,
   ⟨{ head := inV, a := V 2, c := V 1 }, base, _, _, _, _, by decide, ok rfl, rfl, rfl⟩,
   ⟨{ head := inV, a := M 2, c := M 1 }, base, _, _, _, _, by decide, ok rfl, rfl, rfl⟩,
   ⟨{ head := inE, a := .queue false 0, c := .queue false 1 }, base, _, _, _, _, _, _, _, by decide, ok rfl, rfl, rfl, rfl, by decide⟩⟩

theorem witness_ControlTransfers :
    (∃ w : Operands, w.pair = none ∧ (∀ rot n, w.c ≠ .reg .s rot n) ∧ (base.me.pc + 4 * base.valC w).toNat < 2 ^ 56) ∧
    (∃ (w : Operands) (rot : Bool) (n : BitVec 6), w.pair = none ∧ w.c = .reg .s rot n ∧ base.dfr w.c = false ∧ (base.val w.c).toNat % 4 = 0 ∧ (base.val w.c).toNat < 2 ^ 56) ∧
    (∃ (w : Operands) (rot : Bool) (n : BitVec 6), w.pair = none ∧ w.c = .reg .s rot n ∧ base.dfr w.c = false ∧ (base.val w.c).toNat % 4 ≠ 0) ∧
    (∃ w : Operands, w.pair.isSome = true ∧ (base.me.pc + 4 * base.valC w).toNat < 2 ^ 56) ∧
    (∃ w : Operands, w.pair = none ∧ (∀ rot n, w.c ≠ .reg .s rot n) ∧ 2 ^ 56 ≤ (base.me.pc + 4 * base.valC w).toNat) ∧
    (∃ (s : State) (w : Operands) (rot : Bool) (n : BitVec 6), w.pair = none ∧ w.c = .reg .s rot n ∧ s.dfr w.c = false ∧
      (s.val w.c).toNat % 4 = 0 ∧ 2 ^ 56 ≤ (s.val w.c).toNat) ∧
    (∃ w r t, r.target w = .ok t ∧ Issues 0x090 w false base r ∧ Issues 0x091 w false base r ∧ Issues 0x094 w false base r ∧
      Issues 0x097 w false base r ∧ ∃ rot n, w.a = .reg .s rot n) ∧
    (∃ w r, Issues 0x092 w false base r ∧ (r.relTarget w).toNat < 2 ^ 56) ∧
    (∃ w r rot n, Issues 0x095 w false base r ∧ w.a = .reg .s rot n ∧ r.dfr w.a = false ∧ r.val w.a ≠ 1 ∧ (r.relTarget w).toNat < 2 ^ 56) ∧
    (∃ s w r rot n, Issues 0x095 w false s r ∧ w.a = .reg .s rot n ∧ r.dfr w.a = false ∧ r.val w.a = 1) ∧
    (∃ w r, Issues 0x096 w false base r ∧ Issues 0x098 w false base r) ∧
    (∃ w r, Issues 0x093 w true base r ∧ r.me.oblUsed = [] ∧ r.me.event = false) :=
  ⟨⟨{ c := .imm 5 }, rfl, by simp, by decide⟩, ⟨{ c := S 6 }, _, _, rfl, rfl, rfl, by decide, by decide⟩,
   ⟨{ c := S 3 }, _, _, rfl, rfl, rfl, by decide⟩, ⟨{ pair := some 5 }, rfl, by decide⟩, ⟨{ c := .imm 0x7FF00 }, rfl, by simp, by decide⟩,
   ⟨base.wroteS 3 0x100000000000000, { c := S 3 }, _, _, rfl, rfl, rfl, by decide, by decide⟩,
   ⟨{ a := S 5, c := .imm 5 }, base, _, rfl, ok rfl, ok rfl, ok rfl, ok rfl, _, _, rfl⟩,
   ⟨{ a := S 5, c := .imm 5 }, base, ok rfl, by decide⟩, ⟨{ a := S 3, c := .imm 5 }, base, _, _, ok rfl, rfl, rfl, by decide, by decide⟩,
   ⟨base.wroteS 3 1, { a := S 3, c := .imm 5 }, base.wroteS 3 1, _, _, ok rfl, rfl, rfl, rfl⟩,
   ⟨{}, base, ok rfl, ok rfl⟩, ⟨{}, base, ok rfl, rfl, rfl⟩⟩

theorem witness_GuardsAndMasks :
    (∃ w r b c, r.guardVal w.b = some b ∧ r.guardVal w.c = some c ∧ Issues 0x0A0 w false base r ∧ Issues 0x0A1 w false base r ∧
      Issues 0x0A2 w false base r) ∧
    (∃ w r, Issues 0x0A3 w false base r ∧ Issues 0x0A5 w false base r) ∧
    (∃ w r, Issues 0x0A4 w false base r ∧ Issues 0x0A6 w false base r ∧ Issues 0x0A7 w false base r ∧ Issues 0x0A8 w false base r) ∧
    (∃ w r rot n, Issues 0x0A9 w false base r ∧ w.a = .reg .v rot n) ∧
    (∃ w r pk n, Issues 0x0A9 w false base r ∧ w.a = .queue pk n ∧ (r.me.qGet n.toNat).length < 8) :=
  ⟨⟨{ a := G 2, b := G 1, c := G 3 }, base, _, _, rfl, rfl, ok rfl, ok rfl, ok rfl⟩,
   ⟨{ head := inV, a := G 2, c := M 1 }, base, ok rfl, ok rfl⟩,
   ⟨{ head := inV, a := M 2, b := M 1, c := M 1 }, base, ok rfl, ok rfl, ok rfl, ok rfl⟩,
   ⟨{ head := inV, a := V 2, c := M 1 }, base, _, _, ok rfl, rfl⟩,
   ⟨{ head := inV, a := .queue false 0, c := M 1 }, base, _, _, ok rfl, rfl, by decide⟩⟩

theorem witness_VectorLanes :
    (∃ w r, Issues 0x101 w false base r) ∧ (∃ w r, Issues 0x108 w false base r) ∧ (∃ w r, Issues 0x106 w false base r) :=
  ⟨⟨{ head := inV, a := V 2, b := V 1, c := V 1, ty := .i32 }, base, ok rfl⟩,
   ⟨{ head := inV, a := V 2, b := V 1, c := S 3, ty := .f32 }, base, ok rfl⟩,
   ⟨{ head := inV, a := V 2, c := V 1, ty := .f32 }, base, ok rfl⟩⟩

theorem witness_VectorCrossings :
    (∃ w r, Issues 0x105 w false base r ∧ Issues 0x111 w false base r ∧ Issues 0x118 w false base r ∧ Issues 0x11B w false base r) ∧
    (∃ w r, Issues 0x117 w false base r ∧ Issues 0x114 w false base r) ∧
    (∃ s w r, Issues 0x114 w false s r ∧ ∀ i, i < 16 → r.active w.msk i = false) ∧
    (∃ w r, Issues 0x112 w false base r) ∧
    (∃ w r s1 x dx, Issues 0x11C w false base r ∧ r.src w.c = some (x, dx, s1)) ∧
    (∃ w r, Issues 0x103 w false base r ∧ r.firstDeferredV (vOf w.b ++ vOf w.c) = none ∧ r.firstDeferred (sOf 0x103 2 w.c) = none) ∧
    (∃ w r rot n, Issues 0x107 w false base r ∧ r.firstDeferredV (vOf w.b) = none ∧ r.firstDeferred (sOf 0x107 2 w.c) = none ∧
      w.a = .reg .s rot n) ∧
    (∃ w r pk n, Issues 0x107 w false base r ∧ r.firstDeferredV (vOf w.b) = none ∧ r.firstDeferred (sOf 0x107 2 w.c) = none ∧
      w.a = .queue pk n ∧ (r.me.qGet n.toNat).length < 8) ∧
    (∃ w r s1 x d, Issues 0x109 w false base r ∧ r.src w.b = some (x, d, s1)) ∧
    (∃ w r rot n, Issues 0x10A w false base r ∧ w.a = .reg .s rot n ∧ r.dfr w.c = false ∧ w.head.stream = .S) ∧
    (∃ w r rot n, Issues 0x10A w false base r ∧ w.a = .reg .s rot n ∧ r.dfr w.c = false ∧ w.head.stream = .V) :=
  ⟨⟨{ head := inV, a := V 2, b := V 1, c := V 1, ty := .i32 }, base, ok rfl, ok rfl, ok rfl, ok rfl⟩,
   ⟨{ head := inV, a := V 2, b := V 1, c := .imm 0, ty := .i32 }, base, ok rfl, ok rfl⟩,
   ⟨base.modMe (fun a => { a with vl := 0 }), { head := inV, a := V 2, b := V 1, c := .imm 0, ty := .i32 },
     base.modMe (fun a => { a with vl := 0 }), ok rfl, by decide +kernel⟩,
   ⟨{ head := inV, a := V 2, c := V 1, ty := .sb9 }, base, ok rfl⟩,
   ⟨{ head := inV, a := V 2, c := .queue false 1, ty := .i32 }, base, _, _, _, ok rfl, rfl⟩,
   ⟨{ head := inV, a := M 2, b := V 1, c := V 1, ty := .i32 }, base, ok rfl, rfl, rfl⟩,
   ⟨{ a := S 5, b := V 1, c := .imm 15, ty := .i32 }, base, _, _, ok rfl, rfl, rfl, rfl⟩,
   ⟨{ a := .queue false 0, b := V 1, c := .imm 15, ty := .i32 }, base, _, _, ok rfl, rfl, rfl, rfl, by decide⟩,
   ⟨{ head := inV, a := V 2, b := S 3, c := .imm 15, ty := .i32 }, base, _, _, _, ok rfl, rfl⟩,
   ⟨{ a := S 5, c := S 3 }, base, _, _, ok rfl, rfl, rfl, rfl⟩, ⟨{ head := inV, a := S 5, c := S 3 }, base, _, _, ok rfl, rfl, rfl, rfl⟩⟩

/-! ## Witnesses: memory, signals and obligations -/

/-- A firing on slot 0 whose stage feeds edge 0, with one EMIT unit to pay; pushing to 0x8000. -/
def pushing : State :=
  ((base.modPart 0 (fun p => { p with pushBase := 0x8000, edges := [{ decl := {} }], stages := [{ decl := { outs := [(0, 1)] } }] })).modAct 0
    (fun a => { a with origin := .firing, stage := 0, tumbler := [(0, { kind := .emit, count := 1, handle := emitHandle 0 })] })).wroteS 8 0x8000
/-- The reference of an SHM block at 0x100. -/
def ref : Word := 0x8000000000000100
/-- A live block at 0x100 of SHM: value 3, rank 0x01000005, one holder; s8 holds its reference, class 1 is valid, and the activation
holds a unit of it. -/
def signalling (live : Bool) (holders : Nat) (held : Bool) : State :=
  { ((base.wroteS 8 ref).modPart 0 (fun p => { p with classes := [(1, { valid := true })] })).modAct 0 (fun a => { a with
      tumbler := if held then [(0, { kind := .signal, count := 1, rank := 0x01000005, handle := ref })] else [] }) with
    shm := mwrite 0x100 (bytesOf [3, 0x0100000500000000 + BitVec.ofNat 64 holders, if live then 0x100000000 else 0, 0]) [] }

/-- The same with one holder and POISON set. -/
def poisonedBlock : State :=
  { signalling true 1 false with shm := mwrite 0x100 (bytesOf [3, 0x0100000500000001, 0x300000000, 0]) [] }

theorem witness_ScalarAccesses :
    (∃ w r t ps, Issues 0x180 w false base r ∧
      Reaches 0x180 4 w .load [1, 2] (fun _ va p => if isRaw w then none else packedFault va p) r t ps ∧
      isSpec w = true ∧ r.poisonHit 0x180 w = none ∧ r.specPath (r.eaOf 0x180 w).toNat w.ty.bytes = false ∧
      ps.all t.bindable = true ∧ t.startHostRead ps = none ∧ t.poisonFault ps = none) ∧
    (∃ w r t ps, Issues 0x181 w false base r ∧
      Reaches 0x181 1 w .load [1, 2] (fun _ va p => if isRaw w then none else packedFault va p) r t ps ∧ isSpec w = false ∧
      ps.all t.bindable = true ∧ t.startHostRead ps = none ∧ t.poisonFault ps = none) ∧
    (∃ w r t ps, Issues 0x182 w false base r ∧
      Reaches 0x182 2 w .load [1, 2] (fun _ va p => if isRaw w then none else packedFault va p) r t ps ∧ isSpec w = false ∧
      ps.all t.bindable = true ∧ t.startHostRead ps = none ∧ t.poisonFault ps = none) ∧
    (∃ w r, Issues 0x180 w false deferring r ∧ isSpec w = true ∧ r.deferredIn 0x180 w [1, 2] ≠ none) ∧
    (∃ w r f t, Issues 0x180 w false base r ∧ isSpec w = true ∧ r.deferredIn 0x180 w [1, 2] = none ∧ r.poisonHit 0x180 w = none ∧
      rangeFault 4 (r.eaOf 0x180 w) = none ∧ aligned 4 (r.eaOf 0x180 w) w.ty.bytes = none ∧
      r.myPart.pushEdge (r.eaOf 0x180 w).toNat = none ∧ r.specPath (r.eaOf 0x180 w).toNat w.ty.bytes = false ∧
      r.access 4 .load (r.eaOf 0x180 w).toNat w.ty.bytes (fun va p => if isRaw w then none else packedFault va p) = .fault f t ∧
      specFault f.code = true) ∧
    (∃ w r t ps, Issues 0x184 w false base r ∧ Reaches 0x184 4 w .store [0, 1, 2] (fun r => r.storeExtra) r t ps) ∧
    (∃ w r t ps, Issues 0x186 w false base r ∧ Reaches 0x186 2 w .store [0, 1, 2] (fun r => r.storeExtra) r t ps) ∧
    (∀ o ∈ from_ 0x7FF8 8, base.me.locRead o = true ∧ base.me.locWrite o = true) ∧
    (base.myPart.shmBase base.myDie ≤ 0xFF8 ∧ 0xFF8 + 8 ≤ base.myPart.shmBase base.myDie + base.myPart.shmSize base.myDie) ∧
    (∃ s : State, 0 ∈ from_ 0 8 ∧ s.me.locWrite 0 = false) :=
  ⟨⟨{ a := S 5, b := S 6, c := .imm 0, ty := .i64, flg := 1 }, base, _, _, ok rfl, ⟨rfl, rfl, rfl, fun _ => rfl, rfl, fun _ => rfl⟩, rfl, rfl, rfl, rfl, rfl, rfl⟩,
   ⟨{ a := S 5, b := S 6, c := .imm 0, ty := .i64 }, base, _, _, ok rfl, ⟨rfl, rfl, rfl, fun _ => rfl, rfl, fun _ => rfl⟩, rfl, rfl, rfl, rfl⟩,
   ⟨{ a := S 5, b := S 6, c := .imm 0, ty := .i64 }, base, _, _, ok rfl, ⟨rfl, rfl, rfl, fun _ => rfl, rfl, fun _ => rfl⟩, rfl, rfl, rfl, rfl⟩,
   ⟨{ a := S 5, b := S 9, c := .imm 0, ty := .i64, flg := 1 }, deferring, ok rfl, rfl, by decide +kernel⟩,
   ⟨{ a := S 5, b := S 7, c := .imm 0xFFC0, ty := .i64, flg := 1 }, base, _, _, ok rfl, rfl, rfl, rfl, rfl, rfl, rfl, rfl, rfl, rfl⟩,
   ⟨{ a := S 6, b := S 3, c := .imm 8, ty := .i64 }, base, _, _, ok rfl, ⟨rfl, rfl, rfl, fun _ => rfl, rfl, fun _ => rfl⟩⟩,
   ⟨{ a := S 6, c := .imm 0, ty := .i64 }, base, _, _, ok rfl, ⟨rfl, rfl, rfl, fun _ => rfl, rfl, fun _ => rfl⟩⟩,
   by decide +kernel, by decide +kernel, ⟨State.reset, by decide, by decide +kernel⟩⟩

/-- base with s12 at a page that is not mapped. -/
def far : State := base.wroteS 12 0x10000

theorem witness_VectorAccesses :
    (∃ w t l, let m : VMem := ⟨0x188, 4, false, false⟩
      let a := base.eaOf 0x188 w
      let fmt := if 2 ^ 56 ≤ a.toNat then none else base.codeFmt m w a
      let accs := base.laneAccs m w a fmt (base.me.progIdx.getD (base.vecOf w.c)) base.me.prog
      Issues 0x188 w false base base ∧ base.vecDeferred m w = none ∧ accs.findSome? (laneFault m) = none ∧ base.vecAligned m w a fmt = true ∧
      isSpec w = false ∧ Ord_rel w.ord = false ∧ base.checkLanes m w fmt (base.spanFmt m (base.laneAccs m w a fmt (base.me.progIdx.getD (base.vecOf w.c)) 0)) accs = (t, l, .none)) ∧
    (∃ w t l, let m : VMem := ⟨0x194, 1, true, true⟩
      let a := base.val (baseOf 0x194 w)
      let fmt := if 2 ^ 56 ≤ a.toNat then none else base.codeFmt m w a
      let accs := base.laneAccs m w a fmt (base.me.progIdx.getD (base.vecOf w.c)) base.me.prog
      Issues 0x194 w false base base ∧ base.vecDeferred m w = none ∧ accs.findSome? (laneFault m) = none ∧
      Ord_rel w.ord = false ∧ base.checkLanes m w fmt (base.spanFmt m (base.laneAccs m w a fmt (base.me.progIdx.getD (base.vecOf w.c)) 0)) accs = (t, l, .none)) ∧
    (∃ w t l f, let m : VMem := ⟨0x190, 4, false, true⟩
      let a := far.val (baseOf 0x190 w)
      let fmt := if 2 ^ 56 ≤ a.toNat then none else far.codeFmt m w a
      let accs := far.laneAccs m w a fmt (far.me.progIdx.getD (far.vecOf w.c)) far.me.prog
      Issues 0x190 w false far far ∧ far.vecDeferred m w = none ∧ accs.findSome? (laneFault m) = none ∧
      isSpec w = false ∧ Ord_rel w.ord = false ∧ far.checkLanes m w fmt (far.spanFmt m (far.laneAccs m w a fmt (far.me.progIdx.getD (far.vecOf w.c)) 0)) accs = (t, l, .fault f)) ∧
    (∃ w, Issues 0x188 w false deferring deferring ∧ isSpec w = true ∧ deferring.vecDeferred ⟨0x188, 4, false, false⟩ w ≠ none) :=
  ⟨⟨{ head := inV, a := V 2, b := S 7, c := .imm 0, ty := .i32 }, _, _, ok rfl, rfl, rfl, rfl, rfl, rfl, rfl⟩,
   ⟨{ head := inV, a := S 6, b := V 1, c := V 2, ty := .i32 }, _, _, ok rfl, rfl, rfl, rfl, rfl⟩,
   ⟨{ head := inV, a := V 2, b := S 12, c := V 3, ty := .i32 }, _, _, _, ok rfl, rfl, rfl, rfl, rfl, rfl⟩,
   ⟨{ head := inV, a := V 2, b := S 9, c := .imm 0, ty := .i32, flg := 1 }, ok rfl, rfl, by decide +kernel⟩⟩

theorem witness_VectorAccesses_rows :
    (∃ (s : State) (w : Operands) (n : Nat), Issues 0x183 w false s s ∧ s.rowOf 0x183 w (opndNum w.b) = .ok n ∧
      s.tileBusy (opndNum w.b) = false ∧ s.heldTile s.myCore (opndNum w.b) = true ∧ s.poisoned = []) ∧
    (∃ (w : Operands) (n : Nat), Issues 0x183 w false base base ∧ base.rowOf 0x183 w (opndNum w.b) = .ok n ∧
      base.tileBusy (opndNum w.b) = false ∧ base.heldTile base.myCore (opndNum w.b) = false) ∧
    (∃ w : Operands, base.deferredIn 0x183 w [2] = none ∧ 15 < (base.val w.c).toNat ∧ Issues 0x183 w false base base) ∧
    (∃ w n, Issues 0x187 w false base base ∧ base.rowOf 0x187 w (opndNum w.a) = .ok n ∧ base.firstDeferredV (vOf w.b) = none ∧
      base.tileBusy (opndNum w.a) = false) ∧
    (∃ w t p, Issues 0x196 w false base base ∧ base.deferredIn 0x196 w [0, 2] = none ∧ glbRange (base.eaOf 0x196 w) 1 = none ∧
      base.myPart.pushEdge (base.eaOf 0x196 w).toNat = none ∧
      base.usePage base.myDie prefKey base.myPart.asid (base.eaOf 0x196 w).toNat 1 .load = .ok t p ∧ w.head.cache ≠ 3 ∧ w.head.cache ≠ 4) ∧
    (∃ w t p, Issues 0x196 w false base base ∧ base.deferredIn 0x196 w [0, 2] = none ∧ glbRange (base.eaOf 0x196 w) 1 = none ∧
      base.myPart.pushEdge (base.eaOf 0x196 w).toNat = none ∧
      base.usePage base.myDie prefKey base.myPart.asid (base.eaOf 0x196 w).toNat 1 .load = .ok t p ∧ (w.head.cache = 3 ∨ w.head.cache = 4)) ∧
    (∃ (s : State) (w : Operands) (f : FaultReq) (t : State), Issues 0x196 w false s s ∧ s.deferredIn 0x196 w [0, 2] = none ∧
      s.usePage s.myDie prefKey s.myPart.asid (s.eaOf 0x196 w).toNat 1 .load = .fault f t) ∧
    (∃ (s : State) (w : Operands), Issues 0x196 w false s s ∧ s.deferredIn 0x196 w [0, 2] = none ∧ glbRange (s.eaOf 0x196 w) 1 ≠ none) :=
  ⟨⟨base.modCore 0 (fun c => { c with held := [(2, true)] }), { head := inV, a := V 2, b := .reg .z false 2, c := .imm 15 }, _, ok rfl, rfl, rfl, rfl, rfl⟩,
   ⟨{ head := inV, a := V 2, b := .reg .z false 2, c := .imm 15 }, _, ok rfl, rfl, rfl, rfl⟩,
   ⟨{ head := inV, a := V 2, b := .reg .z false 2, c := .imm 16 }, rfl, by decide +kernel, ok rfl⟩,
   ⟨{ head := inV, a := .reg .z false 2, b := V 1, c := .imm 15 }, _, ok rfl, rfl, rfl, rfl⟩,
   ⟨{ head := inV, a := S 6, c := .imm 0, ty := .i32 }, _, _, ok rfl, rfl, rfl, rfl, rfl, by decide, by decide⟩,
   ⟨{ head := { stream := .V, cache := 3 }, a := S 6, c := .imm 0, ty := .i32 }, _, _, ok rfl, rfl, rfl, rfl, rfl, .inl rfl⟩,
   ⟨far, { head := inV, a := S 12, c := .imm 0, ty := .i32 }, _, _, ok rfl, rfl, rfl⟩,
   ⟨base.wroteS 3 0x100000000000000, { head := inV, a := S 3, c := .imm 0, ty := .i32 }, ok rfl, rfl, by decide +kernel⟩⟩

theorem witness_PushAddresses :
    (∀ ty ∈ [Ty.i64, .i32], ∃ w e, Issues 0x180 w false pushing pushing ∧ pushing.deferredIn 0x180 w [1, 2] = none ∧ isSpec w = false ∧
      rangeFault 4 (pushing.eaOf 0x180 w) = none ∧ aligned 4 (pushing.eaOf 0x180 w) w.ty.bytes = none ∧ w.ty = ty ∧
      pushing.myPart.pushEdge (pushing.eaOf 0x180 w).toNat = some e ∧ Ord_rel w.ord = false) ∧
    (∀ ty ∈ [Ty.i64, .i32], ∃ w e, Issues 0x184 w false pushing pushing ∧ pushing.deferredIn 0x184 w [0, 1, 2] = none ∧
      rangeFault 4 (pushing.eaOf 0x184 w) = none ∧ aligned 4 (pushing.eaOf 0x184 w) w.ty.bytes = none ∧ w.ty = ty ∧
      pushing.myPart.pushEdge (pushing.eaOf 0x184 w).toNat = some e ∧ pushing.emitOwed e ≠ 0 ∧ pushing.releaseReady w.scope = true) ∧
    (∃ s w e, Issues 0x184 w false s s ∧ w.ty.bytes = 8 ∧ s.myPart.pushEdge (s.eaOf 0x184 w).toNat = some e ∧ s.emitOwed e = 0) ∧
    (∀ opc ∈ [0x200, 0x202], ∃ w, Issues opc w false pushing pushing ∧ pushing.deferredIn opc w [1, 0, 2] = none ∧
      rangeFault 4 (pushing.val w.b) = none ∧ aligned 4 (pushing.val w.b) w.ty.bytes = none ∧
      pushing.myPart.pushMeets (pushing.val w.b).toNat w.ty.bytes = true) ∧
    (∃ w, Issues 0x204 w false pushing pushing ∧ pushing.deferredIn 0x204 w [0, 1, 2] = none ∧
      rangeFault 4 (pushing.eaOf 0x204 w) = none ∧ aligned 4 (pushing.eaOf 0x204 w) w.ty.bytes = none ∧
      pushing.myPart.pushMeets (pushing.eaOf 0x204 w).toNat w.ty.bytes = true) ∧
    (∀ m ∈ [(⟨0x188, 4, false, false⟩ : VMem), ⟨0x18B, 4, true, false⟩, ⟨0x190, 4, false, true⟩, ⟨0x193, 4, true, true⟩], ∃ w x l,
      let a := if m.idx then pushing.val (baseOf m.opc w) else pushing.eaOf m.opc w
      let fmt := if 2 ^ 56 ≤ a.toNat then none else pushing.codeFmt m w a
      Issues m.opc w false pushing pushing ∧ pushing.vecDeferred m w = none ∧
      pushing.laneAccs m w a fmt (pushing.me.progIdx.getD (pushing.vecOf w.c)) pushing.me.prog = x :: l ∧
      (x :: l).findSome? (laneFault m) = none ∧ (m.idx = true ∨ pushing.vecAligned m w a fmt = true) ∧ isSpec w = false ∧
      pushing.myPart.pushMeets x.addr.toNat x.n = true) := by
  refine ⟨fun ty h => ?_, fun ty h => ?_,
   ⟨pushing.modMe (fun a => { a with tumbler := [] }), { a := S 8, b := S 3, c := .imm 0, ty := .i64 }, _, ok rfl, rfl, rfl, rfl⟩,
   fun opc h => ?_, ⟨{ a := S 8, b := S 3, c := .imm 0, ty := .i64 }, ok rfl, rfl, rfl, rfl, rfl⟩, fun m h => ?_⟩ <;>
    simp only [List.mem_cons, List.not_mem_nil, or_false] at h
  rotate_right
  · rcases h with rfl | rfl | rfl | rfl
    · exact ⟨{ head := inV, a := V 2, b := S 8, c := .imm 0, ty := .i32 }, _, _, ok rfl, rfl, rfl, rfl, .inr rfl, rfl, by decide +kernel⟩
    · exact ⟨{ head := inV, a := S 8, b := V 1, c := .imm 0, ty := .i32 }, _, _, ok rfl, rfl, rfl, rfl, .inr rfl, rfl, by decide +kernel⟩
    · exact ⟨{ head := inV, a := V 2, b := S 8, c := V 3, ty := .i32 }, _, _, ok rfl, rfl, rfl, rfl, .inl rfl, rfl, by decide +kernel⟩
    · exact ⟨{ head := inV, a := S 8, b := V 1, c := V 3, ty := .i32 }, _, _, ok rfl, rfl, rfl, rfl, .inl rfl, rfl, by decide +kernel⟩
  all_goals rcases h with rfl | rfl
  · exact ⟨{ a := S 5, b := S 8, c := .imm 0, ty := .i64 }, _, ok rfl, rfl, rfl, rfl, rfl, rfl, rfl, rfl⟩
  · exact ⟨{ a := S 5, b := S 8, c := .imm 0, ty := .i32 }, _, ok rfl, rfl, rfl, rfl, rfl, rfl, rfl, rfl⟩
  · exact ⟨{ a := S 8, b := S 3, c := .imm 0, ty := .i64 }, _, ok rfl, rfl, rfl, rfl, rfl, rfl, by decide +kernel, rfl⟩
  · exact ⟨{ a := S 8, b := S 3, c := .imm 0, ty := .i32 }, _, ok rfl, rfl, rfl, rfl, rfl, rfl, by decide +kernel, rfl⟩
  · exact ⟨{ a := S 3, b := S 8, c := .imm 0, ty := .i64 }, ok rfl, rfl, rfl, rfl, rfl⟩
  · exact ⟨{ a := S 3, b := S 8, c := .imm 0, ty := .i64 }, ok rfl, rfl, rfl, rfl, rfl⟩

theorem witness_StoreFrames :
    (∃ w r t u ps, Issues 0x185 w false base r ∧ Reaches 0x185 1 w .store [0, 1, 2] (fun r => r.storeExtra) r t ps ∧
      exec (.stl w) base = .next u) ∧
    (∃ w r t u ps, Issues 0x184 w false base r ∧ Reaches 0x184 4 w .store [0, 1, 2] (fun r => r.storeExtra) r t ps ∧
      (∀ p ∈ ps, p.at_ = .shm ∨ p.at_ = .glb) ∧ exec (.stg w) base = .next u) :=
  ⟨⟨{ a := S 6, b := S 3, c := .imm 0, ty := .i64 }, base, _, _, _, ok rfl, ⟨rfl, rfl, rfl, fun _ => rfl, rfl, fun _ => rfl⟩, rfl⟩,
   ⟨{ a := S 6, b := S 3, c := .imm 0, ty := .i64 }, base, _, _, _, ok rfl, ⟨rfl, rfl, rfl, fun _ => rfl, rfl, fun _ => rfl⟩,
     by decide +kernel, rfl⟩⟩

theorem witness_AtomicsAndFences :
    (∃ w t p ps, Issues 0x200 w false base base ∧ base.deferredIn 0x200 w [1, 0, 2] = none ∧
      rangeFault 4 (base.val w.b) = none ∧ aligned 4 (base.val w.b) w.ty.bytes = none ∧
      base.access 4 .atomic (base.val w.b).toNat w.ty.bytes base.storeExtra = .ok t (p :: ps) ∧ Ord_rel w.ord = false ∧
      t.poisonFault (p :: ps) = none) ∧
    (∃ w t p, Issues 0x205 w false base base ∧ base.deferredIn 0x205 w [0, 1, 2] = none ∧
      rangeFault 2 (base.eaOf 0x205 w) = none ∧ aligned 2 (base.eaOf 0x205 w) w.ty.bytes = none ∧
      base.access 2 .atomic (base.eaOf 0x205 w).toNat w.ty.bytes packedFault = .ok t [p] ∧ Ord_rel w.ord = false ∧
      t.poisonFault [p] = none ∧ t.weirType w.ty [p] = none) ∧
    (∃ (s : State) (w : Operands) (t : State) (p : Piece) (f : FaultReq), Issues 0x204 w false s s ∧ s.deferredIn 0x204 w [0, 1, 2] = none ∧
      rangeFault 4 (s.eaOf 0x204 w) = none ∧ aligned 4 (s.eaOf 0x204 w) w.ty.bytes = none ∧
      s.access 4 .atomic (s.eaOf 0x204 w).toNat w.ty.bytes packedFault = .ok t [p] ∧ Ord_rel w.ord = false ∧
      t.poisonFault [p] = none ∧ t.weirType w.ty [p] = some f) ∧
    (∃ w, Issues 0x208 w false base base ∧ base.fenceDone w.ord w.scope none = true) ∧
    (∃ s w, Issues 0x208 w false s s ∧ s.iss = .front ∧ w.head.stream = .S ∧ s.fenceDone w.ord w.scope none = false) ∧
    (∃ w, Issues 0x209 w false base base ∧ base.deferredIn 0x209 w [0, 2] = none ∧ base.val w.c = 0) ∧
    (∃ w, Issues 0x209 w false base base ∧ base.deferredIn 0x209 w [0, 2] = none ∧ base.val w.c ≠ 0 ∧ (base.val w.a).toNat < 2 ^ 56 ∧
      (base.val w.a + base.val w.c - 1).toNat < 2 ^ 56 ∧
      base.fenceDone w.ord w.scope (some ((base.val w.a).toNat, (base.val w.c).toNat)) = true) :=
  ⟨⟨{ a := S 3, b := S 6, c := .imm 0, ty := .i64 }, _, _, _, ok rfl, rfl, rfl, rfl, rfl, rfl, rfl⟩,
   ⟨{ a := S 6, b := S 3, c := .imm 0, ty := .i64 }, _, _, ok rfl, rfl, rfl, rfl, rfl, rfl, rfl, rfl⟩,
   ⟨{ base with weirs := [(3, { valid := true, base := 0, length := 0x10000, ty := .f32 })] }, { a := S 6, b := S 3, c := .imm 0, ty := .i64 }, _, _, _,
     ok rfl, rfl, rfl, rfl, rfl, rfl, rfl, rfl⟩,
   ⟨{ scope := .mod, ord := .rel }, ok rfl, rfl⟩,
   ⟨base.modMe (fun a => { a with own := [(0, [])], outbox := [{ kind := .write [(0, 0)], shm := false, page := 0, scope := .core, uid := 1 }] }),
     { scope := .mod, ord := .rel }, ok rfl, rfl, rfl, rfl⟩,
   ⟨{ a := S 6, c := S 0, scope := .mod }, ok rfl, rfl, rfl⟩,
   ⟨{ a := S 6, c := S 7, scope := .mod }, ok rfl, rfl, by decide +kernel, by decide +kernel, by decide +kernel, rfl⟩⟩

theorem witness_AtomicFrame :
    (∃ (s : State) (e : OutEntry), (s.act (8 * 0 + 0)).outbox[0]? = some e ∧ e.kind = .amo 0x100 .i32 (some 0) 1 0 5 false ∧ e.shm = true ∧
      e.drained = true ∧ s.poisonAt shmGranule 0x100 (Ty.bytes .i32) = false ∧ (atomicNew .i32 (some 0) 1 0 0).isSome = true ∧
      ∃ p opc w, (s.act (8 * 0 + 0)).late.find? (fun p => p.seq == 5) = some p ∧ p.fields = some (opc, w)) ∧
    atomicNew .i32 none 1 7 0 = none :=
  ⟨⟨base.modMe (fun a => { a with
      outbox := [{ kind := .amo 0x100 .i32 (some 0) 1 0 5 false, shm := true, page := 0, scope := .core, uid := 1, drained := true }]
      late := [{ strm := .S, pc := 0x100, word := 0x8040_0000_0011_5001_8008_0000, seq := 5 }] }), _, rfl, rfl, rfl, rfl, by decide +kernel,
      by decide +kernel, _, _, _, rfl, rfl⟩, by decide +kernel⟩

theorem witness_SignalChanges :
    (∀ held ∈ [true, false], ∃ w u p home, Issues 0x213 w false (signalling true 1 held) (signalling true 1 held) ∧
      ReachesBlock 0x213 w [0, 2] ((signalling true 1 held).val w.a) true (signalling true 1 held) u p home ∧
      u.liveAt home ∧ decide (u.me.oblUnits .signal ((signalling true 1 held).val w.a) ≠ 0) = held) ∧
    (∃ w u p home, Issues 0x216 w false (signalling false 0 false) (signalling false 0 false) ∧
      ReachesBlock 0x216 w [0, 2] ((signalling false 0 false).val w.a) true (signalling false 0 false) u p home ∧ (u.block home).live = false) ∧
    (∃ w u p home rank part, Issues 0x215 w false (signalling false 0 false) (signalling false 0 false) ∧
      ReachesBlock 0x215 w [1, 2] ((signalling false 0 false).val w.b) (Ord_rel w.ord) (signalling false 0 false) u p home ∧
      w.flg.getLsbD 2 = true ∧ ((signalling false 0 false).me.oblAcquire .signal ((signalling false 0 false).val w.b) 0 1).isSome = true ∧
      (u.block home).live = false ∧ (u.block home).bad = false ∧
      u.myPart.draw (bits w.flg 0 2).toNat (u.val w.c) = .ok (rank, part)) ∧
    (∃ w u p home, Issues 0x215 w false (signalling true 0 false) (signalling true 0 false) ∧
      ReachesBlock 0x215 w [1, 2] ((signalling true 0 false).val w.b) (Ord_rel w.ord) (signalling true 0 false) u p home ∧
      w.flg.getLsbD 2 = false ∧ (u.block home).live = true) ∧
    (∃ w u p home, Issues 0x214 w false (signalling true 0 false) (signalling true 0 false) ∧
      ReachesBlock 0x214 w [0] ((signalling true 0 false).val w.a) (Ord_rel w.ord) (signalling true 0 false) u p home ∧
      u.liveAt home ∧ (u.block home).holders = 0 ∧ u.waiters home = []) ∧
    (∃ w u p home, Issues 0x214 w false (signalling true 1 false) (signalling true 1 false) ∧
      ReachesBlock 0x214 w [0] ((signalling true 1 false).val w.a) (Ord_rel w.ord) (signalling true 1 false) u p home ∧
      (u.block home).holders ≠ 0) := by
  refine ⟨fun held h => ?_,
   ⟨{ a := S 8, c := S 3, scope := .die }, _, _, _, ok rfl, ⟨rfl, _, _, rfl, fun _ => rfl, rfl, rfl, rfl⟩, rfl⟩,
   ⟨{ a := S 5, b := S 8, c := .imm 1, scope := .die, flg := 5 }, _, _, _, _, _, ok rfl, ⟨rfl, _, _, rfl, fun _ => rfl, rfl, rfl, rfl⟩, rfl, rfl, rfl, rfl, rfl⟩,
   ⟨{ a := S 5, b := S 8, c := .imm 1, scope := .die }, _, _, _, ok rfl, ⟨rfl, _, _, rfl, fun _ => rfl, rfl, rfl, rfl⟩, rfl, rfl⟩,
   ⟨{ a := S 8, scope := .die }, _, _, _, ok rfl, ⟨rfl, _, _, rfl, fun _ => rfl, rfl, rfl, rfl⟩, ⟨rfl, rfl⟩, rfl, rfl⟩,
   ⟨{ a := S 8, scope := .die }, _, _, _, ok rfl, ⟨rfl, _, _, rfl, fun _ => rfl, rfl, rfl, rfl⟩, by decide +kernel⟩⟩
  simp only [List.mem_cons, List.not_mem_nil, or_false] at h
  rcases h with rfl | rfl <;>
    exact ⟨{ a := S 8, c := S 3, scope := .die }, _, _, _, ok rfl, ⟨rfl, _, _, rfl, fun _ => rfl, rfl, rfl, rfl⟩, ⟨rfl, rfl⟩, by decide +kernel⟩

theorem witness_SignalWaits :
    (∃ w u p home, Issues 0x217 w true (signalling true 1 true) (signalling true 1 true) ∧
      ReachesBlock 0x217 w [0, 2] ((signalling true 1 true).val w.a) false (signalling true 1 true) u p home ∧
      u.liveAt home ∧ u.rankLegal u.myCore u.me none (u.block home).rank = false) ∧
    (∃ w u p home, Issues 0x217 w true poisonedBlock poisonedBlock ∧
      ReachesBlock 0x217 w [0, 2] (poisonedBlock.val w.a) false poisonedBlock u p home ∧
      u.liveAt home ∧ u.rankLegal u.myCore u.me none (u.block home).rank = true ∧ (u.block home).poison = true) ∧
    (∃ (w v : Operands) (u : State) (p : Piece) (home : Nat), Issues 0x217 w true (signalling true 1 false) (signalling true 1 false) ∧
      ReachesBlock 0x217 w [0, 2] ((signalling true 1 false).val w.a) false (signalling true 1 false) u p home ∧
      u.liveAt home ∧ u.rankLegal u.myCore u.me none (u.block home).rank = true ∧ (u.block home).poison = false ∧
      (u.val w.c).toNat ≤ (u.block home).value.toNat ∧ (u.block home).value.toNat < (u.val v.c).toNat ∧ v.a = w.a ∧
      (u.block home).holders ≠ 0) ∧
    (∃ w u p home, Issues 0x217 w true (signalling true 0 false) (signalling true 0 false) ∧
      ReachesBlock 0x217 w [0, 2] ((signalling true 0 false).val w.a) false (signalling true 0 false) u p home ∧
      u.liveAt home ∧ u.rankLegal u.myCore u.me none (u.block home).rank = true ∧ (u.block home).poison = false ∧
      (u.block home).value.toNat < (u.val w.c).toNat ∧ (u.block home).holders = 0) ∧
    (∃ w u p home, Issues 0x20A w true (signalling true 1 false) (signalling true 1 false) ∧
      ReachesBlock 0x20A w [0] ((signalling true 1 false).val w.a) false (signalling true 1 false) u p home ∧
      u.liveAt home) ∧
    (∃ w u p home, Issues 0x20B w false (signalling true 1 false) (signalling true 1 false) ∧
      ReachesBlock 0x20B w [0, 2] ((signalling true 1 false).val w.a) true (signalling true 1 false) u p home ∧
      u.liveAt home) :=
  ⟨⟨{ a := S 8, c := S 3, scope := .die }, _, _, _, ok rfl, ⟨rfl, _, _, rfl, fun _ => rfl, rfl, rfl, rfl⟩, ⟨rfl, rfl⟩, rfl⟩,
   ⟨{ a := S 8, c := S 3, scope := .die }, _, _, _, ok rfl, ⟨rfl, _, _, rfl, fun _ => rfl, rfl, rfl, rfl⟩, ⟨rfl, rfl⟩, rfl, by decide +kernel⟩,
   ⟨{ a := S 8, c := .imm 3, scope := .die }, { a := S 8, c := .imm 4 }, _, _, _, ok rfl, ⟨rfl, _, _, rfl, fun _ => rfl, rfl, rfl, rfl⟩, ⟨rfl, rfl⟩,
     rfl, rfl, by decide +kernel, by decide +kernel, rfl, by decide +kernel⟩,
   ⟨{ a := S 8, c := .imm 4, scope := .die }, _, _, _, ok rfl, ⟨rfl, _, _, rfl, fun _ => rfl, rfl, rfl, rfl⟩, ⟨rfl, rfl⟩,
     rfl, rfl, by decide +kernel, by decide +kernel⟩,
   ⟨{ a := S 8, scope := .die }, _, _, _, ok rfl, ⟨rfl, _, _, rfl, fun _ => rfl, rfl, rfl, rfl⟩, rfl, rfl⟩,
   ⟨{ a := S 8, c := .imm 1, scope := .die }, _, _, _, ok rfl, ⟨rfl, _, _, rfl, fun _ => rfl, rfl, rfl, rfl⟩, rfl, rfl⟩⟩

theorem witness_ObligationWordsComplete :
    (∃ w a, Issues 0x210 w false (signalling true 1 true) (signalling true 1 true) ∧ (signalling true 1 true).deferredIn 0x210 w [0, 2] = none ∧
      (signalling true 1 true).oblCountOf w ≠ 0 ∧ (signalling true 1 true).cmdAhead = false ∧
      (signalling true 1 true).me.oblGive ((signalling true 1 true).val w.a) ((signalling true 1 true).oblCountOf w) = .ok a) ∧
    (∃ w, Issues 0x211 w false base base ∧ base.deferredIn 0x211 w [2] = none) ∧
    (∃ w u p home, Issues 0x212 w false (signalling true 1 true) (signalling true 1 true) ∧
      ReachesBlock 0x212 w [0, 2] ((signalling true 1 true).val w.a) false (signalling true 1 true) u p home ∧
      (signalling true 1 true).oblCountOf w ≠ 0 ∧ ((signalling true 1 true).me.oblAcquire .signal ((signalling true 1 true).val w.a) 0
        ((signalling true 1 true).oblCountOf w)).isSome = true ∧ u.liveAt home ∧ (u.block home).poison = false) :=
  ⟨⟨{ a := S 8, c := .imm 1 }, _, ok rfl, rfl, by decide +kernel, rfl, rfl⟩, ⟨{ a := S 5, c := .imm 31 }, ok rfl, rfl⟩,
   ⟨{ a := S 8, c := .imm 2, scope := .die }, _, _, _, ok rfl, ⟨rfl, _, _, rfl, fun _ => rfl, rfl, rfl, rfl⟩, by decide +kernel, rfl,
     ⟨rfl, rfl⟩, rfl⟩⟩

theorem witness_TumblerUnits :
    (∃ a b : Act, OblKind.signal ≠ .free ∧ a.oblAcquire .signal ref 0 1 = some b) ∧
    (∀ i j, i < 16 → j < 16 → ((signalling true 1 true).me.obl i).kind = .signal → ((signalling true 1 true).me.obl j).kind = .signal →
      ((signalling true 1 true).me.obl i).handle = ref → ((signalling true 1 true).me.obl j).handle = ref →
      ((signalling true 1 true).me.obl i).staged = false → ((signalling true 1 true).me.obl j).staged = false → i = j) :=
  ⟨⟨{}, _, by decide, rfl⟩, by
    have h : ∀ i < 16, ((signalling true 1 true).me.obl i).kind = .signal → i = 0 := by decide +kernel
    intro i j hi hj h1 h2 _ _ _ _; rw [h i hi h1, h j hj h2]⟩

/-- base in a local-time partition. -/
def timed : State := base.modPart 0 (fun p => { p with lt := true })
/-- Core 0 a member of group 5, with no arrival yet, or with one in phase 0. -/
def grouped (arrived : Nat) : State :=
  (base.modPart 0 (fun p => { p with groups := [(5, { valid := true, members := [0, 1], rank := 0x02000000 })] })).modCore 0
    (fun c => { c with arrived := tset 0 5 arrived [] })

theorem witness_BarrierWordsComplete :
    (∃ w, Issues 0x218 w false base base ∧ base.deferredIn 0x218 w [2] = none ∧ base.inGroup (base.groupNum w) = false) ∧
    (∃ w, Issues 0x218 w false (grouped 0) (grouped 0) ∧ (grouped 0).deferredIn 0x218 w [2] = none ∧
      (grouped 0).inGroup ((grouped 0).groupNum w) = true ∧
      tget 0 ((grouped 0).groupNum w) ((grouped 0).core (grouped 0).myCore).arrived ≠ ((grouped 0).group ((grouped 0).groupNum w)).phase + 1 ∧
      (grouped 0).releaseReady w.scope = true) ∧
    (∃ w, Issues 0x218 w false (grouped 1) (grouped 1) ∧ (grouped 1).deferredIn 0x218 w [2] = none ∧
      (grouped 1).inGroup ((grouped 1).groupNum w) = true ∧
      tget 0 ((grouped 1).groupNum w) ((grouped 1).core (grouped 1).myCore).arrived = ((grouped 1).group ((grouped 1).groupNum w)).phase + 1) ∧
    (∃ w, Issues 0x219 w true timed timed ∧ timed.myPart.lt = true) ∧
    (∃ w, Issues 0x219 w true base base ∧ base.myPart.lt = false ∧ base.deferredIn 0x219 w [2] = none ∧ base.inGroup (base.groupNum w) = false) ∧
    (∃ w, Issues 0x219 w true (grouped 1) (grouped 1) ∧ (grouped 1).myPart.lt = false ∧ (grouped 1).deferredIn 0x219 w [2] = none ∧
      (grouped 1).inGroup ((grouped 1).groupNum w) = true ∧ (grouped 1).rankLegal (grouped 1).myCore (grouped 1).me (some 5)
        ((grouped 1).group ((grouped 1).groupNum w)).rank = true ∧ (0 : Nat) ∉ ((grouped 1).group ((grouped 1).groupNum w)).poisoned) ∧
    (∃ w s, Issues 0x219 w true s s ∧ s.myPart.lt = false ∧ s.deferredIn 0x219 w [2] = none ∧ s.inGroup (s.groupNum w) = true ∧
      tget 0 (s.groupNum w) (s.core s.myCore).arrived = 0 ∧ s.rankLegal s.myCore s.me none (s.group (s.groupNum w)).rank = false) ∧
    (∃ w s, Issues 0x219 w true s s ∧ s.myPart.lt = false ∧ s.deferredIn 0x219 w [2] = none ∧ s.inGroup (s.groupNum w) = true ∧
      tget 0 (s.groupNum w) (s.core s.myCore).arrived = 1 ∧ s.rankLegal s.myCore s.me (some (s.groupNum w)) (s.group (s.groupNum w)).rank = true ∧
      0 ∈ (s.group (s.groupNum w)).poisoned) ∧
    (∃ w, Issues 0x21A w false base base ∧ base.deferredIn 0x21A w [2] = none) :=
  ⟨⟨{ c := .imm 5, scope := .core }, ok rfl, rfl, rfl⟩,
   ⟨{ c := .imm 5, scope := .core }, ok rfl, rfl, rfl, by decide +kernel, rfl⟩, ⟨{ c := .imm 5, scope := .core }, ok rfl, rfl, rfl, by decide +kernel⟩,
   ⟨{ c := .imm 5, scope := .core }, ok rfl, rfl⟩, ⟨{ c := .imm 5, scope := .core }, ok rfl, rfl, rfl, rfl⟩,
   ⟨{ c := .imm 5, scope := .core }, ok rfl, rfl, rfl, rfl, rfl, by decide +kernel⟩,
   ⟨{ c := .imm 5, scope := .core }, (grouped 0).modMe (fun a => { a with tumbler := [(0, { kind := .signal, count := 1, rank := 1, handle := ref })] }),
     ok rfl, rfl, rfl, rfl, rfl, by decide +kernel⟩,
   ⟨{ c := .imm 5, scope := .core }, (grouped 1).modPart 0 (fun p => { p with groups := [(5, { valid := true, members := [0, 1], rank := 0x02000000, poisoned := [0] })] }),
     ok rfl, rfl, rfl, rfl, rfl, by decide +kernel, by decide +kernel⟩,
   ⟨{ a := S 5, c := S 3 }, ok rfl, rfl⟩⟩

/-! ## Witnesses: local time, messages, engines, tiles and the system words -/

theorem witness_LocalTimeComplete :
    (∃ w, Issues 0x288 w false base base ∧ Issues 0x288 w false timed timed ∧ timed.deferredIn 0x288 w [2] = none) ∧
    (∃ w, Issues 0x289 w false timed timed) ∧
    (∃ w, Issues 0x28A w false timed timed ∧ timed.deferredIn 0x28A w [2] = none) ∧
    (∃ w, Issues 0x28C w false timed timed ∧ timed.deferredIn 0x28C w [0, 2] = none) ∧
    (∃ w, Issues 0x28D w false timed timed ∧ timed.deferredIn 0x28D w [2] = none) ∧
    (∃ w dst, Issues 0x28B w false base base ∧ base.deferredIn 0x28B w [1, 2] = none ∧ coreOfAddr (bits (base.val w.b) 0 25).toNat = some dst ∧
      base.myPart.lt = false) ∧
    (∃ w dst, Issues 0x28B w false timed timed ∧ timed.deferredIn 0x28B w [1, 2] = none ∧
      coreOfAddr (bits (timed.val w.b) 0 25).toNat = some dst ∧ timed.myPart.lt = true ∧ (timed.core dst).part = some timed.me.part ∧
      timed.linkTo timed.myCore dst ((timed.val w.b).getLsbD 63) = none ∧ (timed.core timed.myCore).outs.length < 16 ∧
      (timed.core dst).ins.length < 16 ∧ timed.myPart.links.length < 4096 ∧ 0 < (timed.val w.c).toNat ∧ (timed.val w.c).toNat < 2 ^ 32) ∧
    (∃ w, Issues 0x28E w true base base ∧ base.deferredIn 0x28E w [2] = none ∧ base.myPart.lt = false) ∧
    (∃ w s, Issues 0x28E w true s s ∧ s.deferredIn 0x28E w [2] = none ∧ s.myPart.lt = true ∧ s.me.oblUsed ≠ []) ∧
    (∃ w, Issues 0x28E w true timed timed ∧ timed.deferredIn 0x28E w [2] = none ∧ timed.myPart.lt = true ∧ timed.me.oblUsed = [] ∧
      timed.me.event = false) :=
  ⟨⟨{ c := S 3 }, ok rfl, ok rfl, rfl⟩, ⟨{}, ok rfl⟩, ⟨{ a := S 5, c := .imm 0x40 }, ok rfl, rfl⟩, ⟨{ a := S 3, c := S 4 }, ok rfl, rfl⟩,
   ⟨{ c := S 3 }, ok rfl, rfl⟩, ⟨{ a := S 5, b := S 0, c := S 3 }, _, ok rfl, rfl, rfl, rfl⟩,
   ⟨{ a := S 5, b := S 0, c := S 3 }, _, ok rfl, rfl, rfl, rfl, rfl, rfl, by decide +kernel, by decide +kernel, by decide +kernel,
     by decide +kernel, by decide +kernel⟩,
   ⟨{ c := S 3 }, ok rfl, rfl, rfl⟩,
   ⟨{ c := S 3 }, timed.modMe (fun a => { a with tumbler := [(0, { kind := .signal, count := 1, handle := ref })] }), ok rfl, rfl, rfl,
     by decide +kernel⟩,
   ⟨{ c := S 3 }, ok rfl, rfl, rfl, rfl, rfl⟩⟩

theorem witness_SendAndSpawn :
    (∃ w t d, Issues 0x282 w false base base ∧ base.deferredIn 0x282 w [0, 1, 2] = none ∧ base.sendTo w = .ok d ∧
      badEntry (base.val w.b) = none ∧ base.giveCheck d (w.flg.getLsbD 1) = none ∧ base.sendCheck d (w.flg.getLsbD 1) = none ∧ base.cmdAhead = false ∧
      (Ord_rel w.ord = true → base.releaseReady w.scope = true) ∧ (if w.flg.getLsbD 1 && !base.me.oblStaged.isEmpty then 2 else 1) ≤
        base.sendRoom base.myCore (if d.reply.isSome then .reply else .request) ∧ base.sendEnter w d = .done t ∧ base.myPart.lt = false) ∧
    (∃ w, Issues 0x283 w false base base ∧ base.firstDeferred (sSources 0x283 w) = none ∧ (base.val w.c).toNat % 4 = 0 ∧
      bits (base.val w.c) 56 8 = 0 ∧ base.me.badStaged OblKind.toChild = none ∧ base.cmdAhead = false ∧ (Ord_rel w.ord = true → base.releaseReady w.scope = true) ∧
      (if base.me.oblStaged.isEmpty then 1 else 2) ≤ base.sendRoom base.myCore .request) ∧
    (∀ acc : Bool, ∀ d ∈ [0, 7], ∃ (s : State) (w : Operands), ((s.core 0).inQ.zipIdx.filterMap (fun x => x.1.spawnAnswer.map (fun y => (x.2, y)))).find?
      (fun x => x.2.1 == 8 * 0 + 0) = some (0, 8 * 0 + 0, (s.act (8 * 0 + 0)).uid, acc) ∧ (s.act (8 * 0 + 0)).asked = some (.spawn w [] none) ∧
      (s.act (8 * 0 + 0)).st = .running ∧ (s.act (8 * 0 + 0)).inline = d ∧ ∃ rot n, w.b = .reg .s rot n) :=
  ⟨⟨{ a := S 0, b := S 6, c := S 3 }, _, _, ok rfl, rfl, rfl, rfl, rfl, rfl, rfl, fun _ => rfl, by decide +kernel, rfl, rfl⟩,
   ⟨{ a := S 5, b := S 0, c := S 6 }, ok rfl, rfl, by decide +kernel, rfl, rfl, rfl, fun _ => rfl, by decide +kernel⟩,
   fun acc d _ => ⟨(base.modAct 0 (fun a => { a with asked := some (.spawn { b := S 3 } [] none), inline := d })).modCore 0
     (fun c => { c with inQ := [{ dest := 0, src := 0, kind := .answer 0 1 acc }] }), { b := S 3 }, rfl, rfl, rfl, rfl, _, _, rfl⟩⟩

/-- base with tile 2 of core 0 defined, 4 lines from line 0, in a state. -/
def tiled (st : TileState) : State := base.setTile 0 2 { size := 4, state := st }
/-- base with sluice 1 open to tile 2 of core 0. -/
def sluiced : State := (tiled .filling).modMe (fun a => a.setSluice 1 { isOpen := true, core := 0, tile := 2 })

/-- A sluice within one router needs no link. -/
theorem channelFree_here (s : State) (c : Nat) : s.channelFree c c = true := by
  have h (a : Nat) : routeLinks a a = [] := by simp only [routeLinks, Nat.div_add_mod, if_true, List.append_nil]
  unfold State.channelFree
  simp only [h, List.all_nil]

theorem witness_BindAndSluices :
    (∃ w, Issues 0x280 w false base base ∧ base.deferredIn 0x280 w [0, 2] = none ∧ (base.val w.a).toNat % 4 = 0 ∧ bits (base.val w.a) 56 8 = 0) ∧
    (∃ w, Issues 0x280 w false base base ∧ base.deferredIn 0x280 w [0, 2] = none ∧ (base.val w.a).toNat % 4 ≠ 0) ∧
    (∃ w, Issues 0x281 w false base base ∧ base.deferredIn 0x281 w [2] = none) ∧
    (∃ (s : State) (t : Nat) (e : Option Word), (s.act (8 * 0 + 0)).asked = some (.bind t e)) ∧
    (∃ w, Issues 0x284 w false base base ∧ base.deferredIn 0x284 w [1] = none ∧ (base.me.sluice (base.sluiceNum w)).isOpen = false ∧
      base.me.oblFree.isSome = true) ∧
    (∃ w, Issues 0x284 w false sluiced sluiced ∧ sluiced.deferredIn 0x284 w [1] = none ∧ (sluiced.me.sluice (sluiced.sluiceNum w)).isOpen = true) ∧
    (∃ (s : State) (w : Operands), (s.act (8 * 0 + 0)).asked = some (.slopen w 0 2 none)) ∧
    (∃ (s : State) (w : Operands) (rot : Bool) (n : BitVec 6), (s.act (8 * 0 + 0)).asked = some (.slopen w 0 2 (some 0)) ∧
      w.a = .reg .g rot n ∧ n ≠ 0 ∧ s.bidWins 0 0 2 0 = true ∧ coreOfAddr 0 = some 0 ∧ (s.core 0).part = some (s.act (8 * 0 + 0)).part ∧
      (s.core 0).left = false ∧ (s.tile 0 2).size ≠ 0 ∧ (s.tile 0 2).state = .empty ∧ s.channelFree 0 0 = true ∧
      ((s.act (8 * 0 + 0)).oblAcquire .close (closeOf 0 2) (s.tile 0 2).rank 1).isSome = true) ∧
    (∃ (s : State) (w : Operands) (rot : Bool) (n : BitVec 6), (s.act (8 * 0 + 0)).asked = some (.slopen w 0 2 (some 0)) ∧
      w.a = .reg .g rot n ∧ n ≠ 0 ∧ s.bidWins 0 0 2 0 = true ∧ (s.tile 0 2).state ≠ .empty ∧ ∀ d, coreOfAddr 0 = some d → d = 0) ∧
    (∃ w, Issues 0x285 w false sluiced sluiced ∧ (if w.head.stream == .V then sluiced.firstDeferredV (vOf w.a) else
        sluiced.deferredIn 0x285 w [0]) = none ∧ (sluiced.me.sluice (sluiced.sluiceNum w)).isOpen = true ∧
      (sluiced.me.sluice (sluiced.sluiceNum w)).off + (if w.head.stream == .V then (bytesOfVec (sluiced.vecOf w.a)).take (4 * sluiced.vl)
        else leBytes 8 (sluiced.val w.a).toNat).length ≤ 64 * (sluiced.tile 0 2).size) ∧
    (∃ s w, Issues 0x285 w false s s ∧ w.head.stream = .S ∧ s.deferredIn 0x285 w [0] = none ∧ (s.me.sluice (s.sluiceNum w)).isOpen = true ∧
      64 * (s.tile 0 2).size < (s.me.sluice (s.sluiceNum w)).off + (leBytes 8 (s.val w.a).toNat).length) ∧
    (∃ w, Issues 0x286 w false sluiced sluiced ∧ sluiced.earlier.any (fun p => p.gv != some false && opcField p.word == 0x285) = false ∧
      (sluiced.me.sluice (sluiced.sluiceNum w)).isOpen = true ∧ (Ord_rel w.ord = true → sluiced.releaseReady w.scope = true)) ∧
    (∃ (s : State) (n : Nat), (s.act (8 * 0 + 0)).asked = some (.slclose n)) :=
  ⟨⟨{ a := S 6, c := .imm 5 }, ok rfl, rfl, by decide +kernel, rfl⟩,
   ⟨{ a := S 3, c := .imm 5 }, ok rfl, rfl, by decide +kernel⟩, ⟨{ c := .imm 5 }, ok rfl, rfl⟩,
   ⟨base.modAct 0 (fun a => { a with asked := some (.bind 5 none) }), 5, none, rfl⟩,
   ⟨{ a := G 2, b := S 3, c := .imm 1 }, ok rfl, rfl, rfl, rfl⟩,
   ⟨{ a := G 2, b := S 3, c := .imm 1 }, ok rfl, rfl, rfl⟩,
   ⟨base.modAct 0 (fun a => { a with asked := some (.slopen {} 0 2 none) }), {}, rfl⟩,
   ⟨{ (tiled .empty).modAct 0 (fun a => { a with asked := some (.slopen { a := G 2 } 0 2 (some 0)) }) with cycle := 1 }, { a := G 2 }, _, _, rfl, rfl, by decide,
     by decide +kernel, by decide +kernel, rfl, rfl, by decide +kernel, rfl, channelFree_here _ _, by decide +kernel⟩,
   ⟨{ (tiled .ready).modAct 0 (fun a => { a with asked := some (.slopen { a := G 2 } 0 2 (some 0)) }) with cycle := 1 }, { a := G 2 }, _, _, rfl, rfl, by decide,
     by decide +kernel, by decide +kernel, fun d h => by
      rw [show coreOfAddr 0 = some 0 by decide +kernel] at h; exact (Option.some.inj h).symm⟩,
   ⟨{ a := S 3, c := .imm 1 }, ok rfl, rfl, rfl, by decide +kernel⟩,
   ⟨sluiced.modMe (fun a => a.setSluice 1 { isOpen := true, core := 0, tile := 2, off := 256 }), { a := S 3, c := .imm 1 }, ok rfl, rfl, rfl, rfl,
     by decide +kernel⟩,
   ⟨{ c := .imm 1 }, ok rfl, rfl, rfl, fun _ => rfl⟩,
   ⟨base.modAct 0 (fun a => { a with asked := some (.slclose 1) }), 1, rfl⟩⟩

theorem witness_EngineCommands :
    (∃ w, Enters 0x300 w false base base ∧ Accepts 0x300 w .matrix (some (opndNum w.a)) base) ∧
    (∃ w, Enters 0x303 w false base base ∧ Accepts 0x303 w .matrix (some (opndNum w.a)) base ∧ base.guardOf w.head = some false) ∧
    (∃ w, Enters 0x301 w false base base ∧ Accepts 0x301 w .matrix (some (opndNum w.a)) base ∧
      badEntry (nth 0 (base.captures 0x301 w) 1) = none) ∧
    (∃ w f, Enters 0x301 w false base base ∧ Accepts 0x301 w .matrix (some (opndNum w.a)) base ∧ base.guardOf w.head ≠ some false ∧
      badEntry (nth 0 (base.captures 0x301 w) 1) = some f) ∧
    (∃ w, Enters 0x304 w (base.copyWaits w) base base ∧ Accepts 0x304 w .copy none base ∧ base.sourceTile w = none) ∧
    (∀ st ∈ [TileState.ready, .filling, .empty], ∃ (s : State) (w : Operands) (i : Nat), Enters 0x305 w (s.copyWaits w) s s ∧ Accepts 0x305 w .copy none s ∧
      s.guardOf w.head = some true ∧ s.sourceTile w = some i ∧ s.rankLegal s.myCore s.me none (s.tile s.myCore i).rank = true ∧
      (s.tile s.myCore i).state = st) ∧
    (∃ (s : State) (w : Operands) (i : Nat), Enters 0x305 w (s.copyWaits w) s s ∧ Accepts 0x305 w .copy none s ∧ s.sourceTile w = some i ∧
      s.rankLegal s.myCore s.me none (s.tile s.myCore i).rank = false) ∧
    (∃ w, Enters 0x306 w false base base ∧ Accepts 0x306 w .col none base) ∧
    (∃ w, Enters 0x307 w false base base ∧ Accepts 0x307 w .col none base) :=
  ⟨⟨{ head := inE, a := .reg .z false 1, b := S 3, c := S 4 }, enters rfl, by decide +kernel, rfl, fun _ => rfl, fun _ => rfl⟩,
   ⟨{ head := { stream := .E, guard := 1, neg := true }, a := .reg .z false 1 }, enters rfl, ⟨by decide +kernel, rfl, fun _ => rfl, fun _ => rfl⟩, rfl⟩,
   ⟨{ head := inE, a := .reg .z false 1, b := S 0, c := S 6 }, enters rfl, ⟨by decide +kernel, rfl, fun _ => rfl, fun _ => rfl⟩, rfl⟩,
   ⟨{ head := inE, a := .reg .z false 1, b := S 2, c := S 6 }, _, enters rfl, ⟨by decide +kernel, rfl, fun _ => rfl, fun _ => rfl⟩, by decide +kernel, rfl⟩,
   ⟨{ head := inE, a := S 6, b := S 6, c := S 7 }, enters rfl, ⟨by decide +kernel, rfl, fun _ => rfl, fun _ => rfl⟩, rfl⟩,
   by
    intro st h
    simp only [List.mem_cons, List.not_mem_nil, or_false] at h
    rcases h with rfl | rfl | rfl
    · exact ⟨(tiled .ready).wroteS 8 0x4000000000000002, { head := inE, a := S 6, b := S 8, c := S 7 }, 2, enters rfl, ⟨by decide +kernel, rfl, fun _ => rfl, fun _ => rfl⟩, rfl, rfl, rfl, rfl⟩
    · exact ⟨(tiled .filling).wroteS 8 0x4000000000000002, { head := inE, a := S 6, b := S 8, c := S 7 }, 2, enters rfl, ⟨by decide +kernel, rfl, fun _ => rfl, fun _ => rfl⟩, rfl, rfl, rfl, rfl⟩
    · exact ⟨(tiled .empty).wroteS 8 0x4000000000000002, { head := inE, a := S 6, b := S 8, c := S 7 }, 2, enters rfl, ⟨by decide +kernel, rfl, fun _ => rfl, fun _ => rfl⟩, rfl, rfl, rfl, rfl⟩,
   ⟨(signalling true 1 true).setTile 0 2 { size := 4, state := .ready, rank := 0x01000005 } |>.wroteS 9 0x4000000000000002,
     { head := inE, a := S 6, b := S 9, c := S 7 }, 2, enters rfl, ⟨by decide +kernel, rfl, fun _ => rfl, fun _ => rfl⟩, rfl, rfl⟩,
   ⟨{ head := inE, a := S 3, b := S 4, c := S 6 }, enters rfl, by decide +kernel, rfl, fun _ => rfl, fun _ => rfl⟩,
   ⟨{ head := inE, a := S 3, b := S 4, c := S 6 }, enters rfl, by decide +kernel, rfl, fun _ => rfl, fun _ => rfl⟩⟩

theorem witness_TilesAndRepetition :
    (∃ w, Issues 0x312 w false base base ∧ base.deferredIn 0x312 w [0, 2] = none ∧ (base.tile base.myCore ((base.val w.c).toNat % 16)).state = .empty ∧
      (bits (base.val w.a) 13 10).toNat = 0) ∧
    (∃ s w, Issues 0x312 w false s s ∧ s.deferredIn 0x312 w [0, 2] = none ∧ (s.tile s.myCore ((s.val w.c).toNat % 16)).state = .empty ∧
      (bits (s.val w.a) 13 10).toNat ≠ 0 ∧ (bits (s.val w.a) 23 9).toNat + (bits (s.val w.a) 13 10).toNat ≤ 512 ∧
      reservedRank (bits (s.val w.a) 32 32) = false) ∧
    (∃ w, Issues 0x313 w false base base ∧ base.deferredIn 0x313 w [2] = none) ∧
    (∃ w, Issues 0x302 w false base base ∧ base.deferredIn 0x302 w [2] = none ∧ (base.val w.c).toNat ≤ 7) ∧
    (∃ s w i, Issues 0x314 w (s.tlSerial w) s s ∧ s.deferredIn 0x314 w [2] = none ∧ s.tlArgs w = (i, 1) ∧ (s.tile s.myCore i).size ≠ 0 ∧
      (s.tile s.myCore i).state = .empty ∧ (s.me.oblAcquire .tile (tileHandle i) (s.tile s.myCore i).rank 1).isSome = true) ∧
    (∃ s w i, Issues 0x314 w (s.tlSerial w) s s ∧ s.deferredIn 0x314 w [2] = none ∧ s.tlArgs w = (i, 2) ∧ (s.tile s.myCore i).size ≠ 0 ∧
      (s.tile s.myCore i).state = .filling ∧ s.me.oblUnits .tile (tileHandle i) ≠ 0) ∧
    (∃ w i, Issues 0x314 w ((tiled .ready).tlSerial w) (tiled .ready) (tiled .ready) ∧ (tiled .ready).deferredIn 0x314 w [2] = none ∧
      (tiled .ready).tlArgs w = (i, 3) ∧ ((tiled .ready).tile (tiled .ready).myCore i).size ≠ 0 ∧
      (tiled .ready).rankLegal (tiled .ready).myCore (tiled .ready).me none ((tiled .ready).tile (tiled .ready).myCore i).rank = true ∧
      ((tiled .ready).tile (tiled .ready).myCore i).state = .ready) ∧
    (∃ w i, Issues 0x314 w ((tiled .filling).tlSerial w) (tiled .filling) (tiled .filling) ∧ (tiled .filling).deferredIn 0x314 w [2] = none ∧
      (tiled .filling).tlArgs w = (i, 0) ∧ ((tiled .filling).tile (tiled .filling).myCore i).size ≠ 0 ∧
      (tiled .filling).rankLegal (tiled .filling).myCore (tiled .filling).me none ((tiled .filling).tile (tiled .filling).myCore i).rank = true ∧
      ((tiled .filling).tile (tiled .filling).myCore i).state = .filling) ∧
    (∃ w : Operands, base.mayIssue = true ∧ base.iss = .front ∧ base.vlgetPending 0x308 w = false ∧ base.lateBusy 0x308 w = false ∧
      base.queueRoom 0x308 w = true ∧ base.guardOf w.head = some true ∧ base.unparkSources 0x308 w = base ∧ base.poisonedReg 0x308 w = none ∧
      base.deferredIn 0x308 w [2] = none) ∧
    (∃ w, Issues 0x310 w false base base ∧ base.firstDeferredV (vOf w.a) = none ∧
      base.earlier.any (fun p => p.strm == .E && p.gv != some false) = false ∧ base.accepting = false) ∧
    (∃ w, Issues 0x311 w false base base ∧ base.firstDeferredV (vOf w.b) = none ∧ base.firstDeferred (sOf 0x311 2 w.c) = none) :=
  ⟨⟨{ a := S 0, c := .imm 2 }, ok rfl, rfl, rfl, rfl⟩,
   ⟨base.wroteS 8 0x0100000500008000, { a := S 8, c := .imm 2 }, ok rfl, rfl, rfl, by decide +kernel, by decide +kernel, rfl⟩,
   ⟨{ a := S 5, c := .imm 2 }, ok rfl, rfl⟩, ⟨{ a := S 5, c := .imm 7 }, ok rfl, rfl, by decide +kernel⟩,
   ⟨tiled .empty, { c := .imm 0x12 }, 2, ok rfl, rfl, rfl, by decide +kernel, rfl, rfl⟩,
   ⟨(tiled .filling).modMe (fun a => { a with tumbler := [(0, { kind := .tile, count := 1, handle := tileHandle 2 })] }), { c := .imm 0x22 }, 2,
     ok rfl, rfl, rfl, by decide +kernel, rfl, by decide +kernel⟩,
   ⟨{ c := .imm 0x32 }, 2, ok rfl, rfl, rfl, by decide +kernel, rfl, rfl⟩,
   ⟨{ c := .imm 2 }, 2, ok rfl, rfl, rfl, by decide +kernel, rfl, rfl⟩,
   ⟨{ head := inV, c := .imm 3 }, rfl, rfl, rfl, rfl, rfl, rfl, rfl, rfl, rfl⟩,
   ⟨{ head := inV, a := V 1 }, ok rfl, rfl, rfl, rfl⟩, ⟨{ head := inV, a := V 2, b := V 1, c := .imm 1, ty := .i8 }, ok rfl, rfl, rfl⟩⟩

theorem witness_TilesAndRepetition_faults :
    (∃ w, Issues 0x312 w false (tiled .ready) (tiled .ready) ∧ (tiled .ready).deferredIn 0x312 w [0, 2] = none ∧
      ((tiled .ready).tile 0 (((tiled .ready).val w.c).toNat % 16)).state ≠ .empty) ∧
    (∃ s w, Issues 0x312 w false s s ∧ s.deferredIn 0x312 w [0, 2] = none ∧ (s.tile s.myCore ((s.val w.c).toNat % 16)).state = .empty ∧
      512 < (bits (s.val w.a) 23 9).toNat + (bits (s.val w.a) 13 10).toNat ∧ (bits (s.val w.a) 13 10).toNat ≠ 0) ∧
    (∃ w, Issues 0x302 w false base base ∧ base.deferredIn 0x302 w [2] = none ∧ 7 < (base.val w.c).toNat) ∧
    (∃ w i, Issues 0x314 w (base.tlSerial w) base base ∧ base.deferredIn 0x314 w [2] = none ∧ base.tlArgs w = (i, 2) ∧ (base.tile 0 i).size = 0) ∧
    (∃ w, Issues 0x314 w ((tiled .draining).tlSerial w) (tiled .draining) (tiled .draining) ∧ (tiled .draining).deferredIn 0x314 w [2] = none ∧
      (tiled .draining).tlArgs w = (2, 0) ∧ (tiled .draining).rankLegal 0 (tiled .draining).me none ((tiled .draining).tile 0 2).rank = true) ∧
    (∃ w, Issues 0x314 w ((tiled .empty).tlSerial w) (tiled .empty) (tiled .empty) ∧ (tiled .empty).deferredIn 0x314 w [2] = none ∧
      (tiled .empty).tlArgs w = (2, 3) ∧ (tiled .empty).rankLegal 0 (tiled .empty).me none ((tiled .empty).tile 0 2).rank = true) ∧
    (∃ s w, Issues 0x314 w (s.tlSerial w) s s ∧ s.deferredIn 0x314 w [2] = none ∧
      s.tlArgs w = (2, 3) ∧ (s.tile s.myCore 2).size ≠ 0 ∧ s.rankLegal s.myCore s.me none (s.tile s.myCore 2).rank = false) ∧
    (∃ w : Operands, base.guardOf w.head = some false ∧ base.mayIssue = true ∧ base.iss = .front ∧ base.vlgetPending 0x308 w = false ∧
      base.lateBusy 0x308 w = false ∧ base.queueRoom 0x308 w = true) :=
  ⟨⟨{ a := S 0, c := .imm 2 }, ok rfl, rfl, by decide +kernel⟩,
   ⟨base.wroteS 8 0x01000005FF804000, { a := S 8, c := .imm 2 }, ok rfl, rfl, rfl, by decide +kernel, by decide +kernel⟩,
   ⟨{ a := S 5, c := .imm 8 }, ok rfl, rfl, by decide +kernel⟩,
   ⟨{ c := .imm 0x22 }, 2, ok rfl, rfl, rfl, rfl⟩,
   ⟨{ c := .imm 2 }, ok rfl, rfl, rfl, rfl⟩, ⟨{ c := .imm 0x32 }, ok rfl, rfl, rfl, rfl⟩,
   ⟨(signalling true 1 true).setTile 0 2 { size := 4, state := .ready, rank := 0x01000005 }, { c := .imm 0x32 }, ok rfl, rfl, rfl, by decide +kernel, rfl⟩,
   ⟨{ head := { stream := .V, guard := 1, neg := true }, c := .imm 3 }, rfl, rfl, rfl, rfl, rfl, rfl⟩⟩

/-- base with a repetition of V open. -/
def repeating (r : Rpt) : State := base.modMe (fun a => { a with rpt := some r })
/-- vadd.i32 (v2), v1, v1, whose A rotates, in V. -/
def bodyAdd : IWord := 0x404040000611002040010200
/-- A V repetition at 0xF4, of which some passes are left and some words captured. -/
def open_ (left n : Nat) : Rpt := { strm := .V, pc := 0xF4, base := 1, stagger := 2, left := left, body := List.replicate n (0xF4, bodyAdd) }

theorem witness_TilesAndRepetition_body :
    (∀ left ∈ [0, 2], ∃ (r : Rpt) (i j : Instr) (t : State), (repeating r).me.rpt = some r ∧ wantedBy none (streamField bodyAdd) = true ∧
      decodeWord (r.takes bodyAdd) bodyAdd = .ok i ∧ r.takes bodyAdd = true ∧ r.body.length < 32 ∧ r.left = left ∧
      decodeWord false (rotateWord r.base bodyAdd) = .ok j ∧ exec j (repeating r) = .next t) ∧
    (∃ (r : Rpt) (i : Instr), (repeating r).me.rpt = some r ∧ decodeWord (r.takes 0xc24040006000030000180000) 0xc24040006000030000180000 = .ok i ∧
      r.takes 0xc24040006000030000180000 = true ∧ opcField 0xc24040006000030000180000 = 0x309) ∧
    (∃ r : Rpt, r.takes bodyAdd = true ∧ opcField bodyAdd ≠ 0x093 ∧ opcField bodyAdd ≠ 0x308 ∧ opcField bodyAdd ≠ 0x309 ∧ 32 ≤ r.body.length) ∧
    (∃ (r : Rpt) (i : Instr), decodeWord (r.takes 0xc20040006000030000080003) 0xc20040006000030000080003 = .ok i ∧
      opcField 0xc20040006000030000080003 = 0x308) ∧
    (∃ (r : Rpt) (x : Operands), decodeWord (r.takes 0x24c000006000030000180000) 0x24c000006000030000180000 = .ok (.endOp x)) ∧
    (∃ (r : Rpt) (i : Instr), decodeWord (r.takes 0x258000006000030000180000) 0x258000006000030000180000 = .ok i ∧
      r.takes 0x258000006000030000180000 = false ∧ opcField 0x258000006000030000180000 ≠ 0x308 ∧ opcField 0x258000006000030000180000 ≠ 0x093) ∧
    (∃ (s : State) (r : Rpt) (j : Instr) (t : State), s.me.st = .running ∧ s.me.rpt = some r ∧ r.scan = none ∧ r.closed = true ∧
      r.body[r.at_]? = some (0xF4, bodyAdd) ∧ decodeWord false (rotateWord r.base bodyAdd) = .ok j ∧
      exec j (s.modMe (fun a => { a with pc := 0xF4 })) = .next t) ∧
    (∃ r : Rpt, r.body ≠ [] ∧ 1 + 1 < r.left ∧ 1 < r.body.length) ∧
    (∃ f : BitVec 21, kindOf f = 0 ∧ rotOf f = true ∧ fileCode f = 1) :=
  ⟨fun left h => by
      simp only [List.mem_cons, List.not_mem_nil, or_false] at h
      rcases h with rfl | rfl
      · exact ⟨open_ 0 1, _, _, _, rfl, rfl, rfl, rfl, by decide, rfl, rfl, rfl⟩
      · exact ⟨open_ 2 1, _, _, _, rfl, rfl, rfl, rfl, by decide, rfl, rfl, rfl⟩,
   ⟨open_ 2 1, _, rfl, rfl, rfl, rfl⟩,
   ⟨open_ 2 32, rfl, by decide, by decide, by decide, by decide⟩, ⟨open_ 2 1, _, rfl, rfl⟩, ⟨open_ 2 1, _, rfl⟩,
   ⟨open_ 2 1, _, rfl, rfl, by decide, by decide⟩,
   ⟨repeating { open_ 2 1 with closed := true }, _, _, _, rfl, rfl, rfl, rfl, rfl, rfl, rfl⟩, ⟨open_ 3 2, by decide, by decide, by decide⟩,
   ⟨fieldA bodyAdd, by decide +kernel, by decide +kernel, by decide +kernel⟩⟩

theorem witness_BreakAndTrap :
    (∃ w, Issues 0x380 w false base base ∧ base.iss = .front ∧ w.head.stream = .S) ∧
    (∃ w, Issues 0x387 w false base base ∧ base.iss = .front ∧ w.head.stream = .S) :=
  ⟨⟨{ c := .imm 3 }, ok rfl, rfl, rfl⟩, ⟨{ c := .imm 3 }, ok rfl, rfl, rfl⟩⟩

theorem witness_SystemWordsComplete :
    (∃ w, Issues 0x381 w false base base ∧ base.flagsWait (base.ctlNum w) = false) ∧
    (∃ w, Issues 0x382 w false base base ∧ base.deferredIn 0x382 w [0] = none ∧ base.flagsWait (base.ctlNum w) = false) ∧
    (∃ w, Issues 0x385 w false base base ∧ base.deferredIn 0x385 w [2] = none) ∧
    (∃ w, Issues 0x386 w false base base ∧ base.deferredIn 0x386 w [0] = none) ∧
    (∃ w n, Issues 0x383 w false base base ∧ base.deferredIn 0x383 w [2] = none ∧ w.a = S (BitVec.ofNat 6 n) ∧ n = opndNum w.a ∧
      base.parkWaits false n = false ∧ (base.me.spillOf false n).place = .none ∧ (base.val w.c).toNat % parkBytes false = 0 ∧
      (base.val w.c).toNat < 2 ^ 15 ∧ ∀ o ∈ from_ (base.val w.c).toNat (parkBytes false), base.me.locWrite o = true) ∧
    (∃ w, Issues 0x384 w false base base) ∧
    (∃ w, Issues 0x388 w false base base ∧ base.releaseReady .mod = true ∧ base.endedDone base.myCore = true) :=
  ⟨⟨{ a := S 5, c := .imm 9 }, ok rfl, rfl⟩, ⟨{ a := S 3, c := .imm 2 }, ok rfl, rfl, rfl⟩, ⟨{ a := S 5, c := .imm 1 }, ok rfl, rfl⟩,
   ⟨{ a := S 3, c := .imm 1 }, ok rfl, rfl⟩,
   ⟨{ a := S 3, c := .imm 0 }, 3, ok rfl, rfl, rfl, rfl, rfl, rfl, by decide +kernel, by decide +kernel, by decide +kernel⟩,
   ⟨{ a := S 3 }, ok rfl⟩, ⟨{}, ok rfl, rfl, rfl⟩⟩

theorem witness_SystemWordsComplete_parked :
    let s := base.modMe (fun a => { a with spill := [(3, { place := .loc, index := 16 })] })
    ∃ w n, Issues 0x383 w false s s ∧ s.deferredIn 0x383 w [2] = none ∧ w.a = S (BitVec.ofNat 6 n) ∧ n = opndNum w.a ∧
      s.parkWaits false n = false ∧ (s.me.spillOf false n).place ≠ .none :=
  ⟨{ a := S 3, c := .imm 0 }, 3, ok rfl, rfl, rfl, rfl, rfl, by decide +kernel⟩

theorem witness_ParkedValueReturns : 0 < 3 ∧ 3 < 64 := by decide

/-! ## Witnesses: events -/


theorem witness_SlotAndStreamEvents :
    (∃ s : State, (s.act (8 * 0 + 0)).st = .running ∧ (s.act (8 * 0 + 0)).asked = none ∧ (s.act (8 * 0 + 0)).late = [] ∧
      (∃ qs, s.frontStuck (8 * 0 + 0) = some qs ∧ qs ≠ [] ∧ ∀ p ∈ (s.act (8 * 0 + 0)).streamHeads, (s.act (8 * 0 + 0)).stuckAt p ≠ []) ∧
      (s.act (8 * 0 + 0)).pend = []) ∧
    (∃ (s : State) (p : Pending), (s.act (8 * 0 + 0)).st = .running ∧ (s.act (8 * 0 + 0)).asked = none ∧ (s.act (8 * 0 + 0)).late = [] ∧
      (∃ qs, s.frontStuck (8 * 0 + 0) = some qs ∧ qs ≠ [] ∧ ∀ p ∈ (s.act (8 * 0 + 0)).streamHeads, (s.act (8 * 0 + 0)).stuckAt p ≠ []) ∧
      (s.act (8 * 0 + 0)).pend = [p]) ∧
    (∃ s : State, (s.act (8 * 0 + 1)).st = .starting) ∧
    (∃ (s : State) (port : Stream) (c : Nat), (s.act (8 * 0 + 0)).cls ≠ .system ∧ tget none 0 (s.port 0 port).ready = some c ∧
      c + 256 ≤ s.cycle ∧ port ∉ (s.act (8 * 0 + 0)).promoted) :=
  ⟨⟨(State.reset.withFetchWord 96 0x800000002982a000000800).modAct 0 (fun a => { a with pc := 0 }), rfl, rfl, rfl, by
      refine ⟨_, rfl, ?_, ?_⟩ <;> decide +kernel, rfl⟩,
   ⟨(State.reset.withFetchWord 96 0x800000002982a000000800).modAct 0 (fun a => { a with
      pc := 0, pend := [{ strm := .E, pc := 0, word := 0x048080005401830000150200, gv := some true }] }), _, rfl, rfl, rfl, by
      refine ⟨_, rfl, ?_, ?_⟩ <;> decide +kernel, rfl⟩,
   ⟨base.modAct 1 (fun a => { a with st := .starting }), rfl⟩,
   ⟨{ base.modPort 0 .V (fun p => { p with ready := [(0, some 0)] }) with cycle := 300 }, .V, 0, by decide +kernel, by decide +kernel, by decide +kernel,
     by decide +kernel⟩⟩

/-- A message for core 0 that names its entry, and one that names type 5, which is unbound. -/
def plainMsg : Msg := { dest := 0, src := 0, entry := 0x100 }
/-- A message by type. -/
def typedMsg : Msg := { dest := 0, src := 0, byType := true, type := 5 }
/-- base dispatching, with messages in core 0's input buffer. -/
def receiving (l : List Msg) : State :=
  (base.modPart 0 (fun p => { p with dispatch := true })).modCore 0 (fun c => { c with inQ := l })

theorem witness_DispatchEvents :
    (∃ (s u : State), ∃ at_ m, (s.core 0).left = false ∧ s.mayStart 0 = true ∧ u = s.readLog 0 ∧
      u.systemNext 0 = some (at_, m) ∧ m.vn = .system ∧ u.entryFor m ≠ none ∧ u.slotFor 0 .system m.logKey ≠ none) ∧
    (∃ (s u : State), ∃ at_ m, (s.core 0).left = false ∧ s.mayStart 0 = true ∧ u = s.readLog 0 ∧
      u.systemNext 0 = some (at_, m) ∧ m.vn = .system ∧ u.entryFor m ≠ none ∧ u.slotFor 0 .system m.logKey = none) ∧
    (∃ (s : State), ∃ at_ m, (s.core 0).left = false ∧ s.mayStart 0 = true ∧
      (s.readLog 0).systemNext 0 = none ∧ (s.readLog 0).restoreFirst 0 = false ∧
      (s.readLog 0).candidate 0 = some (at_, m) ∧ m.isSpawn = false ∧ m = plainMsg) ∧
    (∃ (s : State), ∃ at_ m, (s.core 0).left = false ∧ s.mayStart 0 = true ∧
      (s.readLog 0).systemNext 0 = none ∧ (s.readLog 0).restoreFirst 0 = false ∧
      (s.readLog 0).candidate 0 = some (at_, m) ∧ m.isSpawn = false ∧ m = typedMsg ∧ s.entryFor m = none) ∧
    (∃ (s : State), ∃ m r, (s.core 0).left = true ∧ (s.core 0).inQ = m :: r) ∧
    (∃ (s : State), ∃ b r, (s.core 0).left = true ∧ (s.core 0).inQ = [] ∧ (s.core 0).bindWait = b :: r) ∧
    (∃ (s : State), ∃ b i, (s.core 0).covered = false ∧ (s.core 0).rmode ≠ .replay ∧
      (s.core 0).bindWait.zipIdx.find? (fun x => decide ((s.part x.1.msg.part).bindWait ≤ s.cycle - x.1.since) &&
        (s.entryFor x.1.msg).isNone) = some (b, i)) ∧
    (∃ (s : State), ∃ m code detail r i, (s.core 0).deadWait = (m, code, detail) :: r ∧ (s.part m.part).deadFree = some i) ∧
    (∃ (s : State) (m : Msg), tget none 3 (s.part 0).deadRecs = some m) ∧
    (∃ (s u : State), ∃ w0 w1 i, u = s.readLog 0 ∧ (u.core 0).rmode = .replay ∧ u.logNext 0 = some (i, w0, w1) ∧
      (u.core 0).lastDisp + 2 ^ 24 ≤ u.cycle ∧ (u.core 0).covered = false ∧ (∀ x ∈ u.waitingKeys 0, u.logged 0 x = none) ∧
      u.waitingKeys 0 ≠ []) :=
  ⟨⟨receiving [{ plainMsg with vn := .system }], _, _, _, rfl, rfl, rfl, rfl, rfl, by decide +kernel, by decide +kernel⟩,
   ⟨(receiving [{ plainMsg with vn := .system }]).modAct 7 (fun a => { a with st := .running }), _, _, _, rfl, rfl, rfl, rfl, rfl, by decide +kernel,
     by decide +kernel⟩,
   ⟨receiving [plainMsg], _, _, rfl, rfl, rfl, rfl, rfl, rfl, rfl⟩,
   ⟨receiving [typedMsg], .buf 0, typedMsg, by decide +kernel, by decide +kernel, by decide +kernel, by decide +kernel, by decide +kernel, rfl, rfl,
     by decide +kernel⟩,
   ⟨(receiving [plainMsg]).modCore 0 (fun c => { c with left := true }), _, _, rfl, rfl⟩,
   ⟨base.modCore 0 (fun c => { c with left := true, bindWait := [{ msg := typedMsg, since := 0 }] }), _, _, rfl, rfl, rfl⟩,
   ⟨{ base.modCore 0 (fun c => { c with bindWait := [{ msg := typedMsg, since := 0 }] }) with cycle := 5000 }, { msg := typedMsg, since := 0 }, 0, rfl,
     by decide +kernel, by decide +kernel⟩,
   ⟨(base.modPart 0 (fun p => { p with deadSize := 4 })).modCore 0 (fun c => { c with deadWait := [(plainMsg, 0, 0)] }), _, _, _, _, 0, rfl, rfl⟩,
   ⟨base.modPart 0 (fun p => { p with deadRecs := [(3, some plainMsg)] }), _, rfl⟩,
   ⟨{ ((receiving [{ plainMsg with seq := 5 }]).modCore 0 (fun c => { c with rmode := .replay })).modPart 0 (fun p =>
       { p with logs := [(0, (0, 0, 1))] }) with cycle := 2 ^ 24 }, _, _, _, _, rfl, by decide +kernel, rfl,
     by decide +kernel, by decide +kernel, by decide +kernel, by decide +kernel⟩⟩

/-- A spawn request of slot 9 for core 0. -/
def request : Msg := { dest := 0, src := 0, entry := 0x100, kind := .spawnReq 9 none .handler 1 }

theorem witness_SpawnAndEventDispatch :
    (∃ s u : State, u = s.readLog 0 ∧ (u.core 0).rmode ≠ .replay ∧ (u.core 0).inQ[0]? = some request ∧
      (∀ x ∈ (u.core 0).inQ.take 0, x.isSpawn = false) ∧ (u.core 0).left = true) ∧
    (∃ s u : State, u = s.readLog 0 ∧ (u.core 0).rmode ≠ .replay ∧ (u.core 0).inQ[0]? = some request ∧
      (∀ x ∈ (u.core 0).inQ.take 0, x.isSpawn = false) ∧ (u.core 0).departing = none ∧ u.freeSlotFor 0 .handler = none) ∧
    (∃ s u : State, u = s.readLog 0 ∧ (u.core 0).rmode ≠ .replay ∧ (u.core 0).inQ[0]? = some request ∧
      (∀ x ∈ (u.core 0).inQ.take 0, x.isSpawn = false) ∧ (u.core 0).left = false ∧ (u.core 0).departing ≠ none) ∧
    (∃ (s u : State), ∃ k, u = s.readLog 0 ∧ (u.core 0).rmode ≠ .replay ∧ (u.core 0).inQ[0]? = some request ∧
      (∀ x ∈ (u.core 0).inQ.take 0, x.isSpawn = false) ∧
      u.mayStart 0 = true ∧ u.freeSlotFor 0 .handler = some k ∧ (∀ x, u.candidate 0 = some x → x.2 = request) ∧ u.restoreFirst 0 = false) ∧
    (∃ (s : State), ∃ u, s.ltCore 0 = true ∧ u = ((s.readLog 0).freeTimers 0).demandHeld 0 ∧ u.eventRuns 0 = false ∧
      ∃ t k framed, u.eventTimer 0 = some (t, k, framed) ∧ u.headDue 0 = false) ∧
    (∃ (s : State), ∃ u, s.ltCore 0 = true ∧ u = ((s.readLog 0).freeTimers 0).demandHeld 0 ∧ u.eventRuns 0 = false ∧
      ∃ m i e k, u.headDue 0 = true ∧ u.eventTimer 0 = none ∧ u.mayStart 0 = true ∧ u.restoreFirst 0 = false ∧ u.head 0 = some (m, i) ∧
        u.replayAllows 0 m.logKey 1 = true ∧ m.vn ≠ .system ∧ u.entryFor m = some e ∧ u.slotFor 0 .handler m.logKey = some k) :=
  ⟨⟨(receiving [request]).modCore 0 (fun c => { c with left := true }), _, rfl, by decide +kernel, rfl, by decide +kernel, rfl⟩,
   ⟨(upTo 8).foldl (fun s k => s.modAct k (fun a => { a with st := .running })) (receiving [request]), _, rfl, by decide +kernel, rfl, by decide +kernel,
     rfl, by decide +kernel⟩,
   ⟨(receiving [request]).modCore 0 (fun c => { c with departing := some 0 }), _, rfl, by decide +kernel, rfl, by decide +kernel, rfl, by decide +kernel⟩,
   ⟨receiving [request], _, _, rfl, by decide +kernel, rfl, by decide +kernel, rfl, rfl, fun x h => by
      have e : ((receiving [request]).readLog 0).candidate 0 = some (.buf 0, request) := rfl
      rw [e] at h; cases h; rfl, rfl⟩,
   ⟨timed.modAct 0 (fun a => { a with event := true, st := .waiting, wait := some { on := .time 0 } }), _, rfl, rfl, rfl,
     _, _, _, rfl, rfl⟩,
   ⟨(receiving [plainMsg]).modPart 0 (fun p => { p with lt := true }), _, rfl, rfl, rfl, plainMsg, 0, 0x100, 1, by decide +kernel, by decide +kernel,
     by decide +kernel, by decide +kernel, by decide +kernel, by decide +kernel, by decide, by decide +kernel, by decide +kernel⟩⟩

/-- Core 0 in replay of a log whose first record is the request's, of a kind. -/
def replaying (kind : Nat) : State :=
  { ((receiving [request]).modCore 0 (fun c => { c with rmode := .replay })).modPart 0 (fun p => { p with logs := [(0, (0x4000, 0, 1))] }) with
    glb := mwrite 0x24000 (bytesOf [wordOf [(60, kind), (57, 1), (55, 2)], request.ident]) base.glb }
/-- A local-time core with a due message and no free slot. -/
def busy : State := ((upTo 8).foldl (fun s k => s.modAct k (fun a => { a with st := .running })) (receiving [plainMsg])).modPart 0
  (fun p => { p with lt := true })

theorem witness_SpawnAndEventDispatch_more :
    (∃ s u : State, u = s.readLog 0 ∧ (u.core 0).rmode = .replay ∧ (u.core 0).inQ[0]? = some request ∧ (u.logged 0 request.logKey).isSome = true ∧
      u.replayAllows 0 request.logKey 2 = true) ∧
    (∃ s u : State, u = s.readLog 0 ∧ (u.core 0).rmode = .replay ∧ (u.core 0).inQ[0]? = some request ∧ (u.logged 0 request.logKey).isSome = true ∧
      u.replayAllows 0 request.logKey 2 = false ∧ (u.core 0).left = false ∧ (u.core 0).departing = none ∧
      u.slotFor 0 .handler request.logKey ≠ none ∧ u.mayStart 0 = true ∧ u.restoreFirst 0 = false) ∧
    (∃ (s : State), ∃ u m i, s.ltCore 0 = true ∧ u = ((s.readLog 0).freeTimers 0).demandHeld 0 ∧ u.eventRuns 0 = false ∧ u.headDue 0 = true ∧
      u.eventTimer 0 = none ∧ u.mayStart 0 = true ∧ u.restoreFirst 0 = false ∧ u.head 0 = some (m, i) ∧ u.replayAllows 0 m.logKey 1 = true ∧
      u.slotFor 0 .handler m.logKey = none ∧ ∀ k ∈ classSlots 0 .handler, (u.act k).st ≠ .free) := by
  refine ⟨⟨replaying 2, _, rfl, by decide +kernel, by decide +kernel, by decide +kernel, by decide +kernel⟩,
    ⟨replaying 1, _, rfl, by decide +kernel, by decide +kernel, by decide +kernel, by decide +kernel, by decide +kernel, by decide +kernel,
      by decide +kernel, by decide +kernel, by decide +kernel⟩,
    ⟨busy, _, plainMsg, 0, rfl, rfl, rfl, by decide +kernel, by decide +kernel, by decide +kernel, by decide +kernel, by decide +kernel,
      by decide +kernel, by decide +kernel, by decide +kernel⟩⟩

/-! ## Witnesses: stages, the fabric, the owners -/

/-- base dispatching, with one stage that reads edge 0, which holds a token, on core 0. -/
def staged : State := base.modPart 0 (fun p => { p with
  dispatch := true, edges := [{ decl := {}, tokens := [(5, 0)] }], stages := [{ decl := { ins := [(0, 1)] }, cores := [0] }] })
/-- base with two stages, of which stage 0 reads a full edge and stage 1 an empty one and has cores 1 and 2. -/
def unbalanced : State := { base.modPart 0 (fun p => { p with
  edges := [{ decl := {}, tokens := [(5, 0), (6, 0)] }, { decl := {} }]
  stages := [{ decl := { ins := [(0, 1)], hi := 2 }, cores := [0] }, { decl := { ins := [(1, 1)], count := 2, hi := 2 }, cores := [1, 2] }] }) with
  cycle := 4096 }

/-- An image of one stage, one group of two cores with its list at 0x8000, and a patched stage limit, for cluster 0; its page table is
the one that is there for a word to fetch. -/
def oneStage : Image :=
  { clusters := [0], code := [0], stages := [{}], root := tget 0 0 (State.reset.withFetchWord 96 0).roots, bytes := [(0x28004, 1)],
    groups := [{ id := 1, ranges := [(0, 1)], entry := [0x02000000, 0x8000, 2, 1] }], params := [(0, 2)],
    patches := [{ target := .stageMax 0, expr := .par 0 }] }
/-- The machine that launches it: partition 0 has ended. -/
def launching : State := (State.reset.withFetchWord 96 0).modPart 0 (fun p => { p with ended := true })

theorem witness_StageAndLaunchEvents :
    (∃ (s u : State) (c k : Nat) (g : Stage), (s.part 0).stages[0]? = some g ∧ (s.part 0).live = true ∧ (g.decl.ins = [] → (s.part 0).closed = false) ∧
      (s.part 0).queuesReady g = true ∧ u = g.cores.foldl (fun s c => s.readLog c) s ∧
      u.firingCore (g.cores.filter (fun c => u.firingOn c (firingKey 0 g.next) &&
        !(g.decl.ins.isEmpty && (s.part 0).lt && g.fired.contains c))) = some c ∧ u.slotFor c .firing (firingKey 0 g.next) = some k) ∧
    (∃ (s u : State) (r d c : Nat), (s.part 0).live = true ∧ (s.part 0).lastRebal + 4096 ≤ s.cycle ∧
      (∀ x ∈ (s.part 0).stages.flatMap (·.cores), (s.core x).covered = false) ∧ u = s.modPart 0 (fun p => { p with lastRebal := s.cycle }) ∧
      u.recipient 0 = some r ∧ u.donor 0 r = some d ∧ u.moveCore 0 d = some c) ∧
    ((launching.part 0).live = true ∧ (launching.part 0).ended = true) ∧ (launching.part 0).granted oneStage.clusters = [0] ∧
    oneStage.need ≤ 1 ∧ launching.grantable 0 0 = true ∧ (∀ k ∈ oneStage.keys, 1 ≤ k.2 ∧ k.2 < 64 ∧ k.2 ∈ oneStage.granted) ∧
    Image_grantsHold oneStage ((coresOfCluster 0).map dieOf) = true ∧
    (∃ (im : Image) (gs : List (Nat × Group)) (st : List Stage), applyPatches oneStage = .ok im ∧ quantumOf oneStage = .ok 16 ∧
      (∀ w ∈ im.code, experimental w = false) ∧
      (∀ e ∈ im.stages.map (·.entry) ++ im.handlers.map (·.2) ++ im.entries, (launching.mapImage im).badEntryAt im.asid.toNat e = none) ∧
      (launching.mapImage im).groupsOf im.asid.toNat (coresOfCluster 0) im.groups [] = .ok gs ∧ gs ≠ [] ∧
      placeAll (coresOfCluster 0) im.stages = some st ∧ placeLinks st 0 im.links = .ok [] ∧ linksFault [] 0 [] = none) ∧
    (∃ (s : State) (e : LaunchFailure), s.checkLaunch oneStage = .error e) ∧
    (∃ s : State, (s.part 0).live = true ∧ (s.part 0).ended = false ∧ (s.part 0).closed = true ∧ s.launchOver 0 = true) ∧
    (∃ (s : State) (new : List Nat), (s.part 0).live = true ∧ new = ([0, 1].filter (fun c => !(s.part 0).clusters.contains c)).dedup ∧ new ≠ [] ∧
      (∀ c ∈ new, s.grantable 0 c = true) ∧
      ∀ c ∈ new.flatMap coresOfCluster, ∀ x ∈ (s.part 0).shmInit, x.1 < (s.part 0).shmSize (dieOf c)) ∧
    (∃ (s : State) (new : List Nat), (s.part 0).live = true ∧ new = ([1].filter (fun c => !(s.part 0).clusters.contains c)).dedup ∧
      ∃ c ∈ new, s.grantable 0 c = false) ∧
    (∃ (s : State) (t : Nat), (s.core 0).departing = some t ∧ t + 2 ^ 20 ≤ s.cycle ∧ (s.core 0).left = false) :=
  ⟨⟨staged, _, 0, 1, _, rfl, rfl, fun _ => rfl, by decide +kernel, rfl, by decide +kernel, by decide +kernel⟩,
   ⟨unbalanced, _, 0, 1, 1, rfl, by decide +kernel, by decide +kernel, rfl, by decide +kernel, by decide +kernel, by decide +kernel⟩,
   ⟨rfl, rfl⟩, by decide +kernel, by decide +kernel, by decide +kernel, by decide +kernel, by decide +kernel,
   ⟨{ oneStage with stages := [{ hi := 2 }] }, [(1, { valid := true, members := [0, 1], rank := 0x02000000, listAt := 0x8000 })],
     [{ decl := { hi := 2 }, cores := [0] }], by decide +kernel, by decide +kernel, List.forall_mem_singleton.mpr (by decide +kernel),
     List.forall_mem_singleton.mpr (by decide +kernel), by decide +kernel, by decide, by decide +kernel, by decide +kernel, by decide +kernel⟩,
   ⟨base, .notEnded, by decide +kernel⟩,
   ⟨State.reset.modPart 0 (fun p => { p with live := true, ended := false, closed := true }), rfl, rfl, rfl, by decide +kernel⟩,
   ⟨base, [0, 1], rfl, by decide +kernel, by decide +kernel, by decide +kernel, by decide +kernel⟩,
   ⟨(base.modCore 64 (fun c => { c with part := some 1 })).modPart 1 (fun p => { p with live := true }), [1], rfl, by decide +kernel, 1, by decide +kernel, by decide +kernel⟩,
   ⟨{ base.modCore 0 (fun c => { c with departing := some 0 }) with cycle := 2 ^ 20 }, 0, rfl, by decide +kernel, rfl⟩⟩

/-- A message on its way from die 0 to a core of die 1, with no credit yet. -/
def far1 : Msg := { plainMsg with numbered := true, dest := coreAddr coresPerDie, here := 0 }

/-- Nothing holds the first message up. -/
theorem heldUp_first (s : State) (m : Msg) : s.heldUp 0 m = false := by
  have h (l : List (Nat × Nat)) : l.any ([] : List (Nat × Nat)).contains = false := by simp
  simp only [State.heldUp, stoppedLinks, List.take_zero, List.filter_nil, List.flatMap_nil, List.append_nil, h, ite_self, Bool.and_false]

theorem witness_FabricEvents :
    (∃ (s : State) (m : Msg), s.msgs[0]? = some m ∧ (∀ x ∈ s.msgs.take 0, s.blocks x m = false) ∧ s.heldUp 0 m = false ∧ m.numbered = false) ∧
    (∃ (s : State) (m : Msg), s.msgs[0]? = some m ∧ (∀ x ∈ s.msgs.take 0, s.blocks x m = false) ∧ s.heldUp 0 m = false ∧ m.numbered = true ∧ m.credit = true) ∧
    (∃ (s : State) (m : Msg), s.msgs[0]? = some m ∧ (∀ x ∈ s.msgs.take 0, s.blocks x m = false) ∧ s.heldUp 0 m = false ∧ m.numbered = true ∧ m.credit = false ∧
      m.here ≠ m.goal ∧ s.inUse m.here m.goal m.vn < 32 ∧ s.auditing m.here m.goal = false) ∧
    (∃ (s : State) (m : Msg), s.msgs[0]? = some m ∧ (∀ x ∈ s.msgs.take 0, s.blocks x m = false) ∧ s.heldUp 0 m = false ∧ m.numbered = true ∧ m.credit = false ∧
      m.here ≠ m.goal ∧ 32 ≤ s.inUse m.here m.goal m.vn) ∧
    (∃ (s : State) (m : Msg) (x : Nat × Nat), s.msgs[0]? = some m ∧ (∀ x ∈ s.msgs.take 0, s.blocks x m = false) ∧ s.heldUp 0 m = false ∧ m.numbered = true ∧
      m.credit = false ∧ m.here = m.goal ∧ m.spread = false ∧ m.at_ = some x) ∧
    (∃ (s : State) (m : Msg) (c : Nat), s.msgs[0]? = some m ∧ (∀ x ∈ s.msgs.take 0, s.blocks x m = false) ∧ s.heldUp 0 m = false ∧ m.numbered = true ∧ m.credit = false ∧
      m.here = m.goal ∧ m.at_ = none ∧ m.doomed = false ∧ s.destCore m = some c ∧ ((s.core c).inQ.filter (fun x => x.vn == m.vn)).length < 32) ∧
    (∃ (s : State) (m : Msg) (c : Nat), s.msgs[0]? = some m ∧ (∀ x ∈ s.msgs.take 0, s.blocks x m = false) ∧ s.heldUp 0 m = false ∧ m.numbered = true ∧ m.credit = false ∧
      m.here = m.goal ∧ m.at_ = none ∧ m.doomed = false ∧ s.destCore m = some c ∧ 32 ≤ ((s.core c).inQ.filter (fun x => x.vn == m.vn)).length) ∧
    (∃ (s : State) (m : Msg), s.msgs[0]? = some m ∧ (∀ x ∈ s.msgs.take 0, s.blocks x m = false) ∧ s.heldUp 0 m = false ∧ m.numbered = true ∧ m.credit = false ∧
      m.here = m.goal ∧ m.at_ = none ∧ m.doomed = false ∧ s.destCore m = none) ∧
    (∃ (s : State) (opc : Nat) (w : Operands), (s.act (8 * 0 + 0)).st = .waiting ∧ (s.act (8 * 0 + 0)).asked = some (.room opc w) ∧
      2 ≤ s.sendRoom 0 .request) :=
  ⟨⟨{ base with msgs := [{ plainMsg with queued := true }] }, _, rfl, by decide +kernel, heldUp_first _ _, rfl⟩,
   ⟨{ base with msgs := [{ plainMsg with numbered := true, credit := true }] }, _, rfl, by decide +kernel, heldUp_first _ _, rfl, rfl⟩,
   ⟨{ base with msgs := [far1] }, far1, rfl, by decide +kernel, heldUp_first _ _, rfl, rfl, by decide +kernel, by decide +kernel, by decide +kernel⟩,
   ⟨{ base.modDie 0 (fun x => { x with credits := [(creditKey 1 .request, 32)] }) with msgs := [far1] }, far1, rfl, by decide +kernel, heldUp_first _ _, rfl, rfl,
     by decide +kernel, by decide +kernel⟩,
   ⟨{ base with msgs := [{ plainMsg with numbered := true, mcast := true, at_ := some (0, 0) }] }, _, _, rfl, by decide +kernel, heldUp_first _ _, rfl, rfl, rfl, rfl, rfl⟩,
   ⟨{ base with msgs := [{ plainMsg with numbered := true }] }, { plainMsg with numbered := true }, 0, rfl, by decide +kernel, heldUp_first _ _, rfl, rfl, rfl, rfl, rfl,
     by decide +kernel, by decide +kernel⟩,
   ⟨{ receiving (List.replicate 32 plainMsg) with msgs := [{ plainMsg with numbered := true }] }, { plainMsg with numbered := true }, 0, rfl,
     by decide +kernel, heldUp_first _ _, rfl, rfl, rfl, rfl, rfl, by decide +kernel, by decide +kernel⟩,
   ⟨{ base with msgs := [{ plainMsg with numbered := true, dest := 1 }] }, _, rfl, by decide +kernel, heldUp_first _ _, rfl, rfl, rfl, rfl, rfl, rfl⟩,
   ⟨base.modAct 0 (fun a => { a with st := .waiting, asked := some (.room 0x282 {}) }), _, _, rfl, rfl, by decide +kernel⟩⟩

theorem witness_FabricEvents_audit :
    (∃ s u : State, (u = if (s.die 0).audit = none ∧ tget 0 (creditKey 1 .request) (s.die 0).audited + 65536 ≤ s.cycle
        then s.modDie 0 (fun x => { x with audit := some (creditKey 1 .request), audited := tset 0 (creditKey 1 .request) s.cycle x.audited }) else s) ∧
      (u.die 0).audit = some (creditKey 1 .request) ∧ u.onTheWay 0 1 .request = 0 ∧ u.owedTo 1 0 .request = 0 ∧ u.inUse 0 1 .request ≠ 0) ∧
    (base.die 0).audit ≠ some (creditKey 1 .request) ∧
    (∃ s : State, tget 0 3 (s.die 0).lastFlit + 64 ≤ s.cycle ∧ (∀ m ∈ s.msgs, m.atRouter 0 3 = false) ∧ s.sluiceAt 0 3 = false) ∧
    base.cycle < tget 0 3 (base.die 0).lastFlit + 64 :=
  ⟨⟨{ base.modDie 0 (fun x => { x with credits := [(creditKey 1 .request, 3)] }) with cycle := 65536 }, _, rfl, by decide +kernel, by decide +kernel,
      by decide +kernel, by decide +kernel⟩, by decide +kernel,
   ⟨{ State.reset with cycle := 64 }, by decide +kernel, by decide +kernel, by decide +kernel⟩, by decide +kernel⟩

/-- base with an entry in slot 0's outbox. -/
def draining (e : OutEntry) : State := base.modAct 0 (fun a => { a with outbox := [e] })
/-- An outbox entry that writes GLB 0x20040, through page 0. -/
def glbWrite : OutEntry := { kind := .write [(0x20040, 5)], page := pageKey 0 0 }
/-- A write to GLB address 0x20040 in flight to die 1 from die 0. -/
def inFlight : Flight := { wid := 1, src := 0, clock := [1], cells := [(0x20040, 5, 0)], dies := [1] }

theorem witness_OwnerOrder :
    (∃ (s : State) (e : OutEntry) (cells : List (Nat × Byte)), (s.act (8 * 0 + 0)).outbox[0]? = some e ∧ e.drained = false ∧ e.dupWait = false ∧
      outBlocked (s.act (8 * 0 + 0)).outbox 0 = false ∧ e.shm = true ∧ e.kind = .write cells) ∧
    (∃ s v u : State, AtOwner s 0 (8 * 0 + 0) 0 glbWrite v ∧ v.lineReady (dieOf (coreOf (8 * 0 + 0))) (drainKey 0) 0x20040 false = (true, u)) ∧
    (∃ s v : State, AtOwner s 0 (8 * 0 + 0) 0 { glbWrite with dup := true } v ∧ v.copiesOut (v.homeOf glbWrite.page) = true) ∧
    (∃ s v : State, AtOwner s 0 (8 * 0 + 0) 0 { glbWrite with dup := true } v ∧ v.copiesOut (v.homeOf glbWrite.page) = false) ∧
    (∃ s v : State, AtOwner s 0 (8 * 0 + 0) 0 { glbWrite with kind := .red 0x20040 .i64 1 false } v) ∧
    (∃ (s : State) (w : Flight), s.mayApply 1 0 = true ∧ s.flight[0]? = some w ∧
      (∀ j f, s.flight[j]? = some f → j ≠ 0 → 1 ∈ f.dies → ∀ c ∈ f.cells, c.1 ≠ 0x20040)) ∧
    (∃ (s u : State) (e : OutEntry) (x : Word), (s.act (8 * 0 + 0)).outbox[0]? = some e ∧ e.kind = .red 0x20040 .i64 x false ∧ e.drained = true ∧
      s.redReady (dieOf 0) e = (true, u)) ∧
    (∃ (s u : State) (e : OutEntry), (s.act (8 * 0 + 0)).outbox[0]? = some e ∧ e.kind = .amo 0x20040 .i64 none 1 0 3 false ∧ e.drained = true ∧
      s.redReady (dieOf 0) e = (true, u) ∧ u.poisonAt glbGranule 0x20040 8 = false) ∧
    (∃ (s u : State) (o : HomeOp), s.homeOps[0]? = some o ∧ s.homeOpReady o = (true, u) ∧ (u.block o.home).live = true ∧ (u.block o.home).bad = false) ∧
    (∃ (s u : State) (o : HomeOp), s.homeOps[0]? = some o ∧ s.homeOpReady o = (true, u) ∧ (u.block o.home).live = false) ∧
    (∃ e : WeirEntry, e.valid = true ∧ base.weirLegal 3 e = true) ∧ base.entryMoving 0x10000 = false :=
  ⟨⟨draining { kind := .write [(0x108, 5)], shm := true }, _, _, rfl, rfl, rfl, by decide +kernel, rfl, rfl⟩,
   ⟨draining glbWrite, _, _, ⟨rfl, ⟨rfl, rfl, rfl⟩, by decide +kernel, .inl rfl, fun h => absurd h (by decide), fun h => absurd h (by decide)⟩, rfl⟩,
   ⟨{ draining { glbWrite with dup := true } with copies := [(pageKey 0 0, 2)] }, { draining { glbWrite with dup := true } with copies := [(pageKey 0 0, 2)] },
     ⟨rfl, ⟨rfl, rfl, rfl⟩, by decide +kernel, .inl rfl, fun _ => by decide +kernel, fun h => absurd h (by decide)⟩, by decide +kernel⟩,
   ⟨draining { glbWrite with dup := true }, draining { glbWrite with dup := true },
     ⟨rfl, ⟨rfl, rfl, rfl⟩, by decide +kernel, .inl rfl, fun _ => by decide +kernel, fun h => absurd h (by decide)⟩, by decide +kernel⟩,
   ⟨draining { glbWrite with kind := .red 0x20040 .i64 1 false }, _, ⟨rfl, ⟨rfl, rfl, rfl⟩, by decide +kernel, .inl rfl, fun h => absurd h (by decide),
     fun h => absurd h (by decide)⟩⟩,
   ⟨{ base with flight := [inFlight] }, _, by decide +kernel, rfl, fun j f h n => by
      cases j with
      | zero => exact absurd rfl n
      | succ j => exact absurd h (by simp)⟩,
   ⟨draining { glbWrite with kind := .red 0x20040 .i64 1 false, drained := true }, _, _, _, rfl, rfl, rfl, rfl⟩,
   ⟨draining { glbWrite with kind := .amo 0x20040 .i64 none 1 0 3 false, drained := true }, _, _, rfl, rfl, rfl, rfl, by decide +kernel⟩,
   ⟨{ signalling true 1 true with homeOps := [{ home := 2 ^ 48 + 0x100, add := 1 }] }, _, _, rfl, rfl, by decide +kernel, by decide +kernel⟩,
   ⟨{ signalling false 0 false with homeOps := [{ home := 2 ^ 48 + 0x100, add := 1 }] }, _, _, rfl, rfl, by decide +kernel⟩,
   ⟨{ valid := true, base := 0, length := 64, ty := .f32 }, rfl, by decide +kernel⟩, by decide +kernel⟩

/-- base with one ownership message. -/
def asked (m : OMsg) : State := { base with omsgs := [m] }

theorem witness_OwnerSearchEvents :
    (∃ (s : State) (r : OReq), s.omsgs[0]? = some (.request r) ∧ s.owns r.at_ r.who.page = false ∧
      tget none r.who.page (s.die r.at_).stubs = none ∧ s.beginning r.at_ r.who.page = false) ∧
    (∀ n ∈ [0, 2, 3], ∃ (s : State) (r : OReq) (st : Stub), s.omsgs[0]? = some (.request r) ∧ r.count = n ∧
      tget none r.who.page (s.die r.at_).stubs = some st ∧ ∀ q, OMsg.request q ∈ s.omsgs.take 0 → q.at_ = r.at_ → q.who.page ≠ r.who.page) ∧
    (asked (.query 1 5)).omsgs[0]? = some (.query 1 5) ∧ (asked (.reply 1 5 0 false)).omsgs[0]? = some (.reply 1 5 0 false) ∧
    (asked (.redirect 1 5 2)).omsgs[0]? = some (.redirect 1 5 2) ∧
    (∀ k ∈ [3, drainKey 3], ∃ s : State, s.omsgs[0]? = some (.chainLimit { who := { die := 1, page := 5, key := k } })) ∧
    (∃ s : State, s.omsgs[0]? = some (.notOwner { who := { die := 1, page := 5, key := 3 } })) :=
  ⟨⟨asked (.request { who := { die := 1, page := 5, key := 3 }, at_ := 2 }), _, rfl, by decide +kernel, rfl, by decide +kernel⟩,
   fun n _ => ⟨(asked (.request { who := { die := 1, page := 5, key := 3 }, at_ := 2, count := n })).modDie 2
     (fun x => { x with stubs := [(5, some { target := 3 })] }), _, _, rfl, rfl, rfl, fun _ h => (by cases h)⟩, rfl, rfl, rfl,
   fun k _ => ⟨asked (.chainLimit { who := { die := 1, page := 5, key := k } }), rfl⟩,
   ⟨asked (.notOwner { who := { die := 1, page := 5, key := 3 } }), rfl⟩⟩

/-- base with page 5 on its way from die 0 to die 1, its lines from `next` on still to send. -/
def migrating (next : Nat) (awaited : List Nat) : State :=
  (base.modDie 0 (fun x => { x with outgoing := [(5, some { new := 1, quiet := true, next := next })] })).modDie 1
    (fun x => { x with incoming := [(5, some { source := 0, awaited := awaited })] })

theorem witness_MigrationEvents :
    (asked (.begin_ 5 0 1 0x50000 0x60000 false 0)).omsgs[0]? = some (.begin_ 5 0 1 0x50000 0x60000 false 0) ∧
    (∃ (s : State) (g : Outgoing), tget none 5 (s.die 0).outgoing = some g ∧ g.quiet = false) ∧
    (∃ (s : State) (g : Outgoing) (j : Nat), tget none 5 (s.die 0).outgoing = some g ∧ g.quiet = true ∧
      (s.awaitedAt g.new 5).find? (fun n => !s.lineSent 5 g.new g.next n) = some j) ∧
    (∀ next ∈ [7, 1024], ∃ (s : State) (g : Outgoing), tget none 5 (s.die 0).outgoing = some g ∧ g.quiet = true ∧ g.next = next ∧
      (s.awaitedAt g.new 5).find? (fun n => !s.lineSent 5 g.new g.next n) = none ∧
      (next = 7 → s.firstUnsent 5 g.new (pageLines g.size - g.next) g.next < pageLines g.size) ∧
      (next = 1024 → pageLines g.size ≤ s.firstUnsent 5 g.new (pageLines g.size - g.next) g.next)) ∧
    (∃ (s : State) (c : Incoming), s.omsgs[0]? = some (.line 5 1 7 []) ∧ tget none 5 (s.die 1).incoming = some c) ∧
    (∃ (s : State) (c : Incoming), s.omsgs[0]? = some (.done 5 0 1) ∧ tget none 5 (s.die 1).incoming = some c ∧ ∀ n bs, .line 5 1 n bs ∉ s.omsgs) ∧
    (∃ s : State, s.omsgs[0]? = some (.update 5 1 false) ∧ ∀ p m, .update 5 p m ∉ s.omsgs.take 0) ∧
    (∃ s : State, (s.home (s.partHome 0 0)).valid = true ∧ s.pinnedPages (s.part 0).asid < 256 ∧ (s.startMigration (s.partHome 0 0) 1).isSome = true) ∧
    (base.part 0).hint = false ∧ (∃ s : State, (s.die 0).halved + 2 ^ 20 ≤ s.cycle) :=
  ⟨rfl, ⟨base.modDie 0 (fun x => { x with outgoing := [(5, some { new := 1 })] }), _, rfl, rfl⟩,
   ⟨migrating 7 [9], _, 9, rfl, rfl, by decide +kernel⟩,
   fun next h => ⟨migrating next [], _, rfl, rfl, rfl, rfl, fun e => by subst e; decide +kernel, fun e => by subst e; decide +kernel⟩,
   ⟨{ migrating 8 [] with omsgs := [.line 5 1 7 []] }, _, rfl, rfl⟩,
   ⟨{ migrating 1024 [] with omsgs := [.done 5 0 1] }, _, rfl, rfl, fun n bs h => by cases h with | tail _ h => cases h⟩,
   ⟨asked (.update 5 1 false), rfl, fun _ _ h => (by cases h)⟩,
   ⟨{ base.modDie 1 (fun x => { x with pool := [0x70000] }) with glb := mwrite 0x16005 [0x80] base.glb }, by decide +kernel, by decide +kernel, by decide +kernel⟩,
   rfl, ⟨{ base with cycle := 2 ^ 20 }, by decide +kernel⟩⟩

theorem witness_StubCopyAndLeaseEvents :
    (∃ (s : State) (st : Stub), tget none 5 (s.die 2).stubs = some st ∧ st.retiring = false ∧ tget none 5 (s.die 2).outgoing = none ∧
      (∀ n, .done 5 2 n ∉ s.omsgs) ∧ st.since + 2 ^ 22 ≤ s.cycle) ∧
    (asked (.retire 5 2)).omsgs[0]? = some (.retire 5 2) ∧
    ((asked (.inval 5 1 2)).omsgs[0]? = some (.inval 5 1 2) ∧ (asked (.inval 5 1 2)).asking 1 5 = false) ∧
    (∃ s : State, s.omsgs[0]? = some (.invalAck 5 1 2) ∧ ∀ x ∈ dropNth s.omsgs 0, ∀ q, x ≠ .inval 5 q 2 ∧ x ≠ .invalAck 5 q 2) ∧
    (∃ (s : State) (st : Stub), s.omsgs[0]? = some (.retireOk 5 2) ∧ tget none 5 (s.die 2).stubs = some st ∧ st.retiring = true) ∧
    (∃ (s : State) (f : Nat), s.omsgs[0]? = some (.dupInval 5 2) ∧ tget none 5 (s.die 2).copyFrames = some f) ∧
    (∃ (s t : State) (key j : Nat), s.omsgs[0]? = some (.dupAck (pageKey 0 0) 2) ∧ t = { s with omsgs := dropNth s.omsgs 0 } ∧
      (∀ x ∈ t.omsgs, ∀ h, x ≠ .dupInval (pageKey 0 0) h ∧ x ≠ .dupAck (pageKey 0 0) h) ∧ t.copiesOut (pageKey 0 0) = false ∧
      t.dupWaiter (pageKey 0 0) = some (key, j)) ∧
    (asked (.leaseGrant 3 1 [])).omsgs[0]? = some (.leaseGrant 3 1 []) ∧ (asked (.leaseRecall 3 1)).omsgs[0]? = some (.leaseRecall 3 1) ∧
    (asked (.leaseReturn 3 1 [])).omsgs[0]? = some (.leaseReturn 3 1 []) :=
  ⟨⟨{ base.modDie 2 (fun x => { x with stubs := [(5, some { target := 3 })] }) with cycle := 2 ^ 22 }, _, rfl, rfl, rfl, fun _ h => (by cases h), by decide +kernel⟩,
   rfl, ⟨rfl, by decide +kernel⟩, ⟨asked (.invalAck 5 1 2), rfl, fun _ h => (by cases h)⟩,
   ⟨(asked (.retireOk 5 2)).modDie 2 (fun x => { x with stubs := [(5, some { target := 3, retiring := true })] }), _, rfl, rfl, rfl⟩,
   ⟨(asked (.dupInval 5 2)).modDie 2 (fun x => { x with copyFrames := [(5, some 0x50000)] }), _, rfl, rfl⟩,
   ⟨{ draining { glbWrite with dup := true, dupWait := true } with omsgs := [.dupAck (pageKey 0 0) 2] }, _, 0, 0, rfl, rfl, fun _ h => (by cases h),
     by decide +kernel, by decide +kernel⟩, rfl, rfl, rfl⟩

/-! ## Witnesses: engines, barriers, clocks, faults, capture and the platform -/

/-- Result holds of an engine step that goes on. -/
theorem goes {r : ERes} {p : Cmd → Bool} (h : (match r with | .ok _ d => p d | _ => false) = true) : ∃ u d, r = .ok u d ∧ p d = true := by
  cases r with
  | ok u d => exact ⟨u, d, rfl, h⟩
  | stall => cases h
  | fault => cases h

/-- base with page 0 in the int8 format and one command in core 0's matrix queue. -/
def matrixed (c : Cmd) : State := { base.modCore 0 (fun x => { x with matrixQ := [c] }) with glb := mwrite 0x16007 [0x80] base.glb }
/-- An MMA of one step on int8 operands at address 0, `n` of its chunks done. -/
def mma (n : Nat) : Cmd :=
  { op := .mma, vals := [0, 0x100000040, 0, 64], fmts := [PageFmt.int8.code, 0, PageFmt.int8.code, 0], done := n, phase := .running }
/-- An MMDRAIN of tile 1 to tile 2 of core 0. -/
def drain (phase : CmdPhase) : Cmd := { op := .mmdrain, z := 1, vals := [2, 0, 0], phase := phase }
/-- The same once it has bid for the tile in cycle 0. -/
def bidden (phase : CmdPhase) : Cmd := { drain phase with bid := some (0, 0, 2) }

theorem witness_MatrixEvents :
    (∃ (s t : State) (c : Cmd), Granted s t .mma 0 c ∧ c.guard = some true ∧ c.steps ≠ 0 ∧
      ∃ u d, t.chunk 0 c c.done = .ok u d ∧ (decide (2 * d.steps ≤ d.done) && d.done % 2 == 0) = true) ∧
    (∃ (s t : State) (c : Cmd), Granted s t .mma 0 c ∧ c.guard = some true ∧ c.steps ≠ 0 ∧ ∃ u d, t.chunk 0 c c.done = .ok u d ∧
      (d.done % 2 == 1) = true) ∧
    (∃ (s t : State) (c : Cmd), Granted s t .mmz 0 c ∧ c.guard = some true) ∧
    (∃ (s t u : State) (c : Cmd) (r : List Cmd) (b : Nat × Nat), (s.core 0).matrixQ = c :: r ∧ c.op = .mmdrain ∧
      s.grantStep (octetOf 0) = some (0, t) ∧ s.drainTime c = none ∧
      t.drainTime c = none ∧ c.guard = some true ∧ c.claimed = false ∧ c.bid = some (0, b) ∧ s.bidWins 0 c.dest.1 c.dest.2 0 = true ∧
      t.claim c.part c.dest.1 c.dest.2 = .ok (0, u) ∧
      16 * rowBytes c.ty ≤ 64 * (u.tile 0 c.dest.2).size ∧ u.accPoison 0 c.z = none) ∧
    (∃ (s t : State) (c : Cmd) (r : List Cmd), (s.core 0).matrixQ = c :: r ∧ c.op = .mmdrain ∧ s.grantStep (octetOf 0) = some (0, t) ∧
      s.drainTime c = none ∧ c.guard = some true ∧ c.claimed = false ∧ c.bid = none) ∧
    (∃ (s t : State) (c : Cmd) (r : List Cmd) (b : Nat × Nat), (s.core 0).matrixQ = c :: r ∧ c.op = .mmdrain ∧
      s.grantStep (octetOf 0) = some (0, t) ∧ s.drainTime c = none ∧ c.guard = some true ∧ c.claimed = false ∧ c.bid = some (0, b) ∧
      s.bidWins 0 c.dest.1 c.dest.2 0 = false) ∧
    (∃ (s : State) (c : Cmd) (r : List Cmd), (s.core 0).matrixQ = c :: r ∧ c.op = .mmdrain ∧ c.parked = none ∧ c.phase = .running ∧
      s.coreIn c.part c.dest.1 = some 0) :=
  ⟨⟨matrixed (mma 1), _, mma 1, ⟨rfl, ⟨_, rfl⟩, rfl⟩, rfl, by decide +kernel,
      goes (p := fun d => decide (2 * d.steps ≤ d.done) && d.done % 2 == 0) (by decide +kernel)⟩,
   ⟨matrixed (mma 0), _, mma 0, ⟨rfl, ⟨_, rfl⟩, rfl⟩, rfl, by decide +kernel, goes (p := fun d => d.done % 2 == 1) (by decide +kernel)⟩,
   ⟨matrixed { op := .mmz, z := 1 }, _, { op := .mmz, z := 1 }, ⟨rfl, ⟨_, rfl⟩, rfl⟩, rfl⟩,
   ⟨{ (matrixed (bidden .queued)).setTile 0 2 { size := 16 } with cycle := 1 }, _, _, _, _, _, rfl, rfl, rfl, rfl, rfl, rfl, rfl, rfl,
     by decide +kernel, rfl, by decide +kernel, rfl⟩,
   ⟨matrixed (drain .queued), _, _, _, rfl, rfl, rfl, rfl, rfl, rfl, rfl⟩,
   ⟨matrixed (bidden .queued), _, _, _, _, rfl, rfl, rfl, rfl, rfl, rfl, rfl, by decide +kernel⟩,
   ⟨matrixed (drain .running), _, _, rfl, rfl, rfl, rfl, rfl⟩⟩

theorem witness_MatrixEvents_ends :
    (∃ (s t : State) (c : Cmd), Granted s t .mma 0 c ∧ c.guard = some false) ∧
    (∃ (s t : State) (c : Cmd), Granted s t .mma 0 c ∧ c.guard = some true ∧ c.steps = 0) ∧
    (∃ (s t : State) (c : Cmd), Granted s t .mma 0 c ∧ c.guard = some true ∧ c.steps ≠ 0 ∧
      (match t.chunk 0 c c.done with | .fault _ _ _ => true | _ => false) = true) ∧
    (∃ (s t : State) (c : Cmd) (r : List Cmd), (s.core 0).matrixQ = c :: r ∧ c.op = .mmdrain ∧ s.grantStep (octetOf 0) = some (0, t) ∧
      t.drainTime c = none ∧ c.guard = some false) ∧
    (∃ (s t : State) (c : Cmd) (r : List Cmd) (b : Nat × Nat) (f : FaultReq), (s.core 0).matrixQ = c :: r ∧ c.op = .mmdrain ∧
      s.grantStep (octetOf 0) = some (0, t) ∧ s.drainTime c = none ∧ t.drainTime c = none ∧ c.guard = some true ∧ c.claimed = false ∧
      c.bid = some (0, b) ∧ s.bidWins 0 c.dest.1 c.dest.2 0 = true ∧ t.claim c.part c.dest.1 c.dest.2 = .error f) ∧
    (∃ (s t u : State) (c : Cmd) (r : List Cmd) (b : Nat × Nat), (s.core 0).matrixQ = c :: r ∧ c.op = .mmdrain ∧
      s.grantStep (octetOf 0) = some (0, t) ∧ s.drainTime c = none ∧ t.drainTime c = none ∧ c.guard = some true ∧ c.claimed = false ∧
      c.bid = some (0, b) ∧ s.bidWins 0 c.dest.1 c.dest.2 0 = true ∧ t.claim c.part c.dest.1 c.dest.2 = .ok (0, u) ∧ 64 * (u.tile 0 c.dest.2).size < 16 * rowBytes c.ty) ∧
    (∃ (s : State) (c : Cmd) (r : List Cmd), (s.core 0).matrixQ = c :: r ∧ c.op = .mmdrain ∧ c.parked = none ∧ c.phase = .closing) :=
  ⟨⟨matrixed { mma 0 with guard := some false }, _, _, ⟨rfl, ⟨_, rfl⟩, rfl⟩, rfl⟩,
   ⟨matrixed { mma 0 with vals := [0, 0, 0, 64] }, _, _, ⟨rfl, ⟨_, rfl⟩, rfl⟩, rfl, by decide +kernel⟩,
   ⟨matrixed { mma 0 with vals := [0x40000, 0x100000040, 0, 64] }, _, { mma 0 with vals := [0x40000, 0x100000040, 0, 64] }, ⟨rfl, ⟨_, rfl⟩, rfl⟩, rfl,
     by decide +kernel, by decide +kernel⟩,
   ⟨matrixed { drain .queued with guard := some false }, _, _, _, rfl, rfl, rfl, rfl, rfl⟩,
   ⟨{ matrixed (bidden .queued) with cycle := 1 }, _, _, _, _, _, rfl, rfl, rfl, rfl, rfl, rfl, rfl, rfl, by decide +kernel, rfl⟩,
   ⟨{ (matrixed (bidden .queued)).setTile 0 2 { size := 1 } with cycle := 1 }, _, _, _, _, _, rfl, rfl, rfl, rfl, rfl, rfl, rfl, rfl, by decide +kernel, rfl,
     by decide +kernel⟩,
   ⟨matrixed (drain .closing), _, _, rfl, rfl, rfl, rfl⟩⟩

/-- base with one command in core 0's copy queue. -/
def copying (c : Cmd) : State := base.modCore 0 (fun x => { x with copyQ := [c] })
/-- base with one command in core 0's collective queue. -/
def collecting (c : Cmd) : State := base.modCore 0 (fun x => { x with colQ := [c] })
/-- A copy of 64 bytes from GLB 0 to GLB 0x1000. -/
def copy64 (phase : CmdPhase) : Cmd := { op := .cpy, vals := [0x1000, 0, 64], phase := phase }

theorem witness_CopyAndCollectiveEvents :
    (∃ (s : State) (c : Cmd), (s.core 0).copyQ[0]? = some c ∧ (s.core 0).mayMove .copy 0 = true ∧ c.phase = .queued) ∧
    (∃ (s t u v : State) (c : Cmd) (src dst : CopyEnd) (ps qs : List Piece), (s.core 0).copyQ[0]? = some c ∧ (s.core 0).mayMove .copy 0 = true ∧
      c.phase = .running ∧ copyEnd (nth 0 c.vals 1) = .ok src ∧ copyEnd (nth 0 c.vals 0) = .ok dst ∧
      s.engTurn .copy 0 = true ∧ (s.passTurn .copy 0).endAccess 0 c src (c.lineOff c.shape.2.2.1).1 (c.lineOff c.shape.2.2.1).2 false = .ok t ps ∧
      t.endAccess 0 c dst (c.lineOff c.shape.2.2.2).1 (c.lineOff c.shape.2.2.1).2 true = .ok u qs ∧ u.engReadies (dieOf 0) (engKey 0 .copy) qs = (true, v)) ∧
    (∃ (s : State) (c : Cmd), (s.core 0).copyQ[0]? = some c ∧ c.phase = .closing ∧ c.parked = none ∧ s.cmdReleased 0 c = true ∧ c.claimed = false ∧
      c.drains = false) ∧
    (∃ (s : State) (c : Cmd), (s.core 0).copyQ[0]? = some c ∧ c.phase = .closing ∧ c.parked = none ∧ s.cmdReleased 0 c = true ∧ c.claimed = true ∧
      c.drains = false ∧ copyEnd (nth 0 c.vals 0) = .ok (.tile 0 2) ∧ s.coreIn c.part 0 = some 0) ∧
    (∃ (s : State) (c : Cmd), (s.core 0).copyQ[0]? = some c ∧ c.phase = .closing ∧ c.parked = none ∧ s.cmdReleased 0 c = true ∧ c.claimed = false ∧
      c.drains = true ∧ copyEnd (nth 0 c.vals 1) = .ok (.tile 0 2)) ∧
    (∃ (s : State) (c : Cmd), (s.core 0).colQ[0]? = some c ∧ c.phase = .accepting 0 ∧ c.parked = none) ∧
    (∀ p ∈ [CmdPhase.queued, .running], ∃ (s : State) (c : Cmd), (s.core 0).colQ[0]? = some c ∧ c.phase = p ∧ (s.core 0).mayMove .col 0 = true) ∧
    (∃ (s : State) (c : Cmd), (s.core 0).colQ[0]? = some c ∧ c.parked = none ∧ s.colDone c = true ∧ s.cmdReleased 0 c = true) :=
  ⟨⟨copying (copy64 .queued), _, rfl, by decide +kernel, rfl⟩,
   ⟨copying (copy64 .running), _, _, _, _, _, _, _, _, rfl, by decide +kernel, rfl, rfl, rfl, by decide +kernel, rfl, rfl, rfl⟩,
   ⟨copying (copy64 .closing), _, rfl, rfl, rfl, by decide +kernel, rfl, rfl⟩,
   ⟨copying { copy64 .closing with vals := [0x4000000000000002, 0, 64], claimed := true }, _, rfl, rfl, rfl, by decide +kernel, rfl, rfl, rfl, rfl⟩,
   ⟨copying { copy64 .closing with vals := [0x1000, 0x4000000000000002, 64], drains := true }, _, rfl, rfl, rfl, by decide +kernel, rfl, rfl, rfl⟩,
   ⟨collecting { op := .colag, phase := .accepting 0 }, _, rfl, rfl, rfl⟩,
   fun p _ => ⟨collecting { op := .colag, phase := p }, _, rfl, rfl, rfl⟩,
   ⟨collecting { op := .colag, phase := .closing }, _, rfl, rfl, rfl, rfl⟩⟩

/-- R309: an LTWAIT for 9 completes in the announcement that raises the only link's clock to 9, and not in one to 8. -/
theorem test_announcement_ends_ltwait :
    (match exec (.announcement 0 0) ((base.modAct 0 (fun a => { a with st := .waiting, wait := some { on := .time 9 } })).modCore 0
        (fun x => { x with ins := [{ link := 0, src := 1, held := some { cc := 9, sent := 0 } }] })) with
      | .next t => decide ((t.act 0).st = .running ∧ (t.core 0).lvt = 9) | _ => false) = true ∧
    (match exec (.announcement 0 0) ((base.modAct 0 (fun a => { a with st := .waiting, wait := some { on := .time 9 } })).modCore 0
        (fun x => { x with ins := [{ link := 0, src := 1, held := some { cc := 8, sent := 0 } }] })) with
      | .next t => decide ((t.act 0).st = .waiting ∧ (t.core 0).lvt = 0) | _ => false) = true := by decide +kernel

theorem witness_BarrierAndClockEvents :
    (∃ (s : State) (x : Group), tget {} 5 (s.part 0).groups = x ∧ x.valid = true ∧ (∃ c ∈ x.members, clusterOf c = 0) ∧
      (∀ c ∈ x.members, clusterOf c = 0 → c ∈ x.here) ∧ 0 ∉ x.teams) ∧
    (∃ (s : State) (x : Group), tget {} 5 (s.part 0).groups = x ∧ x.valid = true ∧ ∀ c ∈ x.clusters, c ∈ x.teams) ∧
    (∃ (s t : State) (l : InLink), (s.core 0).ins[0]? = some l ∧ l.held = some { cc := 9, sent := 1 } ∧
      (l.rcvd + 2 ^ 32 - 1 % 2 ^ 32) % 2 ^ 32 < 2 ^ 31 ∧
      t = s.modCore 0 (fun x => { x with ins := setNth x.ins 0 { l with clock := max l.clock 9, held := none } }) ∧
      (∀ k ∈ slotsOf 0, (t.act k).timeTarget = none) ∧ t.framedTimers 0 = []) ∧
    (∃ (s : State) (l : InLink), (s.core 0).ins[0]? = some l ∧ l.held = some { cc := 9, sent := 1, null := true } ∧
      2 ^ 31 ≤ (l.rcvd + 2 ^ 32 - 1 % 2 ^ 32) % 2 ^ 32) ∧
    (∃ (s t u : State) (l l' : OutLink) (c : Nat), (s.core 0).outs[0]? = some l ∧ l.demand = some 7 ∧ s.idle 0 = true ∧ s.headDue 0 = false ∧
      c = max (s.core 0).lvt ((s.targets 0).foldl min (min (s.headStamp 0) (s.safe 0))) ∧ l' = { l with floor := max l.floor (satAdd c l.look) } ∧
      t = s.modCore 0 (fun x => { x with outs := setNth x.outs 0 l' }) ∧
      u = (if l.lastCC < l'.cc (s.core 0).lvt then t.clockMsg 0 0 true else t)) :=
  ⟨⟨base.modPart 0 (fun p => { p with groups := [(5, { valid := true, members := [0, 1], here := [0, 1] })] }), _, rfl, rfl, by decide +kernel,
      by decide +kernel, by decide +kernel⟩,
   ⟨base.modPart 0 (fun p => { p with groups := [(5, { valid := true, members := [0, 1], here := [0, 1], teams := [0] })] }), _, rfl, rfl, by decide +kernel⟩,
   ⟨base.modCore 0 (fun x => { x with ins := [{ link := 0, src := 1, rcvd := 1, held := some { cc := 9, sent := 1 } }] }), _, _, rfl, rfl,
     by decide +kernel, rfl, by decide +kernel, by decide +kernel⟩,
   ⟨base.modCore 0 (fun x => { x with ins := [{ link := 0, src := 1, rcvd := 0, held := some { cc := 9, sent := 1, null := true } }] }), _, rfl, rfl,
     by decide +kernel⟩,
   ⟨(State.reset.modPart 0 (fun p => { p with lt := true })).modCore 0 (fun x => { x with part := some 0, outs := [{ link := 0, dst := 1, demand := some 7 }] }),
     _, _, _, _, _, rfl, rfl, by decide +kernel, by decide +kernel, rfl, rfl, rfl, rfl⟩⟩

/-- base with frames for saves on die 0, at address 0x4000 of the partition. -/
def framing (st : SlotState) : State :=
  ((base.modPart 0 (fun p => { p with frameBase := 0x4000 })).modDie 0 (fun x => { x with frames := [3] })).modAct 0
    (fun a => { a with st := st, save := some { why := .preempt, pc := a.pc } })
theorem witness_SaveAndService :
    MaySave (framing .saving) (8 * 0 + 0) 3 [] { why := .preempt, pc := 0x100 } ∧
    (∃ (s : State) (v : SaveReq), (s.act 0).st = .saving ∧ (s.act 0).save = some v ∧ s.saveReady 0 = true ∧ (s.die (dieOf (coreOf 0))).frames = [] ∧
      v.why = .forMessage) ∧
    (∃ (s : State) (v : SaveReq), (s.act 0).st = .saving ∧ (s.act 0).save = some v ∧ s.saveReady 0 = true ∧ (s.die (dieOf (coreOf 0))).frames = [] ∧
      v.why = .preempt) ∧
    (∀ st ∈ [SlotState.running, .waiting, .parked, .starting], ((framing st).act (8 * 0 + 0)).st = st) ∧
    (base.die 0).frames.length < 1024 ∧ (∀ k ∈ slotsOfDie base.acts 0, (base.act k).st ≠ .saving) ∧
    (∃ s : State, (s.die 0).frames.length < 1024 ∧ ((slotsOfDie s.acts 0).find? (fun k => (s.act k).st == .saving &&
      (match (s.act k).save with | some v => v.noted | none => false))) = some 0) ∧
    (∃ (s : State) (n : Nat), s.coalFind 0 0 5 = some n) ∧
    (∀ p ∈ [some 0, some 1], ∃ s : State, s.resumable 0 3 = true ∧ (s.recovery 0).isSome = true ∧
      ((s.leaveEntries (fun i => i == .frame (s.frameCore 0 3) 3)).core (s.frameCore 0 3)).part = p) ∧
    (∃ (s : State) (e : Word) (o : Obl) (l : List Obl), (s.act (8 * 0 + 0)).st = .parked ∧ s.recovery (s.act (8 * 0 + 0)).part = some e ∧
      (s.act (8 * 0 + 0)).oblUsed = o :: l) :=
  ⟨⟨rfl, rfl, by decide +kernel, rfl⟩,
   ⟨((framing .saving).modDie 0 (fun x => { x with frames := [] })).modAct 0 (fun a => { a with save := some { why := .forMessage, pc := 0 } }), _, rfl, rfl,
     by decide +kernel, rfl, rfl⟩,
   ⟨(framing .saving).modDie 0 (fun x => { x with frames := [] }), _, rfl, rfl, by decide +kernel, rfl, rfl⟩,
   by decide +kernel, by decide +kernel, by decide +kernel,
   ⟨(framing .saving).modAct 0 (fun a => { a with save := some { why := .preempt, pc := 0, noted := true } }), by decide +kernel, by decide +kernel⟩,
   ⟨base.modDie 0 (fun x => { x with coal := [(1, some { asid := 0, page := some 5 })] }), _, rfl⟩,
   fun p h => ⟨(base.modPart 0 (fun q => { q with framesOut := [3], handlers := [(0xFFF, some 0x100)] })).modCore 0 (fun c => { c with part := p }),
     by revert p; decide +kernel, rfl, by revert p; decide +kernel⟩,
   ⟨((framing .parked).modPart 0 (fun q => { q with handlers := [(0xFFF, some 0x100)] })).modAct 0
     (fun a => { a with tumbler := [(0, { kind := .signal, count := 1, handle := ref })] }), _, _, _, rfl, rfl, rfl⟩⟩

/-- base with core 0 to restore frame 3, which reads as zeros: it lies in a page that is not mapped. -/
def restoring : State := (base.modPart 0 (fun p => { p with frameBase := 0x10000 })).modCore 0 (fun c => { c with restores := [(3, .atWord)] })
/-- A run of zero bytes is the number 0. -/
theorem leNat_zeros (n : Nat) : leNat (List.replicate n 0) = 0 := by
  induction n with
  | zero => rfl
  | succ n ih => simp only [List.replicate_succ, leNat, ih]; rfl
/-- A frame of zeros is valid in restoring. -/
theorem restoring_valid : (restoring.modCore 0 (fun c => { c with restores := [] })).frameValid 0 (List.replicate 4096 0) = true := by
  have k (n a : Nat) : fw (List.replicate n 0) a = 0 := by
    simp only [fw, List.drop_replicate, List.take_replicate, leNat_zeros]; rfl
  have h (n w lo m : Nat) : hf (List.replicate n 0) w lo m = 0 := by simp only [hf, k]; simp
  simp only [State.frameValid, h, k, List.drop_replicate, List.take_replicate, leNat_zeros]
  decide +kernel

theorem witness_SaveAndService_restored : (restoring.core 0).restores = [(3, .atWord)] ∧ restoring.mayRestore 0 (restoring.frameCls (3 / 2 ^ 28) (3 % 2 ^ 28)) = true ∧
    restoring.freeSlotFor 0 (restoring.frameCls (3 / 2 ^ 28) (3 % 2 ^ 28)) = some 7 ∧
    ∃ t, (restoring.modCore 0 (fun c => { c with restores := [] })).restoreInto 7 (3 / 2 ^ 28) (3 % 2 ^ 28) .atWord = .ok t := by
  refine ⟨rfl, by decide +kernel, by decide +kernel, ?_⟩
  have e : (restoring.modCore 0 (fun c => { c with restores := [] })).physOfVirt
    ((restoring.modCore 0 (fun c => { c with restores := [] })).part 0).asid
    (((restoring.modCore 0 (fun c => { c with restores := [] })).part 0).frameVa 3) = none := by decide +kernel
  have b : (restoring.modCore 0 (fun c => { c with restores := [] })).peekVirt
      ((restoring.modCore 0 (fun c => { c with restores := [] })).part 0).asid
      (((restoring.modCore 0 (fun c => { c with restores := [] })).part 0).frameVa 3) 4096 = List.replicate 4096 0 := by
    rw [State.peekVirt, if_pos (by decide +kernel), State.peekPage, e]
  simp only [State.restoreInto, Nat.reduceDiv, Nat.reduceMod, Nat.reducePow, b, e, restoring_valid]
  exact ⟨_, rfl⟩

/-- Partition 0 with a unit of an SHM block, a page entry's unit, a group, and a command that a page fault has parked. -/
def dying : State :=
  ((signalling true 1 true).modPart 0 (fun p => { p with groups := [(5, { valid := true, members := [0, 1] })] })).modDie 0
    (fun x => { x with coal := [(1, some { asid := 7, page := some 5, items := [.frame 0 3] })] })

theorem witness_TerminationAndEcc :
    (∃ h ∈ dying.heldBy 0, ∃ o ∈ h.2.2, o.kind = .signal ∧ o.handle.getLsbD 63 = true) ∧
    (tget {} 5 (dying.part 0).groups : Group).valid = true ∧
    (∃ (u : State) (c : Coal), exec (.processTerminate 0) dying = .next u ∧ tget none 1 (u.die 0).coal = some c) ∧
    (∃ (u : State) (m : Msg), exec (.processTerminate 0) { dying with msgs := [{ dest := 0, src := 0 }] } = .next u ∧ m ∈ u.msgs ∧ m.part = 0) ∧
    (∃ o : Obl, ∃ g, o.kind = .signal ∧ o.handle.getLsbD 63 = false ∧ base.walk (base.part 0).asid o.handle.toNat = .ok g) ∧
    (∃ o : Obl, o.kind = .close ∧ coreOfAddr (bits o.handle 4 25).toNat = some 0 ∧ ((tiled .filling).tile 0 (o.handle.toNat % 16)).state = .filling) ∧
    (∃ o : Obl, o.kind = .tile ∧ ((tiled .filling).tile 0 (o.handle.toNat % 16)).state = .filling) ∧
    base.cores.all (fun e => e.2.rmode != .replay) = true := by
  refine ⟨by decide +kernel, by decide +kernel, ⟨_, _, rfl, rfl⟩, ⟨_, _, rfl, List.mem_cons_self, rfl⟩,
    ⟨{ kind := .signal, handle := 0x100 }, _, rfl, by decide, rfl⟩,
    ⟨{ kind := .close, handle := 2 }, rfl, by decide +kernel, by decide +kernel⟩, ⟨{ kind := .tile, handle := 2 }, rfl, by decide +kernel⟩,
    by decide +kernel⟩

theorem witness_CaptureEvents :
    (∀ a ∈ [0, 1, 2, 3, 4], ∃ (s : State) (e : SysEvent), s.matchersAt e = [3] ∧ actionOf (s.matcher 3) = a) ∧
    (∃ s : State, s.matchersAt (.interrupt 1 2) = []) ∧
    (∃ s : State, (s.core 0).covered = true ∧ (s.act (8 * 0 + 0)).st = .running ∧ s.stopFrom + 65536 ≤ s.cycle) ∧
    (∃ s : State, (s.core 0).covered = true ∧ (s.act (8 * 0 + 0)).st = .running ∧ s.cycle < s.stopFrom + 65536) ∧
    (∃ (s t : State) (ws : List Word), (s.core 0).covered = true ∧ (s.core 0).landed = false ∧ (∀ k ∈ slotsOf 0, (s.act k).st = .free) ∧
      s.bareWords 0x06 (BitVec.ofNat 64 (coreAddr 0)) (BitVec.ofNat 64 (s.core 0).dcount) ((s.core 0).stopSaved.zeroExtend 64) = (ws, t)) ∧
    (∃ (s : State) (p : Nat), (s.core 0).part = some p ∧ s.endedDone 0 = true) := by
  refine ⟨fun a h => ⟨{ base with matchers := [(3, 0x8040000000000002 + (BitVec.ofNat 64 a <<< 57))] }, .contextSwitch 0 2, ?_⟩,
   ⟨base, by decide +kernel⟩,
   ⟨{ base.modCore 0 (fun c => { c with covered := true }) with cycle := 65536 }, rfl, rfl, by decide +kernel⟩,
   ⟨base.modCore 0 (fun c => { c with covered := true }), rfl, rfl, by decide +kernel⟩,
   ⟨State.reset.modCore 0 (fun c => { c with covered := true }), _, _, rfl, rfl, by decide +kernel, rfl⟩, ⟨base, 0, rfl, by decide +kernel⟩⟩
  revert a h
  decide +kernel

/-- Whether a signature verifies is the implementation's (`Config.falconVerify`), so that the copies that are refused are shown, of which
the magic number is wrong. -/
theorem witness_PlatformEvents :
    base.ksBusy = false ∧ (∃ s : State, s.ksBusy = true) ∧ (∃ s : State, s.ksOp = some (3, true)) ∧ (∃ s : State, s.ksOp = some (3, false)) ∧
    (∃ s : State, (s.act (8 * 0 + 0)).hostRead.isSome = true ∧ (s.act (8 * 0 + 0)).hostFail = false) ∧
    base.posted = none ∧ (∃ (s : State) (a : Nat) (old : List Byte), s.posted = some (a, old)) ∧
    (∃ k, ∀ e ∈ base.acts, e.1 = k → e.2.hostRead = none) ∧
    (State.reset.accepts (State.reset.bootAt 0) = false ∧ State.reset.accepts (State.reset.bootAt (2 ^ 30)) = false) ∧
    (∃ s : State, s.osUp = true ∧ s.tooHot = false) ∧ (∃ s : State, s.osUp = false) ∧
    (∃ s : State, s.boot = .recovery ∧ s.copyWritten = false) ∧ (∃ s : State, s.boot ≠ .recovery) :=
  ⟨rfl, ⟨{ base with ksBusy := true }, rfl⟩, ⟨{ base with ksOp := some (3, true) }, rfl⟩, ⟨{ base with ksOp := some (3, false) }, rfl⟩,
   ⟨base.modAct 0 (fun a => { a with hostRead := some 1 }), rfl, rfl⟩, rfl, ⟨{ base with posted := some (0, [0]) }, _, _, rfl⟩,
   ⟨1, by decide +kernel⟩, ⟨rfl, rfl⟩, ⟨{ base with osUp := true }, rfl, rfl⟩, ⟨{ base with osUp := false }, rfl⟩,
   ⟨{ base with boot := .recovery }, rfl, rfl⟩, ⟨{ base with boot := .running }, by decide⟩⟩

/-! ## Witnesses: statements about every instruction and every step -/

theorem witness_FalseGuardHasNoEffect : ∃ (i : Instr) (opc : Nat) (w : Operands) (s : State), toOpcode i = some (opc, w) ∧
    isEngineCmd opc = false ∧ opc ≠ 0x308 ∧ opc ≠ 0x309 ∧ s.inTurn opc w (s.serialises opc w) = true ∧ s.iss = .front ∧ s.mayIssue = true ∧
    s.guardOf w.head = some false :=
  ⟨.add { head := { guard := 1, neg := true }, a := S 5, b := S 3, c := S 4, ty := .i64 }, _, _, base, rfl, rfl, by decide, by decide, rfl, rfl, rfl, rfl⟩

theorem witness_RegisterWordsKeepMemory : ∃ (i : Instr) (opc : Nat) (w : Operands) (t : State), toOpcode i = some (opc, w) ∧
    registerOnly opc = true ∧ (∀ v, base.me.save = some v → v.fault = none) ∧ exec i base = .next t :=
  ⟨.add { a := S 5, b := S 3, c := S 4, ty := .i64 }, _, _, _, rfl, rfl, fun _ h => (by cases h), rfl⟩

/-- Partition 0 with a word at address 0, about to be fetched by slot 0. -/
def placed (w : Nat) : State := State.reset.withFetchWord 96 w

theorem witness_StepRunsInstruction :
    (∃ (s x u : State) (bs : List Byte) (i : Instr), s.agenda = [] ∧ x = { s with iss := .front } ∧ slotExists s.cur = true ∧
      s.powered s.cur = true ∧ s.portsFree s.cur = true ∧ x.me.st = .running ∧ x.me.rpt = none ∧ x.fetch x.me.pc = .bytes bs u ∧ u.me.rpt = none ∧
      wantedBy none (streamField (BitVec.ofNat 96 (leNat bs))) = true ∧ decodeBytes false bs = .ok i) ∧
    (∃ (s t : State), s.agenda = [] ∧ slotExists s.cur = true ∧ s.powered s.cur = true ∧ s.portsFree s.cur = true ∧ s.me.rpt ≠ none ∧
      { s with iss := .front }.front none = .next t) ∧
    (∃ s : State, s.agenda = [] ∧ s.portsFree s.cur = false) ∧
    (∃ (s x u : State) (bs : List Byte) (c : Nat × Nat), s.agenda = [.hold 0] ∧ x = { s with agenda := [], cur := 0, iss := .hold } ∧
      slotExists 0 = true ∧ s.powered 0 = true ∧ x.me.st = .running ∧ x.me.rpt = none ∧ x.fetch x.me.pc = .bytes bs u ∧ u.me.rpt = none ∧
      wantedBy none (streamField (BitVec.ofNat 96 (leNat bs))) = true ∧ decodeBytes false bs = .error c) ∧
    (∃ (s y x u : State) (bs : List Byte) (i : Instr), s.agenda = [.port 0 .S 0 false] ∧ slotExists 0 = true ∧
      { s with agenda := [] }.portNext 0 .S 0 = (y, some 0) ∧ y.powered 0 = true ∧ x = { y with cur := 0, iss := .front, later := false } ∧
      x.me.st = .running ∧ x.me.rpt = none ∧ x.fetch x.me.pc = .bytes bs u ∧ u.me.rpt = none ∧
      wantedBy (some .S) (streamField (BitVec.ofNat 96 (leNat bs))) = true ∧ decodeBytes false bs = .ok i) ∧
    (∃ (s : State) (e : Instr), s.agenda = [.event e] ∧ toOpcode e = none ∧ s.canHappen e = true) ∧
    (∃ (s : State) (e : Instr), s.agenda = [.event e] ∧ toOpcode e = none ∧ s.canHappen e = false) ∧
    (∃ s : State, s.agenda = [.stage 0 true]) ∧ (∃ s : State, s.agenda = [.osSend plainMsg]) ∧ (∃ s : State, s.agenda = [.tick 1 1]) ∧
    (∃ s : State, slotExists s.cur = false ∧ s.agenda = [] ∧ s.portsFree s.cur = true) :=
  ⟨⟨placed 0x0080_0000_0019_4001_0000_0A00, _, _, _, _, rfl, rfl, rfl, rfl, rfl, rfl, rfl, rfl, rfl, rfl, rfl⟩,
   ⟨(placed 0x0080_0000_0019_4001_0000_0A00).modAct 0 (fun a => { a with rpt := some { strm := .V, pc := 0, left := 2 } }), _, rfl, rfl, rfl, rfl,
     by decide +kernel, rfl⟩,
   ⟨(placed 0).modPort 0 .S (fun p => { p with stalled := [(0, 9)] }), rfl, rfl⟩,
   ⟨{ placed 0 with agenda := [.hold 0] }, _, _, _, _, rfl, rfl, rfl, rfl, rfl, rfl, rfl, rfl, rfl, rfl⟩,
   ⟨{ placed 0x0080_0000_0019_4001_0000_0A00 with agenda := [.port 0 .S 0 false] }, _, _, _, _, _, rfl, rfl, rfl, rfl, rfl, rfl, rfl, rfl, rfl, rfl, rfl⟩,
   ⟨{ base with agenda := [.event .hostLinkUp] }, _, rfl, rfl, rfl⟩, ⟨{ base with agenda := [.event (.dispatch 0)], diesOut := false }, _, rfl, rfl, rfl⟩,
   ⟨{ base with agenda := [.stage 0 true] }, rfl⟩, ⟨{ base with agenda := [.osSend plainMsg] }, rfl⟩, ⟨{ base with agenda := [.tick 1 1] }, rfl⟩,
   ⟨{ State.reset with cur := 8 * numCores }, by decide +kernel, rfl, by decide +kernel⟩⟩

/-- The word that the spec gives for MMA, waiting in a slot's E queue, and a load that is still to be bound. -/
def waitingWord : Pending := { strm := .E, pc := 0x100, word := 0xC100_8000_0056_C002_C008_1000, seq := 3 }
/-- A relaxed LDG of s20 + 64 to s7, its value still to come. -/
def lateLoad : Pending := { strm := .S, pc := 0x100, word := 0x6000_0000_0039_A005_0008_0040, seq := 3 }

theorem witness_StepRunsInstruction_queued :
    (∃ (s y : State) (i : Instr), s.agenda = [.port 0 .E 0 false] ∧ { s with agenda := [] }.portNext 0 .E 0 = (y, some 0) ∧ slotExists 0 = true ∧
      y.powered 0 = true ∧ (y.act 0).pend.find? (fun p => p.strm == .E) = some waitingWord ∧ decodeWord false waitingWord.word = .ok i ∧
      (y.act 0).pend.takeWhile (fun q => q.strm != .E) = []) ∧
    (∃ (s : State) (opc : Nat) (w : Operands) (i : Instr), s.agenda = [.bind 0 3] ∧ slotExists 0 = true ∧ s.powered 0 = true ∧
      (s.act 0).late.find? (fun p => p.seq == 3) = some lateLoad ∧ lateLoad.fields = some (opc, w) ∧ deferrable opc = true ∧
      decodeWord false lateLoad.word = .ok i ∧ ∃ t, exec i { s with agenda := [], cur := 0, iss := .queued lateLoad } = .next t ∧
        t.me.st = (s.act 0).st ∧ t.me.save = (s.act 0).save) :=
  ⟨⟨{ base.modAct 0 (fun a => { a with pend := [waitingWord] }) with agenda := [.port 0 .E 0 false] }, _, _, rfl, rfl, rfl, rfl, rfl, rfl, rfl⟩,
   ⟨{ (base.wroteS 20 0x20000).modAct 0 (fun a => { a with late := [lateLoad] }) with agenda := [.bind 0 3] }, _, _, _, rfl, rfl, rfl, rfl, rfl, rfl, rfl, _, rfl, rfl, rfl⟩⟩

theorem witness_CodecRoundTrip : (∃ (i : Instr) (w : IWord), i.wf false = true ∧ encode i = some w) ∧
    (∃ (w : IWord) (i : Instr), decodeWord false w = .ok i) :=
  ⟨⟨.add { a := S 5, b := S 3, c := S 4, ty := .i64 }, _, by decide +kernel, rfl⟩, ⟨0x0080_0000_0019_4001_0000_0A00#96, _, rfl⟩⟩

theorem witness_UnassignedOpcodesFault : ∃ w : IWord, entryOf (opcField w) = none := ⟨0xE80000006000030000180000#96, rfl⟩

theorem witness_VectorLengthLimit : ∃ w, Issues 0x10A w false base base ∧ base.dfr w.c = false :=
  ⟨{ head := inV, a := S 5, c := S 7 }, ok rfl, rfl⟩

theorem witness_EndWithObligations : ∃ w o l, Issues 0x093 w true (signalling true 1 true) (signalling true 1 true) ∧
    (signalling true 1 true).iss = .front ∧ w.head.stream = .S ∧ (signalling true 1 true).me.oblUsed = o :: l :=
  ⟨{}, _, _, ok rfl, rfl, rfl, rfl⟩

theorem witness_OutsideLocalTime : base.myPart.lt = false ∧
    (∃ w, Issues 0x288 w false base base ∧ base.deferredIn 0x288 w [2] = none) ∧ (∃ w, Issues 0x289 w false base base) ∧
    (∃ w, Issues 0x28C w false base base ∧ base.deferredIn 0x28C w [0, 2] = none) ∧
    (∃ w, Issues 0x28D w false base base ∧ base.deferredIn 0x28D w [2] = none) ∧
    (∃ w, Issues 0x28E w true base base ∧ base.deferredIn 0x28E w [2] = none) ∧
    (∃ w, Issues 0x28B w false base base ∧ base.deferredIn 0x28B w [1, 2] = none) ∧
    (∃ w, Issues 0x28A w false base base ∧ base.deferredIn 0x28A w [2] = none) :=
  ⟨rfl, ⟨{ c := S 3 }, ok rfl, rfl⟩, ⟨{}, ok rfl⟩, ⟨{ a := S 3, c := S 4 }, ok rfl, rfl⟩, ⟨{ c := S 3 }, ok rfl, rfl⟩, ⟨{ c := S 3 }, ok rfl, rfl⟩,
   ⟨{ a := S 5, b := S 0, c := S 3 }, ok rfl, rfl⟩, ⟨{ a := S 5, c := .imm 0x40 }, ok rfl, rfl⟩⟩

theorem witness_ObltakeIsWhole :
    (∃ w u p home, Issues 0x212 w false (signalling true 1 true) (signalling true 1 true) ∧
      ReachesBlock 0x212 w [0, 2] ((signalling true 1 true).val w.a) false (signalling true 1 true) u p home ∧ u.liveAt home ∧
      (u.block home).poison = false ∧ 0 < (signalling true 1 true).oblCountOf w ∧
      (u.block home).holders.toNat + (signalling true 1 true).oblCountOf w < 2 ^ 32 ∧
      ((signalling true 1 true).me.oblAcquire .signal ((signalling true 1 true).val w.a) 0 ((signalling true 1 true).oblCountOf w)).isSome = true) ∧
    (∃ s w, Issues 0x212 w false s s ∧ s.deferredIn 0x212 w [0, 2] = none ∧ 0 < s.oblCountOf w ∧
      (s.me.oblAcquire .signal (s.val w.a) 0 (s.oblCountOf w)).isSome = false ∧ s.iss = .front ∧ w.head.stream = .S) :=
  ⟨⟨{ a := S 8, c := .imm 2, scope := .die }, _, _, _, ok rfl, ⟨rfl, _, _, rfl, fun _ => rfl, rfl, rfl, rfl⟩, ⟨rfl, rfl⟩, rfl, by decide +kernel,
     by decide +kernel, rfl⟩,
   ⟨(signalling true 1 false).modMe (fun a => { a with tumbler := (upTo 16).map (fun i => (i, { kind := .reply, count := 1 })) }),
     { a := S 8, c := .imm 2, scope := .die }, ok rfl, rfl, by decide +kernel, by decide +kernel, rfl, rfl⟩⟩

theorem witness_MemoryFormKept : MemInv (placed 0x0080_0000_0019_4001_0000_0A00) ∧ ∃ t, step (placed 0x0080_0000_0019_4001_0000_0A00) = .next t :=
  ⟨⟨by decide +kernel, rfl, rfl, rfl, rfl⟩, _, rfl⟩

theorem witness_MemoryIsExtensional : Memory.wf [(3, 5)] = true ∧ ∀ x, mget x [(3, 5)] = mget x (mwrite 3 [5] []) := by
  refine ⟨by decide +kernel, fun x => rfl⟩

/-- A number between two powers of two that follow each other is no power of two. -/
theorem not_pow {v : ℝ} (k : ℤ) (h : (2 : ℝ) ^ k < v) (h' : v < 2 ^ (k + 1)) (n : ℤ) : v ≠ 2 ^ n := by
  rintro rfl
  have a := (zpow_lt_zpow_iff_right₀ (by norm_num : (1 : ℝ) < 2)).mp h
  have b := (zpow_lt_zpow_iff_right₀ (by norm_num : (1 : ℝ) < 2)).mp h'
  omega
/-- 1.5 is no integer. -/
theorem not_int (n : ℤ) : (3 / 2 : ℝ) ≠ n := by
  intro h
  have h : (3 : ℝ) = 2 * n := by linarith
  exact absurd (by exact_mod_cast h : (3 : ℤ) = 2 * n) (by omega)
/-- Lanes as real numbers. -/
theorem real15 : IsReal (Ty.f32.fmt.decode false 0x3FC00000) (3 / 2) := ⟨false, 0xC00000, -23, by decide +kernel, by norm_num [signed]⟩
theorem real3 : IsReal (Ty.f32.fmt.decode false 0x40400000) 3 := ⟨false, 0xC00000, -22, by decide +kernel, by norm_num [signed]⟩
theorem real256 : IsReal (Ty.f32.fmt.decode false 0x43800000) 256 := ⟨false, 0x800000, -15, by decide +kernel, by norm_num [signed]⟩
theorem realNeg : IsReal (Ty.f32.fmt.decode false 0xC3800000) (-256) := ⟨true, 0x800000, -15, by decide +kernel, by norm_num [signed]⟩
theorem realTiny : IsReal (Ty.f32.fmt.decode false 0x00100000) (2 ^ (-129 : ℤ)) := ⟨false, 0x100000, -149, by decide +kernel, by norm_num [signed]⟩

theorem witness_ApproximationBounds :
    Ty.f32.fmt.decode false 0x7FC00000 = .nan false ∧ Ty.f32.fmt.decode false 0x7F800000 = .inf false ∧
    (∃ n e, Ty.f32.fmt.decode false 0 = .fin n 0 e) ∧
    (∃ (x : Lane) (v : ℝ), IsReal (Ty.f32.fmt.decode false x.toNat) v ∧ v < 0 ∧ v < -150) ∧
    (∃ (x : Lane) (v : ℝ), IsReal (Ty.f32.fmt.decode false x.toNat) v ∧ v ≠ 0 ∧ |v⁻¹| < 2 ^ (128 : ℤ)) ∧
    (∃ (x : Lane) (v : ℝ), IsReal (Ty.f32.fmt.decode false x.toNat) v ∧ v ≠ 0 ∧ 2 ^ (128 : ℤ) ≤ |v⁻¹|) ∧
    (∃ (x : Lane) (v : ℝ) (u : ℤ), IsReal (Ty.f32.fmt.decode false x.toNat) v ∧ 0 < v ∧ 128 ≤ v ∧ IsUlpExp (√v)⁻¹ u) ∧
    (∃ (x : Lane) (v : ℝ) (n : ℤ), IsReal (Ty.f32.fmt.decode false x.toNat) v ∧ v = n ∧ -149 ≤ n ∧ n < 128) ∧
    (∃ (x : Lane) (v : ℝ), IsReal (Ty.f32.fmt.decode false x.toNat) v ∧ -150 ≤ v ∧ v < 128 ∧ ∀ n : ℤ, -149 ≤ n → v ≠ n) ∧
    (∃ (x : Lane) (v : ℝ) (n : ℤ), IsReal (Ty.f32.fmt.decode false x.toNat) v ∧ v = 2 ^ n) ∧
    (∃ (x : Lane) (v : ℝ), IsReal (Ty.f32.fmt.decode false x.toNat) v ∧ 0 < v ∧ (∀ n : ℤ, v ≠ 2 ^ n) ∧ 1 / 2 ≤ v ∧ v ≤ 2) ∧
    (∃ (x : Lane) (v : ℝ), IsReal (Ty.f32.fmt.decode false x.toNat) v ∧ 0 < v ∧ (∀ n : ℤ, v ≠ 2 ^ n) ∧ 2 < v) :=
  ⟨rfl, rfl, ⟨_, _, rfl⟩, ⟨0xC3800000, -256, realNeg, by norm_num, by norm_num⟩, ⟨0x40400000, 3, real3, by norm_num, by norm_num⟩,
   ⟨0x00100000, _, realTiny, by norm_num, by norm_num⟩, ⟨0x43800000, 256, _, real256, by norm_num, by norm_num, rfl⟩,
   ⟨0x40400000, 3, 3, real3, by norm_num, by norm_num, by norm_num⟩, ⟨0x3FC00000, _, real15, by norm_num, by norm_num, fun n _ => not_int n⟩,
   ⟨0x43800000, 256, 8, real256, by norm_num⟩, ⟨0x3FC00000, _, real15, by norm_num, not_pow 0 (by norm_num) (by norm_num), by norm_num, by norm_num⟩,
   ⟨0x40400000, 3, real3, by norm_num, not_pow 1 (by norm_num) (by norm_num), by norm_num⟩⟩

end Sys2Proof.Tests
end

section
/-!
Memory: what a write leaves everywhere, and that the canonical form makes equal reads equal memories.
-/

namespace Sys2Proof

variable {α : Type} [DecidableEq α] {d : α}

/-- A write read at any address. -/
theorem mget_mwrite (m : Mem) (a : Nat) (bs : List Byte) (x : Nat) :
    mget x (mwrite a bs m) = if a ≤ x ∧ x < a + bs.length then bs.getD (x - a) 0 else mget x m := by
  split
  · next h =>
    obtain ⟨i, rfl⟩ := Nat.exists_eq_add_of_le h.1
    rw [mget_mwrite_same bs a (by omega), Nat.add_sub_cancel_left]
  · exact mget_mwrite_other bs a (by omega)

theorem tabOk_cons {lo k : Nat} {v : α} {t : Tab α} : tabOk d lo ((k, v) :: t) = true ↔ lo ≤ k ∧ v ≠ d ∧ tabOk d (k + 1) t = true := by
  simp [tabOk, and_assoc]

/-- Below its first address a table in canonical form reads the default. -/
theorem tget_of_tabOk {lo j : Nat} {t : Tab α} (h : tabOk d lo t = true) (hj : j < lo) : tget d j t = d := by
  induction t generalizing lo with
  | nil => rfl
  | cons x t ih =>
    obtain ⟨hk, -, ht⟩ := tabOk_cons.1 h
    rw [tget, if_neg (by omega), ih ht (by omega)]

theorem tget_below_head {lo j k : Nat} {v : α} {t : Tab α} (h : tabOk d lo ((k, v) :: t) = true) (hj : j < k) :
    tget d j ((k, v) :: t) = d :=
  tget_of_tabOk (tabOk_cons.2 ⟨le_rfl, (tabOk_cons.1 h).2⟩) hj

/-- Where it begins, it reads something else. -/
theorem tget_head_ne {lo k : Nat} {v : α} {t : Tab α} (h : tabOk d lo ((k, v) :: t) = true) : tget d k ((k, v) :: t) ≠ d := by
  simpa [tget] using (tabOk_cons.1 h).2.1

/-- Two tables in canonical form that read the same are equal: neither can begin below the other. -/
theorem tab_ext_of_tabOk {lo lo' : Nat} {t u : Tab α} (ht : tabOk d lo t = true) (hu : tabOk d lo' u = true)
    (h : ∀ j, tget d j t = tget d j u) : t = u := by
  induction t generalizing lo lo' u with
  | nil =>
    cases u with
    | nil => rfl
    | cons y u => exact absurd (h y.1).symm (tget_head_ne hu)
  | cons x t ih =>
    obtain ⟨k, v⟩ := x
    cases u with
    | nil => exact absurd (h k) (tget_head_ne ht)
    | cons y u =>
      obtain ⟨k', v'⟩ := y
      obtain rfl : k = k' := by
        by_contra hne
        rcases Nat.lt_or_gt_of_ne hne with hlt | hlt
        · exact tget_head_ne ht ((h k).trans (tget_below_head hu hlt))
        · exact tget_head_ne hu ((h k').symm.trans (tget_below_head ht hlt))
      obtain rfl : v = v' := by simpa [tget] using h k
      obtain ⟨-, -, ht⟩ := tabOk_cons.1 ht
      obtain ⟨-, -, hu⟩ := tabOk_cons.1 hu
      rw [ih ht hu fun j => ?_]
      by_cases hj : j = k
      · rw [hj, tget_of_tabOk ht (Nat.lt_succ_self k), tget_of_tabOk hu (Nat.lt_succ_self k)]
      · simpa [tget, Ne.symm hj] using h j

/-- Settles O59, from the read after a write and the extensionality of tables in canonical form. -/
theorem memoryIsExtensional : Obligations.MemoryIsExtensional := by
  unfold Obligations.MemoryIsExtensional
  exact ⟨mget_mwrite, fun m k hm hk h => tab_ext_of_tabOk hm hk h⟩

end Sys2Proof
end

section
/-!
Frames: what is known of the memories before an operation and is known of them after it. A fact `P` about the memories is carried
through an operation that writes none of them, whatever `P` is. One lemma per operation so serves the canonical form (`Canonical`,
O57) and the statements that a memory does not change (there `P` is that it is as it was).
-/

-- One thread elaborates this section. On several its proofs wait for one another, each on a stack of its own, and the stacks alone
-- pass the memory that the text is checked in.
set_option Elab.async false

namespace Sys2Proof.Machine

/-- The memories of a state, and the writes of GLB on their way to the dies' views. -/
structure Mems where
  glb : Mem
  loc : Mem
  shm : Mem
  host : Mem
  flash : Mem
  flight : List Flight

def State.mems (s : State) : Mems := ⟨s.glb, s.loc, s.shm, s.host, s.flash, s.flight⟩

/-- `P` holds of the memories of `s`. -/
structure OnMems (P : Mems → Prop) (s : State) : Prop where
  holds : P s.mems

variable {P : Mems → Prop} {α : Type} {s t : State}

/-- An operation that writes no memory. -/
theorem OnMems.untouched (h : OnMems P s) (e : t.mems = s.mems := by rfl) : OnMems P t := ⟨e ▸ h.holds⟩

/-- The same, where the state is written out: whatever stands beside the memories. -/
theorem OnMems.beside
    {agenda cur iss later fresh nextWid nextUid cycle time acts ports framed cores dies parts launches acc accSeed
     posted devices roots homes copies dupAsk leases leaseFor omsgs iface weirs weirTot weirStat exacts sigs homeOps rings
     ringWait msgs arbiter drainPort turns matchers filters capRun capFrozen capFsel capLast capStopping capStopped stopFrom
     keys kdata ksBusy ksOp hlCount hlDown hlRerr hlWerr hlIrqs boot bootCopy osUp meas rollback rollWait copyWritten reports
     profReplies clockStep tooHot diesOut lptBase poisoned}
    (h : OnMems P s) : OnMems P
    { s with
      agenda, cur, iss, later, fresh, nextWid, nextUid, cycle, time, acts, ports, framed, cores, dies, parts, launches
      acc, accSeed, posted, devices, roots, homes, copies, dupAsk, leases, leaseFor, omsgs, iface, weirs
      weirTot, weirStat, exacts, sigs, homeOps, rings, ringWait, msgs, arbiter, drainPort, turns, matchers, filters
      capRun, capFrozen, capFsel, capLast, capStopping, capStopped, stopFrom, keys, kdata, ksBusy, ksOp, hlCount
      hlDown, hlRerr, hlWerr, hlIrqs, boot, bootCopy, osUp, meas, rollback, rollWait, copyWritten, reports, profReplies
      clockStep, tooHot, diesOut, lptBase, poisoned } :=
  h.untouched

theorem OnMems.ite {c : Prop} [Decidable c] (hs : OnMems P s) (ht : OnMems P t) : OnMems P (if c then s else t) := by
  split
  · exact hs
  · exact ht

/-- A state that is changed under a condition, or left as it is. -/
theorem OnMems.when {c : Prop} [Decidable c] (h : OnMems P s) (k : OnMems P s → OnMems P t) : OnMems P (if c then t else s) :=
  (k h).ite h
theorem OnMems.unless {c : Prop} [Decidable c] (h : OnMems P s) (k : OnMems P s → OnMems P t) : OnMems P (if c then s else t) :=
  h.ite (k h)

/-- A fold of an operation that carries `P`. -/
theorem OnMems.foldl {f : State → α → State} (hf : ∀ s x, OnMems P s → OnMems P (f s x)) (l : List α) (h : OnMems P s) :
    OnMems P (l.foldl f s) :=
  List.foldlRecOn l f h fun _ hs x _ => hf _ x hs

/-! ## Operations that write no memory -/

theorem OnMems.setAct (h : OnMems P s) (k : Nat) (a : Act) : OnMems P (s.setAct k a) := h.untouched
theorem OnMems.modAct (h : OnMems P s) (k : Nat) (f : Act → Act) : OnMems P (s.modAct k f) := h.untouched
theorem OnMems.modMe (h : OnMems P s) (f : Act → Act) : OnMems P (s.modMe f) := h.untouched
theorem OnMems.modCore (h : OnMems P s) (c : Nat) (f : Core → Core) : OnMems P (s.modCore c f) := h.untouched
theorem OnMems.modDie (h : OnMems P s) (d : Nat) (f : Die → Die) : OnMems P (s.modDie d f) := h.untouched
theorem OnMems.modPart (h : OnMems P s) (p : Nat) (f : Part → Part) : OnMems P (s.modPart p f) := h.untouched
theorem OnMems.modPort (h : OnMems P s) (c : Nat) (st : Stream) (f : Port → Port) : OnMems P (s.modPort c st f) := h.untouched

theorem OnMems.raise (h : OnMems P s) (fl : Word) : OnMems P (s.raise fl) := h.unless fun h => h.modMe _

theorem OnMems.unpoison (h : OnMems P s) (g : Nat → Granule) (a n : Nat) : OnMems P (s.unpoison g a n) := h.unless (·.beside)

theorem OnMems.closeExact (h : OnMems P s) (a n : Nat) (keep : Option Nat) : OnMems P (s.closeExact a n keep) :=
  h.unless (·.beside)

theorem OnMems.cleanDest (h : OnMems P s) (opc : Nat) (w : Operands) : OnMems P (s.cleanDest opc w) := by
  unfold State.cleanDest
  refine h.unless fun h => ?_
  split
  · exact h.beside
  · exact h.unless (·.beside)
  · exact h.beside
  · exact h

theorem OnMems.endTurn (h : OnMems P s) (c : Nat) (st : Stream) : OnMems P (s.endTurn c st) := by
  unfold State.endTurn
  split
  · exact h
  · exact (h.modAct _ _).modPort _ _ _

theorem OnMems.beginTurn (h : OnMems P s) (c j : Nat) (st : Stream) : OnMems P (s.beginTurn c j st) :=
  h.unless fun h => (h.endTurn _ _).modPort _ _ _

theorem OnMems.yieldSlot (h : OnMems P s) (c j : Nat) : OnMems P (s.yieldSlot c j) :=
  h.foldl (fun _ _ h => (h.when fun h => h.endTurn _ _).modPort _ _ _) _

theorem OnMems.turnTaken (h : OnMems P s) (opc : Nat) (hd : Head) : OnMems P (s.turnTaken opc hd) := by
  unfold State.turnTaken
  exact ((h.beginTurn _ _ _).modMe _).modPort _ _ _

theorem OnMems.turnEnded (h : OnMems P s) (opc : Nat) (hd : Head) : OnMems P (s.turnEnded opc hd) :=
  h.when fun h => h.endTurn _ _

theorem OnMems.turned (h : OnMems P s) (opc : Nat) (hd : Head) : OnMems P (s.turned opc hd) :=
  h.unless fun h => ((h.turnTaken opc hd).turnEnded opc hd).when fun h => h.yieldSlot _ _

theorem OnMems.advance (h : OnMems P s) : OnMems P s.advance := by
  unfold State.advance
  split
  · exact h.modMe _
  · exact h.modMe _

theorem OnMems.issued (h : OnMems P s) (opc : Nat) (w : Operands) : OnMems P (s.issued opc w) :=
  ((h.cleanDest opc w).turned _ _).advance

theorem OnMems.jumped (h : OnMems P s) (opc : Nat) (w : Operands) (pc : Word) : OnMems P (s.jumped opc w pc) :=
  ((h.cleanDest opc w).turned _ _).modMe _

theorem OnMems.issueEntries (h : OnMems P s) (k : Nat) (es : List (OutEntry × List Nat)) : OnMems P (s.issueEntries k es) :=
  (h.modAct _ _).beside

theorem OnMems.acquireFrom (h : OnMems P s) (k first : Nat) (sc : Scope) : OnMems P (s.acquireFrom k first sc) := h.modAct _ _

/-! ## Operations that write a memory

For these `P` is the canonical form, and the laws of the model's own `MemInv` say that they keep it. -/

/-- Each memory is in canonical form. -/
def Canonical (m : Mems) : Prop :=
  Memory.wf m.glb = true ∧ Memory.wf m.loc = true ∧ Memory.wf m.shm = true ∧ Memory.wf m.host = true ∧ Memory.wf m.flash = true

theorem MemInv.on (h : MemInv s) : OnMems Canonical s := ⟨h.glb, h.loc, h.shm, h.host, h.flash⟩

theorem OnMems.inv (h : OnMems Canonical s) : MemInv s := by
  obtain ⟨hg, hl, hs, hh, hf⟩ := h.holds
  exact ⟨hg, hl, hs, hh, hf⟩

theorem OnMems.applyAt (h : OnMems Canonical s) (die index : Nat) : OnMems Canonical (s.applyAt die index) :=
  (h.inv.applyAt _ _).on
theorem OnMems.poke (h : OnMems Canonical s) (a : Nat) (bs : List Byte) : OnMems Canonical (s.poke a bs) := (h.inv.poke _ _).on
theorem OnMems.pokeWord (h : OnMems Canonical s) (a : Nat) (v : Word) : OnMems Canonical (s.pokeWord a v) :=
  (h.inv.pokeWord _ _).on
theorem OnMems.writeGlb (h : OnMems Canonical s) (d wid key : Nat) (dup : Bool) (bs : List Byte) (merged : List (Nat × Nat)) :
    OnMems Canonical (s.writeGlb d wid key dup bs merged) :=
  (h.inv.writeGlb _ _ _ _ _ _).on
theorem OnMems.drainCells (h : OnMems Canonical s) (d wid : Nat) (cells : List (Nat × Byte)) (dup : Bool)
    (merged : List (Nat × Nat)) :
    OnMems Canonical (s.drainCells d wid cells dup merged) :=
  (h.inv.drainCells _ _ _ _ _).on
theorem OnMems.moveFrame (h : OnMems Canonical s) (old new size : Nat) : OnMems Canonical (s.moveFrame old new size) :=
  (h.inv.moveFrame _ _ _).on
theorem OnMems.sealByte (h : OnMems Canonical s) (pa va : Nat) : OnMems Canonical (s.sealByte pa va) := (h.inv.sealByte _ _).on
theorem OnMems.sealPhys (h : OnMems Canonical s) (pa : Nat) : OnMems Canonical (s.sealPhys pa) := (h.inv.sealPhys _).on
theorem OnMems.fillGlb (h : OnMems Canonical s) (cells : List (Nat × Byte)) : OnMems Canonical (s.fillGlb cells) :=
  (h.inv.fillGlb _).on
theorem OnMems.toFall (h : OnMems Canonical s) (core : Nat) (isV : Bool) (fall : Nat) (v : Vec) (poison : BitVec 8) :
    OnMems Canonical (s.toFall core isV fall v poison) :=
  (h.inv.toFall _ _ _ _ _).on
theorem OnMems.locPut (h : OnMems Canonical s) (key : Nat) (bs : List Byte) : OnMems Canonical (s.locPut key bs) :=
  (h.inv.locPut _ _).on
theorem OnMems.fillLoc (h : OnMems Canonical s) (cells : List (Nat × Byte)) (core : Nat) :
    OnMems Canonical (s.fillLoc cells core) :=
  (h.inv.fillLoc _ _).on
theorem OnMems.fillShm (h : OnMems Canonical s) (base : Nat) (cells : List (Nat × Byte)) (d : Nat) :
    OnMems Canonical (s.fillShm base cells d) :=
  (h.inv.fillShm _ _ _).on
theorem OnMems.setShm (h : OnMems Canonical s) {m : Mem} (hm : Memory.wf m = true) : OnMems Canonical { s with shm := m } :=
  (h.inv.setShm hm).on
theorem OnMems.setHost (h : OnMems Canonical s) {m : Mem} (hm : Memory.wf m = true) : OnMems Canonical { s with host := m } :=
  (h.inv.setHost hm).on
theorem OnMems.putBlock (h : OnMems Canonical s) (d wid home : Nat) (dup : Bool) (b : Block) :
    OnMems Canonical (s.putBlock d wid home dup b) :=
  (h.inv.putBlock _ _ _ _ _).on
theorem OnMems.storePieces (h : OnMems Canonical s) (sc : Scope) (ps : List Piece) (bs : List Byte) :
    OnMems Canonical (s.storePieces sc ps bs) :=
  (h.inv.storePieces _ _ _).on
theorem OnMems.storeAll (h : OnMems Canonical s) (sc : Scope) (l : List (List Piece × List Byte)) :
    OnMems Canonical (s.storeAll sc l) :=
  (h.inv.storeAll _ _).on
theorem OnMems.engStores (h : OnMems Canonical s) (d : Nat) (ps : List Piece) (bs : List Byte) :
    OnMems Canonical (s.engStores d ps bs).2 :=
  (MemInv.engStores d ps bs h.inv).on

/-! ## Answers

The state that an operation's answer carries, if any. -/

/-- What is known of an operation's answer, read where the answer is known. -/
theorem OnMems.fst {a : α} {p : State × α} (h : OnMems P p.1) (e : p = (t, a)) : OnMems P t := by rwa [e] at h
theorem OnMems.snd {a : α} {p : α × State} (h : OnMems P p.2) (e : p = (a, t)) : OnMems P t := by rwa [e] at h

/-- The state of an optional answer, which `π` reads, satisfies `P`. -/
def OptOn (P : Mems → Prop) (π : α → State) : Option α → Prop
  | none => True
  | some x => OnMems P (π x)

theorem OptOn.on {π : α → State} {o : Option α} {x : α} (h : OptOn P π o) (e : o = some x) : OnMems P (π x) := by rwa [e] at h

theorem OptOn.getD {o : Option State} (h : OptOn P id o) (hs : OnMems P s) : OnMems P (o.getD s) := by
  cases o with
  | none => exact hs
  | some t => exact h

theorem OptOn.ite {π : α → State} {o o' : Option α} {c : Prop} [Decidable c] (h : OptOn P π o) (h' : OptOn P π o') :
    OptOn P π (if c then o else o') := by
  split
  · exact h
  · exact h'

theorem OptOn.map {γ : Type} {π : α → State} {f : γ → α} {o : Option γ} (h : ∀ x, OnMems P (π (f x))) :
    OptOn P π (o.map f) := by
  cases o with
  | none => trivial
  | some x => exact h x

/-- The state that comes with a fault or a stall, or that `π` reads in an answer, satisfies `P`. -/
def ExOn (P : Mems → Prop) (π : α → State) : Except (Option FaultReq × State) α → Prop
  | .error x => OnMems P x.2
  | .ok x => OnMems P (π x)

theorem ExOn.ok {π : α → State} {r : Except (Option FaultReq × State) α} {x : α} (h : ExOn P π r) (e : r = .ok x) :
    OnMems P (π x) := by
  rwa [e] at h
theorem ExOn.error {π : α → State} {r : Except (Option FaultReq × State) α} {x : Option FaultReq × State} (h : ExOn P π r)
    (e : r = .error x) : OnMems P x.2 := by
  rwa [e] at h
theorem ExOn.ite {π : α → State} {r q : Except (Option FaultReq × State) α} {c : Prop} [Decidable c] (hr : ExOn P π r)
    (hq : ExOn P π q) : ExOn P π (if c then r else q) := by
  split
  · exact hr
  · exact hq

/-- The state that a request for a page leaves, where the page has a home, satisfies `P`. -/
def Route.On (P : Mems → Prop) : Route → Prop
  | .ready t => OnMems P t
  | .held t => OnMems P t
  | .unmapped => True

theorem Route.On.ready {r : Route} (h : r.On P) (e : r = .ready t) : OnMems P t := by rwa [e] at h
theorem Route.On.held {r : Route} (h : r.On P) (e : r = .held t) : OnMems P t := by rwa [e] at h

/-- The same of the answer to a page's checks. -/
def PRes.On (P : Mems → Prop) : PRes → Prop
  | .ok t _ => OnMems P t
  | .stall t => OnMems P t
  | .fault _ t => OnMems P t

theorem PRes.On.ok {r : PRes} {p : Page} (h : r.On P) (e : r = .ok t p) : OnMems P t := by rwa [e] at h
theorem PRes.On.stall {r : PRes} (h : r.On P) (e : r = .stall t) : OnMems P t := by rwa [e] at h
theorem PRes.On.fault {r : PRes} {f : FaultReq} (h : r.On P) (e : r = .fault f t) : OnMems P t := by rwa [e] at h

theorem PRes.On.ite {r q : PRes} {c : Prop} [Decidable c] (hr : r.On P) (hq : q.On P) : (if c then r else q).On P := by
  split
  · exact hr
  · exact hq

/-- The same of an access of GLB. -/
def GRes.On (P : Mems → Prop) : GRes → Prop
  | .ok t _ => OnMems P t
  | .stall t => OnMems P t
  | .fault _ t => OnMems P t

theorem GRes.On.ok {r : GRes} {ps : List (Page × Nat × Nat × Nat)} (h : r.On P) (e : r = .ok t ps) : OnMems P t :=
  by rwa [e] at h
theorem GRes.On.stall {r : GRes} (h : r.On P) (e : r = .stall t) : OnMems P t := by rwa [e] at h
theorem GRes.On.fault {r : GRes} {f : FaultReq} (h : r.On P) (e : r = .fault f t) : OnMems P t := by rwa [e] at h

theorem GRes.On.ite {r q : GRes} {c : Prop} [Decidable c] (hr : r.On P) (hq : q.On P) : (if c then r else q).On P := by
  split
  · exact hr
  · exact hq

/-- The same of an access of any space. -/
def ARes.On (P : Mems → Prop) : ARes → Prop
  | .ok t _ => OnMems P t
  | .stall t => OnMems P t
  | .fault _ t => OnMems P t

theorem ARes.On.ok {r : ARes} {ps : List Piece} (h : r.On P) (e : r = .ok t ps) : OnMems P t := by rwa [e] at h
theorem ARes.On.stall {r : ARes} (h : r.On P) (e : r = .stall t) : OnMems P t := by rwa [e] at h
theorem ARes.On.fault {r : ARes} {f : FaultReq} (h : r.On P) (e : r = .fault f t) : OnMems P t := by rwa [e] at h

theorem ARes.On.ite {r q : ARes} {c : Prop} [Decidable c] (hr : r.On P) (hq : q.On P) : (if c then r else q).On P := by
  split
  · exact hr
  · exact hq

/-- The same of what a word's effect ends in. -/
def Res.On (P : Mems → Prop) : Res → Prop
  | .done t => OnMems P t
  | .goto t _ => OnMems P t
  | .halt t => OnMems P t
  | .stall t => OnMems P t
  | .wait t => OnMems P t
  | .fault _ t => OnMems P t

theorem Res.On.ite {r q : Res} {c : Prop} [Decidable c] (hr : r.On P) (hq : q.On P) : (if c then r else q).On P := by
  split
  · exact hr
  · exact hq

theorem Res.On.fault {r : Res} {f : FaultReq} (h : r.On P) (e : r = .fault f t) : OnMems P t := by rwa [e] at h

/-- The same of the search for a signal block. -/
def SigRes.On (P : Mems → Prop) : SigRes → Prop
  | .ok t _ _ => OnMems P t
  | .stall t => OnMems P t
  | .fault _ t => OnMems P t

theorem SigRes.On.ok {r : SigRes} {p : Piece} {n : Nat} (h : r.On P) (e : r = .ok t p n) : OnMems P t := by rwa [e] at h
theorem SigRes.On.stall {r : SigRes} (h : r.On P) (e : r = .stall t) : OnMems P t := by rwa [e] at h
theorem SigRes.On.fault {r : SigRes} {f : FaultReq} (h : r.On P) (e : r = .fault f t) : OnMems P t := by rwa [e] at h

theorem SigRes.On.ite {r q : SigRes} {c : Prop} [Decidable c] (hr : r.On P) (hq : q.On P) : (if c then r else q).On P := by
  split
  · exact hr
  · exact hq

/-- The same of an engine's work on a command. -/
def ERes.On (P : Mems → Prop) : ERes → Prop
  | .ok t _ => OnMems P t
  | .stall t _ => OnMems P t
  | .fault _ t _ => OnMems P t

theorem ERes.On.ok {r : ERes} {c : Cmd} (h : r.On P) (e : r = .ok t c) : OnMems P t := by rwa [e] at h
theorem ERes.On.stall {r : ERes} {c : Cmd} (h : r.On P) (e : r = .stall t c) : OnMems P t := by rwa [e] at h
theorem ERes.On.fault {r : ERes} {f : FaultReq} {c : Cmd} (h : r.On P) (e : r = .fault f t c) : OnMems P t := by rwa [e] at h

theorem ERes.On.ite {r q : ERes} {c : Prop} [Decidable c] (hr : r.On P) (hq : q.On P) : (if c then r else q).On P := by
  split
  · exact hr
  · exact hq

/-- The same of a restoration. -/
def Restored.On (P : Mems → Prop) : Restored → Prop
  | .ok t => OnMems P t
  | .refused t => OnMems P t

theorem Restored.On.ok {r : Restored} (h : r.On P) (e : r = .ok t) : OnMems P t := by rwa [e] at h
theorem Restored.On.refused {r : Restored} (h : r.On P) (e : r = .refused t) : OnMems P t := by rwa [e] at h

/-- The same of a fetch. -/
def Fetch.On (P : Mems → Prop) : Fetch → Prop
  | .bytes _ t => OnMems P t
  | .stall t => OnMems P t
  | .fault _ t => OnMems P t

theorem Fetch.On.bytes {r : Fetch} {bs : List Byte} (h : r.On P) (e : r = .bytes bs t) : OnMems P t := by rwa [e] at h
theorem Fetch.On.stall {r : Fetch} (h : r.On P) (e : r = .stall t) : OnMems P t := by rwa [e] at h
theorem Fetch.On.fault {r : Fetch} {f : FaultReq} (h : r.On P) (e : r = .fault f t) : OnMems P t := by rwa [e] at h

/-- The state that a step or an instruction goes on in, if any, satisfies `P`. -/
def OutOn (P : Mems → Prop) : Host.Outcome State Fault Refusal → Prop
  | .next t => OnMems P t
  | .fault _ => True
  | .refused _ => True

theorem OutOn.next {o : Host.Outcome State Fault Refusal} (h : OutOn P o) (e : o = .next t) : OnMems P t := by rwa [e] at h

theorem OutOn.ite {o o' : Host.Outcome State Fault Refusal} {c : Prop} [Decidable c] (h : OutOn P o) (h' : OutOn P o') :
    OutOn P (if c then o else o') := by
  split
  · exact h
  · exact h'

/-! ## Registers -/

theorem OnMems.draw (h : OnMems P s) : OnMems P s.draw.2 := h.untouched

/-! ## The ordering machine -/

theorem OnMems.cleanAll {gs : List Granule} (h : OnMems P s) : OnMems P (s.cleanAll gs) := by
  unfold State.cleanAll
  split
  · exact h
  · exact h.untouched

theorem OnMems.cleanS {k : Nat} {ns : List Nat} (h : OnMems P s) : OnMems P (s.cleanS k ns) := h.cleanAll

theorem OnMems.countHostError (h : OnMems P s) : OnMems P s.countHostError := h.untouched

theorem OnMems.hostReadFailed {key : Nat} (h : OnMems P s) : OnMems P (s.hostReadFailed key) :=
  (h.countHostError.untouched.ite h).modAct _ _

theorem OnMems.noteIds {k : Nat} {ids : List Nat} (h : OnMems P s) : OnMems P (s.noteIds k ids) := by
  unfold State.noteIds
  split
  · exact h
  · exact h.modAct _ _

theorem OnMems.noteOwn {k wid : Nat} {vas : List Nat} (h : OnMems P s) : OnMems P (s.noteOwn k wid vas) := h.modAct _ _

theorem OnMems.issueRed {k : Nat} {shm : Bool} {page : Nat} {sc : Scope} {dup : Bool} {weir : Option Nat} {addr : Nat} {ty : Ty}
    {v : Word} {exact near : Bool} (h : OnMems P s) :
    OnMems P (s.issueRed k shm page sc dup weir addr ty v exact near) :=
  h.issueEntries _ _

/-! ## GLB translation, page ownership as a requester meets it, and weirs -/

theorem OnMems.nameOwner {d k o : Nat} (h : OnMems P s) : OnMems P (s.nameOwner d k o) := h.modDie _ _

theorem OnMems.awaitLines {o k lo hi : Nat} (h : OnMems P s) : OnMems P (s.awaitLines o k lo hi) := by
  unfold State.awaitLines
  dsimp only
  split
  · exact h
  split
  · exact h
  · exact h.modDie _ _

theorem OnMems.hold {w : Asker} (h : OnMems P s) : OnMems P (s.hold w) := by
  unfold State.hold
  split
  · exact h
  · exact h.untouched

theorem OnMems.unhold {w : Asker} (h : OnMems P s) : OnMems P (s.unhold w) := by
  unfold State.unhold
  split
  · exact h
  · exact h.untouched

theorem OnMems.holdFirst {w : Asker} (h : OnMems P s) : OnMems P (s.holdFirst w) := h.untouched

theorem OnMems.withdraw {p : Asker → Bool} (h : OnMems P s) : OnMems P (s.withdraw p) := by
  unfold State.withdraw
  split
  · exact h
  · exact h.untouched

theorem OnMems.forgetKey {key : Nat} (h : OnMems P s) : OnMems P (s.forgetKey key) := by
  unfold State.forgetKey
  extract_lets s1 s2 s3 a
  have h1 : OnMems P s1 := h.withdraw
  have h2 : OnMems P s2 := h1.unless (·.beside)
  have h3 : OnMems P s3 := h2.unless (·.beside)
  exact h3.unless fun h => h.modAct _ _

theorem OnMems.askHome {d k : Nat} (h : OnMems P s) : OnMems P (s.askHome d k) := by
  unfold State.askHome
  split
  · exact h
  · exact h.untouched

theorem OnMems.route {d key word asid va n : Nat} (h : OnMems P s) : (s.route d key word asid va n).On P := by
  unfold State.route
  dsimp only
  split
  · exact trivial
  split
  · split
    · exact h
    split
    · exact h.awaitLines
    · exact h.untouched.nameOwner
  split
  · exact h.hold
  split
  · exact h.hold.askHome
  split
  · exact h.nameOwner.unhold
  split
  · exact h.nameOwner
  · exact ((h.nameOwner.when (·.awaitLines)).unhold).untouched

theorem OnMems.takeCopy {d k : Nat} (h : OnMems P s) : OnMems P (s.takeCopy d k) := by
  unfold State.takeCopy
  dsimp only
  split
  · exact h
  split
  · exact h
  · exact h.untouched

theorem OnMems.dupRecall {k : Nat} (h : OnMems P s) : OnMems P (s.dupRecall k) := h.untouched

theorem OnMems.dupReady {dup : Bool} {k key : Nat} (h : OnMems P s) : OnMems P (s.dupReady dup k key).2 := by
  unfold State.dupReady
  split
  · exact h
  split
  · exact h.untouched.dupRecall
  split
  · exact h
  · exact h.untouched

theorem OnMems.recallLease {line : Nat} (h : OnMems P s) : OnMems P (s.recallLease line) := by
  unfold State.recallLease
  split
  · exact h
  split
  · exact h
  · exact h.untouched

theorem OnMems.lineReady {d key pa : Nat} {near : Bool} (h : OnMems P s) : OnMems P (s.lineReady d key pa near).2 := by
  unfold State.lineReady
  dsimp only
  split
  · split
    · exact h
    · exact (h.ite h.untouched).recallLease
  split
  · exact h
  have hw : OnMems P (if tget none (pa / 64) s.leaseFor == some (d, near, key) then
      { s with leaseFor := tset none (pa / 64) none s.leaseFor } else s) := h.untouched.ite h
  split
  · exact hw
  split
  · exact hw.untouched
  · exact hw

theorem OnMems.linesReady {d key pa n : Nat} (h : OnMems P s) : OnMems P (s.linesReady d key pa n).2 := by
  unfold State.linesReady
  split
  · exact h
  have step : ∀ (lines : List Nat) (x : Bool × State), OnMems P x.2 → OnMems P (lines.foldl (fun x line =>
      let y := x.2.lineReady d key (64 * line) false
      (x.1 && y.1, y.2)) x).2 := by
    intro lines
    induction lines with
    | nil => intro x hx; exact hx
    | cons line lines ih => intro x hx; exact ih _ hx.lineReady
  exact step _ _ h

theorem OnMems.servePage {d key word asid va n : Nat} {u : Use} {p : Page} (h : OnMems P s) :
    (s.servePage d key word asid va n u p).On P := by
  unfold State.servePage
  dsimp only
  split
  · exact h
  split
  · split <;> exact h
  · next e => exact h.route.held e
  split
  · split
    · next e _ _ => exact (h.route.ready e).linesReady
    · next e _ _ => exact ((h.route.ready e).linesReady).when (·.takeCopy)
  split
  · next e _ _ => exact h.route.ready e
  · next e _ _ => exact (h.route.ready e).when (·.takeCopy)

theorem OnMems.pageChecks {d key word asid va n : Nat} {u : Use} {extra : Nat → Page → Option FaultReq} (h : OnMems P s) :
    (s.pageChecks d key word asid va n u extra).On P := by
  unfold State.pageChecks
  dsimp only
  split
  · exact h.servePage
  · exact h.modAct _ _
  split
  · exact h
  refine PRes.On.ite h (.ite h (.ite h ?_))
  split
  · exact h
  · exact .ite h h.servePage

theorem OnMems.usePage {d key asid va n : Nat} {u : Use} {extra : Nat → Page → Option FaultReq} {word : Nat} (h : OnMems P s) :
    (s.usePage d key asid va n u extra word).On P := by
  unfold State.usePage
  split
  · next e => exact (h.pageChecks.fault e).withdraw
  · exact h.pageChecks

theorem OnMems.useGlb {d key asid va n : Nat} {u : Use} {extra : Nat → Page → Option FaultReq} {word : Nat} (h : OnMems P s) :
    (s.useGlb d key asid va n u extra word).On P := by
  unfold State.useGlb
  dsimp only
  split
  · next e => exact h.usePage.stall e
  · next e => exact h.usePage.fault e
  next e =>
    have h1 := h.usePage.ok e
    split
    · exact h1
    split
    · next e => exact h1.usePage.stall e
    · next e => exact h1.usePage.fault e
    · next e => exact GRes.On.ite (h1.usePage.ok e) (h1.usePage.ok e)

/-! ## The totals of weir elements -/

theorem OnMems.sealRun {pa va n : Nat} (h : OnMems Canonical s) : OnMems Canonical (s.sealRun pa va n) := by
  unfold State.sealRun
  split
  · exact h
  · exact h.foldl (fun _ _ h => h.sealByte _ _) _

theorem OnMems.sealWeir {page : Nat} {cells : List (Nat × Byte)} (h : OnMems Canonical s) :
    OnMems Canonical (s.sealWeir page cells) :=
  h.foldl (fun _ _ h => h.sealByte _ _) _

/-! ## Fault records, trace records, and the record and replay of a core -/

theorem OnMems.pokePage {asid va : Nat} {bs : List Byte} (h : OnMems Canonical s) :
    OnMems Canonical (s.pokePage asid va bs) := by
  unfold State.pokePage
  split
  · exact h.sealRun.poke _ _
  · exact h

theorem OnMems.pokeVirt {asid va : Nat} {bs : List Byte} (h : OnMems Canonical s) :
    OnMems Canonical (s.pokeVirt asid va bs) := by
  unfold State.pokeVirt
  dsimp only
  split
  · exact h.pokePage
  · exact h.pokePage.pokePage

theorem OnMems.writeRing {n : Nat} {ws : List Word} (h : OnMems Canonical s) : OnMems Canonical (s.writeRing n ws) :=
  (h.poke _ _).untouched

theorem OnMems.post {asid : Nat} {ws : List Word} (h : OnMems Canonical s) : OnMems Canonical (s.post asid ws) := by
  unfold State.post
  dsimp only
  split
  · exact h.writeRing
  split <;> exact h.untouched

theorem OnMems.flushRing {n fuel : Nat} (h : OnMems Canonical s) : OnMems Canonical (s.flushRing n fuel) := by
  induction fuel generalizing s with
  | zero => exact h
  | succ fuel ih =>
    unfold State.flushRing
    split
    · exact h
    split
    · exact ih h.untouched.writeRing
    · exact h

theorem OnMems.note {code asid core : Nat} {addr info : Word} {detail space : Nat} (h : OnMems Canonical s) :
    OnMems Canonical (s.note code asid core addr info detail space) :=
  h.post

theorem OnMems.noteFrame {code asid core frame : Nat} (h : OnMems Canonical s) :
    OnMems Canonical (s.noteFrame code asid core frame) := h.post

theorem OnMems.traceWrite {d : Nat} {ws : List Word} (h : OnMems Canonical s) : OnMems Canonical (s.traceWrite d ws) := by
  unfold State.traceWrite
  exact (h.poke _ _).modDie _ _

theorem OnMems.trace {kind key : Nat} {a : Act} {d0 d1 : Word} (h : OnMems Canonical s) :
    OnMems Canonical (s.trace kind key a d0 d1) := by
  unfold State.trace
  dsimp only
  split
  · exact h.traceWrite
  · exact h

theorem OnMems.bareWords {kind core d0 d1 : Word} (h : OnMems P s) : OnMems P (s.bareWords kind core d0 d1).2 :=
  h.draw.draw.draw.draw

theorem OnMems.logAppend {core : Nat} {w0 w1 : Word} (h : OnMems Canonical s) :
    OptOn Canonical id (s.logAppend core w0 w1) := by
  unfold State.logAppend
  dsimp only
  split
  · exact h
  split
  · exact h.pokeVirt.modPart _ _
  · exact trivial

theorem OnMems.logEntry {core : Nat} {w0 w1 : Word} (h : OnMems Canonical s) : OnMems Canonical (s.logEntry core w0 w1) :=
  h.logAppend.getD (h.modCore _ _)

theorem OnMems.logBehind {core : Nat} {w0 w1 : Word} (h : OnMems Canonical s) : OnMems Canonical (s.logBehind core w0 w1) := by
  unfold State.logBehind
  exact (h.logAppend.getD h).modCore _ _

theorem OnMems.divergeCore {core cause : Nat} {w1 : Word} (h : OnMems Canonical s) :
    OnMems Canonical (s.divergeCore core cause w1) := by
  unfold State.divergeCore
  dsimp only
  split
  · split
    · exact h.bareWords.traceWrite
    · exact h
  split
  · exact h.bareWords.traceWrite
  · exact h

theorem OnMems.diverge {key cause : Nat} {w1 : Word} (h : OnMems Canonical s) : OnMems Canonical (s.diverge key cause w1) :=
  h.trace

theorem OnMems.settleNotes {core : Nat} (h : OnMems Canonical s) : OnMems Canonical (s.settleNotes core) := by
  unfold State.settleNotes
  dsimp only
  split
  · exact h
  refine h.foldl (fun t i ht => ?_) _
  split
  · exact ht
  split
  · exact ht.divergeCore.modCore _ _
  · exact ht

theorem OnMems.annotateCore {core : Nat} {w0 w1 : Word} {say : State → State} (h : OnMems Canonical s)
    (hsay : ∀ t, OnMems Canonical t → OnMems Canonical (say t)) :
    OnMems Canonical (s.annotateCore core w0 w1 say) := by
  unfold State.annotateCore
  split
  · exact h.logEntry
  · split
    · split
      · exact h.modCore _ _
      · exact h
    · exact h
  split
  · exact h.modCore _ _
  · exact hsay _ h.logBehind

theorem OnMems.annotate {key ekind : Nat} {ident : Word} (h : OnMems Canonical s) :
    OnMems Canonical (s.annotate key ekind ident) :=
  h.annotateCore (fun _ h => h.diverge)

/-! ## The named operations: faults, the issue of a word and its end -/

theorem OnMems.coalSet {d n : Nat} {c : Option Coal} (h : OnMems P s) : OnMems P (s.coalSet d n c) := h.modDie _ _

theorem OnMems.coalJoin {d asid : Nat} {f : FaultReq} {item : Parked} {ws : List Word} (h : OnMems P s) :
    OnMems P (s.coalJoin d asid f item ws).1 := by
  unfold State.coalJoin
  dsimp only
  split
  · exact h.coalSet
  split
  · exact h.coalSet
  · dsimp only
    exact h.modDie _ _

theorem OnMems.coalRecord {d n asid code : Nat} {ws : List Word} (h : OnMems Canonical s) :
    OnMems Canonical (s.coalRecord d n asid code ws) := by
  unfold State.coalRecord
  apply OnMems.post
  split
  · exact h.coalSet
  · exact h

theorem OnMems.fromOverflow {d n fuel : Nat} (h : OnMems Canonical s) : OnMems Canonical (s.fromOverflow d n fuel) := by
  induction fuel generalizing s with
  | zero => exact h
  | succ fuel ih =>
    unfold State.fromOverflow
    split
    · exact h
    dsimp only
    split
    · apply ih
      split
      · exact ((h.modDie _ _).coalSet).modAct _ _
      · exact (h.modDie _ _).coalSet
    split
    · exact ((h.modDie _ _).coalSet).modAct _ _
    · exact ((h.modDie _ _).coalSet).coalRecord

theorem OnMems.leadBy {d n asid : Nat} {item : Parked} (h : OnMems Canonical s) :
    OnMems Canonical (s.leadBy d n asid item) := by
  unfold State.leadBy
  dsimp only
  split
  · exact h.modAct _ _
  · split
    · exact h.coalRecord
    · exact h
  split
  · exact h.coalRecord
  · exact h

theorem OnMems.dropFault {k : Nat} (h : OnMems Canonical s) : OnMems Canonical (s.dropFault k) := by
  unfold State.dropFault
  dsimp only
  split
  · split
    · exact h.modDie _ _
    split
    · exact ((h.modDie _ _).coalSet).fromOverflow
    split
    · exact ((h.modDie _ _).coalSet).leadBy
    · exact (h.modDie _ _).coalSet
  · exact h

theorem OnMems.takeFaultAt {k : Nat} {f : FaultReq} {pc : Word} {at_ : Option Nat} (h : OnMems Canonical s) :
    OnMems Canonical (s.takeFaultAt k f pc at_) := by
  unfold State.takeFaultAt
  dsimp only
  split
  · exact (h.dropFault.forgetKey.modAct _ _).post
  · split
    · exact ((h.dropFault.forgetKey.modAct _ _).cleanS).annotate
    · exact h.dropFault.forgetKey.modAct _ _
  · exact h.dropFault.forgetKey.modAct _ _
  · exact h.dropFault.forgetKey.annotate.coalJoin.modAct _ _

theorem OnMems.enterWait {on : WaitOn} {rank : Rank} {sc : Scope} (h : OnMems P s) : OnMems P (s.enterWait on rank sc) :=
  h.modMe _

theorem OnMems.releaseAt {k : Nat} (h : OnMems P s) : OnMems P (s.releaseAt k) := h.modAct _ _

theorem OnMems.retryAt {k : Nat} (h : OnMems P s) : OnMems P (s.retryAt k) := h.modAct _ _

theorem OnMems.failAt {k : Nat} {r : WRel} {f : FaultReq} (h : OnMems Canonical s) : OnMems Canonical (s.failAt k r f) := by
  unfold State.failAt
  dsimp only
  split
  · exact (h.modAct _ _).takeFaultAt
  · exact h.modAct _ _

theorem OnMems.colSet {core tile col : Nat} {v : Vec} (h : OnMems P s) : OnMems P (s.colSet core tile col v) := h.untouched

theorem OnMems.unparkAt {k : Nat} {isV : Bool} {n : Nat} (h : OnMems P s) : OnMems P (s.unparkAt k isV n) :=
  h.unless fun h => (h.modAct _ _).cleanAll.unless (·.beside)

theorem OnMems.evictReg {k : Nat} {isV : Bool} {n : Nat} (h : OnMems Canonical s) : OnMems Canonical (s.evictReg k isV n) := by
  unfold State.evictReg
  dsimp only
  split
  · exact h
  · exact h
  · exact (h.toFall _ _ _ _ _).modAct _ _

theorem OnMems.evictSlot {k : Nat} {p : Spill → Bool} (h : OnMems Canonical s) : OnMems Canonical (s.evictSlot k p) :=
  h.foldl (fun _ _ h => h.evictReg.ite h) _

theorem OnMems.holdTile {core tile : Nat} (h : OnMems Canonical s) : OnMems Canonical (s.holdTile core tile) := by
  unfold State.holdTile
  split
  · exact h
  · exact ((h.foldl (fun _ _ h => h.evictSlot) _).modCore _ _).beside

theorem OnMems.cleanSlot {k : Nat} (h : OnMems P s) : OnMems P (s.cleanSlot k) := by
  unfold State.cleanSlot
  split
  · exact h
  · exact h.untouched

theorem OnMems.clearBank {k : Nat} (h : OnMems Canonical s) : OnMems Canonical (s.clearBank k) :=
  (h.foldl (fun _ _ h => h.evictSlot) _).cleanSlot

theorem OnMems.unparkSources {opc : Nat} {w : Operands} (h : OnMems P s) : OnMems P (s.unparkSources opc w) := by
  have hs : OnMems P (match s.iss with
      | .queued _ => s
      | _ => (sSources opc w).foldl (fun s n => s.unparkAt s.cur false n.toNat) s) := by
    split
    · exact h
    · exact h.foldl (fun _ _ h => h.unparkAt) _
  unfold State.unparkSources
  split
  · exact h
  refine OnMems.ite ?_ hs
  exact hs.foldl (fun _ _ h => h.unparkAt) _

theorem OnMems.turnedOff {opc : Nat} {hd : Head} (h : OnMems P s) : OnMems P (s.turnedOff opc hd) := by
  unfold State.turnedOff
  split <;> exact h.turned _ _

theorem OnMems.unasked (h : OnMems P s) : OnMems P s.unasked := h.withdraw

theorem OnMems.lateFault {k : Nat} {p : Pending} {f : FaultReq} (h : OnMems Canonical s) :
    OnMems Canonical (s.lateFault k p f) := by
  unfold State.lateFault
  dsimp only
  split <;> exact ((h.modAct _ _).modAct _ _).takeFaultAt

theorem OnMems.takeFault {opc : Nat} {w : Operands} {f : FaultReq} (h : OnMems Canonical s) :
    OnMems Canonical (s.takeFault opc w f) := by
  unfold State.takeFault
  dsimp only
  split
  · split
    · exact h.lateFault
    · exact h.takeFaultAt
  split
  · exact h.takeFaultAt
  · exact (h.modMe _).takeFaultAt

theorem OnMems.enqueue {opc : Nat} {w : Operands} (h : OnMems P s) : OnMems P (s.enqueue opc w) := by
  unfold State.enqueue
  dsimp only
  split
  · exact h.unparkSources
  · exact h.unparkSources.modMe _

theorem Res.On.conclude {opc : Nat} {w : Operands} {queues : Bool} {r : Res} (h : r.On Canonical) :
    OnMems Canonical (conclude opc w queues r) := by
  cases r with
  | done t => exact OnMems.issued h opc w
  | goto t pc => exact OnMems.jumped h opc w pc
  | halt t => exact OnMems.turned h opc w.head
  | stall t =>
    unfold Machine.conclude
    dsimp only
    split
    · exact h
    · exact OnMems.when h (·.enqueue)
  | wait t => exact h
  | fault f t => exact OnMems.takeFault h

theorem OnMems.run {opc : Nat} {w : Operands} {eff : State → Res} (h : OnMems P s) (heff : ∀ t, OnMems P t → (eff t).On P) :
    (s.run opc w eff).On P := by
  unfold State.run
  dsimp only
  split
  · exact h.unparkSources
  · exact heff _ h.unparkSources

theorem OnMems.runOff {opc : Nat} {w : Operands} {eff : State → Res} (h : OnMems P s) (heff : ∀ t, OnMems P t → (eff t).On P) :
    (s.runOff opc w eff).On P :=
  heff _ h.unparkSources

theorem OnMems.runHeld {opc : Nat} {w : Operands} {eff : State → Res} (h : OnMems Canonical s)
    (heff : ∀ t, OnMems Canonical t → (eff t).On Canonical) :
    OnMems Canonical (s.runHeld opc w eff) := by
  unfold State.runHeld
  split
  · exact h
  · exact (h.run heff).conclude

theorem OnMems.atFront {opc : Nat} {w : Operands} {serial : Bool} {eff : State → Res} (h : OnMems Canonical s)
    (heff : ∀ t, OnMems Canonical t → (eff t).On Canonical) :
    OnMems Canonical (s.atFront opc w serial eff) := by
  unfold State.atFront
  dsimp only
  split
  · exact h
  split
  · exact h
  split
  · exact h
  split
  · exact h
  split
  · exact h.enqueue
  split
  · exact h.unless (·.enqueue)
  · split
    · exact (h.runOff heff).conclude
    · exact h.turnedOff.advance
  split
  · exact h.unless (·.enqueue)
  · exact (h.run heff).conclude

theorem OnMems.resolveGuard {g : Nat} {v : Bool} (h : OnMems P s) : OnMems P (s.resolveGuard g v) := h.untouched

theorem OnMems.passOver {opc : Nat} {w : Operands} (h : OnMems P s) : OnMems P (s.passOver opc w) :=
  h.turnedOff.advance.foldl (fun _ _ h => h.resolveGuard) _

theorem OnMems.fromQueue {opc : Nat} {w : Operands} {eff : State → Res} (h : OnMems Canonical s)
    (heff : ∀ t, OnMems Canonical t → (eff t).On Canonical) :
    OnMems Canonical (s.fromQueue opc w eff) := by
  unfold State.fromQueue
  dsimp only
  split
  · exact h
  split
  · exact h.when (·.runHeld heff)
  · split
    · exact (h.runOff heff).conclude
    · exact h.passOver
  split
  · exact h
  · exact (h.run heff).conclude

theorem OnMems.postpone {opc : Nat} {w : Operands} {pages : List (Nat × Word)} (h : OnMems P s) :
    OnMems P (s.postpone opc w pages) :=
  ((h.unparkSources.turned _ _).advance).modMe _

theorem OnMems.issueWord {opc : Nat} {w : Operands} {serial : Bool} {eff : State → Res} (h : OnMems Canonical s)
    (heff : ∀ t, OnMems Canonical t → (eff t).On Canonical) :
    OnMems Canonical (issueWord opc w serial eff s) := by
  have hw : OnMems Canonical (match s.iss with
      | .queued _ => s.fromQueue opc w eff
      | .hold => if w.head.stream == .S || serial || s.vlgetPending opc w then s else s.enqueue opc w
      | .front => s.atFront opc w serial eff) := by
    split
    · exact h.fromQueue heff
    · exact h.unless (·.enqueue)
    · exact h.atFront heff
  unfold Machine.issueWord
  split
  · exact h
  refine OnMems.ite ?_ hw
  split
  · exact h.postpone
  · exact hw

theorem OnMems.issue {opc : Nat} {w : Operands} {eff : State → Res} (h : OnMems Canonical s)
    (heff : ∀ t, OnMems Canonical t → (eff t).On Canonical) :
    OutOn Canonical (issue opc w eff s) :=
  h.issueWord heff

theorem OnMems.issueSerial {opc : Nat} {w : Operands} {eff : State → Res} (h : OnMems Canonical s)
    (heff : ∀ t, OnMems Canonical t → (eff t).On Canonical) :
    OutOn Canonical (issueSerial opc w eff s) :=
  h.issueWord heff

/-! ## A page's owner: line leases, counters and the start of a migration -/

theorem OnMems.settle {o k : Nat} (h : OnMems P s) : OnMems P (s.settle o k) := by
  unfold State.settle
  dsimp only
  split
  · exact h
  split
  · split
    · exact h
    · exact h.untouched
  split
  · exact h
  · exact h.untouched

theorem OnMems.startMigration {k dest : Nat} (h : OnMems P s) : OptOn P id (s.startMigration k dest) := by
  unfold State.startMigration
  dsimp only
  split
  · exact trivial
  split
  · exact trivial
  split
  · exact trivial
  · exact ((((h.modDie _ _).modDie _ _).foldl (fun _ _ h => h.recallLease) _).dupRecall).settle

theorem OnMems.counterRoom {o k : Nat} (h : OnMems P s) : OnMems P (s.counterRoom o k) := by
  unfold State.counterRoom
  dsimp only
  split
  · exact h
  · exact h.untouched

theorem OnMems.countAtomic {p : Part} {d k : Nat} (h : OnMems P s) : OnMems P (s.countAtomic p d k) := by
  unfold State.countAtomic
  dsimp only
  split
  · exact h
  split
  · exact ((h.counterRoom.modDie _ _).startMigration).getD (h.counterRoom.modDie _ _)
  · exact h.counterRoom.modDie _ _

theorem OnMems.weirUpdate {i pa : Nat} {xs : List Word} (h : OnMems P s) : OnMems P (s.weirUpdate i pa xs).1 := h.untouched

theorem OnMems.exactUpdate {o pa : Nat} {t : Ty} {x : Word} (h : OnMems P s) : OnMems P (s.exactUpdate o pa t x).1 :=
  (h.closeExact _ _ _).untouched

theorem OnMems.dropEntry {k i : Nat} (h : OnMems P s) : OnMems P (s.dropEntry k i) := h.modAct _ _

theorem OnMems.markEntry {k i : Nat} {f : OutEntry → OutEntry} (h : OnMems P s) : OnMems P (s.markEntry k i f) := h.modAct _ _

theorem OnMems.drainWrite {k i : Nat} {e : OutEntry} {cells : List (Nat × Byte)} (h : OnMems Canonical s) :
    OnMems Canonical (s.drainWrite k i e cells) := by
  unfold State.drainWrite
  exact ((h.dropEntry.sealWeir.foldl (fun _ _ h => h.closeExact _ _ _) _).unless (·.untouched)).drainCells _ _ _ _ _

/-! ## One access to LOC, SHM or GLB -/

theorem OnMems.access {sp : Nat} {u : Use} {va n : Nat} {extra : Nat → Page → Option FaultReq} (h : OnMems P s) :
    (s.access sp u va n extra).On P := by
  unfold State.access
  dsimp only
  split
  · repeat' split
    all_goals exact h
  · split <;> exact h
  split
  · exact h
  split
  · next e => exact h.useGlb.stall e
  · next e => exact h.useGlb.fault e
  · next e => exact h.useGlb.ok e

theorem OnMems.poisonFault {ps : List Piece} (h : OnMems P s) : OptOn P Prod.snd (s.poisonFault ps) := by
  unfold State.poisonFault
  cases ps.find? s.spoilt with
  | none => trivial
  | some p => exact h.hostReadFailed.ite h

theorem OnMems.startHostRead {ps : List Piece} (h : OnMems P s) : OptOn P id (s.startHostRead ps) := by
  unfold State.startHostRead
  split
  · exact h.modMe _
  · exact trivial

theorem OnMems.loadPiece {p : Piece} (h : OnMems P s) : OnMems P (s.loadPiece p).2 := by
  unfold State.loadPiece
  split
  · split
    · split
      exact h.beside.ite h
    · exact h
  · exact h
  · exact h.noteIds
  · dsimp only
    exact h.modMe _
  · exact h.beside

theorem OnMems.loadPieces {ps : List Piece} (h : OnMems P s) : OnMems P (s.loadPieces ps).2 := by
  induction ps generalizing s with
  | nil => exact h
  | cons p r ih => exact ih h.loadPiece

theorem OnMems.pushToken {e : Nat} {v : Word} (h : OnMems P s) : OnMems P (s.pushToken e v) := by
  unfold State.pushToken
  apply OnMems.modPart
  split
  · exact h.modMe _
  · exact h

/-! ## Scalar integer instructions -/

theorem OnMems.pop {n : Nat} {rest : List Word} (h : OnMems P s) : OnMems P (s.pop n rest) := by
  unfold State.pop
  dsimp only
  split
  · exact h.modMe _
  · exact h.untouched

theorem OnMems.src {o : Opnd} (h : OnMems P s) : OptOn P (·.2.2) (s.src o) := by
  unfold State.src
  split
  · split
    · exact trivial
    · exact h.ite h.pop
  · exact h

theorem OnMems.push {n : Nat} {v : Word} (h : OnMems P s) : OptOn P id (s.push n v) := by
  unfold State.push
  dsimp only
  split
  · exact trivial
  · exact (h.modMe _).ite h.untouched

theorem OnMems.put {s s0 : State} {o : Opnd} {v fl : Word} (h : OnMems P s) (hs0 : OnMems P s0) : (s.put s0 o v fl).On P := by
  unfold State.put
  split
  · split
    · exact hs0
    · next e => exact (h.push.on e).raise _
  · exact (h.raise _).modMe _

theorem OnMems.putDeferred {s s0 : State} {o : Opnd} {f : FaultReq} (h : OnMems P s) (hs0 : OnMems P s0) :
    (s.putDeferred s0 o f).On P := by
  unfold State.putDeferred
  split
  · exact hs0
  · exact h.modMe _

theorem OnMems.srcC {w : Operands} (h : OnMems P s) : OptOn P (·.2.2) (s.srcC w) := by
  unfold State.srcC
  split
  · exact h
  · exact h.src

theorem OnMems.arith {w : Operands} {tied : Bool} {f : Word → Word → Word → Val} (h : OnMems P s) :
    (arith w tied f s).On P := by
  unfold Machine.arith
  dsimp only
  split
  · exact h
  split
  · exact h
  split
  · next e _ _ _ _ e2 _ => exact (((h.src.on e).srcC).on e2).putDeferred h
  · next e _ _ _ _ e2 _ => exact (((h.src.on e).srcC).on e2).put h

theorem OnMems.execLih {w : Operands} (h : OnMems Canonical s) : OutOn Canonical (execLih w s) :=
  h.issue fun _ h => .ite (h.putDeferred h) (h.put h)

theorem OnMems.compare {w : Operands} {f : Word → Word → Bool × Bool × Word} (h : OnMems P s) : (compare w f s).On P := by
  unfold Machine.compare
  dsimp only
  split
  · exact h
  split
  · exact h
  split
  · exact h
  split
  · exact h
  · next e _ _ _ _ e2 _ _ => exact ((((h.src.on e).srcC).on e2).raise _).modMe _

theorem OnMems.movVE {w : Operands} (h : OnMems P s) : (movVE w s).On P := by
  unfold Machine.movVE
  split
  · split <;> exact h.modMe _
  · exact h.modMe _
  split
  · exact h
  · next e => exact (h.src.on e).put h

theorem OnMems.execMov {w : Operands} (h : OnMems Canonical s) : OutOn Canonical (execMov w s) := by
  refine h.issue fun t ht => ?_
  split
  · exact ht.arith
  · exact ht.movVE

/-! ## Loads and stores -/

theorem OnMems.deferS {w : Operands} (h : OnMems P s) : (s.deferS w).On P := h.unasked.modMe _

theorem OnMems.effLoad {opc sp : Nat} {w : Operands} (h : OnMems P s) : (effLoad opc sp w s).On P := by
  unfold Machine.effLoad
  dsimp only
  split
  · split
    · exact h.deferS
    · exact h
  split
  · exact h.deferS
  split
  · split
    · exact h.deferS
    · exact h
  split
  · split
    · exact h
    split
    · exact h
    · exact h.modMe _
  split
  · exact h.deferS
  split
  · next e4 => exact h.access.stall e4
  · split
    · next e4 _ => exact (h.access.fault e4).deferS
    · next e4 _ => exact h.access.fault e4
  split
  · next e4 _ => exact h.access.ok e4
  split
  · next e4 _ _ => exact h.access.ok e4
  split
  · next e4 _ _ _ _ _ e5 => exact ((h.access.ok e4).startHostRead).on e5
  · split
    · next e4 _ _ _ _ _ _ _ e6 _ => exact (((h.access.ok e4).poisonFault).on e6).deferS
    · next e4 _ _ _ _ _ _ _ e6 _ => exact ((h.access.ok e4).poisonFault).on e6
  · next e4 _ _ _ _ _ _ => exact ((h.access.ok e4).loadPieces).modMe _

theorem OnMems.storeAcquire {w : Operands} {first : Nat} (h : OnMems P s) : OnMems P (s.storeAcquire w first) := by
  unfold State.storeAcquire
  split
  · exact h.acquireFrom _ _ _
  · exact h

theorem OnMems.effStore {opc sp : Nat} {w : Operands} (h : OnMems Canonical s) : (effStore opc sp w s).On Canonical := by
  unfold Machine.effStore
  dsimp only
  split
  · exact h
  split
  · exact h
  split
  · split
    · exact h
    split
    · exact h
    split
    · exact h
    · exact h.pushToken
  split
  · next e4 => exact h.access.stall e4
  · next e4 => exact h.access.fault e4
  split
  · next e4 _ => exact h.access.ok e4
  · next e4 _ => exact ((h.access.ok e4).storePieces _ _ _).storeAcquire

theorem OnMems.effLdz {w : Operands} (h : OnMems P s) : (effLdz w s).On P := by
  unfold Machine.effLdz
  dsimp only
  split
  · exact h
  split
  · exact h
  split
  · exact h.untouched.modMe _
  split
  · exact h
  · exact h.modMe _

theorem OnMems.effStz {w : Operands} (h : OnMems Canonical s) : (effStz w s).On Canonical := by
  unfold Machine.effStz
  dsimp only
  split
  · exact h
  split
  · exact h
  split
  · exact h
  split
  · exact h
  · exact h.holdTile.beside

theorem OnMems.checkLanes {m : VMem} {w : Operands} {fmt span : Option PageFmt} {l : List LaneAcc} (h : OnMems P s) :
    OnMems P (s.checkLanes m w fmt span l).1 := by
  induction l generalizing s with
  | nil => exact h
  | cons x r ih =>
    unfold State.checkLanes
    dsimp only
    split
    · next e => exact h.access.stall e
    · next e => exact h.access.fault e
    next t ps e =>
    have ht := h.access.ok e
    split
    · exact ht
    split
    · next e' => exact (OptOn.ite (o := none) trivial ht.startHostRead).on e'
    · next e' => exact (OptOn.ite (o := none) trivial ht.poisonFault).on e'
    · exact ih ht

theorem OnMems.loadLanes {l : List (LaneAcc × List Piece)} (h : OnMems P s) : OnMems P (s.loadLanes l).2 := by
  induction l generalizing s with
  | nil => exact h
  | cons x r ih => exact ih h.loadPieces

theorem OnMems.storeLanes {w : Operands} {fmt : Option PageFmt} {v : Vec} {l : List (LaneAcc × List Piece)}
    (h : OnMems Canonical s) :
    OnMems Canonical (s.storeLanes w fmt v l) :=
  (h.storeAll _ _).raise _

theorem OnMems.redLanes {w : Operands} {v : Vec} {l : List (LaneAcc × List Piece)} (h : OnMems P s) :
    OnMems P (s.redLanes w v l) :=
  h.foldl (fun _ _ h => h.foldl (fun _ _ h => h.issueRed) _) _

theorem OnMems.noProgress (h : OnMems P s) : OnMems P s.noProgress := h.modMe _

theorem OnMems.putLoaded {w : Operands} {on : Nat → Bool} {ls : List Lane} (h : OnMems P s) : OnMems P (s.putLoaded w on ls) :=
  h.modMe _

theorem OnMems.performLanes {m : VMem} {w : Operands} {fmt : Option PageFmt} {l : List (LaneAcc × List Piece)}
    (h : OnMems Canonical s) :
    OnMems Canonical (s.performLanes m w fmt l) := by
  unfold State.performLanes
  dsimp only
  split
  · split
    · exact h.redLanes
    · exact h.storeLanes.storeAcquire
  · exact h.loadLanes.putLoaded

theorem OnMems.deferV {opc : Nat} {w : Operands} (h : OnMems P s) : (s.deferV opc w).On P := h.unasked.noProgress.modMe _

theorem OnMems.effVec {m : VMem} {w : Operands} (h : OnMems Canonical s) : (effVec m w s).On Canonical := by
  unfold Machine.effVec
  extract_lets spec base a fail fmt ix accs misaligned early first upto
  have hfail : ∀ f t, OnMems Canonical t → (fail f t).On Canonical := fun f t ht => .ite ht.deferV ht
  split
  · exact .ite h.deferV h
  refine .ite h.deferV (.ite h.deferV ?_)
  generalize hc : s.checkLanes m w _ _ _ = r
  obtain ⟨t, l, stop⟩ := r
  have ht : OnMems Canonical t := h.checkLanes.fst hc
  cases stop with
  | none =>
    dsimp only
    cases first with
    | some f => exact hfail _ _ ht
    | none => exact .ite ht ht.performLanes.noProgress
  | stall => exact ht
  | fault f =>
    refine .ite (hfail _ _ ht) (.ite ht.deferV (.ite ht ?_))
    exact (ht.unless (·.performLanes)).modMe _

theorem OnMems.effPref {w : Operands} (h : OnMems P s) : (effPref w s).On P := by
  unfold Machine.effPref
  dsimp only
  split
  · exact h
  split
  · exact h
  split
  · next e2 => exact h.untouched.ite (h.usePage.ok e2)
  · next e2 => exact h.usePage.stall e2
  · exact h

/-! ## Atomics, reductions and fences -/

theorem OnMems.issueAtomic {opc : Nat} {w : Operands} {p : Piece} {op : Option Nat} {v expect : Word} (h : OnMems P s) :
    OnMems P (s.issueAtomic opc w p op v expect) :=
  (h.issueEntries _ _).modMe _

theorem OnMems.effAtomic {opc sp : Nat} {w : Operands} {op : Option Nat} {v expect : Word} (h : OnMems P s) :
    (effAtomic opc sp w op v expect s).On P := by
  unfold Machine.effAtomic
  dsimp only
  split
  · exact h
  split
  · exact h
  split
  · next e3 => exact h.access.stall e3
  · next e3 => exact h.access.fault e3
  split
  · next e3 e4 => exact ((h.access.ok e3).poisonFault).on e4
  · next e3 _ => exact h.access.ok e3
  split
  · next e3 _ _ => exact h.access.ok e3
  · next e3 _ _ => exact (h.access.ok e3).issueAtomic

theorem OnMems.effAmo {opc sp : Nat} {w : Operands} (h : OnMems P s) : (effAmo opc sp w s).On P := by
  unfold Machine.effAmo
  exact h.effAtomic

theorem OnMems.effCas {opc sp : Nat} {w : Operands} (h : OnMems P s) : (effCas opc sp w s).On P := by
  unfold Machine.effCas
  exact h.effAtomic

theorem OnMems.effRed {opc sp : Nat} {w : Operands} (h : OnMems P s) : (effRed opc sp w s).On P := by
  unfold Machine.effRed
  dsimp only
  split
  · exact h
  split
  · exact h
  split
  · next e3 => exact h.access.stall e3
  · next e3 => exact h.access.fault e3
  split
  · next e3 _ _ _ e4 => exact ((h.access.ok e3).poisonFault).on e4
  split
  · next e3 _ _ _ => exact h.access.ok e3
  split
  · next e3 _ _ _ _ _ _ => exact h.access.ok e3
  · next e3 _ _ _ _ _ => exact (h.access.ok e3).foldl (fun _ _ h => h.issueRed) _

theorem OnMems.effFence {w : Operands} (h : OnMems P s) : (effFence w s).On P := by
  unfold Machine.effFence
  split <;> exact h

theorem OnMems.effFencer {w : Operands} (h : OnMems P s) : (effFencer w s).On P := by
  unfold Machine.effFencer
  dsimp only
  repeat' split
  all_goals exact h

/-! ## Context frames, saving and restoring a slot -/

theorem OnMems.freeSlot {k : Nat} (h : OnMems P s) : OnMems P (s.freeSlot k) := by
  unfold State.freeSlot
  dsimp only
  split
  · exact h.cleanSlot.setAct _ _
  · exact (h.cleanSlot.setAct _ _).modCore _ _

theorem OnMems.renameWaiter {p : Waiter → Bool} {f : Waiter → Waiter} (h : OnMems P s) : OnMems P (s.renameWaiter p f) :=
  h.untouched

theorem OnMems.saveInto {k n : Nat} {why : SaveWhy} {code : Nat} (h : OnMems Canonical s) :
    OnMems Canonical (s.saveInto k n why code) := by
  unfold State.saveInto
  refine OnMems.freeSlot (OnMems.modCore (OnMems.renameWaiter (OnMems.modPart (OnMems.beside ?_) _ _)) _ _)
  have hp : ∀ asid va bs, OnMems Canonical ((s.evictSlot k fun _ => true).pokeVirt asid va bs) := fun _ _ _ => h.evictSlot.pokeVirt
  refine OnMems.unless (hp _ _ _) fun hp => ?_
  split
  · exact hp
  · exact (hp.unpoison _ _ _).beside

theorem OnMems.returnFrame {core part n : Nat} (h : OnMems Canonical s) : OnMems Canonical (s.returnFrame core part n) := by
  unfold State.returnFrame
  dsimp only
  split
  · exact (h.modPart _ _).note
  · exact (h.modPart _ _).modDie _ _

theorem OnMems.resumeWait {k : Nat} (h : OnMems Canonical s) : OnMems Canonical (s.resumeWait k) := by
  have hm : ∀ t f, OnMems Canonical t → OnMems Canonical (t.modAct k f) := fun _ _ ht => ht.modAct _ _
  have hl : ∀ l, OnMems Canonical { s with sigs := l } := fun l => h.beside
  unfold State.resumeWait
  extract_lets a
  clear_value a
  obtain _ | w := a.wait
  · exact h
  generalize a.wrel = r
  cases r with
  | released => exact hm _ _ h
  | orphaned => exact (hm _ _ h).takeFaultAt
  | poisoned => exact (hm _ _ h).takeFaultAt
  | none =>
    dsimp only
    generalize w.on = on
    cases on with
    | time | room => exact hm _ _ h
    | signal | group | tile => exact OnMems.ite (hm _ _ h) (hm _ _ (hl _)).takeFaultAt

theorem OnMems.resumeAs {k : Nat} {sv : Option SaveReq} {how : ResumeHow} {entry : Word} {ws : List Word} {code : Nat}
    (h : OnMems P s) :
    OnMems P (s.resumeAs k sv how entry ws code) := by
  unfold State.resumeAs
  extract_lets resolve
  have hresolve : ∀ t l, OnMems P t → OnMems P (resolve t l) := fun t l ht =>
    (ht.untouched.foldl (fun _ _ h => h.resolveGuard) l).beside
  split
  · exact h
  · split
    · exact h.modAct _ _
    · exact hresolve _ _ (h.modAct _ _)
  · exact (hresolve _ _ h).modAct _ _

theorem OnMems.restoreInto {k part n : Nat} {how : ResumeHow} (h : OnMems Canonical s) :
    (s.restoreInto k part n how).On Canonical := by
  unfold State.restoreInto
  extract_lets core keep p va bs bad f pc ws code
  split
  · exact h.noteFrame
  split
  · exact h.noteFrame
  split
  · exact h
  · refine OnMems.resumeWait (OnMems.modCore (OnMems.returnFrame ?_) _ _)
    exact (((h.clearBank.setAct _ _).beside.renameWaiter).resumeAs).unless (·.beside)

theorem OnMems.hostReturn {k part n : Nat} (h : OnMems Canonical s) : OnMems Canonical (s.hostReturn k part n) := by
  unfold State.hostReturn
  split
  · next e => exact h.freeSlot.restoreInto.ok e
  · next e => exact h.freeSlot.restoreInto.refused e

theorem OnMems.endSlot {k : Nat} (h : OnMems Canonical s) : OnMems Canonical (s.endSlot k) := by
  unfold State.endSlot
  dsimp only
  split
  · exact h.hostReturn
  · exact h.freeSlot

/-! ## Signal blocks -/

theorem OnMems.releaseFrame {part n core : Nat} {r : WRel} (h : OnMems Canonical s) :
    OnMems Canonical (s.releaseFrame part n core r) := by
  unfold State.releaseFrame
  dsimp only
  split
  · split
    · exact h.pokeVirt.untouched.modCore _ _
    · exact h.pokeVirt.untouched
  split
  · exact h.pokeVirt.untouched.modCore _ _
  · exact h.pokeVirt.untouched

theorem OnMems.wakeWaiter {w : Waiter} {r : WRel} (h : OnMems Canonical s) : OnMems Canonical (s.wakeWaiter w r) := by
  unfold State.wakeWaiter
  split
  · exact h.releaseFrame
  split
  · exact h.releaseAt
  · exact h
  split
  · exact h.failAt
  · exact h

theorem OnMems.acquireWaiters {wid : Nat} {out : List Waiter} (h : OnMems P s) : OnMems P (s.acquireWaiters wid out) := by
  refine h.foldl (fun t w ht => ?_) _
  dsimp only
  split
  · exact ht.modAct _ _
  · exact ht.beside

theorem OnMems.closeBlock {d wid home : Nat} {dup : Bool} {b : Block} {out : List Waiter} {poisoned : Bool}
    (h : OnMems Canonical s) : OnMems Canonical (s.closeBlock d wid home dup b out poisoned) := by
  unfold State.closeBlock
  extract_lets q rest gone s1 s2 s3 s4
  have h2 : OnMems Canonical s2 := OnMems.putBlock h.beside _ _ _ _ _
  have h3 : OnMems Canonical s3 := h2.unless (·.acquireWaiters)
  have h4 : OnMems Canonical s4 := h3.foldl (fun _ _ h => h.wakeWaiter) _
  exact h4.when fun h => h.foldl (fun _ _ h => h.wakeWaiter) _

theorem OnMems.sigUpdate {d wid home : Nat} {dup set : Bool} {x : Word} {units : Nat} (h : OnMems Canonical s) :
    OnMems Canonical (s.sigUpdate d wid home dup set x units) :=
  h.closeBlock

theorem OnMems.sigPoison {d wid home : Nat} {dup : Bool} {units : Nat} (h : OnMems Canonical s) :
    OnMems Canonical (s.sigPoison d wid home dup units) := by
  unfold State.sigPoison
  exact h.closeBlock

theorem OnMems.checkRef {d key : Nat} {p : Part} {r : Word} {word : Nat} (h : OnMems P s) :
    (s.checkRef d key p r word).On P := by
  unfold State.checkRef
  dsimp only
  split
  · repeat' split
    all_goals exact h
  split
  · exact h
  split
  · next e2 => exact h.usePage.stall e2
  · next e2 => exact h.usePage.fault e2
  · next e2 => exact h.usePage.ok e2

theorem OnMems.reach {r : Word} (h : OnMems P s) : (s.reach r).On P := by
  unfold State.reach
  split
  · exact h
  · exact h.checkRef

theorem OnMems.ownerReady {p : Piece} {near : Bool} (h : OnMems P s) : OnMems P (s.ownerReady p near).2 := by
  unfold State.ownerReady
  dsimp only
  split
  · exact h
  split
  · exact h
  split
  · exact h.dupReady
  · exact h.dupReady.lineReady

theorem OnMems.signalOp {opc : Nat} {w : Operands} {fields : List Nat} {r : Word} {rel : Bool} {before : Option FaultReq}
    {at_ : State → Piece → Nat → Res} (h : OnMems P s) (hat : ∀ t p home, OnMems P t → (at_ t p home).On P) :
    (s.signalOp opc w fields r rel before at_).On P := by
  unfold State.signalOp
  split
  · exact h
  split
  · next e => exact h.reach.stall e
  · next e => exact h.reach.fault e
  next t p home e =>
    have ht := h.reach.ok e
    have ho : OnMems P (t.ownerReady p false).2 := ht.ownerReady
    split
    · exact ht
    · exact Res.On.ite ht (.ite ho (.ite ho (hat _ _ _ ho.noteIds)))

theorem OnMems.sigWid {p : Piece} (h : OnMems P s) : OnMems P (s.sigWid p).2 := by
  unfold State.sigWid
  dsimp only
  split
  · exact h.untouched
  · exact h.untouched.noteOwn

theorem OnMems.sigAcquire {p : Piece} {wid : Nat} {sc : Scope} (h : OnMems P s) : OnMems P (s.sigAcquire p wid sc) := by
  unfold State.sigAcquire
  split
  · exact h
  · exact h.modMe _

theorem OnMems.effSigUpdate {opc : Nat} {set : Bool} {w : Operands} (h : OnMems Canonical s) :
    (effSigUpdate opc set w s).On Canonical := by
  unfold Machine.effSigUpdate
  refine h.signalOp fun t p home ht => ?_
  split
  · exact ht
  · exact ((ht.sigWid.modMe _).when (·.sigAcquire)).sigUpdate

theorem OnMems.effSigfree {w : Operands} (h : OnMems Canonical s) : (effSigfree w s).On Canonical := by
  unfold Machine.effSigfree
  exact h.signalOp fun _ _ _ ht => .ite ht (ht.sigWid.putBlock _ _ _ _ _)

theorem OnMems.effSignew {w : Operands} (h : OnMems Canonical s) : (effSignew w s).On Canonical := by
  unfold Machine.effSignew
  refine h.signalOp fun t p home ht => .ite ht ?_
  split
  · exact ht
  · exact (OnMems.closeBlock (ht.sigWid.modPart _ _)).modMe _

theorem OnMems.waitAt {p : Piece} {home : Nat} {sc : Scope} {r : Word} {target : Option Word} (h : OnMems Canonical s) :
    (s.waitAt p home sc r target).On Canonical := by
  unfold State.waitAt
  dsimp only
  split
  · exact h
  refine Res.On.ite h (.ite h (.ite h.sigWid.sigAcquire.closeBlock (.ite h ?_)))
  exact (h.sigWid.untouched.putBlock _ _ _ _ _).enterWait

theorem OnMems.effSigwait {w : Operands} (h : OnMems Canonical s) : (effSigwait w s).On Canonical := by
  unfold Machine.effSigwait
  exact h.signalOp (fun _ _ _ h => h.waitAt)

theorem OnMems.effWaita {w : Operands} (h : OnMems Canonical s) : (effWaita w s).On Canonical := by
  unfold Machine.effWaita
  exact h.signalOp (fun _ _ _ h => h.waitAt)

theorem OnMems.effWakea {w : Operands} (h : OnMems Canonical s) : (effWakea w s).On Canonical := by
  unfold Machine.effWakea
  refine h.signalOp fun t p home ht => ?_
  dsimp only
  split
  · exact ht
  · exact ht.sigWid.closeBlock

theorem OnMems.effOblgive {w : Operands} (h : OnMems P s) : (effOblgive w s).On P := by
  unfold Machine.effOblgive
  dsimp only
  split
  · exact h
  split
  · exact h
  split
  · exact h
  split
  · exact h
  · exact h.modMe _

theorem OnMems.effOblqry {w : Operands} (h : OnMems P s) : (effOblqry w s).On P := by
  unfold Machine.effOblqry
  dsimp only
  split
  · exact h
  · exact h.modMe _

theorem OnMems.effObltake {w : Operands} (h : OnMems Canonical s) : (effObltake w s).On Canonical := by
  unfold Machine.effObltake
  refine h.signalOp fun t p home ht => ?_
  dsimp only
  split
  · exact ht
  · exact .ite ht ((ht.sigWid.closeBlock.ite (ht.sigWid.putBlock _ _ _ _ _)).modMe _)

/-! ## Groups and barriers -/

theorem OnMems.wakeAll {p : WaitOn → Bool} {r : WRel} (h : OnMems Canonical s) : OnMems Canonical (s.wakeAll p r) :=
  h.foldl (fun _ _ h => h.wakeWaiter) _

theorem OnMems.effBara {w : Operands} (h : OnMems P s) : (effBara w s).On P := by
  unfold Machine.effBara
  dsimp only
  split
  · exact h
  split
  · exact h
  split
  · exact h
  split
  · exact h
  · exact (h.modCore _ _).modPart _ _

theorem OnMems.effBarw {w : Operands} (h : OnMems P s) : (effBarw w s).On P := by
  unfold Machine.effBarw
  refine Res.On.ite h ?_
  split
  · exact h
  · exact Res.On.ite h (.ite h (.ite h (.ite h h.enterWait)))

theorem OnMems.effGrpqry {w : Operands} (h : OnMems P s) : (effGrpqry w s).On P := by
  unfold Machine.effGrpqry
  dsimp only
  split
  · exact h
  · exact h.modMe _

theorem OnMems.execBarrierArrival {part group cluster : Nat} (h : OnMems P s) :
    OutOn P (execBarrierArrival part group cluster s) := by
  unfold Machine.execBarrierArrival
  dsimp only
  split
  · exact h.modPart _ _
  · exact h

theorem OnMems.releasePhase {part group : Nat} {poisoned : Bool} (h : OnMems Canonical s) :
    OnMems Canonical (s.releasePhase part group poisoned) :=
  (h.modPart _ _).wakeAll

theorem OnMems.execBarrierRelease {part group : Nat} (h : OnMems Canonical s) :
    OutOn Canonical (execBarrierRelease part group s) := by
  unfold Machine.execBarrierRelease
  dsimp only
  split
  · exact h.releasePhase
  · exact h

/-! ## The routers of a die -/

theorem OnMems.carry {d r : Nat} (h : OnMems P s) : OnMems P (s.carry d r) := h.modDie _ _

theorem OnMems.carryWay {a b : Nat} (h : OnMems P s) : OnMems P (s.carryWay a b) := by
  unfold State.carryWay
  split
  · exact h.foldl (fun _ _ h => h.carry) _
  · exact h.carry.carry

/-! ## Local-time mode -/

theorem OnMems.modPeer {c other : Nat} {f : Core → Core} (h : OnMems P s) : OnMems P (s.modPeer c other f) := by
  unfold State.modPeer
  split
  · exact h.modCore _ _
  · exact h

theorem OnMems.clockMsg {c j : Nat} {null : Bool} (h : OnMems P s) : OnMems P (s.clockMsg c j null) := by
  unfold State.clockMsg
  dsimp only
  split
  · exact h
  · exact ((h.modCore _ _).modPeer).carryWay

theorem OnMems.announceDue {c : Nat} (h : OnMems P s) : OnMems P (s.announceDue c) := by
  unfold State.announceDue
  refine h.foldl (fun t j ht => ?_) _
  split
  · exact ht.when (·.clockMsg)
  · exact ht

theorem OnMems.raiseLvt {c v : Nat} (h : OnMems P s) : OnMems P (s.raiseLvt c v) := by
  unfold State.raiseLvt
  split
  · exact h
  · exact (h.modCore _ _).announceDue

theorem OnMems.restoreTimer {core key : Nat} (h : OnMems P s) : OnMems P (s.restoreTimer core key) := by
  unfold State.restoreTimer
  split
  · exact h
  · exact h.modCore _ _

theorem OnMems.endTimeWait {core k t : Nat} (h : OnMems P s) : OnMems P (s.endTimeWait core k t) := h.releaseAt.raiseLvt

theorem OnMems.freeTimers {core : Nat} (h : OnMems P s) : OnMems P (s.freeTimers core) := by
  unfold State.freeTimers
  refine (h.foldl (fun t k ht => ?_) _).foldl (fun t x ht => ?_) _
  · split
    · exact ht.when (·.endTimeWait)
    · exact ht
  · exact ht.when (·.restoreTimer)

theorem OnMems.endEventWait {core t k : Nat} {framed : Bool} (h : OnMems P s) : OnMems P (s.endEventWait core t k framed) := by
  unfold State.endEventWait
  split
  · exact h.restoreTimer
  · exact h.endTimeWait

theorem OnMems.completeTimers {core : Nat} (h : OnMems P s) : OnMems P (s.completeTimers core) := by
  unfold State.completeTimers
  dsimp only
  split
  · exact h.freeTimers.endEventWait
  · exact h.freeTimers

theorem OnMems.applyClock {c i : Nat} {null : Bool} (h : OnMems P s) : OnMems P (s.applyClock c i null) := by
  unfold State.applyClock
  split
  · exact h
  split
  · exact h
  split
  · exact h
  · exact (h.modCore _ _).completeTimers

theorem OnMems.demandAll {c d : Nat} (h : OnMems P s) : OnMems P (s.demandAll c d) := by
  unfold State.demandAll
  refine h.foldl (fun t i ht => ?_) _
  split
  · exact ht
  · exact ht.unless fun ht => ((ht.modCore _ _).modPeer).carryWay

theorem OnMems.demandHeld {c : Nat} (h : OnMems P s) : OnMems P (s.demandHeld c) := by
  refine OnMems.foldl (fun t x ht => ht.when (·.demandAll)) _ ?_
  split
  · exact h.unless (·.demandAll)
  · exact h

theorem OnMems.execDemand {core link : Nat} (h : OnMems P s) : OutOn P (execDemand core link s) := by
  unfold Machine.execDemand
  dsimp only
  split
  · exact h
  split
  · exact h
  split
  · exact h
  · exact ((h.modCore _ _).when (·.clockMsg)).when (·.demandAll)

theorem OnMems.insertLink {part : Nat} {l : Link} {floor : Nat} (h : OnMems P s) : OnMems P (s.insertLink part l floor) := by
  unfold State.insertLink
  exact ((h.modPart _ _).modCore _ _).modCore _ _

theorem OnMems.countSent {src j : Nat} (h : OnMems P s) : OnMems P (s.countSent src j) := h.modCore _ _

theorem OnMems.effLtadv {w : Operands} (h : OnMems P s) : (effLtadv w s).On P := by
  unfold Machine.effLtadv
  split
  · exact h
  · exact h.raiseLvt.ite h

theorem OnMems.effLtann (h : OnMems P s) : (effLtann s).On P := by
  unfold Machine.effLtann
  exact (h.foldl (fun _ _ h => h.clockMsg) _).ite h

theorem OnMems.effLtget {w : Operands} (h : OnMems P s) : (effLtget w s).On P := by
  unfold Machine.effLtget
  split
  · exact h
  · exact h.modMe _

theorem OnMems.effLtlook {w : Operands} (h : OnMems P s) : (effLtlook w s).On P := by
  unfold Machine.effLtlook
  dsimp only
  split
  · exact h
  split
  · exact h.modMe _
  split
  · exact h.modMe _
  split
  · exact h
  · exact h.insertLink.modMe _

theorem OnMems.promise {c j b : Nat} (h : OnMems P s) : OnMems P (s.promise c j b) := by
  unfold State.promise
  split
  · exact h
  · exact (h.modCore _ _).clockMsg

theorem OnMems.effLtnull {w : Operands} (h : OnMems P s) : (effLtnull w s).On P := by
  unfold Machine.effLtnull
  dsimp only
  split
  · exact h
  · exact (h.foldl (fun _ _ h => h.promise) _).ite h

theorem OnMems.effLtset {w : Operands} (h : OnMems P s) : (effLtset w s).On P := by
  unfold Machine.effLtset
  dsimp only
  split
  · exact h
  · exact (h.modMe _).ite h

theorem OnMems.effLtwait {w : Operands} (h : OnMems P s) : (effLtwait w s).On P := by
  unfold Machine.effLtwait
  dsimp only
  split
  · split <;> exact h
  split
  · exact h
  split
  · exact h
  split
  · exact h
  split
  · exact h.raiseLvt
  · exact h.enterWait.demandHeld

/-! ## What every engine command shares -/

theorem OnMems.takeSeq {core : Nat} {vn : VN} {die : Nat} (h : OnMems P s) : OptOn P (·.2.2) (s.takeSeq core vn die) := by
  have hcount : ∀ k v l, OnMems P (s.modCore core (fun c => { c with seqs := tset 0 k v l })) := fun k v l => h.modCore _ _
  unfold State.takeSeq
  dsimp only
  split
  · exact hcount _ _ _
  cases (s.core core).seqs.find? (fun e => !s.unacknowledged core e.1) with
  | none => trivial
  | some e => exact hcount _ _ _

theorem OnMems.postMsg {core : Nat} {m : Msg} (h : OnMems P s) : OnMems P (s.postMsg core m) := h.untouched

theorem OnMems.setTile {core i : Nat} {t : Tile} (h : OnMems P s) : OnMems P (s.setTile core i t) := h.modCore _ _

theorem OnMems.wakeSource {w : Waiter} (h : OnMems Canonical s) : OnMems Canonical (s.wakeSource w) := by
  unfold State.wakeSource
  split
  · exact h.wakeWaiter
  split
  · exact h.retryAt
  · exact h.wakeWaiter

theorem OnMems.serveTile {core i : Nat} {l : List Waiter} (h : OnMems Canonical s) :
    OnMems Canonical (s.serveTile core i l) := by
  induction l generalizing s with
  | nil => exact h
  | cons w r ih =>
    unfold State.serveTile
    refine ih ?_
    split
    · exact h.wakeSource
    · exact h.setTile.wakeWaiter
    · exact h.setTile.wakeWaiter
    · exact h.setTile.wakeWaiter
    · exact h.wakeWaiter

theorem OnMems.tileReady {core i : Nat} {poisoned : Bool} (h : OnMems Canonical s) :
    OnMems Canonical (s.tileReady core i poisoned) := by
  unfold State.tileReady
  dsimp only
  split
  · exact h.setTile.wakeAll
  · exact h.setTile.serveTile

theorem OnMems.setCmd {core : Nat} {e : Eng} {i : Nat} {c : Cmd} (h : OnMems P s) : OnMems P (s.setCmd core e i c) :=
  h.modCore _ _

theorem OnMems.dropCmd {core : Nat} {e : Eng} {i : Nat} (h : OnMems P s) : OnMems P (s.dropCmd core e i) := h.modCore _ _

theorem OnMems.bidding {core : Nat} {e : Eng} {i : Nat} {c : Cmd} {addr tile : Nat} (h : OnMems P s) :
    OptOn P id (s.bidding core e i c addr tile) := by
  unfold State.bidding
  split
  · exact h.setCmd
  split
  · exact trivial
  · exact h

theorem OnMems.passTurn {e : Eng} {core : Nat} (h : OnMems P s) : OnMems P (s.passTurn e core) := h.untouched

theorem OnMems.parkCmd {core : Nat} {e : Eng} {i : Nat} {c : Cmd} {f : FaultReq} (h : OnMems Canonical s) :
    OnMems Canonical (s.parkCmd core e i c f) := by
  unfold State.parkCmd
  dsimp only
  split
  · split
    · exact h.forgetKey.setCmd.coalJoin.coalRecord
    · exact h.forgetKey.setCmd.coalJoin
  · exact h.forgetKey.setCmd.coalJoin

theorem OnMems.unparkCmd {core id : Nat} (h : OnMems P s) : OnMems P (s.unparkCmd core id) := by
  unfold State.unparkCmd
  exact h.modCore _ _

theorem OnMems.engPage {core : Nat} {e : Eng} {c : Cmd} {va n : Nat} {u : Use} (h : OnMems P s) :
    (s.engPage core e c va n u).On P := by
  unfold State.engPage
  dsimp only
  split
  · exact h
  split
  · next e => exact h.useGlb.stall e
  · next e => exact h.useGlb.fault e
  split
  · next e _ _ _ => exact (h.useGlb.ok e).when (·.hostReadFailed)
  · next e _ _ => exact h.useGlb.ok e

theorem OnMems.engAccess {core : Nat} {e : Eng} {c : Cmd} {va n : Nat} {u : Use} (h : OnMems P s) :
    (s.engAccess core e c va n u).On P := by
  unfold State.engAccess
  dsimp only
  split
  · exact h
  split
  · next e2 => exact h.engPage.stall e2
  · next e2 => exact h.engPage.fault e2
  split
  · next e2 _ => exact h.engPage.ok e2
  split
  · next e2 _ _ _ e3 => exact ((h.engPage.ok e2).engPage).stall e3
  · next e2 _ _ _ _ e3 => exact ((h.engPage.ok e2).engPage).fault e3
  · next e2 _ _ _ _ e3 => exact ((h.engPage.ok e2).engPage).ok e3

theorem OnMems.engLoad {d : Nat} {p : Piece} (h : OnMems P s) : OnMems P (s.engLoad d p).2 := by
  unfold State.engLoad
  dsimp only
  split
  · exact h
  · exact h
  · exact h
  · exact h
  · exact h.untouched

theorem OnMems.engLoads {d : Nat} {ps : List Piece} (h : OnMems P s) : OnMems P (s.engLoads d ps).2 := by
  induction ps generalizing s with
  | nil => exact h
  | cons p r ih => exact ih h.engLoad

theorem OnMems.engReady {d key : Nat} {p : Piece} (h : OnMems P s) : OnMems P (s.engReady d key p).2 := by
  unfold State.engReady
  split
  · exact h
  split
  split
  · next e _ => exact h.dupReady.snd e
  · next e _ => exact (h.dupReady.snd e).linesReady

theorem OnMems.engReadies {d key : Nat} {ps : List Piece} (h : OnMems P s) : OnMems P (s.engReadies d key ps).2 := by
  induction ps generalizing s with
  | nil => exact h
  | cons p r ih => exact ih h.engReady

theorem OnMems.engBlock {core : Nat} {e : Eng} {c : Cmd} {ref : Word} (h : OnMems P s) : (s.engBlock core e c ref).On P := by
  unfold State.engBlock
  split
  · next e => exact h.checkRef.stall e
  · next e => exact h.checkRef.fault e
  next t p home he =>
    have ho : OnMems P (t.engReady (dieOf core) (engKey core e) p).2 := (h.checkRef.ok he).engReady
    refine SigRes.On.ite ho (.ite ho ?_)
    split
    · exact ho
    · exact ho

theorem OnMems.engSignal {core : Nat} {e : Eng} {c : Cmd} {ref x : Word} {units : Nat} (h : OnMems Canonical s) :
    (s.engSignal core e c ref x units).On Canonical := by
  unfold State.engSignal
  dsimp only
  split
  · next e => exact h.engBlock.stall e
  · next e => exact h.engBlock.fault e
  · next e => exact ((h.engBlock.ok e).untouched).sigUpdate

theorem OnMems.payUnits {core : Nat} {e : Eng} {c : Cmd} {ref : Word} {n : Nat} (h : OnMems Canonical s) :
    (s.payUnits core e c ref n).1.On Canonical := by
  induction n generalizing s c with
  | zero => exact h
  | succ n ih =>
    unfold State.payUnits
    split
    · next e => exact ih (h.engSignal.ok e)
    · exact h.engSignal

theorem OnMems.payAll {core : Nat} {e : Eng} {c : Cmd} {l : List Obl} (h : OnMems Canonical s) :
    (s.payAll core e c l).On Canonical := by
  induction l generalizing s c with
  | nil => exact h
  | cons o r ih =>
    unfold State.payAll
    split
    · exact ih (h.when (·.tileReady))
    · have hp : (s.payUnits core e c o.handle o.count).1.On Canonical := h.payUnits
      split
      · next e' => exact ih (hp.ok (congrArg Prod.fst e'))
      · next e' => exact hp.stall (congrArg Prod.fst e')
      · next e' => exact hp.fault (congrArg Prod.fst e')
    · exact ih h

theorem OnMems.finishCmd {core : Nat} {e : Eng} {i : Nat} {c : Cmd} {last : State → State} (h : OnMems Canonical s)
    (hlast : ∀ t, OnMems Canonical t → OnMems Canonical (last t)) :
    OnMems Canonical (s.finishCmd core e i c last) := by
  unfold State.finishCmd
  split
  · next e => exact hlast _ ((h.payAll.ok e).dropCmd)
  · next e => exact (h.payAll.stall e).setCmd
  · next e => exact (h.payAll.fault e).parkCmd

theorem OnMems.accept {opc : Nat} {w : Operands} {e : Eng} {op : CmdOp} {z : Option Nat} {check : Option FaultReq}
    {fill : Cmd → Cmd} {after : State → Cmd → State} (h : OnMems P s) (hafter : ∀ t c, OnMems P t → OnMems P (after t c)) :
    (s.accept opc w e op z check fill after).On P := by
  unfold State.accept
  dsimp only
  split
  · exact h
  split
  · exact h
  · exact hafter _ _ ((h.untouched.unless (fun h => h.modMe _)).modCore _ _)

/-! ## The matrix unit -/

theorem OnMems.effMma {w : Operands} (h : OnMems P s) : (effMma w s).On P := by
  unfold Machine.effMma
  exact h.accept (fun _ _ h => h)

theorem OnMems.effMmz {w : Operands} (h : OnMems P s) : (effMmz w s).On P := by
  unfold Machine.effMmz
  exact h.accept (fun _ _ h => h)

theorem OnMems.drainLink {core : Nat} {c : Cmd} (h : OnMems P s) : OnMems P (s.drainLink core c) := by
  unfold State.drainLink
  dsimp only
  split
  · exact h
  split
  · exact h
  · exact (h.modCore _ _).countSent

theorem OnMems.effMmdrain {w : Operands} (h : OnMems P s) : (effMmdrain w s).On P := by
  unfold Machine.effMmdrain
  exact h.accept (fun _ _ h => h.drainLink)

theorem OnMems.effMmrow {w : Operands} (h : OnMems P s) : (effMmrow w s).On P := by
  unfold Machine.effMmrow
  dsimp only
  split
  · exact h
  split
  · exact h
  · exact h.modMe _

theorem OnMems.grantStep {octet : Nat} (h : OnMems P s) : OptOn P Prod.snd (s.grantStep octet) := by
  unfold State.grantStep
  dsimp only
  split
  · exact h.untouched
  · exact OptOn.map fun _ => h.beside

theorem OnMems.holdStep {core : Nat} (h : OnMems P s) : OnMems P (s.holdStep core) := h.untouched

theorem OnMems.closeHeads {octet : Nat} {op : CmdOp} (h : OnMems Canonical s) : OnMems Canonical (s.closeHeads octet op) := by
  unfold State.closeHeads
  refine h.foldl (fun t core ht => ?_) _
  split
  · exact ht.when (·.finishCmd fun _ h => h)
  · exact ht

theorem OnMems.accClean {core tile : Nat} (h : OnMems P s) : OnMems P (s.accClean core tile) := h.untouched

theorem OnMems.tileElems {core tile : Nat} (h : OnMems P s) : OnMems P (s.tileElems core tile).2 := by
  unfold State.tileElems
  split
  · exact h
  · exact h.untouched

theorem OnMems.putTile {core tile : Nat} {l : List Lane} (h : OnMems P s) : OnMems P (s.putTile core tile l) := by
  unfold State.putTile
  exact h.beside

theorem OnMems.operandFmt {core : Nat} {c : Cmd} {o : Nat} (h : OnMems P s) : ExOn P (·.2.2) (s.operandFmt core c o) := by
  unfold State.operandFmt
  split
  · next e => exact h.engAccess.stall e
  · next e => exact h.engAccess.fault e
  · next e =>
    split
    · exact h.engAccess.ok e
    · exact h.engAccess.ok e

theorem OnMems.bothFmts {core : Nat} {c : Cmd} (h : OnMems P s) : ExOn P (·.2) (s.bothFmts core c) := by
  unfold State.bothFmts
  split
  · exact h
  split
  · next e => exact h.operandFmt.error e
  next e =>
    have ha := h.operandFmt.ok e
    split
    · next e' => exact ha.operandFmt.error e'
    · next e' => exact ExOn.ite (ha.operandFmt.ok e') (.ite (ha.operandFmt.ok e') (ha.operandFmt.ok e'))

theorem OnMems.lineLanes {core : Nat} {c : Cmd} {f : PageFmt} {geom start p : Nat} (h : OnMems P s) :
    ExOn P (·.2) (s.lineLanes core c f geom start p) := by
  unfold State.lineLanes
  refine ExOn.ite h ?_
  split
  · next e => exact h.engAccess.stall e
  · next e => exact h.engAccess.fault e
  · next e =>
    split
    · exact h.engAccess.ok e
    · exact (h.engAccess.ok e).engLoads

theorem OnMems.linesFrom {core : Nat} {c : Cmd} {o : Nat} {f : PageFmt} {geom k : Nat} {along : Bool} {n : Nat}
    (h : OnMems P s) :
    ExOn P (·.2) (s.linesFrom core c o f geom k along n) := by
  induction n with
  | zero => exact h
  | succ n ih =>
    unfold State.linesFrom
    split
    · next e => exact ih.error e
    · next e =>
      split
      · next e' => exact (ih.ok e).lineLanes.error e'
      · next e' => exact (ih.ok e).lineLanes.ok e'

theorem OnMems.chunk {core : Nat} {c : Cmd} {k : Nat} (h : OnMems Canonical s) : (s.chunk core c k).On Canonical := by
  unfold State.chunk
  extract_lets fail
  have hfail : ∀ e, OnMems Canonical e.2 → (fail e).On Canonical
    | (some _, _), he => he
    | (none, _), he => he
  split
  · next e => exact hfail _ (h.bothFmts.error e)
  next e =>
    have hf := h.bothFmts.ok e
    extract_lets fmt alongA alongB
    split
    · next e => exact hfail _ (hf.linesFrom.error e)
    next e =>
      have ha := hf.linesFrom.ok e
      split
      · next e => exact hfail _ (ha.linesFrom.error e)
      next e =>
        have hb := ha.linesFrom.ok e
        extract_lets s1
        have h1 : OnMems Canonical s1 := hb.holdTile
        split
        · exact h1
        · exact (h1.tileElems.putTile).modCore _ _

theorem OnMems.mmaGrant {core : Nat} {c : Cmd} (h : OnMems Canonical s) : OnMems Canonical (s.mmaGrant core c) := by
  unfold State.mmaGrant
  refine .ite (h.finishCmd fun _ h => h) (.ite (h.holdTile.finishCmd fun _ h => h) ?_)
  split
  · next e => exact (h.chunk.stall e).setCmd.holdStep
  · next e => exact (h.chunk.fault e).parkCmd
  next t c' e =>
    have ht := h.chunk.ok e
    have h2 : (if c'.done % 2 = 1 then t.chunk core c' c'.done else .ok t c').On Canonical := ERes.On.ite ht.chunk ht
    dsimp only
    split
    · next e => exact (h2.stall e).setCmd.holdStep
    · next e => exact (h2.fault e).parkCmd
    · next e => exact .ite ((h2.ok e).finishCmd fun _ h => h) (h2.ok e).setCmd

theorem OnMems.execMmaStep {octet : Nat} (h : OnMems Canonical s) : OutOn Canonical (execMmaStep octet s) := by
  unfold Machine.execMmaStep
  dsimp only
  split
  · exact h.closeHeads
  split
  · next e _ _ _ _ => exact h.closeHeads.when (fun h => (h.grantStep.on e).mmaGrant)
  · exact h.closeHeads

theorem OnMems.execMmzExec {octet : Nat} (h : OnMems Canonical s) : OutOn Canonical (execMmzExec octet s) := by
  unfold Machine.execMmzExec
  dsimp only
  split
  · exact h.closeHeads
  split
  · split
    · exact h.closeHeads
    · next e _ _ _ _ _ => exact ((h.closeHeads.grantStep.on e).unless (·.holdTile.accClean.putTile)).finishCmd (fun _ h => h)
  · exact h.closeHeads

theorem OnMems.claim {part addr i d : Nat} (h : OnMems P s) (e : s.claim part addr i = .ok (d, t)) : OnMems P t := by
  unfold State.claim at e
  split at e
  · cases e
  dsimp only at e
  split at e
  · cases e
  · cases e
    exact h.setTile

theorem OnMems.endDrain {core : Nat} {c : Cmd} (h : OnMems Canonical s) : OnMems Canonical (s.endDrain core c) :=
  h.finishCmd (fun _ h => h.postMsg)

theorem OnMems.drainRows {core d : Nat} {c : Cmd} (h : OnMems Canonical s) : OnMems Canonical (s.drainRows core d c) := by
  unfold State.drainRows
  dsimp only
  split
  · exact h.parkCmd
  split
  · exact h.parkCmd
  · exact ((h.tileElems.locPut _ _).setCmd).beside

theorem OnMems.startDrain {core : Nat} {c : Cmd} (h : OnMems Canonical s) : OnMems Canonical (s.startDrain core c) := by
  unfold State.startDrain
  split
  · exact h.parkCmd
  split
  · exact h.endDrain
  split
  · split
    · exact h.drainRows
    · exact h
  split
  · exact h.parkCmd
  · next e => exact (h.claim e).drainRows

theorem OnMems.drainBid {core : Nat} {c : Cmd} (h : OnMems P s) : OptOn P id (s.drainBid core c) := by
  unfold State.drainBid
  split
  · exact trivial
  · exact h.bidding

theorem OnMems.execDrainStart {core : Nat} (h : OnMems Canonical s) : OutOn Canonical (execDrainStart core s) := by
  unfold Machine.execDrainStart
  split
  · split
    · exact h
    split
    · next e2 => exact (h.drainBid.getD ((h.grantStep.on e2).startDrain)).ite h
    · exact h
  · exact h

theorem OnMems.execDrainComplete {core : Nat} (h : OnMems Canonical s) : OutOn Canonical (execDrainComplete core s) := by
  unfold Machine.execDrainComplete
  dsimp only
  split
  · split
    · exact h
    split
    · exact h.endDrain
    split
    · exact h
    split
    · exact h.tileReady.untouched.endDrain
    · exact h.untouched.endDrain
  · exact h

/-! ## The copy engine -/

theorem OnMems.effCopy {opc : Nat} {op : CmdOp} {w : Operands} (h : OnMems P s) : (effCopy opc op w s).On P := by
  unfold Machine.effCopy
  dsimp only
  split
  · exact h.accept (fun _ _ h => h)
  split
  · exact h.accept (fun _ _ h => h)
  · exact h.accept (fun _ _ h => h)
  split
  · exact h
  split
  · exact h.accept (fun _ _ h => h.setTile)
  · exact h.enterWait
  · exact h

theorem OnMems.endAccess {core : Nat} {c : Cmd} {e : CopyEnd} {off : ℤ} {n : Nat} {wr : Bool} (h : OnMems P s) :
    (s.endAccess core c e off n wr).On P := by
  unfold State.endAccess
  cases e with
  | glb a => exact h.engAccess
  | shm a => exact ARes.On.ite h (.ite h h)
  | tile a i =>
    dsimp only
    split
    · exact h
    · exact ARes.On.ite h (.ite h (.ite h (.ite h h)))

theorem OnMems.copyLine {core i : Nat} {c : Cmd} (h : OnMems Canonical s) : OnMems Canonical (s.copyLine core i c) := by
  unfold State.copyLine
  dsimp only
  split
  · exact h.parkCmd
  · exact h.parkCmd
  split
  · next e3 => exact h.endAccess.stall e3
  · next e3 => exact (h.endAccess.fault e3).parkCmd
  split
  · next e3 _ _ e4 => exact ((h.endAccess.ok e3).endAccess).stall e4
  · next e3 _ _ _ e4 => exact (((h.endAccess.ok e3).endAccess).fault e4).parkCmd
  split
  · next e3 _ _ _ e4 _ => exact (((h.endAccess.ok e3).endAccess).ok e4).engReadies
  · next e3 _ _ _ e4 _ => exact ((((((h.endAccess.ok e3).endAccess).ok e4).engReadies).engLoads).engStores _ _ _).setCmd

theorem OnMems.startCopy {core i : Nat} {c : Cmd} (h : OnMems Canonical s) : OnMems Canonical (s.startCopy core i c) := by
  unfold State.startCopy
  split
  · exact h.setCmd
  split
  · exact h
  split
  · exact h.parkCmd
  · split
    · next e => exact h.bidding.on e
    split
    · exact h.parkCmd
    · next e => exact (h.claim e).setCmd
  · exact h.setCmd

theorem OnMems.execCopyLine {core index : Nat} (h : OnMems Canonical s) : OutOn Canonical (execCopyLine core index s) := by
  unfold Machine.execCopyLine
  dsimp only
  split
  · exact h
  split
  · exact h
  split
  · exact h.startCopy
  · exact h.passTurn.copyLine.ite h
  · exact h

theorem OnMems.execCopyComplete {core index : Nat} (h : OnMems Canonical s) :
    OutOn Canonical (execCopyComplete core index s) := by
  unfold Machine.execCopyComplete
  dsimp only
  split
  · exact h
  split
  · exact h
  split
  · split
    · split
      · exact (h.tileReady.when (·.setTile)).finishCmd (fun _ h => h)
      · exact (h.setTile.ite h).finishCmd (fun _ h => h)
    · exact (h.setTile.ite h).finishCmd (fun _ h => h)
  split
  · split
    · exact h.tileReady.finishCmd (fun _ h => h)
    · exact h.finishCmd (fun _ h => h)
  · exact h.finishCmd (fun _ h => h)

/-! ## The collective engine -/

theorem OnMems.addUnit {core : Nat} {c : Cmd} {ref : Word} (h : OnMems Canonical s) : (s.addUnit core c ref).On Canonical := by
  unfold State.addUnit
  dsimp only
  split
  · next e => exact h.engBlock.stall e
  · next e => exact h.engBlock.fault e
  split
  · next e _ => exact h.engBlock.ok e
  · next e _ => exact (((h.engBlock.ok e).untouched).closeBlock).ite (((h.engBlock.ok e).untouched).putBlock _ _ _ _ _)

theorem OnMems.addUnits {core i : Nat} {c : Cmd} {n fuel : Nat} (h : OnMems Canonical s) :
    OnMems Canonical (s.addUnits core i c n fuel) := by
  induction fuel generalizing s c n with
  | zero => exact h.setCmd
  | succ fuel ih =>
    unfold State.addUnits
    split
    · next e => exact ih (h.addUnit.ok e)
    · next e => exact (h.addUnit.stall e).setCmd
    · next e => exact (h.addUnit.fault e).parkCmd

theorem OnMems.acceptMore {core i : Nat} {c : Cmd} (h : OnMems Canonical s) : OnMems Canonical (s.acceptMore core i c) := by
  unfold State.acceptMore
  split
  · exact h.addUnits
  · exact h

theorem OnMems.effCol {opc : Nat} {op : CmdOp} {w : Operands} (h : OnMems Canonical s) : (effCol opc op w s).On Canonical := by
  unfold Machine.effCol
  exact h.accept (fun _ _ h => h.ite h.acceptMore)

theorem OnMems.readLine {core i : Nat} {c : Cmd} {k : Nat} (h : OnMems Canonical s) :
    OnMems Canonical (s.readLine core i c k) := by
  unfold State.readLine
  dsimp only
  split
  · next e => exact h.engAccess.stall e
  · next e => exact (h.engAccess.fault e).parkCmd
  · next e => exact ((h.engAccess.ok e).engLoads).setCmd

theorem OnMems.colWrite {core i : Nat} {c : Cmd} {a : Nat} {bs : List Byte} {note : Cmd → List Nat → Cmd}
    (h : OnMems Canonical s) :
    OnMems Canonical (s.colWrite core i c a bs note) := by
  unfold State.colWrite
  split
  · next e => exact h.engAccess.stall e
  · next e => exact (h.engAccess.fault e).parkCmd
  split
  split
  · next e _ _ _ e2 _ => exact ((h.engAccess.ok e).engReadies).snd e2
  · next e _ _ _ e2 _ => exact ((((h.engAccess.ok e).engReadies).snd e2).engStores _ _ _).setCmd

theorem OnMems.writeLine {core i : Nat} {c : Cmd} {k : Nat} (h : OnMems Canonical s) :
    OnMems Canonical (s.writeLine core i c k) := by
  unfold State.writeLine
  exact h.colWrite

theorem OnMems.raisePart {core i : Nat} {c : Cmd} {k : Nat} (h : OnMems Canonical s) :
    OnMems Canonical (s.raisePart core i c k) := by
  unfold State.raisePart
  split
  · exact h
  split
  · next e => exact (h.engSignal.ok e).setCmd
  · next e => exact h.engSignal.stall e
  · next e => exact (h.engSignal.fault e).parkCmd

theorem OnMems.sumLine {core i : Nat} {c : Cmd} (h : OnMems Canonical s) : OnMems Canonical (s.sumLine core i c) := by
  unfold State.sumLine
  dsimp only
  split
  · exact h
  · exact h.colWrite

theorem OnMems.giveBack {core i : Nat} {c : Cmd} {l : List Nat} (h : OnMems Canonical s) :
    OnMems Canonical (s.giveBack core i c l) := by
  induction l generalizing s c with
  | nil => exact h.setCmd
  | cons k r ih =>
    unfold State.giveBack
    refine .ite (ih h) ?_
    split
    · next e => exact ih (h.engSignal.ok e)
    · next e => exact (h.engSignal.stall e).setCmd
    · next e => exact (h.engSignal.fault e).parkCmd

theorem OnMems.startCol {core i : Nat} {c : Cmd} (h : OnMems Canonical s) : OnMems Canonical (s.startCol core i c) := by
  unfold State.startCol
  split
  · exact h.giveBack
  split
  · exact h.setCmd
  split
  · exact h
  split
  · exact h.parkCmd
  · exact h.setCmd

theorem OnMems.colLine {core i : Nat} {c : Cmd} {k : Nat} (h : OnMems Canonical s) :
    OnMems Canonical (s.colLine core i c k) := by
  unfold State.colLine
  split
  · exact h
  split
  · split
    · exact h.readLine
    · exact h
  split
  · exact h.writeLine
  split
  · exact h.raisePart
  · exact h.sumLine

theorem OnMems.colTurn {core i : Nat} {c : Cmd} {k : Nat} (h : OnMems Canonical s) :
    OnMems Canonical (s.colTurn core i c k) := by
  unfold State.colTurn
  dsimp only
  split
  · split
    · exact h.colLine
    · exact h.colLine.passTurn
  · exact h.colLine

theorem OnMems.execCollectiveLine {core index part : Nat} (h : OnMems Canonical s) :
    OutOn Canonical (execCollectiveLine core index part s) := by
  unfold Machine.execCollectiveLine
  dsimp only
  split
  · exact h
  split
  · exact h.ite h.acceptMore
  · exact h.startCol.ite h
  · exact h.colTurn.ite h
  · exact h

theorem OnMems.execCollectiveComplete {core index : Nat} (h : OnMems Canonical s) :
    OutOn Canonical (execCollectiveComplete core index s) := by
  unfold Machine.execCollectiveComplete
  split
  · exact h
  split
  · exact h
  · exact h.finishCmd (fun _ h => h)

/-! ## Control transfers and guards -/

theorem OnMems.effBr {w : Operands} (h : OnMems P s) : (effBr w s).On P := by
  unfold Machine.effBr
  split <;> exact h

theorem OnMems.effBrl {w : Operands} (h : OnMems P s) : (effBrl w s).On P := by
  unfold Machine.effBrl
  dsimp only
  split
  · exact h
  · exact h.modMe _

theorem OnMems.effChk {w : Operands} (h : OnMems P s) : (effChk w s).On P := by
  unfold Machine.effChk
  dsimp only
  repeat' split
  all_goals exact h

theorem OnMems.effJmp {w : Operands} (h : OnMems P s) : (effJmp w s).On P := by
  unfold Machine.effJmp
  split <;> exact h

theorem OnMems.effRet {w : Operands} (h : OnMems P s) : (effRet w s).On P := by
  unfold Machine.effRet
  split
  · exact h
  · exact h.modMe _

theorem OnMems.effLoop {w : Operands} (h : OnMems P s) : (effLoop w s).On P := by
  unfold Machine.effLoop
  dsimp only
  split
  · exact h
  split
  · exact h.modMe _
  split
  · exact h
  · exact h.modMe _

theorem OnMems.joinStage {core : Nat} (h : OnMems P s) : OnMems P (s.joinStage core) := by
  unfold State.joinStage
  dsimp only
  split
  · split
    · exact h
    · exact (h.modPart _ _).modCore _ _
  · exact h

theorem OnMems.lastPromise {core : Nat} (h : OnMems P s) : OnMems P (s.lastPromise core) := by
  unfold State.lastPromise
  exact (h.foldl (fun _ _ h => h.modPeer) _).modCore _ _

theorem OnMems.leaveIfFree {core : Nat} (h : OnMems P s) : OnMems P (s.leaveIfFree core) := by
  unfold State.leaveIfFree
  dsimp only
  split
  · exact h
  split
  · exact h.lastPromise.modCore _ _
  · exact (h.lastPromise.modCore _ _).modPart _ _

theorem OnMems.completeEnd {k : Nat} (h : OnMems Canonical s) : OnMems Canonical (s.completeEnd k) := by
  unfold State.completeEnd
  apply OnMems.completeTimers
  apply OnMems.leaveIfFree
  apply OnMems.joinStage
  apply OnMems.endSlot
  split
  · exact h.trace.modCore _ _
  · exact h.trace

theorem OnMems.effEnd {w : Operands} (h : OnMems Canonical s) : (effEnd w s).On Canonical := by
  unfold Machine.effEnd
  split
  · exact h
  split
  · exact h
  · exact (h.turned _ _).completeEnd

theorem OnMems.putGuard {o : Opnd} {b : Bool} (h : OnMems P s) : (s.putGuard o b).On P := h.modMe _

theorem OnMems.execGand {w : Operands} (h : OnMems Canonical s) : OutOn Canonical (execGand w s) :=
  h.issue fun t ht => by
    split
    · exact ht.putGuard
    · exact ht

theorem OnMems.execGnot {w : Operands} (h : OnMems Canonical s) : OutOn Canonical (execGnot w s) :=
  h.issue fun t ht => by
    split
    · exact ht.putGuard
    · exact ht

theorem OnMems.execGor {w : Operands} (h : OnMems Canonical s) : OutOn Canonical (execGor w s) :=
  h.issue fun t ht => by
    split
    · exact ht.putGuard
    · exact ht

/-! ## Masks and vector instructions -/

theorem OnMems.putMask {o : Opnd} {m : BitVec 16} (h : OnMems P s) : (s.putMask o m).On P := h.modMe _

theorem OnMems.execMpop {w : Operands} (h : OnMems Canonical s) : OutOn Canonical (execMpop w s) :=
  h.issue fun t ht => by
    dsimp only
    split
    · exact ht.put ht
    · exact ht.modMe _

theorem OnMems.putLanes {o : Opnd} {on : Nat → Bool} {f : Nat → Lane} {dfr : Bool} (h : OnMems P s) :
    OnMems P (s.putLanes o on f dfr) :=
  h.modMe _

theorem OnMems.lanes {w : Operands} {deferred : Bool} {on : Nat → Bool} {f : Nat → Val} (h : OnMems P s) :
    (lanes w deferred on f s).On P := by
  unfold Machine.lanes
  split
  · exact h.putLanes
  · exact h.putLanes.raise _

theorem OnMems.laneOp {w : Operands} {tied : Bool} {f : Word → Word → Word → Val} (h : OnMems P s) :
    (laneOp w tied f s).On P := by
  unfold Machine.laneOp
  exact h.lanes

theorem OnMems.effVcmp {w : Operands} (h : OnMems P s) : (effVcmp w s).On P := by
  unfold Machine.effVcmp
  dsimp only
  split
  · exact h
  · exact h
  · exact (h.modMe _).raise _

theorem OnMems.laneFn {w : Operands} {f : Bool → Lane → FRes} (h : OnMems P s) : (laneFn w f s).On P := by
  unfold Machine.laneFn
  exact h.lanes

theorem OnMems.execVext {w : Operands} (h : OnMems Canonical s) : OutOn Canonical (execVext w s) :=
  h.issue fun t ht => by
    split
    · exact ht
    · exact ht
    · exact ht.put ht

theorem OnMems.effVins {w : Operands} (h : OnMems P s) : (effVins w s).On P := by
  unfold Machine.effVins
  dsimp only
  split
  · exact h
  split
  · next e _ => exact (h.src.on e).putLanes
  · next e _ => exact (h.src.on e).putLanes

theorem OnMems.effVlget {w : Operands} (h : OnMems P s) : (effVlget w s).On P := by
  unfold Machine.effVlget
  dsimp only
  split
  · exact h
  · exact h.modMe _

theorem OnMems.effVqnt {w : Operands} (h : OnMems P s) : (effVqnt w s).On P := by
  unfold Machine.effVqnt
  dsimp only
  split
  · exact h.putLanes
  · exact h.putLanes.raise _

theorem OnMems.effVred {w : Operands} (h : OnMems P s) : (effVred w s).On P := by
  unfold Machine.effVred
  dsimp only
  split
  · exact h.putLanes
  · exact h.putLanes.raise _

theorem OnMems.effVsel {w : Operands} (h : OnMems P s) : (effVsel w s).On P := by
  unfold Machine.effVsel
  exact h.lanes

theorem OnMems.effVsplat {w : Operands} (h : OnMems P s) : (effVsplat w s).On P := by
  unfold Machine.effVsplat
  split
  · exact h
  · next e => exact (h.src.on e).lanes

/-! ## The tile table and repetitions -/

theorem OnMems.effTldef {w : Operands} (h : OnMems P s) : (effTldef w s).On P := by
  unfold Machine.effTldef
  dsimp only
  split
  · exact h
  split
  · exact h
  split
  · exact h.setTile
  split
  · exact h
  split
  · exact h
  · exact h.setTile

theorem OnMems.effTlqry {w : Operands} (h : OnMems P s) : (effTlqry w s).On P := by
  unfold Machine.effTlqry
  split
  · exact h
  · exact h.modMe _

theorem OnMems.tlFill {i : Nat} (h : OnMems P s) : (s.tlFill i).On P := by
  unfold State.tlFill
  dsimp only
  split
  · exact h
  split
  · exact h
  · exact (h.modMe _).setTile

theorem OnMems.tlReady {i : Nat} (h : OnMems Canonical s) : (s.tlReady i).On Canonical := by
  unfold State.tlReady
  dsimp only
  split
  · exact h
  · exact (h.modMe _).tileReady

theorem OnMems.tlWait {i : Nat} {empty : Bool} (h : OnMems P s) : (s.tlWait i empty).On P := by
  unfold State.tlWait
  dsimp only
  split
  · exact h
  split
  · exact h.setTile
  · exact h.setTile
  · exact h.enterWait
  · exact h

theorem OnMems.effTlset {w : Operands} (h : OnMems Canonical s) : (effTlset w s).On Canonical := by
  unfold Machine.effTlset
  split
  · exact h
  split
  split
  · exact h
  split
  · exact h.tlFill
  · exact h.tlReady
  · exact h.tlWait

theorem OnMems.effRpt {w : Operands} (h : OnMems P s) : (effRpt w s).On P := by
  unfold Machine.effRpt
  dsimp only
  split
  · exact h
  · exact h.modMe _

theorem OnMems.countRpt {w : Operands} (h : OnMems P s) : OnMems P (s.countRpt w) := by
  unfold State.countRpt
  dsimp only
  split
  · exact h
  · exact h.modMe _

theorem OnMems.rptWord {w : Operands} (h : OnMems Canonical s) : OnMems Canonical (s.rptWord w) := by
  unfold State.rptWord
  have hr : (s.run 0x308 w (Machine.effRpt w)).On Canonical := h.run fun _ h => h.effRpt
  split
  · exact h
  split
  · exact h.countRpt
  split
  · next e => exact (hr.fault e).takeFaultAt
  · exact hr.conclude

theorem OnMems.execRpt {w : Operands} (h : OnMems Canonical s) : OutOn Canonical (execRpt w s) := by
  unfold Machine.execRpt
  split
  · exact h
  split
  · exact h.rptWord
  · exact h
  · exact h.advance

theorem OnMems.effTblld {w : Operands} (h : OnMems P s) : (effTblld w s).On P := by
  unfold Machine.effTblld
  dsimp only
  split
  · exact h
  split
  · exact h
  · exact h.modCore _ _

theorem OnMems.effTblx {w : Operands} (h : OnMems P s) : (effTblx w s).On P := by
  unfold Machine.effTblx
  dsimp only
  split
  · exact h
  · exact h
  · exact h.putLanes

/-! ## Messages as programs use them -/

theorem OnMems.as {k : Nat} {f : State → State} (h : OnMems P s) (hf : ∀ t, OnMems P t → OnMems P (f t)) :
    OnMems P (s.as k f) := by
  unfold State.as
  exact (hf _ h.untouched).beside

theorem OnMems.effBind {w : Operands} (h : OnMems P s) : (effBind w s).On P := by
  unfold Machine.effBind
  dsimp only
  split
  · exact h
  split
  · exact h
  · exact h.modMe _

theorem OnMems.effUnbind {w : Operands} (h : OnMems P s) : (effUnbind w s).On P := by
  unfold Machine.effUnbind
  split
  · exact h
  · exact h.modMe _

theorem OnMems.execBindComplete {core slot : Nat} (h : OnMems P s) : OutOn P (execBindComplete core slot s) := by
  unfold Machine.execBindComplete
  dsimp only
  split
  · exact (h.modPart _ _).modAct _ _
  · exact h

theorem OnMems.whenRoom {opc : Nat} {w : Operands} {vn : VN} {need : Nat} {dest : Word} {go : State → Res} (h : OnMems P s)
    (hgo : ∀ t, OnMems P t → (go t).On P) :
    (s.whenRoom opc w vn need dest go).On P := by
  unfold State.whenRoom
  split
  · exact hgo _ h
  split
  · exact h
  split
  · exact h
  split
  · exact h.untouched
  · exact h.enterWait.modMe _

theorem OnMems.sendEnter {w : Operands} {t : SendTo} (h : OnMems P s) : (s.sendEnter w t).On P := by
  unfold State.sendEnter
  dsimp only
  split
  · exact h
  split
  · split
    · exact h.countSent.postMsg.modMe _
    · exact h.postMsg.modMe _
  · exact h.postMsg.modMe _

theorem OnMems.effSend {w : Operands} (h : OnMems P s) : (effSend w s).On P := by
  unfold Machine.effSend
  dsimp only
  split
  · exact h
  split
  · exact h
  split
  · exact h
  split
  · exact h
  split
  · exact h
  · exact h.whenRoom (fun _ h => h.sendEnter)

theorem OnMems.spawnEnter {w : Operands} (h : OnMems P s) : (s.spawnEnter w).On P := ((h.modMe _).postMsg).modMe _

theorem OnMems.effSpawn {w : Operands} (h : OnMems P s) : (effSpawn w s).On P := by
  unfold Machine.effSpawn
  dsimp only
  split
  · exact h
  split
  · exact h
  split
  · exact h
  split
  · exact h
  split
  · exact h
  · exact h.whenRoom (fun _ h => h.spawnEnter)

theorem OnMems.restoreSenders {core : Nat} (h : OnMems P s) : OnMems P (s.restoreSenders core) := by
  unfold State.restoreSenders
  dsimp only
  split
  · exact h
  · exact h.modCore _ _

theorem OnMems.execSendEnqueue {core slot : Nat} (h : OnMems Canonical s) : OutOn Canonical (execSendEnqueue core slot s) := by
  unfold Machine.execSendEnqueue
  dsimp only
  split
  · next opc w _ _ =>
    refine OutOn.ite h (h.as fun t ht => Res.On.conclude ?_)
    exact .ite (ht.modMe _).effSend (ht.modMe _).effSpawn
  · exact h.ite h.restoreSenders

theorem OnMems.spawnAnswered {k : Nat} {accepted : Bool} (h : OnMems Canonical s) :
    OnMems Canonical (s.spawnAnswered k accepted) := by
  unfold State.spawnAnswered
  dsimp only
  split
  · split
    · exact (h.modAct _ _).cleanS
    split
    · exact h.modAct _ _
    split
    · exact (h.modAct _ _).takeFaultAt
    · exact h.modAct _ _
  · exact h

theorem OnMems.execSpawnAnswer {core slot : Nat} (h : OnMems Canonical s) : OutOn Canonical (execSpawnAnswer core slot s) := by
  unfold Machine.execSpawnAnswer
  dsimp only
  split
  · exact h
  · exact (h.modCore _ _).when (·.spawnAnswered)

theorem OnMems.notOpen (h : OnMems P s) : s.notOpen.On P := h.draw.draw

theorem OnMems.effSlopen {w : Operands} (h : OnMems P s) : (effSlopen w s).On P := by
  unfold Machine.effSlopen
  dsimp only
  split
  · exact h
  split
  · exact h
  · exact h.modMe _

theorem OnMems.execSluiceAnswer {core slot : Nat} {returns : Bool} (h : OnMems P s) :
    OutOn P (execSluiceAnswer core slot returns s) := by
  unfold Machine.execSluiceAnswer
  dsimp only
  split
  · exact h.ite (h.modAct _ _)
  · split
    · exact h
    split
    · exact h.modAct _ _
    split
    · exact h.modAct _ _
    · exact ((h.setTile.setAct _ _).carryWay).modAct _ _
  · exact h

theorem OnMems.effSlwr {w : Operands} (h : OnMems Canonical s) : (effSlwr w s).On Canonical := by
  unfold Machine.effSlwr
  dsimp only
  split
  · exact h
  split
  · exact h.notOpen
  split
  · split
    · exact h
    · exact (h.locPut _ _).modMe _
  split
  · exact h
  · exact (h.locPut _ _).modMe _

theorem OnMems.effSlclose {w : Operands} (h : OnMems P s) : (effSlclose w s).On P := by
  unfold Machine.effSlclose
  dsimp only
  split
  · exact h
  split
  · exact h.notOpen
  split
  · exact h
  · exact h.modMe _

theorem OnMems.execSluiceCloseAck {core slot : Nat} (h : OnMems Canonical s) :
    OutOn Canonical (execSluiceCloseAck core slot s) := by
  unfold Machine.execSluiceCloseAck
  dsimp only
  split
  · exact ((h.modAct _ _).tileReady).carryWay
  · exact h

/-! ## Messages on their way -/

theorem OnMems.writeDead {core i : Nat} {m : Msg} {code detail : Nat} (h : OnMems Canonical s) :
    OnMems Canonical (s.writeDead core i m code detail) :=
  (h.pokeVirt.modPart _ _).note

theorem OnMems.deadLetter {core : Nat} {m : Msg} {code detail : Nat} (h : OnMems Canonical s) :
    OnMems Canonical (s.deadLetter core m code detail) := by
  unfold State.deadLetter
  dsimp only
  split
  · exact h.writeDead
  · exact h.untouched.modCore _ _

theorem OnMems.execDeadQueueRetry {core : Nat} (h : OnMems Canonical s) : OutOn Canonical (execDeadQueueRetry core s) := by
  unfold Machine.execDeadQueueRetry
  split
  · exact h
  split
  · exact h
  · exact (h.modCore _ _).writeDead

theorem OnMems.returnCredits {d partner : Nat} {vn : VN} (h : OnMems P s) : OnMems P (s.returnCredits d partner vn) := by
  unfold State.returnCredits
  exact (h.modDie _ _).modDie _ _

theorem OnMems.passOn {i : Nat} {m : Msg} (h : OnMems P s) : OnMems P (s.passOn i m) := h.untouched

theorem OnMems.execCreditAudit {die partner : Nat} {vn : VN} (h : OnMems Canonical s) :
    OutOn Canonical (execCreditAudit die partner vn s) := by
  unfold Machine.execCreditAudit
  dsimp only
  split
  · split
    · exact h.modDie _ _
    · exact ((h.modDie _ _).modDie _ _).unless (·.note)
  split
  · exact h
  · exact (h.modDie _ _).unless (·.note)

theorem OnMems.replicate {i : Nat} {m : Msg} {x : Nat × Nat} (h : OnMems P s) : OnMems P (s.replicate i m x) := by
  unfold State.replicate
  dsimp only
  split <;> exact (h.foldl (fun _ _ h => h.carry) _).untouched

theorem OnMems.poisonObl {core part : Nat} {stamp : Word} {o : Obl} (h : OnMems Canonical s) :
    OnMems Canonical (s.poisonObl core part stamp o) := by
  unfold State.poisonObl
  dsimp only
  split
  · split
    · exact h.untouched
    split
    · exact h
    · exact h.untouched
  · exact h.foldl (fun _ _ h => h.postMsg) _
  · split
    · split
      · exact h.tileReady
      · exact h
    · exact h
  · split
    · exact h.tileReady
    · exact h
  · exact h

theorem OnMems.poisonObls {core part : Nat} {stamp : Word} {l : List Obl} (h : OnMems Canonical s) :
    OnMems Canonical (s.poisonObls core part stamp l) :=
  h.foldl (fun _ _ h => h.poisonObl) _

theorem OnMems.arrive {core : Nat} {m : Msg} (h : OnMems P s) : OnMems P (s.arrive core m) := by
  unfold State.arrive
  dsimp only
  split
  · exact h.modCore _ _
  · exact (h.modCore _ _).modCore _ _

theorem OnMems.answerSpawn {core : Nat} {m : Msg} {accepted : Bool} (h : OnMems P s) :
    OnMems P (s.answerSpawn core m accepted) := by
  unfold State.answerSpawn
  split
  · exact h.postMsg
  · exact h

theorem OnMems.undeliverable {m : Msg} (h : OnMems Canonical s) : OnMems Canonical (s.undeliverable m) := by
  unfold State.undeliverable
  dsimp only
  split
  · exact h.answerSpawn
  · exact h
  · exact h.deadLetter

theorem OnMems.cross {i : Nat} {m : Msg} (h : OnMems P s) : OptOn P id (s.cross i m) := by
  unfold State.cross
  dsimp only
  split
  · exact h.untouched
  split
  · exact trivial
  · exact ((h.modDie _ _).when (fun h => h.foldl (fun _ _ h => h.returnCredits) _)).untouched

theorem OnMems.leave {i : Nat} {m : Msg} (h : OnMems Canonical s) : OnMems Canonical (s.leave i m) := by
  unfold State.leave
  dsimp only
  split
  · exact h
  next e =>
    have hc : ∀ d r, OnMems Canonical ((_ : State).carry d r) := fun d r => (h.takeSeq.on e).carry
    split
    · exact (hc _ _).cross.getD h
    split
    · exact (hc _ _).beside.deadLetter
    · exact (hc _ _).cross.getD h

theorem OnMems.deliver {i : Nat} {m : Msg} (h : OnMems Canonical s) : OnMems Canonical (s.deliver i m) := by
  unfold State.deliver
  dsimp only
  split
  · exact h.untouched.poisonObls
  split
  · exact h.untouched.undeliverable
  split
  · exact h.untouched.carry.foldl (fun _ _ h => h.carry) _
  · exact h.untouched.arrive.carry.foldl (fun _ _ h => h.carry) _

theorem OnMems.execMessageDelivery {index : Nat} (h : OnMems Canonical s) : OutOn Canonical (execMessageDelivery index s) := by
  unfold Machine.execMessageDelivery
  split
  · exact h
  split
  · exact h
  split
  · exact h.leave
  split
  · exact h.passOn
  split
  · exact h.cross.getD h
  split
  · exact h.replicate
  · exact h.deliver

theorem OnMems.execRouterGate {die router : Nat} (h : OnMems P s) : OutOn P (execRouterGate die router s) := by
  unfold Machine.execRouterGate
  split
  · exact h
  · exact h.modDie _ _

/-! ## The dispatcher and the stage scheduler -/

theorem OnMems.saveWaiter {core : Nat} {ks : List Nat} (h : OnMems Canonical s) : OnMems Canonical (s.saveWaiter core ks) := by
  unfold State.saveWaiter
  dsimp only
  split
  · exact h
  split
  · exact h
  · exact (h.modAct _ _).annotate

theorem OnMems.toNormal {core : Nat} (h : OnMems P s) : OnMems P (s.toNormal core) := h.modCore _ _

theorem OnMems.readLog {core : Nat} (h : OnMems Canonical s) : OnMems Canonical (s.readLog core) := by
  unfold State.readLog
  dsimp only
  split
  · exact h.settleNotes
  · exact h.settleNotes.toNormal.modCore _ _

theorem OnMems.passEntry {core : Nat} (h : OnMems Canonical s) : OnMems Canonical (s.passEntry core) := by
  unfold State.passEntry
  split
  · exact h.readLog
  · exact (h.modCore _ _).readLog

theorem OnMems.startOn {k : Nat} {a : Act} {args : List Word} {ident : Word} (h : OnMems Canonical s) :
    OnMems Canonical (s.startOn k a args ident) := by
  unfold State.startOn
  extract_lets core s1 n old a' src s2 s3 s4 s5 w0
  have h2 : OnMems Canonical s2 := (h.clearBank.setAct k a').beside
  have h5 : OnMems Canonical s5 := ((h2.modPart _ _).modCore _ _).trace
  split
  · exact h5.logEntry
  · exact h5.passEntry
  · exact h5

theorem OnMems.startMessage {k : Nat} {m : Msg} {entry : Word} (h : OnMems Canonical s) :
    OnMems Canonical (s.startMessage k m entry) := by
  unfold State.startMessage
  exact h.startOn

theorem OnMems.expelOldest {core : Nat} (h : OnMems Canonical s) : OnMems Canonical (s.expelOldest core) := by
  unfold State.expelOldest
  split
  · exact h
  · exact (h.modCore _ _).deadLetter

theorem OnMems.toBindWait {core : Nat} {m : Msg} {event : Bool} (h : OnMems Canonical s) :
    OnMems Canonical (s.toBindWait core m event) := by
  unfold State.toBindWait
  exact (h.expelOldest.ite h).modCore _ _

theorem OnMems.execBindwaitExpiry {core : Nat} (h : OnMems Canonical s) : OutOn Canonical (execBindwaitExpiry core s) := by
  unfold Machine.execBindwaitExpiry
  dsimp only
  split
  · exact h
  · exact (h.modCore _ _).deadLetter

theorem OnMems.takeMsg {core : Nat} {at_ : At} (h : OnMems P s) : OnMems P (s.takeMsg core at_) := by
  unfold State.takeMsg
  split <;> exact h.modCore _ _

theorem OnMems.dispatchMsg {core : Nat} {at_ : At} {m : Msg} {event : Bool} (h : OnMems Canonical s) :
    OnMems Canonical (s.dispatchMsg core at_ m event) := by
  unfold State.dispatchMsg
  dsimp only
  split
  · exact h.takeMsg.toBindWait
  split
  · exact h.takeMsg.startMessage
  split
  · split
    · exact h
    · exact h.saveWaiter
  split
  · exact h
  · exact h.saveWaiter

theorem OnMems.emptyLeft {core : Nat} (h : OnMems Canonical s) : OnMems Canonical (s.emptyLeft core) := by
  unfold State.emptyLeft
  dsimp only
  split
  · exact (h.modCore _ _).undeliverable
  · exact (h.modCore _ _).deadLetter
  · exact h

theorem OnMems.dispatchHandler {core : Nat} (h : OnMems Canonical s) : OnMems Canonical (s.dispatchHandler core) := by
  unfold State.dispatchHandler
  split
  · exact h
  split
  · exact h
  split
  · split
    · exact h
    · exact h.dispatchMsg
  split
  · exact h
  · exact h.dispatchMsg

theorem OnMems.execDispatch {core : Nat} (h : OnMems Canonical s) : OutOn Canonical (execDispatch core s) := by
  unfold Machine.execDispatch
  dsimp only
  split
  · exact h.emptyLeft
  split
  · exact h
  split
  · exact h.readLog.dispatchMsg.unless (·.dispatchHandler)
  · exact h.readLog.dispatchHandler

theorem OnMems.refuseSpawn {core i : Nat} {m : Msg} (h : OnMems Canonical s) : OnMems Canonical (s.refuseSpawn core i m) := by
  unfold State.refuseSpawn
  dsimp only
  split
  · exact h.takeMsg.answerSpawn.logEntry
  · split
    · exact h.takeMsg.answerSpawn.passEntry
    · exact h.takeMsg.answerSpawn
  · exact h.takeMsg.answerSpawn

theorem OnMems.acceptSpawn {core i k : Nat} {m : Msg} {inh : Option Rank} {cls : Cls} (h : OnMems Canonical s) :
    OnMems Canonical (s.acceptSpawn core i k m inh cls) := by
  unfold State.acceptSpawn
  exact h.takeMsg.answerSpawn.startOn

theorem OnMems.execSpawnRequest {core : Nat} (h : OnMems Canonical s) : OutOn Canonical (execSpawnRequest core s) := by
  unfold Machine.execSpawnRequest
  dsimp only
  split
  · exact h.readLog
  split
  · split
    · exact h.readLog.refuseSpawn
    split
    · exact h.readLog
    split
    · exact h.readLog.unless (·.refuseSpawn)
    split
    · split
      · exact h.readLog.acceptSpawn
      · exact h.readLog
    split
    · exact h.readLog.acceptSpawn
    · exact h.readLog
  · exact h.readLog

theorem OnMems.dispatchHead {core : Nat} (h : OnMems Canonical s) : OnMems Canonical (s.dispatchHead core) := by
  unfold State.dispatchHead
  dsimp only
  split
  · exact h
  split
  · exact h.dispatchMsg.raiseLvt
  split
  · exact h
  · exact h.saveWaiter

theorem OnMems.execEventDispatch {core : Nat} (h : OnMems Canonical s) : OutOn Canonical (execEventDispatch core s) := by
  unfold Machine.execEventDispatch
  split
  · exact h
  extract_lets s1 s2 allowed
  have h1 : OnMems Canonical s1 := h.readLog.freeTimers
  have h2 : OnMems Canonical s2 := h1.demandHeld
  clear_value s2
  split
  · exact h2
  split
  · exact h2.endEventWait
  · exact OutOn.ite h2.dispatchHead h2

theorem OnMems.execStreamDeadlock {core slot : Nat} (h : OnMems Canonical s) :
    OutOn Canonical (execStreamDeadlock core slot s) := by
  unfold Machine.execStreamDeadlock
  dsimp only
  split
  · exact h
  split
  · exact h
  split <;> exact h.takeFaultAt

theorem OnMems.startFiring {part stage core k : Nat} {g : Stage} (h : OnMems Canonical s) :
    OnMems Canonical (s.startFiring part stage core k g) := by
  unfold State.startFiring
  exact (h.modPart _ _).startOn

theorem OnMems.execFiringStart {part stage : Nat} (h : OnMems Canonical s) :
    OutOn Canonical (execFiringStart part stage s) := by
  unfold Machine.execFiringStart
  dsimp only
  split
  · exact h
  next g _ =>
    have hl := h.foldl (f := fun s c => s.readLog c) (fun _ _ h => h.readLog) g.cores
    refine OutOn.ite hl ?_
    split
    · exact hl
    split
    · exact hl
    · exact hl.startFiring

theorem OnMems.execRebalanceTick {part : Nat} (h : OnMems P s) : OutOn P (execRebalanceTick part s) := by
  unfold Machine.execRebalanceTick
  dsimp only
  split
  · exact h
  split
  · exact h.modPart _ _
  · exact ((h.modPart _ _).modCore _ _).joinStage

theorem OnMems.execReplayTimeout {core : Nat} (h : OnMems Canonical s) : OutOn Canonical (execReplayTimeout core s) := by
  unfold Machine.execReplayTimeout
  dsimp only
  split
  · split
    · exact h.readLog
    · exact h.readLog.divergeCore.toNormal
  · exact h.readLog

theorem OnMems.redispatch {part i : Nat} {m : Msg} (h : OnMems P s) : OnMems P (s.redispatch part i m) := h.untouched

/-! ## Ownership messages -/

theorem OnMems.takeOMsg {i : Nat} (h : OnMems P s) : OptOn P Prod.snd (s.takeOMsg i) := OptOn.map fun _ => h.beside

theorem OnMems.sendOMsg {m : OMsg} (h : OnMems P s) : OnMems P (s.sendOMsg m) := h.untouched

theorem OnMems.settleAll {d : Nat} (h : OnMems P s) : OnMems P (s.settleAll d) := h.foldl (fun _ _ h => h.settle) _

theorem OnMems.settleOwners (h : OnMems P s) : OnMems P s.settleOwners := h.foldl (fun _ _ h => h.settleAll) _

theorem OnMems.dropOwner {d k : Nat} {p : Nat → Bool} (h : OnMems P s) : OnMems P (s.dropOwner d k p) := h.modDie _ _

theorem OnMems.poolFrame {d f : Nat} (h : OnMems P s) : OnMems P (s.poolFrame d f) := h.modDie _ _

theorem OnMems.execOwnerQuery {index : Nat} (h : OnMems P s) : OutOn P (execOwnerQuery index s) := by
  unfold Machine.execOwnerQuery
  dsimp only
  split
  · next e => exact ((h.takeOMsg.on e).untouched).sendOMsg
  · exact h

theorem OnMems.execOwnerReply {index : Nat} (h : OnMems P s) : OutOn P (execOwnerReply index s) := by
  unfold Machine.execOwnerReply
  split
  · next e => exact (h.takeOMsg.on e).modDie _ _
  · exact h

theorem OnMems.execRedirect {index : Nat} (h : OnMems P s) : OutOn P (execRedirect index s) := by
  unfold Machine.execRedirect
  split
  · next e => exact (h.takeOMsg.on e).modDie _ _
  · exact h

theorem OnMems.execNotOwner {index : Nat} (h : OnMems P s) : OutOn P (execNotOwner index s) := by
  unfold Machine.execNotOwner
  split
  · split
    · exact h
    · exact h.untouched
  · exact h.untouched.dropOwner.holdFirst
  · exact h

theorem OnMems.execStubRelay {index : Nat} (h : OnMems P s) : OutOn P (execStubRelay index s) := by
  unfold Machine.execStubRelay
  dsimp only
  split
  · split
    · exact h
    split
    · exact h
    split
    · exact h.untouched
    · exact (h.untouched.modDie _ _).when (·.sendOMsg)
  · exact h

theorem OnMems.execChainLimit {index : Nat} (h : OnMems P s) : OutOn P (execChainLimit index s) := by
  unfold Machine.execChainLimit
  dsimp only
  split
  · next e => exact (((h.takeOMsg.on e).dropOwner).holdFirst).ite ((((h.takeOMsg.on e).dropOwner).unhold).modAct _ _)
  · exact h

theorem OnMems.dropStub {d k : Nat} (h : OnMems P s) : OnMems P (s.dropStub d k) := by
  unfold State.dropStub
  split
  · exact (h.modDie _ _).poolFrame
  · exact h

theorem OnMems.touchStub {d k : Nat} (h : OnMems P s) : OnMems P (s.touchStub d k) := by
  unfold State.touchStub
  split
  · exact h.modDie _ _
  · exact h

theorem OnMems.execMigrateBegin {index : Nat} (h : OnMems P s) : OutOn P (execMigrateBegin index s) := by
  unfold Machine.execMigrateBegin
  dsimp only
  split
  · next e => exact ((h.takeOMsg.on e).dropStub).modDie _ _
  · exact h

theorem OnMems.execPageLineSend {die page : Nat} (h : OnMems P s) : OutOn P (execPageLineSend die page s) := by
  unfold Machine.execPageLineSend
  dsimp only
  split
  · exact h
  split
  · exact h.settle
  split
  · exact h.sendOMsg
  split <;> exact h.sendOMsg.modDie _ _

theorem OnMems.execPageLines {index : Nat} (h : OnMems P s) : OutOn P (execPageLines index s) := by
  unfold Machine.execPageLines
  dsimp only
  split
  · split
    · exact h
    · exact h.untouched.modDie _ _
  · exact h

theorem OnMems.reframe {k frame : Nat} {size : Bool} (h : OnMems Canonical s) : OnMems Canonical (s.reframe k frame size) := by
  unfold State.reframe
  split
  · exact h
  · exact h.foldl (fun _ _ h => h.pokeWord _ _) _

theorem OnMems.execMigrateDone {index : Nat} (h : OnMems Canonical s) : OutOn Canonical (execMigrateDone index s) := by
  unfold Machine.execMigrateDone
  dsimp only
  split
  · split
    · exact h
    split
    · exact h
    · exact ((((h.untouched.moveFrame _ _ _).reframe).modDie _ _).touchStub).sendOMsg
  · exact h

theorem OnMems.execOwnerUpdate {index : Nat} (h : OnMems P s) : OutOn P (execOwnerUpdate index s) := by
  unfold Machine.execOwnerUpdate
  dsimp only
  split
  · split
    · exact h
    · exact h.untouched.unless (fun h => h.modDie _ _)
  · exact h

theorem OnMems.execStubExpiry {die page : Nat} (h : OnMems P s) : OutOn P (execStubExpiry die page s) := by
  unfold Machine.execStubExpiry
  dsimp only
  split
  · exact h
  split
  · exact h
  · exact (h.modDie _ _).sendOMsg

theorem OnMems.execStubRetire {index : Nat} (h : OnMems P s) : OutOn P (execStubRetire index s) := by
  unfold Machine.execStubRetire
  dsimp only
  split
  · next e => exact ((h.takeOMsg.on e).sendOMsg).ite ((h.takeOMsg.on e).untouched)
  · exact h

theorem OnMems.execOwnerInval {index : Nat} (h : OnMems P s) : OutOn P (execOwnerInval index s) := by
  unfold Machine.execOwnerInval
  dsimp only
  split
  · exact h.dropOwner.unless (·.untouched)
  · exact h

theorem OnMems.execOwnerInvalAck {index : Nat} (h : OnMems P s) : OutOn P (execOwnerInvalAck index s) := by
  unfold Machine.execOwnerInvalAck
  dsimp only
  split
  · next e => exact (h.takeOMsg.on e).unless (·.sendOMsg)
  · exact h

theorem OnMems.execRetireOk {index : Nat} (h : OnMems P s) : OutOn P (execRetireOk index s) := by
  unfold Machine.execRetireOk
  split
  · split
    · next e _ _ _ => exact (h.takeOMsg.on e).when (fun h => (h.modDie _ _).poolFrame)
    · next e _ _ => exact h.takeOMsg.on e
  · exact h

theorem OnMems.execDupInval {index : Nat} (h : OnMems P s) : OutOn P (execDupInval index s) := by
  unfold Machine.execDupInval
  dsimp only
  split
  · split
    · exact (h.untouched.modDie _ _).poolFrame
    · exact h.untouched
  · exact h

theorem OnMems.dupPerform {k i : Nat} (h : OnMems Canonical s) : OnMems Canonical (s.dupPerform k i) := by
  unfold State.dupPerform
  split
  · exact h
  split
  · exact h.drainWrite
  · exact h.markEntry

theorem OnMems.execDupInvalAck {index : Nat} (h : OnMems Canonical s) : OutOn Canonical (execDupInvalAck index s) := by
  unfold Machine.execDupInvalAck
  dsimp only
  split
  · split
    · next e _ => exact (h.takeOMsg.on e).untouched
    split
    · next e _ _ _ _ _ => exact (((h.takeOMsg.on e).untouched).dupPerform).settleOwners
    · next e _ _ _ => exact ((h.takeOMsg.on e).untouched).settleOwners
  · exact h

theorem OnMems.execLeaseGrant {index : Nat} (h : OnMems P s) : OutOn P (execLeaseGrant index s) := by
  unfold Machine.execLeaseGrant
  dsimp only
  split
  · next e => exact ((h.takeOMsg.on e).untouched).when (·.recallLease)
  · exact h

theorem OnMems.execLeaseRecall {index : Nat} (h : OnMems P s) : OutOn P (execLeaseRecall index s) := by
  unfold Machine.execLeaseRecall
  split
  · exact h.ite h.untouched
  · exact h

theorem OnMems.execLeaseReturn {index : Nat} (h : OnMems P s) : OutOn P (execLeaseReturn index s) := by
  unfold Machine.execLeaseReturn
  split
  · next e => exact ((h.takeOMsg.on e).untouched).settleOwners
  · exact h

theorem OnMems.execReservedKind {kind : FabricKind} {src dst : Nat} (h : OnMems Canonical s) :
    OutOn Canonical (execReservedKind kind src dst s) := by
  unfold Machine.execReservedKind
  split
  · exact h.note
  · exact h

theorem OnMems.halveCounters {die : Nat} (h : OnMems P s) : OnMems P (s.halveCounters die) := h.modDie _ _

theorem OnMems.moveCounted {die k : Nat} {l : List (Nat × Nat)} (h : OnMems P s) : OnMems P (s.moveCounted die k l) := by
  unfold State.moveCounted
  dsimp only
  split
  · exact h
  split
  · exact h
  split
  · exact h.startMigration.getD h
  · exact h

theorem OnMems.execCounterHalving {die : Nat} (h : OnMems P s) : OutOn P (execCounterHalving die s) := by
  unfold Machine.execCounterHalving
  split
  · exact h
  · exact h.halveCounters.foldl (fun _ _ h => h.moveCounted) _

theorem OnMems.migRefuse {part : Nat} (h : OnMems P s) : OnMems P (s.migRefuse part) := h.modPart _ _

theorem OnMems.pinPage {part page : Nat} (h : OnMems P s) : OnMems P (s.pinPage part page) := by
  unfold State.pinPage
  dsimp only
  split
  · exact h.migRefuse
  split
  · exact h.modPart _ _
  · exact h.untouched

theorem OnMems.unpinPage {part page : Nat} (h : OnMems P s) : OnMems P (s.unpinPage part page) := by
  unfold State.unpinPage
  dsimp only
  split
  · exact h.migRefuse
  · exact h.untouched

theorem OnMems.movePage {part page dest destMod : Nat} (h : OnMems P s) : OnMems P (s.movePage part page dest destMod) := by
  unfold State.movePage
  dsimp only
  split
  · exact h.migRefuse
  · exact h.startMigration.getD h.migRefuse

theorem OnMems.setHint {part : Nat} {hint : Bool} (h : OnMems P s) : OnMems P (s.setHint part hint) := by
  unfold State.setHint
  refine OnMems.when (h.modPart _ _) fun h => h.foldl (fun t e ht => ?_) _
  split
  · exact ht.foldl (fun _ _ h => h.recallLease) _
  · exact ht

/-! ## Drains, atomics at their owner and what follows an issue -/

theorem OnMems.drainAtOwner {k i : Nat} {e : OutEntry} (h : OnMems Canonical s) : OnMems Canonical (s.drainAtOwner k i e) := by
  unfold State.drainAtOwner
  dsimp only
  split
  · exact h
  split
  · split
    · exact h.lineReady
    split
    · exact h.lineReady.markEntry.dupRecall
    · exact h.lineReady.drainWrite
  split
  · exact h
  split
  · exact h.markEntry.dupRecall
  apply OnMems.markEntry
  split
  · exact h.lineReady
  · exact h

theorem OnMems.execDrain {core slot index : Nat} (h : OnMems Canonical s) : OutOn Canonical (execDrain core slot index s) := by
  unfold Machine.execDrain
  dsimp only
  split
  · exact h
  split
  · exact h
  split
  · split
    · split
      · exact h.dropEntry.setShm (wf_mput _ h.inv.shm)
      · exact OnMems.setShm (OnMems.dropEntry h.beside) (wf_mput _ h.inv.shm)
    · exact h.markEntry
  split
  · exact h.drainAtOwner
  · next e2 => exact h.route.held e2
  · next e2 => exact (h.route.ready e2).drainAtOwner

theorem OnMems.redReady {d : Nat} {e : OutEntry} (h : OnMems P s) : OnMems P (s.redReady d e).2 := by
  unfold State.redReady
  dsimp only
  split
  · exact h
  split
  · exact h.dupReady
  · exact h.dupReady.lineReady

theorem OnMems.dropEntries {l : List (Nat × Nat)} (h : OnMems P s) : OnMems P (s.dropEntries l) := h.untouched

theorem OnMems.weirExecute {k i : Nat} {e : OutEntry} {n a : Nat} {v : Word} (h : OnMems Canonical s) :
    OnMems Canonical (s.weirExecute k i e n a v) := by
  unfold State.weirExecute
  exact ((((h.ite h.untouched).dropEntries).closeExact _ _ _).weirUpdate).writeGlb _ _ _ _ _ _

theorem OnMems.countEntry {d : Nat} {e : OutEntry} (h : OnMems P s) : OnMems P (s.countEntry d e) := by
  unfold State.countEntry
  split
  · split
    · exact h
    · exact h.countAtomic
  · exact h

theorem OnMems.redExecute {k i : Nat} {e : OutEntry} {a : Nat} {t : Ty} {v : Word} {exact : Bool} (h : OnMems Canonical s) :
    OnMems Canonical (s.redExecute k i e a t v exact) := by
  unfold State.redExecute
  dsimp only
  split
  · refine .ite h.dropEntry ?_
    exact (h.dropEntry.unpoison _ _ _).setShm (wf_mwrite _ _ h.dropEntry.inv.shm)
  refine .ite h.countEntry.dropEntry ?_
  split
  · exact h.countEntry.weirExecute
  · refine OnMems.writeGlb ?_ _ _ _ _ _ _
    split
    · exact h.countEntry.dropEntry.sealRun.exactUpdate
    · exact h.countEntry.dropEntry.sealRun.closeExact _ _ _

theorem OnMems.bindAtomic {k seq : Nat} {t : Ty} {old : Word} {acq : List (Scope × Nat)} (h : OnMems P s) :
    OnMems P (s.bindAtomic k seq t old acq) := by
  unfold State.bindAtomic
  dsimp only
  split
  · exact h
  · exact (h.ite h.untouched).modAct _ _

theorem OnMems.amoExecute {k i : Nat} {e : OutEntry} {a : Nat} {t : Ty} {op : Option Nat} {v expect : Word} {seq : Nat} {acq : Bool}
    (h : OnMems Canonical s) : OnMems Canonical (s.amoExecute k i e a t op v expect seq acq) := by
  unfold State.amoExecute
  extract_lets d s1 put old1 src old2 s2
  have hput : ∀ t v t' b, OnMems Canonical t → OnMems Canonical t' → OnMems Canonical (put t v t' b) :=
    fun _ _ _ _ ht ht' => (ht'.ite ht).bindAtomic
  have h1 : OnMems Canonical s1 := h.dropEntry
  have hsrc : OnMems Canonical src := h1.unpoison _ _ _
  have h2 : OnMems Canonical s2 := h1.countEntry.noteIds.sealRun.closeExact _ _ _
  split
  · split
    · exact hput _ _ _ _ h1 h1
    · exact hput _ _ _ _ h1 (hsrc.setShm (wf_mwrite _ _ h1.inv.shm))
  · split
    · exact hput _ _ _ _ h2 h2
    · exact hput _ _ _ _ h2 (h2.writeGlb _ _ _ _ _ _)

theorem OnMems.amoPoisoned {k i : Nat} {e : OutEntry} {a seq : Nat} (h : OnMems Canonical s) :
    OnMems Canonical (s.amoPoisoned k i e a seq) := by
  unfold State.amoPoisoned
  dsimp only
  split
  · exact h
  split
  · exact (h.dropEntry.modAct _ _).lateFault
  · exact h

theorem OnMems.execAtomicAtOwner {core slot index : Nat} (h : OnMems Canonical s) :
    OutOn Canonical (execAtomicAtOwner core slot index s) := by
  unfold Machine.execAtomicAtOwner
  dsimp only
  split
  · split
    · exact h
    split
    · exact h.redReady
    split
    · exact h.redReady.redExecute.settleOwners
    · split
      · split
        · exact h.redReady.amoPoisoned.settleOwners
        · exact h.redReady.amoExecute.settleOwners
      split
      · exact h.redReady.amoPoisoned.settleOwners
      · exact h.redReady.amoExecute.settleOwners
    · exact h.redReady
  · exact h

theorem OnMems.homeOpReady {o : HomeOp} (h : OnMems P s) : OnMems P (s.homeOpReady o).2 := by
  unfold State.homeOpReady
  dsimp only
  split
  · exact h
  split
  · exact h.awaitLines
  split
  · exact h.dupReady
  · exact h.dupReady.lineReady

theorem OnMems.execSignalHomeOp {index : Nat} (h : OnMems Canonical s) : OutOn Canonical (execSignalHomeOp index s) := by
  unfold Machine.execSignalHomeOp
  dsimp only
  split
  · exact h
  split
  · exact h.homeOpReady
  split
  · exact h.homeOpReady.untouched
  · exact h.homeOpReady.untouched.sigPoison.ite h.homeOpReady.untouched.sigUpdate

theorem OnMems.execWeirTableWrite {index : Nat} {entry : WeirEntry} (h : OnMems P s) :
    OutOn P (execWeirTableWrite index entry s) := by
  unfold Machine.execWeirTableWrite
  dsimp only
  split
  · exact h
  · exact h.untouched.ite h.untouched

/-! ## The system words -/

theorem OnMems.effBrk {w : Operands} (h : OnMems P s) : (effBrk w s).On P := by
  unfold Machine.effBrk
  exact h

theorem OnMems.effTrap {w : Operands} (h : OnMems P s) : (effTrap w s).On P := by
  unfold Machine.effTrap
  exact h

theorem OnMems.clearProfile {core : Nat} (h : OnMems P s) : OnMems P (s.clearProfile core) := h.modCore _ _

theorem OnMems.trcctlWrite {core : Nat} {v : Word} (h : OnMems P s) : OnMems P (s.trcctlWrite core v) := by
  unfold State.trcctlWrite
  dsimp only
  split
  · exact (h.modCore _ _).clearProfile
  · exact h.modCore _ _

theorem OnMems.migctlWrite {part : Nat} {v : Word} (h : OnMems P s) : OnMems P (s.migctlWrite part v) := by
  unfold State.migctlWrite
  dsimp only
  split
  · exact h.modPart _ _
  · exact (h.modPart _ _).pinPage
  · exact (h.modPart _ _).unpinPage
  · exact (h.modPart _ _).movePage

theorem OnMems.ctlWrite {n : Nat} {v : Word} (h : OnMems P s) : OnMems P (s.ctlWrite n v) := by
  unfold State.ctlWrite
  dsimp only
  split
  · exact h.modMe _
  · exact h.modMe _
  · exact h.modCore _ _
  · exact h.trcctlWrite
  · split
    · exact h.untouched
    · exact h
  · split
    · exact (h.modMe _).setHint
    · exact h.modMe _
  · exact h.migctlWrite
  · exact h

theorem OnMems.effMfc {w : Operands} (h : OnMems P s) : (effMfc w s).On P := by
  unfold Machine.effMfc
  split
  · exact h
  · exact h.modMe _

theorem OnMems.effMtc {w : Operands} (h : OnMems P s) : (effMtc w s).On P := by
  unfold Machine.effMtc
  dsimp only
  split
  · exact h
  split
  · exact h
  split
  · exact h
  · exact h.ctlWrite

theorem OnMems.parkAt {k : Nat} {isV : Bool} {n fall : Nat} (h : OnMems Canonical s) :
    OnMems Canonical (s.parkAt k isV n fall) := by
  unfold State.parkAt
  extract_lets core a v dfr gs bad s1 put
  have hput : ∀ t e, OnMems Canonical t → OnMems Canonical (put t e) := fun t e ht => ht.modAct _ _
  have h1 : OnMems Canonical s1 := h.unless (·.beside)
  split
  · exact hput _ _ h1.colSet
  split
  · exact hput _ _ ((h1.unless (·.beside)).modAct _ _)
  · exact hput _ _ (h1.toFall _ _ _ _ _)

theorem OnMems.effPark {w : Operands} (h : OnMems Canonical s) : (effPark w s).On Canonical := by
  unfold Machine.effPark
  extract_lets isV n size fall
  split
  · exact h
  · exact Res.On.ite h (.ite h (.ite h h.parkAt))

theorem OnMems.effUnpark {w : Operands} (h : OnMems P s) : (effUnpark w s).On P := by
  unfold Machine.effUnpark
  exact h.unparkAt

theorem OnMems.effStamp {w : Operands} (h : OnMems P s) : (effStamp w s).On P := by
  unfold Machine.effStamp
  split
  · exact h
  · exact h.modMe _

theorem OnMems.effTrace {w : Operands} (h : OnMems Canonical s) : (effTrace w s).On Canonical := by
  unfold Machine.effTrace
  dsimp only
  split
  · exact h
  split
  · exact h.trace
  · exact h

theorem OnMems.effTrig (h : OnMems P s) : (effTrig s).On P := by
  unfold Machine.effTrig
  split
  · exact h
  · exact h.modCore _ _

/-! ## Saves, restorations and the OS's service of faults -/

theorem OnMems.renameParked {d : Nat} {old new : Parked} (h : OnMems P s) : OnMems P (s.renameParked d old new) := h.modDie _ _

theorem OnMems.queueRestore {part n : Nat} {how : ResumeHow} (h : OnMems P s) : OnMems P (s.queueRestore part n how) := by
  unfold State.queueRestore
  dsimp only
  split
  · exact h
  · exact h.modCore _ _

theorem OnMems.startChild {k n : Nat} {host : Act} {entry : Word} {args : List Word} {given : List Obl} {inh : Option Rank}
    (h : OnMems Canonical s) :
    OnMems Canonical (s.startChild k n host entry args given inh) := by
  unfold State.startChild
  exact (h.clearBank.setAct _ _).beside.trace

theorem OnMems.traceSave {k n : Nat} {why : SaveWhy} {code : Nat} (h : OnMems Canonical s) :
    OnMems Canonical (s.traceSave k n why code) := h.trace

theorem OnMems.saveHost {k n : Nat} {w : Operands} {given : List Obl} {inh : Option Rank} (h : OnMems Canonical s) :
    OnMems Canonical (s.saveHost k n w given inh) := by
  unfold State.saveHost
  exact ((((h.modAct _ _).cleanS).traceSave).saveInto).startChild

theorem OnMems.afterSave {k n : Nat} {a : Act} {v : SaveReq} (h : OnMems Canonical s) :
    OnMems Canonical (s.afterSave k n a v) := by
  unfold State.afterSave
  dsimp only
  split
  · split
    · exact h.queueRestore
    · exact h
  split
  · exact h.post
  split
  · exact (h.renameParked.modDie _ _).queueRestore
  split
  · split
    · exact (h.renameParked.modDie _ _).coalRecord
    · exact h.renameParked.modDie _ _
  · exact h.renameParked.modDie _ _

theorem OnMems.saveNow {k n : Nat} {v : SaveReq} (h : OnMems Canonical s) : OnMems Canonical (s.saveNow k n v) := by
  unfold State.saveNow
  dsimp only
  split
  · exact (h.forgetKey.modCore _ _).saveHost
  · exact ((((h.forgetKey.modCore _ _).traceSave).saveInto).afterSave).leaveIfFree

theorem OnMems.unsave {k : Nat} (h : OnMems Canonical s) : OnMems Canonical (s.unsave k) := (h.modAct _ _).resumeWait

theorem OnMems.trySave {k : Nat} (h : OnMems Canonical s) : OnMems Canonical (s.trySave k) := by
  unfold State.trySave
  dsimp only
  split
  · split
    · exact h
    split
    · exact (h.modDie _ _).saveNow
    split
    · exact h.unsave
    split
    · exact h
    · exact (h.modAct _ _).note
  · exact h

theorem OnMems.preemptSlot {k : Nat} (h : OnMems Canonical s) : OnMems Canonical (s.preemptSlot k) := by
  unfold State.preemptSlot
  dsimp only
  split
  · exact h
  · split
    · exact (h.modAct _ _).annotate
    · exact h.modAct _ _
    · exact h
  · exact (h.modAct _ _).annotate

theorem OnMems.execFrameRestore {core : Nat} (h : OnMems Canonical s) : OutOn Canonical (execFrameRestore core s) := by
  unfold Machine.execFrameRestore
  dsimp only
  split
  · exact h
  split
  · exact h
  split
  · next e3 => exact ((h.modCore _ _).restoreInto).refused e3
  · next e3 => exact ((((h.modCore _ _).restoreInto).ok e3).trace).completeTimers

theorem OnMems.serveItem {part : Nat → Nat → Option Nat} {i : Parked} (h : OnMems P s) : OnMems P (s.serveItem part i) := by
  unfold State.serveItem
  split
  · split
    · exact h.queueRestore
    · exact h
  · exact h.unparkCmd
  · exact h.modAct _ _

theorem OnMems.serveEntry {d n : Nat} (h : OnMems Canonical s) : OnMems Canonical (s.serveEntry d n) := by
  unfold State.serveEntry
  dsimp only
  split
  · exact h
  · exact (h.coalSet.foldl (fun _ _ h => h.serveItem) _).fromOverflow

theorem OnMems.execPageReady {die asid page : Nat} (h : OnMems Canonical s) :
    OutOn Canonical (execPageReady die asid page s) := by
  unfold Machine.execPageReady
  split
  · exact h.serveEntry
  · exact h

theorem OnMems.execPushFreeFrame {die frame : Nat} (h : OnMems Canonical s) :
    OutOn Canonical (execPushFreeFrame die frame s) := by
  unfold Machine.execPushFreeFrame
  dsimp only
  split
  · exact h
  split
  · exact (h.modDie _ _).trySave
  · exact h.modDie _ _

theorem OnMems.leaveEntries {p : Parked → Bool} (h : OnMems P s) : OnMems P (s.leaveEntries p) := h.untouched

theorem OnMems.resumeFrame {part n : Nat} {how : ResumeHow} (h : OnMems Canonical s) :
    OnMems Canonical (s.resumeFrame part n how) := by
  unfold State.resumeFrame
  dsimp only
  split
  · exact h
  split
  · exact h.leaveEntries.noteFrame
  · exact h.leaveEntries.queueRestore

theorem OnMems.resumeParked {k : Nat} {how : ResumeHow} (h : OnMems P s) : OnMems P (s.resumeParked k how) := by
  unfold State.resumeParked
  dsimp only
  split
  · exact h
  split
  · exact h.modAct _ _
  · exact h
  split
  · exact (h.modAct _ _).cleanS
  · exact h

theorem OnMems.resume {t : ResumeTarget} {how : ResumeHow} (h : OnMems Canonical s) : OnMems Canonical (s.resume t how) := by
  unfold State.resume
  split
  · exact h.resumeFrame
  · exact h.resumeParked

theorem OnMems.dropWaiters {part : Nat} (h : OnMems Canonical s) : OnMems Canonical (s.dropWaiters part) :=
  h.foldl (fun _ _ h => h.untouched.putBlock _ _ _ _ _) _

theorem OnMems.clearPart {part : Nat} (h : OnMems Canonical s) : OnMems Canonical (s.clearPart part) := by
  unfold State.clearPart
  extract_lets slots ids frames asid mine s1 keepEntry freed s2 s3 s4 s5 s6 s7
  have h3 : OnMems Canonical s3 := h.leaveEntries.beside.foldl (fun _ _ h => h.fromOverflow) _
  have h5 : OnMems Canonical s5 := (h3.foldl (fun _ _ h => h.forgetKey) _).beside
  exact (h5.dropWaiters.foldl (fun _ _ h => h.freeSlot) _).beside

theorem OnMems.execProcessTerminate {part : Nat} (h : OnMems Canonical s) : OutOn Canonical (execProcessTerminate part s) := by
  unfold Machine.execProcessTerminate
  extract_lets s1 groups s2 s3 s4
  have h1 : OnMems Canonical s1 := h.foldl (fun _ _ h => h.poisonObls) _
  have h3 : OnMems Canonical s3 := (h1.foldl (fun _ _ h => h.releasePhase) _).beside
  have h4 : OnMems Canonical s4 := h3.clearPart.modPart _ _
  exact h4.foldl (fun _ _ h => h.leaveIfFree) _

theorem OnMems.eccNote {code : Nat} {g : Granule} (h : OnMems Canonical s) : OnMems Canonical (s.eccNote code g) := h.post

theorem OnMems.execEccCorrected {granule : Granule} (h : OnMems Canonical s) :
    OutOn Canonical (execEccCorrected granule s) := by
  unfold Machine.execEccCorrected
  dsimp only
  split
  · exact h.eccNote.unless (·.annotate)
  · exact h.eccNote.annotateCore (fun _ h => h.divergeCore)
  · exact h.eccNote.annotateCore (fun _ h => h.divergeCore)
  · exact h.eccNote

theorem OnMems.poisonParked {g : Granule} (h : OnMems P s) : OnMems P (s.poisonParked g) := by
  unfold State.poisonParked
  dsimp only
  split
  · exact h.untouched
  · split
    · exact h.untouched
    · exact h
  · split
    · exact h.untouched
    · exact h
  · exact h

theorem OnMems.eccReplay {g : Granule} (h : OnMems Canonical s) : OnMems Canonical (s.eccReplay g) := by
  unfold State.eccReplay
  dsimp only
  split
  · exact h
  · exact (h.foldl (fun _ _ h => h.toNormal) _).divergeCore

theorem OnMems.execDeadMessageRedispatch {part index : Nat} {poison : Bool} (h : OnMems Canonical s) :
    OutOn Canonical (execDeadMessageRedispatch part index poison s) := by
  unfold Machine.execDeadMessageRedispatch
  split
  · exact h
  split
  · exact (h.modPart _ _).poisonObls
  · exact h.redispatch

/-! ## Launches and the resizing of a partition -/

theorem OnMems.loadTiles {stages : List Stage} {ts : List TileDecl} (h : OnMems P s) : OnMems P (s.loadTiles stages ts) := by
  unfold State.loadTiles
  refine h.foldl (fun t d ht => ?_) _
  split
  · exact ht
  · exact ht.foldl (fun _ _ h => h.setTile) _

theorem OnMems.mapImage {im : Image} (h : OnMems Canonical s) : OnMems Canonical (s.mapImage im) := h.untouched.fillGlb _

theorem OnMems.startLaunch {l : Launching} (h : OnMems Canonical s) : OnMems Canonical (s.startLaunch l) := by
  unfold State.startLaunch
  extract_lets im p dies s1 s2 gone s3 s4 s5 s6 s7
  have h2 : OnMems Canonical s2 := OnMems.mapImage h.beside
  have h3 : OnMems Canonical s3 := h2.foldl (fun _ _ h => h.modCore _ _) _
  have h4 : OnMems Canonical s4 := h3.foldl (fun _ _ h => (h.modCore _ _).fillLoc _ _) _
  have h5 : OnMems Canonical s5 := h4.foldl (fun _ _ h => h.fillShm _ _ _) _
  have h6 : OnMems Canonical s6 := h5.foldl (fun _ _ h => h.foldl (fun _ _ h => h.modCore _ _) _) _
  have h7 : OnMems Canonical s7 := h6.loadTiles
  exact h7.foldl (fun _ _ h => h.insertLink) _

theorem OnMems.execLaunch {image : Image} (h : OnMems Canonical s) : OutOn Canonical (execLaunch image s) := by
  unfold Machine.execLaunch
  split
  · exact h.startLaunch
  · exact h.untouched

theorem OnMems.execLaunchEnd {part : Nat} (h : OnMems P s) : OutOn P (execLaunchEnd part s) := by
  unfold Machine.execLaunchEnd
  dsimp only
  split
  · exact h
  · exact h.modPart _ _

theorem OnMems.execPartitionGrow {part : Nat} {clusters : List Nat} (h : OnMems Canonical s) :
    OutOn Canonical (execPartitionGrow part clusters s) := by
  unfold Machine.execPartitionGrow
  dsimp only
  split
  · exact h
  · exact ((h.modPart _ _).foldl (fun _ _ h => (h.modCore _ _).fillLoc _ _) _).foldl (fun _ _ h => h.fillShm _ _ _) _

theorem OnMems.execDepartureTimeout {core : Nat} (h : OnMems Canonical s) : OutOn Canonical (execDepartureTimeout core s) := by
  unfold Machine.execDepartureTimeout
  split
  · split
    · exact h
    · exact h.foldl (fun _ _ h => h.preemptSlot) _
  · exact h

/-! ## The capture block and precise stops -/

theorem OnMems.mark {n action : Nat} (h : OnMems Canonical s) : OnMems Canonical (s.mark n action) :=
  h.foldl (fun _ _ h => h.when (·.draw.draw.draw.draw.draw.traceWrite)) _

theorem OnMems.settleStop (h : OnMems P s) : OnMems P s.settleStop := by
  unfold State.settleStop
  split
  · exact h.untouched
  · exact h

theorem OnMems.beginStop (h : OnMems P s) : OnMems P s.beginStop := by
  unfold State.beginStop
  dsimp only
  split
  · exact h
  · exact ((h.foldl (fun _ _ h => h.modCore _ _) _).untouched).settleStop

theorem OnMems.endStop (h : OnMems P s) : OnMems P s.endStop := by
  unfold State.endStop
  dsimp only
  split
  · exact h
  · exact h.untouched

theorem OnMems.unfreeze (h : OnMems Canonical s) : OnMems Canonical s.unfreeze :=
  h.untouched.foldl (fun _ _ h => h.ite ((h.foldl (fun _ _ h => h.traceWrite) _).modDie _ _)) _

theorem OnMems.action {m : Word} (h : OnMems P s) : OnMems P (s.action m) := by
  unfold State.action
  split
  · split
    · exact h
    · exact h.untouched
  · exact h.untouched
  · exact h.untouched
  · exact h.untouched
  · exact h.beginStop

theorem OnMems.fire {n : Nat} (h : OnMems Canonical s) : OnMems Canonical (s.fire n) := by
  unfold State.fire
  exact h.mark.beside.action

theorem OnMems.meetEvent {e : SysEvent} {action : Nat} (h : OnMems Canonical s) : OnMems Canonical (s.meetEvent e action) := by
  unfold State.meetEvent
  dsimp only
  split
  · exact h.foldl (fun _ _ h => h.fire) _
  · exact h

theorem OnMems.execPreciseStopTimeout {core slot : Nat} (h : OnMems Canonical s) :
    OutOn Canonical (execPreciseStopTimeout core slot s) := by
  unfold Machine.execPreciseStopTimeout
  dsimp only
  split
  · exact h
  split
  · exact h.preemptSlot
  · exact h

theorem OnMems.execPreciseStopLanding {core : Nat} (h : OnMems Canonical s) :
    OutOn Canonical (execPreciseStopLanding core s) := by
  unfold Machine.execPreciseStopLanding
  dsimp only
  split
  · exact h
  · exact (((h.bareWords.modDie _ _).ite h.bareWords.traceWrite).modCore _ _).settleStop

theorem OnMems.execProfileRead {core addr : Nat} (h : OnMems Canonical s) : OutOn Canonical (execProfileRead core addr s) := by
  unfold Machine.execProfileRead
  dsimp only
  split
  · exact h
  split
  · exact h
  · exact (h.foldl (fun _ _ h => h.pokeVirt) _).beside

/-! ## Key slots, the host link, boot and clocks -/

theorem OnMems.rekeyed {n : Nat} {old new : List Word} (h : OnMems Canonical s) : OnMems Canonical (s.rekeyed n old new) :=
  h.foldl (fun _ _ h => h.foldl (fun _ _ h => (h.foldl (fun _ _ h => h.sealPhys _) _).poke _ _) _) _

theorem OnMems.beginKey {slot : Nat} {load : Bool} (h : OnMems P s) : OnMems P (s.beginKey slot load) := by
  unfold State.beginKey
  split
  · exact h
  · exact h.untouched

theorem OnMems.loadKey {n : Nat} (h : OnMems Canonical s) : OnMems Canonical (s.loadKey n) := (h.ite h.rekeyed).untouched

theorem OnMems.execKeySlotDone (h : OnMems Canonical s) : OutOn Canonical (execKeySlotDone s) := by
  unfold Machine.execKeySlotDone
  split
  · exact h
  · exact (h.loadKey.ite h.untouched).beside

theorem OnMems.failHostRead {key : Nat} (h : OnMems P s) : OnMems P (s.failHostRead key) := by
  unfold State.failHostRead
  dsimp only
  split
  · exact h
  · exact h.countHostError.untouched.modAct _ _

theorem OnMems.execHostWriteFail (h : OnMems Canonical s) : OutOn Canonical (execHostWriteFail s) := by
  unfold Machine.execHostWriteFail
  split
  · exact h
  · exact OnMems.beside (h.countHostError.setHost (wf_mwrite _ _ h.inv.host))

theorem OnMems.raiseRollback {v : Word} (h : OnMems P s) : OnMems P (s.raiseRollback v) := by
  unfold State.raiseRollback
  split
  · exact h.untouched
  · exact h

theorem OnMems.powerUp (h : OnMems Canonical s) : OnMems Canonical s.powerUp :=
  OnMems.mk ⟨rfl, rfl, rfl, h.inv.host, h.inv.flash⟩

theorem OnMems.bootFrom {copy : Nat} (h : OnMems P s) : OnMems P (s.bootFrom copy) := h.untouched

theorem OnMems.execPowerGood (h : OnMems Canonical s) : OutOn Canonical (execPowerGood s) := by
  unfold Machine.execPowerGood
  extract_lets s1 s2 s3
  have h2 : OnMems Canonical s2 := h.powerUp.beside
  have h3 : OnMems Canonical s3 := h2.bootFrom.ite (h2.bootFrom.ite h2.beside)
  split
  · exact h3.beside.raiseRollback
  · exact h3

theorem OnMems.bootStage {offset : Nat} {os : Bool} (h : OnMems P s) : OnMems P (s.bootStage offset os) := by
  unfold State.bootStage
  dsimp only
  split
  · exact h
  · exact h.untouched

theorem OnMems.execRecoveryCopyWrite {copy : Nat} {contents : BootCopy} (h : OnMems Canonical s) :
    OutOn Canonical (execRecoveryCopyWrite copy contents s) :=
  h.when fun h => ⟨h.inv.glb, h.inv.loc, h.inv.shm, h.inv.host, wf_mwrite _ _ h.inv.flash⟩

theorem OnMems.execRollbackRaise {value : Word} (h : OnMems P s) : OutOn P (execRollbackRaise value s) := by
  unfold Machine.execRollbackRaise
  split
  · exact h.raiseRollback
  · exact h.untouched
  · exact h

theorem OnMems.capstatWrite {v : Word} (h : OnMems Canonical s) : OnMems Canonical (s.capstatWrite v) := by
  unfold State.capstatWrite
  dsimp only
  split
  · exact (h.untouched.when (·.unfreeze)).endStop
  split
  · exact h.untouched.unfreeze
  · exact h.untouched

theorem OnMems.ksctlWrite {v : Word} (h : OnMems P s) : OnMems P (s.ksctlWrite v) := by
  unfold State.ksctlWrite
  split
  · exact h.beginKey
  · exact h.beginKey
  · exact h

theorem OnMems.hlerrWrite {v : Word} (h : OnMems P s) : OnMems P (s.hlerrWrite v) := by
  unfold State.hlerrWrite
  dsimp only
  split <;> exact h.untouched

theorem OnMems.ringCtlWrite {n : Nat} {v : Word} (h : OnMems Canonical s) : OnMems Canonical (s.ringCtlWrite n v) :=
  h.untouched.flushRing

theorem OnMems.sysWrite {r : SysReg} {v : Word} (h : OnMems Canonical s) : OnMems Canonical (s.sysWrite r v) := by
  unfold State.sysWrite
  dsimp only
  split
  · exact h.untouched.flushRing
  · exact h.ringCtlWrite
  · split
    · exact h.untouched
    · exact h
  · split
    · exact h.untouched
    · exact h
  · exact h.capstatWrite
  · exact h.modDie _ _
  · exact h.ksctlWrite
  · split
    · exact h.untouched
    · exact h
  · exact h.hlerrWrite
  · exact h.modDie _ _
  · exact h.modDie _ _
  · exact h.modDie _ _
  · exact h.untouched
  · exact h.modDie _ _

theorem OnMems.osSend {m : Msg} (h : OnMems P s) : OnMems P (s.osSend m) := by
  unfold State.osSend
  dsimp only
  split
  · exact h
  · exact h.untouched

/-! ## Every instruction and every event -/

theorem OnMems.exec {i : Instr} (h : OnMems Canonical s) : OutOn Canonical (exec i s) := by
  cases i with
  | abs | add | and | andn | bswap | clz | ctz | div | exts | extz | ins | madr | max | min | mul | mulh
  | neg | or | popc | rem | rol | sar | sel | shl | shr | sub | xor | fabs | fadd | fcvt | fdiv | ffma | fmax
  | fmin | fmul | fneg | fsqrt | fsub => exact h.issue (fun _ h => h.arith)
  | cmp | fcmp => exact h.issue (fun _ h => h.compare)
  | nop | yield => exact h.issue (fun _ h => h)
  | mall | many => exact h.issue (fun _ h => h.resolveGuard)
  | mand | mfirst | mnot | mor => exact h.issue (fun _ h => h.putMask)
  | vabs | vadd | vand | vcvt | vfma | vmax | vmin | vmov | vmul | vor | vsar | vshl | vshr | vsub | vxor =>
    exact h.issue (fun _ h => h.laneOp)
  | vdot4 | vperm | vscan | vslide => exact h.issue (fun _ h => h.lanes)
  | vexp2 | vlog2 | vrcp | vrsq => exact h.issue (fun _ h => h.laneFn)
  | ldg | ldl | lds => exact h.issue (fun _ h => h.effLoad)
  | stg | stl | sts => exact h.issue (fun _ h => h.effStore)
  | vldg | vldl | vlds | vstg | vstl | vsts | vgthg | vgthl | vgths | vsctg | vsctl | vscts | vreds =>
    exact h.issue (fun _ h => h.effVec)
  | amog | amos => exact h.issue (fun _ h => h.effAmo)
  | casg | cass => exact h.issue (fun _ h => h.effCas)
  | redg | reds => exact h.issue (fun _ h => h.effRed)
  | sigadd | sigset => exact h.issue (fun _ h => h.effSigUpdate)
  | cpy | cpyg => exact h.issueWord (fun _ h => h.effCopy)
  | colag | colrs => exact h.issue (fun _ h => h.effCol)
  | slotStartDone | starvationPromotion => exact h.modAct _ _
  | announcement | nullEvent => exact h.applyClock
  | resumeAtWord | resumeAfterWord | resumeWithRecovery => exact h.resume
  | captureStart | captureStop | captureFreeze | selectFilter | preciseStop => exact h.meetEvent
  | keySlotLoad | keySlotClear => exact h.beginKey
  | identityReport | clockStepDown | clockStepUp | overTemperatureShutdown | hostLinkUp => exact h.untouched
  | li => exact h.issue (fun _ h => h.put h)
  | lih => exact h.execLih
  | mov => exact h.execMov
  | br => exact h.issue (fun _ h => h.effBr)
  | brl => exact h.issue (fun _ h => h.effBrl)
  | chk => exact h.issue (fun _ h => h.effChk)
  | endOp => exact h.issueSerial (fun _ h => h.effEnd)
  | jmp => exact h.issue (fun _ h => h.effJmp)
  | loop => exact h.issue (fun _ h => h.effLoop)
  | ret => exact h.issue (fun _ h => h.effRet)
  | gand => exact h.execGand
  | gnot => exact h.execGnot
  | gor => exact h.execGor
  | mpop => exact h.execMpop
  | vcmp => exact h.issue (fun _ h => h.effVcmp)
  | vext => exact h.execVext
  | vins => exact h.issue (fun _ h => h.effVins)
  | vlget => exact h.issue (fun _ h => h.effVlget)
  | vqnt => exact h.issue (fun _ h => h.effVqnt)
  | vred => exact h.issue (fun _ h => h.effVred)
  | vsel => exact h.issue (fun _ h => h.effVsel)
  | vsplat => exact h.issue (fun _ h => h.effVsplat)
  | ldz => exact h.issue (fun _ h => h.effLdz)
  | stz => exact h.issue (fun _ h => h.effStz)
  | pref => exact h.issue (fun _ h => h.effPref)
  | fence => exact h.issue (fun _ h => h.effFence)
  | fencer => exact h.issue (fun _ h => h.effFencer)
  | waita => exact h.issueSerial (fun _ h => h.effWaita)
  | wakea => exact h.issue (fun _ h => h.effWakea)
  | oblgive => exact h.issue (fun _ h => h.effOblgive)
  | oblqry => exact h.issue (fun _ h => h.effOblqry)
  | obltake => exact h.issue (fun _ h => h.effObltake)
  | sigfree => exact h.issue (fun _ h => h.effSigfree)
  | signew => exact h.issue (fun _ h => h.effSignew)
  | sigwait => exact h.issueSerial (fun _ h => h.effSigwait)
  | bara => exact h.issue (fun _ h => h.effBara)
  | barw => exact h.issueSerial (fun _ h => h.effBarw)
  | grpqry => exact h.issue (fun _ h => h.effGrpqry)
  | bind => exact h.issue (fun _ h => h.effBind)
  | unbind => exact h.issue (fun _ h => h.effUnbind)
  | send => exact h.issue (fun _ h => h.effSend)
  | spawn => exact h.issue (fun _ h => h.effSpawn)
  | slopen => exact h.issue (fun _ h => h.effSlopen)
  | slwr => exact h.issue (fun _ h => h.effSlwr)
  | slclose => exact h.issue (fun _ h => h.effSlclose)
  | ltadv => exact h.issue (fun _ h => h.effLtadv)
  | ltann => exact h.issue (fun _ h => h.effLtann)
  | ltget => exact h.issue (fun _ h => h.effLtget)
  | ltlook => exact h.issue (fun _ h => h.effLtlook)
  | ltnull => exact h.issue (fun _ h => h.effLtnull)
  | ltset => exact h.issue (fun _ h => h.effLtset)
  | ltwait => exact h.issueSerial (fun _ h => h.effLtwait)
  | mma => exact h.issue (fun _ h => h.effMma)
  | mmdrain => exact h.issue (fun _ h => h.effMmdrain)
  | mmrow => exact h.issue (fun _ h => h.effMmrow)
  | mmz => exact h.issue (fun _ h => h.effMmz)
  | rpt => exact h.execRpt
  | rptend => exact h.advance.ite h
  | tblld => exact h.issue (fun _ h => h.effTblld)
  | tblx => exact h.issue (fun _ h => h.effTblx)
  | tldef => exact h.issue (fun _ h => h.effTldef)
  | tlqry => exact h.issue (fun _ h => h.effTlqry)
  | tlset => exact h.issueWord (fun _ h => h.effTlset)
  | brk => exact h.issue (fun _ h => h.effBrk)
  | mfc => exact h.issue (fun _ h => h.effMfc)
  | mtc => exact h.issue (fun _ h => h.effMtc)
  | park => exact h.issue (fun _ h => h.effPark)
  | unpark => exact h.issue (fun _ h => h.effUnpark)
  | stamp => exact h.issue (fun _ h => h.effStamp)
  | trace => exact h.issue (fun _ h => h.effTrace)
  | trap => exact h.issue (fun _ h => h.effTrap)
  | trig => exact h.issue (fun _ h => h.effTrig)
  | streamDeadlock => exact h.execStreamDeadlock
  | dispatch => exact h.execDispatch
  | bindwaitExpiry => exact h.execBindwaitExpiry
  | bindComplete => exact h.execBindComplete
  | deadQueueRetry => exact h.execDeadQueueRetry
  | firingStart => exact h.execFiringStart
  | rebalanceTick => exact h.execRebalanceTick
  | spawnRequest => exact h.execSpawnRequest
  | spawnAnswer => exact h.execSpawnAnswer
  | messageDelivery => exact h.execMessageDelivery
  | sendEnqueue => exact h.execSendEnqueue
  | signalHomeOp => exact h.execSignalHomeOp
  | drain => exact h.execDrain
  | apply => exact (h.applyAt _ _).ite h
  | atomicAtOwner => exact h.execAtomicAtOwner
  | counterHalving => exact h.execCounterHalving
  | ownerQuery => exact h.execOwnerQuery
  | ownerReply => exact h.execOwnerReply
  | redirect => exact h.execRedirect
  | notOwner => exact h.execNotOwner
  | migrateBegin => exact h.execMigrateBegin
  | pageLines => exact h.execPageLines
  | migrateDone => exact h.execMigrateDone
  | ownerUpdate => exact h.execOwnerUpdate
  | stubExpiry => exact h.execStubExpiry
  | stubRetire => exact h.execStubRetire
  | ownerInval => exact h.execOwnerInval
  | ownerInvalAck => exact h.execOwnerInvalAck
  | retireOk => exact h.execRetireOk
  | stubRelay => exact h.execStubRelay
  | chainLimit => exact h.execChainLimit
  | dupInval => exact h.execDupInval
  | dupInvalAck => exact h.execDupInvalAck
  | leaseGrant => exact h.execLeaseGrant
  | leaseRecall => exact h.execLeaseRecall
  | leaseReturn => exact h.execLeaseReturn
  | reservedKind => exact h.execReservedKind
  | migctlPin => exact h.pinPage
  | migctlUnpin => exact h.unpinPage
  | migctlMove => exact h.movePage
  | atmmodeHintWrite => exact h.setHint
  | barrierArrival => exact h.execBarrierArrival
  | barrierRelease => exact h.execBarrierRelease
  | mmaStep => exact h.execMmaStep
  | mmzExec => exact h.execMmzExec
  | drainStart => exact h.execDrainStart
  | drainComplete => exact h.execDrainComplete
  | copyLine => exact h.execCopyLine
  | copyComplete => exact h.execCopyComplete
  | collectiveLine => exact h.execCollectiveLine
  | collectiveComplete => exact h.execCollectiveComplete
  | sluiceAnswer => exact h.execSluiceAnswer
  | sluiceCloseAck => exact h.execSluiceCloseAck
  | eventDispatch => exact h.execEventDispatch
  | demand => exact h.execDemand
  | frameSave => exact h.trySave
  | frameRestore => exact h.execFrameRestore
  | preempt => exact h.foldl (fun _ _ h => h.preemptSlot.ite h) _
  | pageReady => exact h.execPageReady
  | releaseEntry => exact h.serveEntry
  | pushFreeFrame => exact h.execPushFreeFrame
  | ringTailWrite => exact h.untouched.flushRing
  | processTerminate => exact h.execProcessTerminate
  | eccCorrected => exact h.execEccCorrected
  | eccUncorrected => exact (h.eccNote.poisonParked.unless (·.untouched)).eccReplay
  | launch => exact h.execLaunch
  | launchClose => exact h.modPart _ _
  | launchEnd => exact h.execLaunchEnd
  | partitionGrow => exact h.execPartitionGrow
  | partitionShrink => exact h.foldl (fun _ _ h => ((h.modCore _ _).leaveIfFree).ite h) _
  | departureTimeout => exact h.execDepartureTimeout
  | creditAudit => exact h.execCreditAudit
  | creditReturn => exact h.returnCredits
  | routerGate => exact h.execRouterGate
  | routerWake => exact h.carry
  | preciseStopTimeout => exact h.execPreciseStopTimeout
  | preciseStopLanding => exact h.execPreciseStopLanding
  | preciseStopResume => exact h.endStop
  | captureUnfreeze => exact h.unfreeze
  | panic => exact h.foldl (fun _ _ h => h.fire) _
  | profileClear => exact h.clearProfile
  | profileRead => exact h.execProfileRead
  | replayTimeout => exact h.execReplayTimeout
  | keySlotDone => exact h.execKeySlotDone
  | hostReadFail => exact h.failHostRead.ite h
  | hostWriteFail => exact h.execHostWriteFail
  | hostLinkDown => exact h.untouched.foldl (fun _ _ h => h.failHostRead) _
  -- At the default transparency the elaborator would evaluate the power-up to read this goal.
  | powerGood =>
    unfold Machine.exec
    with_reducible exact h.execPowerGood
  | rollbackRaise => exact h.execRollbackRaise
  | weirTableWrite => exact h.execWeirTableWrite
  | registerWrite => exact h.sysWrite
  | pageLineSend => exact h.execPageLineSend
  | pageEntryInvalidation => exact h.ite (h.pokeWord _ _)
  | deadMessageRedispatch => exact h.execDeadMessageRedispatch
  | corruptedFlit => exact h
  | computeDieResetRelease => exact h.untouched.ite h
  | recoveryCopyWrite => exact h.execRecoveryCopyWrite

/-! ## The front end of a slot and the step -/

theorem OnMems.fetch {pc : Word} (h : OnMems P s) : (s.fetch pc).On P := by
  unfold State.fetch
  dsimp only
  split
  · exact h
  split
  · next e => exact h.useGlb.stall e
  · next e => exact h.useGlb.fault e
  next e =>
    have hu := h.useGlb.ok e
    split
    · exact hu.modMe _
    split
    · exact hu.when (·.hostReadFailed)
    · exact ((hu.foldl (fun _ _ h => h.when (·.beside)) _).when fun h => h.modMe _).when (·.untouched)

theorem OnMems.bodyWord {r : Rpt} {w : IWord} (h : OnMems Canonical s) : OutOn Canonical (s.bodyWord r w) := by
  unfold State.bodyWord
  extract_lets k pc took
  have htook : ∀ t, OnMems Canonical t → OnMems Canonical (took t) := fun t ht => ht.modAct _ _
  split
  · exact (htook _ h).modAct _ _
  split
  · exact h.takeFaultAt
  · split
    · next e => exact (h.exec.next e).when (htook _)
    · exact h.exec

theorem OnMems.decoded {want : Option Stream} {w : IWord} (h : OnMems Canonical s) : OutOn Canonical (s.decoded want w) := by
  unfold State.decoded
  extract_lets k pc inBody
  split
  · exact h
  split
  · exact h.takeFaultAt
  split
  · exact h.exec
  · exact OutOn.ite (h.modAct _ _) h.exec
  · exact h.modAct _ _
  · exact OutOn.ite (h.modAct _ _) h.exec
  · split
    · exact h.exec
    · exact OutOn.ite (h.modAct _ _) h.bodyWord

theorem OnMems.placeWord {r : Rpt} (h : OnMems Canonical s) : OutOn Canonical (s.placeWord r) := by
  unfold State.placeWord
  extract_lets k pc
  split
  · exact h.modAct _ _
  split
  · exact h.modAct _ _
  have hx : ∀ i f, OutOn Canonical (Machine.exec i (s.modAct k f)) := fun i f => (h.modAct k f).exec
  split
  · next e => exact ((hx _ _).next e).modAct _ _
  · exact hx _ _

theorem OnMems.scanWord {r : Rpt} {at_ : Word} (h : OnMems Canonical s) : OutOn Canonical (s.scanWord r at_) := by
  unfold State.scanWord
  dsimp only
  split
  · exact h.modAct _ _
  split
  · next e => exact h.fetch.stall e
  · next e => exact (h.fetch.fault e).takeFaultAt
  next e =>
    have hb := h.fetch.bytes e
    split
    · split
      · exact hb.modAct _ _
      · exact hb.modAct _ _
    split
    · exact hb.modAct _ _
    split
    · exact hb.takeFaultAt
    · exact hb.modAct _ _

theorem OnMems.front {want : Option Stream} (h : OnMems Canonical s) : OutOn Canonical (s.front want) := by
  unfold State.front
  dsimp only
  split
  · exact h
  split
  · split
    · next e2 => exact h.fetch.stall e2
    · next e2 => exact (h.fetch.fault e2).takeFaultAt
    · next e2 => exact (h.fetch.bytes e2).decoded
  split
  · exact h.scanWord
  split
  · split
    · next e4 => exact h.fetch.stall e4
    · next e4 => exact (h.fetch.fault e4).takeFaultAt
    · next e4 => exact (h.fetch.bytes e4).decoded
  split
  · exact h.placeWord
  · exact h

theorem OnMems.queued {st : Stream} (h : OnMems Canonical s) : OutOn Canonical (s.queued st) := by
  unfold State.queued
  split
  · exact h
  split
  · exact OutOn.ite h.takeFaultAt h
  · exact OutOn.ite h (OnMems.exec h.beside)

theorem OnMems.bindLate {seq : Nat} (h : OnMems Canonical s) : OutOn Canonical (s.bindLate seq) := by
  unfold State.bindLate
  split
  · exact h
  next p _ =>
    have hx : ∀ i, OutOn Canonical (Machine.exec i { s with iss := .queued p }) := fun i => OnMems.exec h.beside
    split
    · refine OutOn.ite h ?_
      split
      · next e => exact OnMems.ite ((hx _).next e) h
      · exact hx _
    · exact h

theorem OnMems.nextOf {st : Stream} (h : OnMems Canonical s) : OutOn Canonical (s.nextOf st) := by
  unfold State.nextOf
  split
  · exact h.queued
  · exact h.front

theorem OnMems.turn {key : Nat} {iss : Iss} {go : State → Host.Outcome State Fault Refusal} (h : OnMems P s)
    (hgo : ∀ t, OnMems P t → OutOn P (go t)) : OutOn P (s.turn key iss go) := by
  unfold State.turn
  have hg : OutOn P (go { s with cur := key, iss := iss }) := hgo _ h.beside
  split
  · trivial
  split
  · exact h
  split
  · next e => exact (hg.next e).beside
  · exact hg

theorem OnMems.portReady {core : Nat} {st : Stream} {notReady : BitVec 8} (h : OnMems Canonical s) :
    OnMems Canonical (s.portReady core st notReady).1 := by
  unfold State.portReady
  refine List.foldlRecOn (motive := fun x : State × List Nat => OnMems Canonical x.1) _ _ h fun x hx j _ => ?_
  split
  · next e =>
    split
    · exact hx
    · exact (hx.turn fun _ h => h.nextOf).next e
  · exact hx

theorem OnMems.portNext {core : Nat} {st : Stream} {notReady : BitVec 8} (h : OnMems Canonical s) :
    OnMems Canonical (s.portNext core st notReady).1 := by
  unfold State.portNext
  dsimp only
  split <;> exact (h.portReady.when (fun h => h.endTurn _ _)).modPort _ _ _

theorem OnMems.portMove {core : Nat} {st : Stream} {notReady : BitVec 8} {later : Bool} (h : OnMems Canonical s) :
    OutOn Canonical (s.portMove core st notReady later) := by
  unfold State.portMove
  split
  · next e => exact h.portNext.fst e
  · next e => exact (h.portNext.fst e).turn fun _ h => OnMems.nextOf h.beside

theorem OnMems.tick {cycles ns : Nat} (h : OnMems P s) : OnMems P (s.tick cycles ns) := h.untouched

theorem OnMems.happen {e : Instr} (h : OnMems Canonical s) : OutOn Canonical (s.happen e) := by
  unfold State.happen
  split
  · exact OutOn.ite h.exec h
  · exact h

theorem OnMems.move (h : OnMems Canonical s) : OutOn Canonical s.move := by
  unfold State.move
  split
  · exact OutOn.ite (h.turn fun _ h => h.front) h.tick
  next x rest _ =>
    have hr : OnMems Canonical { s with agenda := rest } := h.beside
    generalize { s with agenda := rest } = s at hr
    cases x with
    | tick c n => exact hr.tick
    | event e => exact hr.happen
    | hold key => exact hr.turn fun _ h => h.front
    | port core st notReady later => exact OutOn.ite hr.portMove trivial
    | bind key seq => exact hr.turn fun _ h => h.bindLate
    | stage offset os => exact hr.bootStage
    | osSend m => exact hr.when (·.osSend)

/-- Settles O57: every step leaves the memories in canonical form, because every instruction and every event does. -/
theorem memoryFormKept : Obligations.MemoryFormKept := by
  unfold Obligations.MemoryFormKept
  intro s t h e
  exact (h.on.move.next e).inv

end Sys2Proof.Machine
end

section
/-!
Scalar stores: what a store whose checks pass leaves in each memory (R8, R103, R157).
-/

namespace Sys2Proof.Machine

variable {P : Mems → Prop} {s t u : State}

/-! ## Cells and lines -/

/-- `k` reads as `m` with the byte `b` written at `a`. -/
def Wrote (a : Nat) (b : Byte) (m k : Mem) : Prop := ∀ x, mget x k = if x = a then b else mget x m

theorem wrote_tset (a : Nat) (b : Byte) (m : Mem) : Wrote a b m (tset 0 a b m) := by
  intro x
  split
  · next h => subst h; exact tget_tset_same 0 x b m
  · next h => exact tget_tset_other 0 h b m

/-- Later cells of other addresses do not cover the byte. -/
theorem Wrote.mput {a : Nat} {b : Byte} {m k : Mem} (h : Wrote a b m k) {l : List (Nat × Byte)} (hl : ∀ d ∈ l, d.1 ≠ a) :
    Wrote a b (mput l m) (mput l k) := by
  induction l generalizing m k with
  | nil => exact h
  | cons d l ih =>
    rw [List.forall_mem_cons] at hl
    refine ih (fun x => ?_) hl.2
    rw [wrote_tset d.1 d.2 k x, wrote_tset d.1 d.2 m x, h x]
    split
    · next hx => rw [if_neg (hx ▸ hl.1)]
    · rfl

/-- A memory with the cells of some lines put into it. -/
def putLines (L : List (Piece × List (Nat × Byte))) (m : Mem) : Mem := L.foldl (fun m x => mput x.2 m) m

theorem Wrote.putLines {a : Nat} {b : Byte} {m k : Mem} (h : Wrote a b m k) {L : List (Piece × List (Nat × Byte))}
    (hL : ∀ x ∈ L, ∀ d ∈ x.2, d.1 ≠ a) : Wrote a b (putLines L m) (putLines L k) := by
  induction L generalizing m k with
  | nil => exact h
  | cons x L ih =>
    rw [List.forall_mem_cons] at hL
    exact ih (h.mput hL.1) hL.2

/-- A cell of a new address is the last of its line. -/
theorem mput_putCell {c : Nat × Byte} {l : List (Nat × Byte)} (h : ∀ d ∈ l, d.1 ≠ c.1) (m : Mem) :
    mput (putCell c l) m = tset 0 c.1 c.2 (mput l m) := by
  induction l generalizing m with
  | nil => rfl
  | cons d l ih =>
    rw [List.forall_mem_cons] at h
    rw [putCell, if_neg h.1]
    exact ih h.2 _

/-- Whichever line a cell of a new address goes to, it writes its byte and nothing else. -/
theorem putLines_putLine (p : Piece) {c : Nat × Byte} {L : List (Piece × List (Nat × Byte))} (h : ∀ x ∈ L, ∀ d ∈ x.2, d.1 ≠ c.1)
    (m : Mem) : Wrote c.1 c.2 (putLines L m) (putLines (putLine p c L) m) := by
  induction L generalizing m with
  | nil => exact wrote_tset c.1 c.2 m
  | cons x L ih =>
    rw [List.forall_mem_cons] at h
    rw [putLine]
    split
    · have hw : Wrote c.1 c.2 (mput x.2 m) (mput (putCell c x.2) m) := mput_putCell h.1 m ▸ wrote_tset _ _ _
      exact hw.putLines h.2
    · exact ih h.2 _

theorem mem_putCell {c d : Nat × Byte} {l : List (Nat × Byte)} (h : d ∈ putCell c l) : d = c ∨ d ∈ l := by
  induction l with
  | nil => exact .inl (List.mem_singleton.1 h)
  | cons e l ih =>
    rw [putCell] at h
    split at h
    · exact (List.mem_cons.1 h).imp_right (List.mem_cons_of_mem e)
    · rcases List.mem_cons.1 h with rfl | h
      · exact .inr List.mem_cons_self
      · exact (ih h).imp_right (List.mem_cons_of_mem e)

/-- A line after `putLine` is of the cell's stretch or of a line before; its cells are the cell and cells of a line before. -/
theorem mem_putLine {p : Piece} {c : Nat × Byte} {L : List (Piece × List (Nat × Byte))} {y : Piece × List (Nat × Byte)}
    (h : y ∈ putLine p c L) : (y.1 = p ∨ ∃ x ∈ L, x.1 = y.1) ∧ ∀ d ∈ y.2, d = c ∨ ∃ x ∈ L, d ∈ x.2 := by
  induction L with
  | nil =>
    obtain rfl := List.mem_singleton.1 h
    exact ⟨.inl rfl, fun d hd => .inl (List.mem_singleton.1 hd)⟩
  | cons x L ih =>
    have tail : y ∈ L → (y.1 = p ∨ ∃ z ∈ x :: L, z.1 = y.1) ∧ ∀ d ∈ y.2, d = c ∨ ∃ z ∈ x :: L, d ∈ z.2 := fun hy =>
      ⟨.inr ⟨y, List.mem_cons_of_mem x hy, rfl⟩, fun d hd => .inr ⟨y, List.mem_cons_of_mem x hy, hd⟩⟩
    rw [putLine] at h
    split at h
    · rcases List.mem_cons.1 h with rfl | h
      · exact ⟨.inr ⟨x, List.mem_cons_self, rfl⟩, fun d hd => (mem_putCell hd).imp_right fun hd => ⟨x, List.mem_cons_self, hd⟩⟩
      · exact tail h
    · rcases List.mem_cons.1 h with rfl | h
      · exact ⟨.inr ⟨_, List.mem_cons_self, rfl⟩, fun d hd => .inr ⟨_, List.mem_cons_self, hd⟩⟩
      · obtain ⟨h1, h2⟩ := ih h
        exact ⟨h1.imp_right fun ⟨z, hz, e⟩ => ⟨z, List.mem_cons_of_mem x hz, e⟩,
          fun d hd => (h2 d hd).imp_right fun ⟨z, hz, e⟩ => ⟨z, List.mem_cons_of_mem x hz, e⟩⟩

/-- The lines of some cells, each of the stretch it belongs to. -/
def gather (l : List (Piece × Nat × Byte)) (L : List (Piece × List (Nat × Byte))) : List (Piece × List (Nat × Byte)) :=
  l.foldl (fun acc x => putLine x.1 x.2 acc) L

theorem mem_gather {l : List (Piece × Nat × Byte)} {L : List (Piece × List (Nat × Byte))} {y : Piece × List (Nat × Byte)}
    (h : y ∈ gather l L) : (∃ x ∈ l, x.1 = y.1) ∨ ∃ x ∈ L, x.1 = y.1 := by
  induction l generalizing L with
  | nil => exact .inr ⟨y, h, rfl⟩
  | cons c l ih =>
    rcases ih h with ⟨x, hx, e⟩ | ⟨x, hx, e⟩
    · exact .inl ⟨x, List.mem_cons_of_mem c hx, e⟩
    · rcases (mem_putLine hx).1 with hp | ⟨z, hz, ez⟩
      · exact .inl ⟨c, List.mem_cons_self, hp.symm.trans e⟩
      · exact .inr ⟨z, hz, ez.trans e⟩

/-- The lines of a run above every address so far, put into a memory, read as the run written there. -/
theorem mget_putLines_run (p : Piece) {bs : List Byte} {a : Nat} {L : List (Piece × List (Nat × Byte))}
    (h : ∀ y ∈ L, ∀ d ∈ y.2, d.1 < a) (m : Mem) (x : Nat) :
    mget x (putLines (gather ((cellsAt a bs).map (fun c => (p, c.1, c.2))) L) m) = mget x (mwrite a bs (putLines L m)) := by
  induction bs generalizing a L with
  | nil => rfl
  | cons b bs ih =>
    have hnew : ∀ y ∈ putLine p (a, b) L, ∀ d ∈ y.2, d.1 < a + 1 := by
      intro y hy d hd
      rcases (mem_putLine hy).2 d hd with rfl | ⟨z, hz, hd⟩
      · exact Nat.lt_succ_self a
      · exact Nat.lt_succ_of_lt (h z hz d hd)
    have hw := putLines_putLine p (c := (a, b)) (fun y hy d hd => (h y hy d hd).ne) m
    have hgo := ih hnew
    rw [mget_mwrite, hw x] at hgo
    rw [mwrite, mget_mwrite, wrote_tset a b _ x]
    exact hgo

/-! ## The store -/

/-- One line of LOC as `storeCells` stores it: its bytes, and the poison of the granules that it covers lifted. -/
def State.storeLine (s : State) (x : Piece × List (Nat × Byte)) : State :=
  let s := { s with loc := mput x.2 s.loc }
  if s.poisoned.isEmpty then s
  else { s with poisoned := s.poisoned.filter (fun g =>
    !(x.2.any (fun c => locGranule c.1 == g && (from_ (c.1 / 8 * 8) 8).all (fun y => x.2.any (fun d => d.1 == y))))) }

theorem storeLine_mems (s : State) (x : Piece × List (Nat × Byte)) : (s.storeLine x).mems = { s.mems with loc := mput x.2 s.loc } := by
  unfold State.storeLine
  dsimp only
  split
  · rfl
  · rfl

theorem foldl_storeLine_mems (L : List (Piece × List (Nat × Byte))) (s : State) :
    (L.foldl State.storeLine s).mems = { s.mems with loc := putLines L s.loc } := by
  induction L generalizing s with
  | nil => rfl
  | cons x L ih =>
    have hl : (s.storeLine x).loc = mput x.2 s.loc := congrArg Mems.loc (storeLine_mems s x)
    rw [List.foldl_cons, ih, storeLine_mems, hl]
    rfl

/-- Of the lines of a store, those of LOC are put into it; the others wait in the outbox. -/
theorem storeCells_mems (s : State) (sc : Scope) (l : List (Piece × Nat × Byte)) :
    (s.storeCells sc l).mems = { s.mems with loc := putLines ((gather l []).filter (fun x => x.1.at_ == .loc)) s.loc } :=
  foldl_storeLine_mems _ s

theorem mem_spread {ps : List Piece} {bs : List Byte} {x : Piece × Nat × Byte} (h : x ∈ spread ps bs) : x.1 ∈ ps := by
  induction ps generalizing bs with
  | nil => cases h
  | cons p ps ih =>
    rcases List.mem_append.1 h with h | h
    · obtain ⟨c, -, rfl⟩ := List.mem_map.1 h
      exact List.mem_cons_self
    · exact List.mem_cons_of_mem p (ih h)

theorem mem_cutPieces {ps : List Piece} {bs : List Byte} {x : Piece × List Byte} (h : x ∈ cutPieces ps bs) : x.1 ∈ ps := by
  induction ps generalizing bs with
  | nil => cases h
  | cons p ps ih =>
    rcases List.mem_cons.1 h with rfl | h
    · exact List.mem_cons_self
    · exact List.mem_cons_of_mem p (ih h)

/-- A store of which no stretch is in host space or in a device is a store of its cells. -/
theorem storePieces_of_not_direct {ps : List Piece} (h : ∀ p ∈ ps, p.direct = false) (s : State) (sc : Scope) (bs : List Byte) :
    s.storePieces sc ps bs = s.storeCells sc (spread ps bs) := by
  have hd : (cutPieces ps bs).filter (fun x => x.1.direct) = [] :=
    List.filter_eq_nil_iff.2 fun x hx => by simp [h _ (mem_cutPieces hx)]
  have hc : (spread ps bs).filter (fun x => !x.1.direct) = spread ps bs :=
    List.filter_eq_self.2 fun x hx => by simp [h _ (mem_spread hx)]
  simp [State.storePieces, State.storeAll, hd, hc]

/-- A store to SHM or GLB leaves every memory as it is. -/
theorem storePieces_outbox_mems {ps : List Piece} (h : ∀ p ∈ ps, p.at_ = .shm ∨ p.at_ = .glb) (s : State) (sc : Scope)
    (bs : List Byte) : (s.storePieces sc ps bs).mems = s.mems := by
  have hl : (gather (spread ps bs) []).filter (fun x => x.1.at_ == .loc) = [] := by
    refine List.filter_eq_nil_iff.2 fun y hy => ?_
    rcases mem_gather hy with ⟨x, hx, e⟩ | ⟨x, hx, -⟩
    · rcases h _ (e ▸ mem_spread hx) with hp | hp <;> simp [hp]
    · cases hx
  rw [storePieces_of_not_direct, storeCells_mems, hl]
  · rfl
  · intro p hp
    rcases h p hp with h | h <;> simp [Piece.direct, h]

/-- A store of one stretch of LOC writes its bytes there, as LOC reads, and leaves the other memories as they are. -/
theorem storePieces_loc_mems {p : Piece} (hp : p.at_ = .loc) {bs : List Byte} (hn : bs.length = p.n) (s : State) (sc : Scope) :
    ∃ m, (s.storePieces sc [p] bs).mems = { s.mems with loc := m } ∧ ∀ x, mget x m = mget x (mwrite p.key bs s.loc) := by
  have hs : spread [p] bs = (cellsAt p.key bs).map (fun c => (p, c.1, c.2)) := by
    simp [spread, List.take_of_length_le hn.le]
  have hl : (gather (spread [p] bs) []).filter (fun x => x.1.at_ == .loc) = gather (spread [p] bs) [] := by
    refine List.filter_eq_self.2 fun y hy => ?_
    rcases mem_gather hy with ⟨x, hx, e⟩ | ⟨x, hx, -⟩
    · rw [← e, List.mem_singleton.1 (mem_spread hx), hp]
      rfl
    · cases hx
  have hd : ∀ q ∈ [p], q.direct = false := by simp [Piece.direct, hp]
  refine ⟨putLines (gather (spread [p] bs) []) s.loc, ?_, fun x => ?_⟩
  · rw [storePieces_of_not_direct hd, storeCells_mems, hl]
  · rw [hs, mget_putLines_run p (by simp)]
    rfl

/-! ## The word -/

theorem releaseHeld_of_ready {w : Operands} (h : Ord_rel w.ord = true → t.releaseReady w.scope = true) : t.releaseHeld w = false := by
  unfold State.releaseHeld
  cases hr : Ord_rel w.ord with
  | false => rfl
  | true => simp [h hr]

/-- A store whose checks pass stores its value at its stretches. -/
theorem effStore_of_reaches {opc sp : Nat} {w : Operands} {r : State} {ps : List Piece}
    (h : Reaches opc sp w .store [0, 1, 2] (fun r => r.storeExtra) r t ps) : effStore opc sp w r =
      .done ((t.storePieces w.scope ps (leBytes w.ty.bytes (r.storeVal w).toNat)).storeAcquire w t.nextWid) := by
  have hpush : (if sp = 4 then r.myPart.pushEdge (r.eaOf opc w).toNat else none) = none := by
    split
    · next h4 => exact h.noPush h4
    · rfl
  unfold effStore
  simp only [h.defined, h.range, h.aligned, orFault, hpush, h.access, releaseHeld_of_ready h.release]
  rfl

/-- A store to LOC has one stretch, and its checks change nothing. -/
theorem access_loc_ok {r : State} {u : Use} {va n : Nat} {extra : Nat → Page → Option FaultReq} {ps : List Piece}
    (h : r.access 1 u va n extra = .ok t ps) : t = r ∧ ps = [{ at_ := .loc, key := 32768 * r.myCore + va, va := va, n := n }] := by
  unfold State.access at h
  dsimp only at h
  generalize (from_ va n).all _ = ok at h
  cases ok with
  | true =>
    cases h
    exact ⟨rfl, rfl⟩
  | false => cases h

/-- What a scalar store is done as carries whatever is known of the memories once its stretches are stored. -/
theorem storeWord_on {opc sp : Nat} {w : Operands} {r : State} {ps : List Piece} (hi : Issues opc w false s r)
    (hr : Reaches opc sp w .store [0, 1, 2] (fun r => r.storeExtra) r t ps)
    (hs : OnMems P (t.storePieces w.scope ps (leBytes w.ty.bytes (r.storeVal w).toNat)))
    (e : issue opc w (effStore opc sp w) s = .next u) : OnMems P u := by
  rw [issue_done hi (effStore_of_reaches hr)] at e
  cases e
  exact hs.storeAcquire.issued opc w

theorem Issues.mems {opc : Nat} {w : Operands} {serial : Bool} {r : State} (h : Issues opc w serial s r) : r.mems = s.mems := by
  rw [← h.home]
  exact (OnMems.unparkSources (P := (· = s.mems)) ⟨rfl⟩).holds

/-- What a store to LOC leaves: LOC with the run of its value written, and every other memory as it was. -/
theorem stl_mems {w : Operands} {r : State} {ps : List Piece} (hi : Issues 0x185 w false s r)
    (hr : Reaches 0x185 1 w .store [0, 1, 2] (fun r => r.storeExtra) r t ps) (e : exec (.stl w) s = .next u) :
    ∃ m, u.mems = { s.mems with loc := m } ∧ ∀ x, mget x m =
      mget x (mwrite (32768 * r.myCore + (r.eaOf 0x185 w).toNat) (leBytes w.ty.bytes (r.storeVal w).toNat) s.loc) := by
  obtain ⟨rfl, rfl⟩ := access_loc_ok hr.access
  have hloc : t.loc = s.loc := congrArg Mems.loc hi.mems
  obtain ⟨m, hm, hread⟩ := storePieces_loc_mems (p := ⟨.loc, 32768 * t.myCore + (t.eaOf 0x185 w).toNat, _, _, _, _⟩) rfl
    (leBytes_length w.ty.bytes (t.storeVal w).toNat) t w.scope
  rw [hi.mems] at hm
  exact ⟨m, (storeWord_on (P := (· = { s.mems with loc := m })) hi hr ⟨hm⟩ e).holds, hloc ▸ hread⟩

theorem localStoreFrame : LocalStoreFrame := by
  intro w s r t u ps hi hr e a
  obtain ⟨m, hu, hread⟩ := stl_mems hi hr e
  have hbyte : ∀ x, u.locByte x =
      if a ≤ x ∧ x < a + w.ty.bytes then BitVec.ofNat 8 ((r.storeVal w).toNat / 256 ^ (x - a)) else s.locByte x := fun x => by
    rw [State.locByte, show u.loc = m from congrArg Mems.loc hu, hread x, mget_mwrite_leBytes]
    rfl
  refine ⟨fun x hx => ?_, fun i hn => ?_, congrArg Mems.shm hu, congrArg Mems.glb hu, congrArg Mems.host hu⟩
  · rw [hbyte, if_neg (by omega)]
  · rw [hbyte, if_pos (by omega), Nat.add_sub_cancel_left]

theorem outboxStoreFrame : OutboxStoreFrame := by
  intro opc sp mk hk w s r t u ps hi hr hps e
  have hx : exec (mk w) s = issue opc w (effStore opc sp w) s := by
    rcases hk with ⟨h, rfl⟩ | ⟨h, rfl⟩ <;> cases h <;> rfl
  have ht : t.mems = s.mems :=
    ((OnMems.access (P := (· = s.mems)) ⟨hi.mems⟩).ok hr.access).holds
  have hu : u.mems = s.mems :=
    (storeWord_on (P := (· = s.mems)) hi hr ⟨(storePieces_outbox_mems hps _ _ _).trans ht⟩ (hx ▸ e)).holds
  exact ⟨fun x => congrArg (fun m : Mems => mget x m.loc) hu, fun x => congrArg (fun m : Mems => mget x m.shm) hu,
    fun x => congrArg (fun m : Mems => mget x m.glb) hu⟩

/-- Settles O11: a store to LOC is its run written into LOC, and a store to SHM or GLB is entries of the outbox. -/
theorem storeFrames : Obligations.StoreFrames := by
  unfold Obligations.StoreFrames
  exact ⟨localStoreFrame, outboxStoreFrame⟩

end Sys2Proof.Machine
end

section
/-!
The machine after reset: each register reads what the spec gives, and no memory lists a byte.
-/

namespace Sys2Proof.Machine

/-- A slot's s registers read zero after reset: s0 always does, and no other is listed. -/
theorem sGet_reset (k n : Nat) : (State.reset.act k).sGet n = 0 := ite_self 0

/-- A row-progress record of a tile on which nothing runs is all zeros. -/
theorem rowProg_word_default : ({} : RowProg).word = 0 := by decide

/-- Every entry of a core's T4 table reads zero after reset. -/
theorem t4_reset (c n : Nat) : nth 0 (State.reset.core c).t4 n = 0 :=
  List.getElem?_getD_replicate_default_eq (d := 0) 16 n

/-- Settles O56: what each register reads is the default of the table that it stands in. -/
theorem resetValues : Obligations.ResetValues := by
  unfold Obligations.ResetValues
  refine ⟨fun k => ⟨rfl, rfl, rfl, rfl, rfl, rfl, sGet_reset k, rfl, rfl⟩, fun c => ?_, fun p => ⟨rfl, rfl, rfl, rfl⟩,
    fun n => ⟨rfl, rfl, rfl, rfl⟩, rfl, rfl, rfl, rfl, rfl, rfl, rfl⟩
  exact ⟨rfl, rfl, fun n => rowProg_word_default, t4_reset c, fun n => rfl, fun n => rfl⟩

/-- Settles O58: a memory that lists nothing is in canonical form. -/
theorem memoryFormAtReset : Obligations.MemoryFormAtReset := MemInv.reset

end Sys2Proof.Machine
end

section
/-!
Registers: what the issue of a word leaves of the slots, and the frame of a completed write of an s register.
-/

namespace Sys2Proof.Machine

variable {s t u : State} {a b c : Act}

/-! ## What stands still in a slot -/

/-- A slot as before, but for promotions that have ended (R77). -/
def Demoted (a b : Act) : Prop := b = { a with promoted := b.promoted }

/-- A slot as before, but for where its activation stands in its program and in its ports (R66, R76). -/
def Advanced (a b : Act) : Prop :=
  b = { a with pc := b.pc, pend := b.pend, late := b.late, words := b.words, lastIssue := b.lastIssue, promoted := b.promoted }

theorem Demoted.refl (a : Act) : Demoted a a := rfl

theorem Demoted.trans (h : Demoted a b) (h' : Demoted b c) : Demoted a c := by
  unfold Demoted at *
  rw [h', h]

theorem Demoted.advanced (h : Demoted a b) : Advanced a b := by
  unfold Demoted at h
  unfold Advanced
  rw [h]

theorem Advanced.trans (h : Advanced a b) (h' : Advanced b c) : Advanced a c := by
  unfold Advanced at *
  rw [h', h]

theorem Advanced.sGet (h : Advanced a b) (n : Nat) : b.sGet n = a.sGet n := by
  unfold Advanced at h
  rw [h]
  rfl

theorem Advanced.sDef (h : Advanced a b) (n : Nat) : b.sDef n = a.sDef n := by
  unfold Advanced at h
  rw [h]
  rfl

/-! ## The issue of a word -/

/-- What goes on when a word issues: the activation in execution advances, promotions of other slots end, and neither a memory nor a
table beside the slots and ports changes. -/
structure GoesOn (s t : State) : Prop where
  cur    : t.cur = s.cur
  mems   : t.mems = s.mems
  tables : t.cores = s.cores ∧ t.parts = s.parts ∧ t.rings = s.rings
  mine   : Advanced (s.act s.cur) (t.act s.cur)
  others : ∀ k, k ≠ s.cur → Demoted (s.act k) (t.act k)

theorem GoesOn.refl (s : State) : GoesOn s s := ⟨rfl, rfl, ⟨rfl, rfl, rfl⟩, rfl, fun _ _ => rfl⟩

/-- An operation on the state beside its slots, memories and tables. -/
theorem GoesOn.beside (h : GoesOn s t) (acts : u.acts = t.acts := by rfl) (cur : u.cur = t.cur := by rfl)
    (mems : u.mems = t.mems := by rfl) (cores : u.cores = t.cores := by rfl) (parts : u.parts = t.parts := by rfl)
    (rings : u.rings = t.rings := by rfl) : GoesOn s u := by
  have act k : u.act k = t.act k := congrArg (tget ({} : Act) k) acts
  obtain ⟨h1, h2, h3⟩ := h.tables
  exact ⟨cur.trans h.cur, mems.trans h.mems, ⟨cores.trans h1, parts.trans h2, rings.trans h3⟩, act _ ▸ h.mine,
    fun k hk => act k ▸ h.others k hk⟩

theorem GoesOn.ite {p : Prop} [Decidable p] (h : GoesOn s t) (h' : GoesOn s u) : GoesOn s (if p then t else u) := by
  split
  · exact h
  · exact h'

theorem GoesOn.modMe (h : GoesOn s t) {f : Act → Act} (hf : Advanced t.me (f t.me)) : GoesOn s (t.modMe f) where
  cur := h.cur
  mems := h.mems
  tables := h.tables
  mine := by
    rw [← h.cur]
    have hm : Advanced (s.act t.cur) (t.act t.cur) := h.cur ▸ h.mine
    exact hm.trans ((State.me_modMe t f).symm ▸ hf : Advanced t.me (t.modMe f).me)
  others k hk := by
    rw [State.act_modMe_other _ (h.cur ▸ hk)]
    exact h.others k hk

/-- A promotion of any slot ends. -/
theorem GoesOn.modAct (h : GoesOn s t) {k : Nat} {f : Act → Act} (hf : Demoted (t.act k) (f (t.act k))) : GoesOn s (t.modAct k f) := by
  have act j : Demoted (t.act j) ((t.modAct k f).act j) := by
    by_cases hj : j = k
    · rw [hj, State.act_modAct]
      exact hf
    · rw [State.act_modAct_other _ hj]
      exact .refl _
  exact ⟨h.cur, h.mems, h.tables, h.mine.trans (act _).advanced, fun j hj => (h.others j hj).trans (act j)⟩

theorem GoesOn.modPort (h : GoesOn s t) (core : Nat) (st : Stream) (f : Port → Port) : GoesOn s (t.modPort core st f) := h.beside

theorem GoesOn.cleanDest (h : GoesOn s t) (opc : Nat) (w : Operands) : GoesOn s (t.cleanDest opc w) := by
  unfold State.cleanDest
  refine h.ite ?_
  dsimp only
  split
  · exact h.beside
  · exact h.ite h.beside
  · exact h.beside
  · exact h

theorem GoesOn.endTurn (h : GoesOn s t) (core : Nat) (st : Stream) : GoesOn s (t.endTurn core st) := by
  unfold State.endTurn
  split
  · exact h
  · exact (h.modAct (by rfl)).modPort _ _ _

theorem GoesOn.beginTurn (h : GoesOn s t) (core slot : Nat) (st : Stream) : GoesOn s (t.beginTurn core slot st) :=
  h.ite ((h.endTurn _ _).modPort _ _ _)

theorem GoesOn.yieldSlot (h : GoesOn s t) (core slot : Nat) : GoesOn s (t.yieldSlot core slot) :=
  List.foldlRecOn _ _ h fun _ h _ _ => (GoesOn.ite (h.endTurn _ _) h).modPort _ _ _

theorem GoesOn.turnTaken (h : GoesOn s t) (opc : Nat) (hd : Head) : GoesOn s (t.turnTaken opc hd) := by
  unfold State.turnTaken
  exact ((h.beginTurn _ _ _).modMe (by rfl)).modPort _ _ _

theorem GoesOn.turnEnded (h : GoesOn s t) (opc : Nat) (hd : Head) : GoesOn s (t.turnEnded opc hd) := (h.endTurn _ _).ite h

theorem GoesOn.turned (h : GoesOn s t) (opc : Nat) (hd : Head) : GoesOn s (t.turned opc hd) := by
  have hturn := (h.turnTaken opc hd).turnEnded opc hd
  exact h.ite ((hturn.yieldSlot _ _).ite hturn)

theorem GoesOn.advance (h : GoesOn s t) : GoesOn s t.advance := by
  unfold State.advance
  split
  · exact h.modMe (by rfl)
  · exact h.modMe (by rfl)

theorem GoesOn.issued (h : GoesOn s t) (opc : Nat) (w : Operands) : GoesOn s (t.issued opc w) :=
  ((h.cleanDest opc w).turned _ _).advance

/-! ## The frame of a register write -/

/-- Equal memories, the writes in flight among them, are the same memory. -/
theorem sameMemory_of_mems (h : t.mems = s.mems) : SameMemory s t :=
  ⟨congrArg Mems.loc h, congrArg Mems.shm h, congrArg Mems.glb h, congrArg Mems.flight h, congrArg Mems.host h⟩

/-- A write of an s register leaves everything else of its slot. -/
theorem onlyS_sSet (a : Act) (n : Nat) (v : Word) (d : Bool) : OnlyS n a (a.sSet n v d) :=
  ⟨fun m hm => by simp [hm], by simp⟩

/-- To advance touches no register and no status. -/
theorem OnlyS.advanced {n : Nat} (h : OnlyS n a b) (h' : Advanced b c) : OnlyS n a c := by
  unfold Advanced at h'
  rw [h']
  exact h

/-- Settles O45: the write changes the register alone, and the issue that completes it changes none. -/
theorem registerWriteFrame : Obligations.RegisterWriteFrame := by
  unfold Obligations.RegisterWriteFrame
  rintro s t opc n w v rfl
  obtain ⟨-, hmems, htables, hmine, hothers⟩ := (GoesOn.refl (s.wroteS n v)).issued opc w
  rw [show (s.wroteS n v).act (s.wroteS n v).cur = s.me.sSet n v from State.me_modMe s _] at hmine
  refine ⟨fun hn => ?_, rfl, (onlyS_sSet _ n v false).advanced hmine, fun k hk => ?_, sameMemory_of_mems hmems, htables⟩
  · exact ⟨(hmine.sGet n).trans (Act.sGet_sSet s.me hn v false), (hmine.sDef n).trans (Act.sDef_sSet s.me hn v false)⟩
  · have hother := hothers k hk
    rwa [Demoted, State.wroteS, State.act_modMe_other s hk] at hother

end Sys2Proof.Machine
end

section
/-!
Words that touch registers alone: whatever such a word ends in, no memory changes, and no register or PC of another slot.
-/

namespace Sys2Proof.Machine

variable {s t u : State} {a b : Act}

/-! ## States that differ in one slot -/

/-- The register files and the PC of a slot are as they were. -/
def SameRegs (a b : Act) : Prop := b.s = a.s ∧ b.v = a.v ∧ b.m = a.m ∧ b.g = a.g ∧ b.q = a.q ∧ b.pc = a.pc

theorem SameRegs.refl (a : Act) : SameRegs a a := ⟨rfl, rfl, rfl, rfl, rfl, rfl⟩

theorem SameRegs.trans {a b c : Act} (h : SameRegs a b) (h' : SameRegs b c) : SameRegs a c := by
  obtain ⟨hs, hv, hm, hg, hq, hpc⟩ := h
  obtain ⟨hs', hv', hm', hg', hq', hpc'⟩ := h'
  exact ⟨hs'.trans hs, hv'.trans hv, hm'.trans hm, hg'.trans hg, hq'.trans hq, hpc'.trans hpc⟩

theorem Demoted.sameRegs (h : Demoted a b) : SameRegs a b := by
  unfold Demoted at h
  rw [h]
  exact .refl a

/-- From `s` to `t` no memory changes, and in the slots other than the one in execution no register and no PC. -/
structure Quiet (s t : State) : Prop where
  cur    : t.cur = s.cur
  mems   : t.mems = s.mems
  others : ∀ k, k ≠ s.cur → SameRegs (s.act k) (t.act k)

theorem Quiet.refl (s : State) : Quiet s s := ⟨rfl, rfl, fun _ _ => .refl _⟩

theorem Quiet.trans (h : Quiet s t) (h' : Quiet t u) : Quiet s u :=
  ⟨h'.cur.trans h.cur, h'.mems.trans h.mems, fun k hk => (h.others k hk).trans (h'.others k (h.cur ▸ hk))⟩

theorem GoesOn.quiet (h : GoesOn s t) : Quiet s t := ⟨h.cur, h.mems, fun k hk => (h.others k hk).sameRegs⟩

theorem Quiet.ite {p : Prop} [Decidable p] (h : Quiet s t) (h' : Quiet s u) : Quiet s (if p then t else u) := by
  split
  · exact h
  · exact h'

/-- An operation on the state beside its slots and memories. -/
theorem Quiet.beside (h : Quiet s t) (acts : u.acts = t.acts := by rfl) (cur : u.cur = t.cur := by rfl)
    (mems : u.mems = t.mems := by rfl) : Quiet s u := by
  have act k : u.act k = t.act k := congrArg (tget ({} : Act) k) acts
  exact ⟨cur.trans h.cur, mems.trans h.mems, fun k hk => act k ▸ h.others k hk⟩

/-- A state that is changed under a condition, or left as it is. -/
theorem Quiet.unless {p : Prop} [Decidable p] (h : Quiet s t) (k : Quiet s t → Quiet s u) : Quiet s (if p then t else u) :=
  h.ite (k h)

/-- An operation on the slot in execution. -/
theorem Quiet.modCur (h : Quiet s t) {k : Nat} (hk : k = s.cur) (f : Act → Act) : Quiet s (t.modAct k f) where
  cur := h.cur
  mems := h.mems
  others j hj := by
    rw [State.act_modAct_other _ (hk ▸ hj)]
    exact h.others j hj

theorem Quiet.modMe (h : Quiet s t) (f : Act → Act) : Quiet s (t.modMe f) := h.modCur h.cur f

theorem Quiet.issued (h : Quiet s t) (opc : Nat) (w : Operands) : Quiet s (t.issued opc w) :=
  h.trans ((GoesOn.refl t).issued opc w).quiet

theorem Quiet.jumped (h : Quiet s t) (opc : Nat) (w : Operands) (pc : Word) : Quiet s (t.jumped opc w pc) :=
  (h.trans (((GoesOn.refl t).cleanDest opc w).turned opc w.head).quiet).modMe _

theorem Quiet.turnedOff (h : Quiet s t) (opc : Nat) (hd : Head) : Quiet s (t.turnedOff opc hd) :=
  (h.trans ((GoesOn.refl t).turned _ _).quiet).ite (h.trans ((GoesOn.refl t).turned _ _).quiet)

theorem Quiet.advance (h : Quiet s t) : Quiet s t.advance := h.trans (GoesOn.refl t).advance.quiet

/-! ## Registers and queue registers -/

theorem Quiet.raise (h : Quiet s t) (fl : Word) : Quiet s (t.raise fl) := h.ite (h.modMe _)

theorem Quiet.cleanAll (h : Quiet s t) (gs : List Granule) : Quiet s (t.cleanAll gs) := h.ite h.beside

theorem Quiet.pop (h : Quiet s t) (n : Nat) (rest : List Word) : Quiet s (t.pop n rest) := by
  unfold State.pop
  exact (h.modMe _).unless (·.beside)

theorem Quiet.src (h : Quiet s t) {o : Opnd} {x : Word} {d : Bool} (e : t.src o = some (x, d, u)) : Quiet s u := by
  unfold State.src at e
  split at e
  · split at e
    · cases e
    · cases e
      exact h.ite (h.pop _ _)
  · cases e
    exact h

theorem Quiet.srcC (h : Quiet s t) {w : Operands} {x : Word} {d : Bool} (e : t.srcC w = some (x, d, u)) : Quiet s u := by
  unfold State.srcC at e
  split at e
  · cases e
    exact h
  · exact h.src e

theorem Quiet.push (h : Quiet s t) {n : Nat} {v : Word} (e : t.push n v = some u) : Quiet s u := by
  unfold State.push at e
  dsimp only at e
  split at e
  · cases e
  · cases e
    exact (h.modMe _).unless (·.beside)

theorem Quiet.putLanes (h : Quiet s t) (o : Opnd) (on : Nat → Bool) (f : Nat → Lane) (d : Bool) : Quiet s (t.putLanes o on f d) :=
  h.modMe _

/-- A guard that resolves changes the commands held at it, and no other slot. -/
theorem Quiet.resolveGuard (h : Quiet s t) (g : Nat) (v : Bool) : Quiet s (t.resolveGuard g v) where
  cur := h.cur
  mems := h.mems
  others k hk := by
    have act : (t.resolveGuard g v).act k = t.act k := tget_tset_other _ (h.cur ▸ hk) _ _
    exact act ▸ h.others k hk

/-! ## What an effect on registers ends in -/

/-- An effect from `s` on registers alone: it is done or transfers with all else quiet, or it stalls or takes a fault that is Held,
with nothing done. -/
def Res.Local (s : State) : Res → Prop
  | .done t => Quiet s t
  | .goto t _ => Quiet s t
  | .stall t => t = s
  | .fault f t => t = s ∧ delivOf f.code = .held
  | .halt _ => False
  | .wait _ => False

theorem Quiet.put (h : Quiet s t) (o : Opnd) (v fl : Word) : (t.put s o v fl).Local s := by
  unfold State.put
  split
  · split
    · rfl
    · next e => exact (h.push e).raise fl
  · exact (h.raise fl).modMe _

theorem Quiet.putDeferred (h : Quiet s t) (o : Opnd) {f : FaultReq} (hf : delivOf f.code = .held) : (t.putDeferred s o f).Local s := by
  unfold State.putDeferred
  split
  · exact ⟨rfl, hf⟩
  · exact h.modMe _

/-- DEFERRED_USE is Held (R191, R196). -/
theorem deliv_deferredUse (isV : Bool) (n : Nat) : delivOf (deferredUse isV n).code = .held := rfl

theorem deliv_firstDeferred {l : List (BitVec 6)} {f : FaultReq} (e : s.firstDeferred l = some f) : delivOf f.code = .held := by
  obtain ⟨n, -, rfl⟩ := Option.map_eq_some_iff.1 e
  exact deliv_deferredUse _ _

theorem deliv_firstDeferredV {l : List (BitVec 6)} {f : FaultReq} (e : s.firstDeferredV l = some f) : delivOf f.code = .held := by
  obtain ⟨n, -, rfl⟩ := Option.map_eq_some_iff.1 e
  exact deliv_deferredUse _ _

/-- Every fault of a computed address is Held. -/
def HeldFaults (r : Except FaultReq Word) : Prop := ∀ f, r = .error f → delivOf f.code = .held

theorem HeldFaults.ok (x : Word) : HeldFaults (.ok x) := fun _ e => nomatch e

theorem HeldFaults.error {f : FaultReq} (h : delivOf f.code = .held) : HeldFaults (.error f) := fun _ e => by
  cases e
  exact h

theorem HeldFaults.ite {p : Prop} [Decidable p] {r q : Except FaultReq Word} (hr : HeldFaults r) (hq : HeldFaults q) :
    HeldFaults (if p then r else q) := by
  split
  · exact hr
  · exact hq

/-- GLB_RANGE at a target is Held (R54, R191). -/
theorem deliv_targetRange {x : Word} {f : FaultReq} (e : targetRange x = some f) : delivOf f.code = .held := by
  unfold targetRange at e
  split at e <;> cases e
  rfl

theorem HeldFaults.range (x : Word) :
    HeldFaults (match targetRange x with | some f => .error f | none => .ok x) := by
  split
  · next e => exact .error (deliv_targetRange e)
  · exact .ok x

/-- So is every fault of a transfer's target: DEFERRED_USE, PC_ALIGN and GLB_RANGE. -/
theorem target_heldFaults (s : State) (w : Operands) : HeldFaults (s.target w) := by
  unfold State.target
  exact .ite (.ite (.error rfl) (.ite (.error rfl) (.range _))) (.range _)

/-! ## Scalar words -/

theorem arith_local (w : Operands) (tied : Bool) (f : Word → Word → Word → Val) (s : State) : (arith w tied f s).Local s := by
  unfold arith
  split
  · rfl
  next e1 =>
  split
  · rfl
  next e2 =>
  have h := ((Quiet.refl s).src e1).srcC e2
  dsimp only
  split
  · exact h.putDeferred _ (deliv_deferredUse _ _)
  · exact h.put _ _ _

theorem compare_local (w : Operands) (f : Word → Word → Bool × Bool × Word) (s : State) : (compare w f s).Local s := by
  unfold compare
  split
  · rfl
  next e1 =>
  split
  · rfl
  next e2 =>
  split
  · exact ⟨rfl, deliv_deferredUse _ _⟩
  split
  · exact ⟨rfl, deliv_deferredUse _ _⟩
  · exact ((((Quiet.refl s).src e1).srcC e2).raise _).modMe _

theorem lih_local (w : Operands) (v : Word) (s : State) :
    (if s.dfr w.a then s.putDeferred s w.a (deferredUse false (opndNum w.a)) else s.put s w.a v 0).Local s := by
  split
  · exact (Quiet.refl s).putDeferred _ (deliv_deferredUse _ _)
  · exact (Quiet.refl s).put _ _ _

theorem movVE_local (w : Operands) (s : State) : (movVE w s).Local s := by
  have h := Quiet.refl s
  unfold movVE
  split
  · split
    · exact h.modMe _
    · exact h.modMe _
  · exact h.modMe _
  · split
    · rfl
    · next e => exact (h.src e).put _ _ _

/-! ## Control transfers and guards -/

theorem effBr_local (w : Operands) (s : State) : (effBr w s).Local s := by
  unfold effBr
  split
  · next e => exact ⟨rfl, target_heldFaults s w _ e⟩
  · exact .refl s

theorem effBrl_local (w : Operands) (s : State) : (effBrl w s).Local s := by
  unfold effBrl
  split
  · next e => exact ⟨rfl, target_heldFaults s w _ e⟩
  · exact (Quiet.refl s).modMe _

theorem effChk_local (w : Operands) (s : State) : (effChk w s).Local s := by
  unfold effChk
  dsimp only
  split
  · next e => exact ⟨rfl, deliv_targetRange e⟩
  split
  · exact .refl s
  · exact .refl s

theorem effRet_local (w : Operands) (s : State) : (effRet w s).Local s := by
  unfold effRet
  split
  · next e => exact ⟨rfl, target_heldFaults s w _ e⟩
  · exact (Quiet.refl s).modMe _

theorem effLoop_local (w : Operands) (s : State) : (effLoop w s).Local s := by
  unfold effLoop
  dsimp only
  split
  · exact ⟨rfl, deliv_deferredUse _ _⟩
  split
  · exact (Quiet.refl s).modMe _
  split
  · next e => exact ⟨rfl, deliv_targetRange e⟩
  · exact (Quiet.refl s).modMe _

theorem putGuard_local (s : State) (o : Opnd) (v : Bool) : (s.putGuard o v).Local s := (Quiet.refl s).modMe _

/-! ## Masks and vector words -/

theorem putMask_local (s : State) (o : Opnd) (m : BitVec 16) : (s.putMask o m).Local s := (Quiet.refl s).modMe _

theorem Quiet.lanes (h : Quiet s t) (w : Operands) (d : Bool) (on : Nat → Bool) (f : Nat → Val) : (lanes w d on f t).Local s := by
  unfold Machine.lanes
  split
  · exact h.putLanes _ _ _ _
  · exact (h.putLanes _ _ _ _).raise _

theorem lanes_local (w : Operands) (d : Bool) (on : Nat → Bool) (f : Nat → Val) (s : State) : (lanes w d on f s).Local s :=
  (Quiet.refl s).lanes w d on f

theorem effVcmp_local (w : Operands) (s : State) : (effVcmp w s).Local s := by
  unfold effVcmp
  split
  · next e => exact ⟨rfl, deliv_firstDeferredV e⟩
  · next e => exact ⟨rfl, deliv_firstDeferred e⟩
  · exact ((Quiet.refl s).modMe _).raise _

theorem effVins_local (w : Operands) (s : State) : (effVins w s).Local s := by
  unfold effVins
  split
  · rfl
  next e =>
  have h := (Quiet.refl s).src e
  dsimp only
  split
  · exact h.putLanes _ _ _ _
  · exact h.putLanes _ _ _ _

theorem effVlget_local (w : Operands) (s : State) : (effVlget w s).Local s := by
  unfold effVlget
  split
  · exact ⟨rfl, deliv_deferredUse _ _⟩
  · exact (Quiet.refl s).modMe _

theorem effVqnt_local (w : Operands) (s : State) : (effVqnt w s).Local s := by
  have h := Quiet.refl s
  unfold effVqnt
  dsimp only
  split
  · exact h.putLanes _ _ _ _
  · exact (h.putLanes _ _ _ _).raise _

theorem effVred_local (w : Operands) (s : State) : (effVred w s).Local s := by
  have h := Quiet.refl s
  unfold effVred
  dsimp only
  split
  · exact h.putLanes _ _ _ _
  · exact (h.putLanes _ _ _ _).raise _

theorem effVsplat_local (w : Operands) (s : State) : (effVsplat w s).Local s := by
  unfold effVsplat
  split
  · rfl
  · next e => exact ((Quiet.refl s).src e).lanes _ _ _ _

/-! ## Registers that come back from where they are parked -/

/-- The slot in execution is not being saved for a fault, so that none gives way when a word before it faults (R194). -/
def State.Unfaulted (s : State) : Prop := ∀ v, s.me.save = some v → v.fault = none

theorem State.Unfaulted.modMe (h : s.Unfaulted) {f : Act → Act} (hf : (f s.me).save = s.me.save) : (s.modMe f).Unfaulted := by
  intro v hv
  rw [State.me_modMe, hf] at hv
  exact h v hv

theorem State.Unfaulted.ite {p : Prop} [Decidable p] (hs : s.Unfaulted) (ht : t.Unfaulted) : (if p then s else t).Unfaulted := by
  split
  · exact hs
  · exact ht

theorem State.Unfaulted.cleanAll (h : s.Unfaulted) (gs : List Granule) : (s.cleanAll gs).Unfaulted := h.ite h

theorem State.Unfaulted.unparkAt (h : s.Unfaulted) (isV : Bool) (n : Nat) : (s.unparkAt s.cur isV n).Unfaulted := by
  have hreg (v : Vec) (d : Bool) (gs : List Granule) :
      ((s.modMe (fun a => if isV then a.vSet n v d else a.sSet n (lanesWord v) d)).cleanAll gs).Unfaulted :=
    (h.modMe (by cases isV <;> simp)).cleanAll gs
  exact h.ite ((hreg _ _ _).ite (hreg _ _ _))

theorem Quiet.unparkAt (h : Quiet s t) (isV : Bool) (n : Nat) : Quiet s (t.unparkAt t.cur isV n) :=
  h.unless fun h => ((h.modMe _).cleanAll _).unless (·.beside)

/-- What each unparking of a register of the slot in execution keeps, a word's reading of its registers keeps. -/
theorem unparkSources_keeps {P : State → Prop} (hP : ∀ t isV n, P t → P (t.unparkAt t.cur isV n)) (h : P s) (opc : Nat) (w : Operands) :
    P (s.unparkSources opc w) := by
  have hs : P (match s.iss with
      | .queued _ => s
      | _ => (sSources opc w).foldl (fun s n => s.unparkAt s.cur false n.toNat) s) := by
    split
    · exact h
    · exact List.foldlRecOn _ _ h fun t ht n _ => hP t false n.toNat ht
  unfold State.unparkSources
  split
  · exact h
  dsimp only
  split
  · exact List.foldlRecOn _ _ hs fun t ht n _ => hP t true n.toNat ht
  · exact hs

theorem State.Unfaulted.unparkSources (h : s.Unfaulted) (opc : Nat) (w : Operands) : (s.unparkSources opc w).Unfaulted :=
  unparkSources_keeps (fun _ isV n h => h.unparkAt isV n) h opc w

theorem Quiet.unparkSources (h : Quiet s t) (opc : Nat) (w : Operands) : Quiet s (t.unparkSources opc w) :=
  unparkSources_keeps (P := Quiet s) (fun _ isV n h => h.unparkAt isV n) h opc w

/-! ## Faults that are Held -/

theorem Quiet.withdraw (h : Quiet s t) (p : Asker → Bool) : Quiet s (t.withdraw p) := h.unless (·.beside)

theorem Quiet.forgetKey (h : Quiet s t) {k : Nat} (hk : k = s.cur) : Quiet s (t.forgetKey k) := by
  unfold State.forgetKey
  extract_lets t1 t2 t3 a
  have h1 : Quiet s t1 := h.withdraw _
  have h2 : Quiet s t2 := h1.unless (·.beside)
  have h3 : Quiet s t3 := h2.unless (·.beside)
  exact h3.unless fun h => h.modCur hk _

/-- Where no earlier fault is there to give way, nothing is dropped. -/
theorem dropFault_of_unfaulted (h : s.Unfaulted) : s.dropFault s.cur = s := by
  unfold State.dropFault
  split
  · next e => cases h _ e
  · rfl

theorem Quiet.takeFaultAt (h : Quiet s t) (hn : t.Unfaulted) {k : Nat} (hk : k = s.cur) {f : FaultReq} {pc : Word}
    {at_ : Option Nat} (hf : delivOf f.code = .held) : Quiet s (t.takeFaultAt k f pc at_) := by
  have hdrop : t.dropFault k = t := hk.trans h.cur.symm ▸ dropFault_of_unfaulted hn
  unfold State.takeFaultAt
  simp only [hdrop, hf]
  exact (h.forgetKey hk).modCur hk _

/-- Guards left unresolved leave the save of their slot alone. -/
theorem foldl_gSet_save (l : List Nat) (a : Act) : (l.foldl (fun a n => a.gSet n .unres) a).save = a.save :=
  List.foldlRecOn (motive := fun b : Act => b.save = a.save) _ _ rfl fun b hb n _ => (Act.gSet_save b n .unres).trans hb

/-- A fault of a word that has been put back into its slot first. -/
theorem Quiet.takeFaultAfter (h : Quiet s t) (hn : t.Unfaulted) {g : Act → Act} (hg : (g t.me).save = t.me.save) {f : FaultReq}
    {pc : Word} {at_ : Option Nat} (hf : delivOf f.code = .held) : Quiet s ((t.modMe g).takeFaultAt t.cur f pc at_) :=
  (h.modMe g).takeFaultAt (hn.modMe hg) h.cur hf

theorem Quiet.lateFault (h : Quiet s t) (hn : t.Unfaulted) (p : Pending) {f : FaultReq} (hf : delivOf f.code = .held) :
    Quiet s (t.lateFault t.cur p f) := by
  have hlate : (t.modMe (fun a => { a with late := dropSeq p.seq a.late })).Unfaulted := hn.modMe rfl
  unfold State.lateFault
  dsimp only
  split
  · exact (h.modMe _).takeFaultAfter hlate rfl hf
  · exact (h.modMe _).takeFaultAfter hlate rfl hf

theorem Quiet.takeFault (h : Quiet s t) (hn : t.Unfaulted) (opc : Nat) (w : Operands) {f : FaultReq}
    (hf : delivOf f.code = .held) : Quiet s (t.takeFault opc w f) := by
  unfold State.takeFault
  dsimp only
  split
  · split
    · exact h.lateFault hn _ hf
    · exact h.takeFaultAt hn h.cur hf
  split
  · exact h.takeFaultAt hn h.cur hf
  · exact h.takeFaultAfter hn (foldl_gSet_save _ _) hf

/-! ## The issue of a word with such an effect -/

theorem Quiet.enqueue (h : Quiet s t) (opc : Nat) (w : Operands) : Quiet s (t.enqueue opc w) :=
  (h.unparkSources opc w).unless fun h => h.modMe _

theorem Quiet.passOver (h : Quiet s t) (opc : Nat) (w : Operands) : Quiet s (t.passOver opc w) :=
  List.foldlRecOn _ _ (h.turnedOff opc w.head).advance fun _ h _ _ => h.resolveGuard _ _

theorem Quiet.postpone (h : Quiet s t) (opc : Nat) (w : Operands) (pages : List (Nat × Word)) : Quiet s (t.postpone opc w pages) :=
  ((h.unparkSources opc w).trans ((GoesOn.refl _).turned opc w.head).advance.quiet).modMe _

theorem Quiet.conclude (h : Quiet s t) (hn : t.Unfaulted) (opc : Nat) (w : Operands) (queues : Bool) {r : Res} (hr : r.Local t) :
    Quiet s (conclude opc w queues r) := by
  cases r with
  | done u => exact (h.trans hr).issued opc w
  | goto u pc => exact (h.trans hr).jumped opc w pc
  | halt u => exact hr.elim
  | wait u => exact hr.elim
  | stall u =>
    obtain rfl := hr
    unfold Machine.conclude
    dsimp only
    split
    · exact h
    · exact (h.enqueue opc w).ite h
  | fault f u =>
    obtain ⟨rfl, hf⟩ := hr
    exact h.takeFault hn opc w hf

/-- POISON_CONSUMED is Held (R191, R215). -/
theorem deliv_poisonedReg {opc : Nat} {w : Operands} {f : FaultReq} (e : s.poisonedReg opc w = some f) : delivOf f.code = .held := by
  unfold State.poisonedReg at e
  split at e
  · cases e
  · obtain ⟨n, -, rfl⟩ := Option.map_eq_some_iff.1 e
    rfl

section
variable {opc : Nat} {w : Operands} {serial : Bool} {eff : State → Res}

theorem run_local (heff : ∀ r, (eff r).Local r) (s : State) : (s.run opc w eff).Local (s.unparkSources opc w) := by
  unfold State.run
  dsimp only
  split
  · next e => exact ⟨rfl, deliv_poisonedReg e⟩
  · exact heff _

theorem Quiet.concludeRun (hn : s.Unfaulted) (heff : ∀ r, (eff r).Local r) (queues : Bool) :
    Quiet s (Machine.conclude opc w queues (s.run opc w eff)) :=
  ((Quiet.refl s).unparkSources opc w).conclude (hn.unparkSources opc w) opc w queues (run_local heff s)

theorem Quiet.concludeOff (hn : s.Unfaulted) (heff : ∀ r, (eff r).Local r) (queues : Bool) :
    Quiet s (Machine.conclude opc w queues (s.runOff opc w eff)) :=
  ((Quiet.refl s).unparkSources opc w).conclude (hn.unparkSources opc w) opc w queues (heff _)

theorem Quiet.runHeld (hn : s.Unfaulted) (heff : ∀ r, (eff r).Local r) : Quiet s (s.runHeld opc w eff) := by
  unfold State.runHeld
  split
  · exact .refl s
  · exact concludeRun hn heff false

theorem Quiet.atFront (hn : s.Unfaulted) (heff : ∀ r, (eff r).Local r) : Quiet s (s.atFront opc w serial eff) := by
  have h := Quiet.refl s
  unfold State.atFront
  refine h.ite (h.ite (h.ite (h.ite ((h.enqueue opc w).ite ?_))))
  split
  · exact h.ite (h.enqueue opc w)
  · exact (concludeOff hn heff _).ite (h.turnedOff opc w.head).advance
  · exact (h.ite (h.enqueue opc w)).ite (concludeRun hn heff _)

theorem Quiet.fromQueue (hn : s.Unfaulted) (heff : ∀ r, (eff r).Local r) : Quiet s (s.fromQueue opc w eff) := by
  have h := Quiet.refl s
  unfold State.fromQueue
  refine h.ite ?_
  split
  · exact (runHeld hn heff).ite h
  · exact (concludeOff hn heff false).ite (h.passOver opc w)
  · exact h.ite (concludeRun hn heff false)

/-- A word whose effect is on registers alone is quiet, wherever it issues from and whatever it ends in. -/
theorem Quiet.issueWord (hn : s.Unfaulted) (heff : ∀ r, (eff r).Local r) : Quiet s (Machine.issueWord opc w serial eff s) := by
  have h := Quiet.refl s
  have hw : Quiet s (match s.iss with
      | .queued _ => s.fromQueue opc w eff
      | .hold => if w.head.stream == .S || serial || s.vlgetPending opc w then s else s.enqueue opc w
      | .front => s.atFront opc w serial eff) := by
    split
    · exact fromQueue hn heff
    · exact h.ite (h.enqueue opc w)
    · exact atFront hn heff
  unfold Machine.issueWord
  refine h.ite (.ite ?_ hw)
  split
  · exact h.postpone opc w _
  · exact hw

end

/-! ## The words -/

/-- A word that touches registers alone issues with an effect on them alone. -/
theorem exec_registerOnly {i : Instr} {opc : Nat} {w : Operands} (hi : toOpcode i = some (opc, w)) (hr : registerOnly opc = true)
    (s : State) : ∃ eff, exec i s = issue opc w eff s ∧ ∀ r, (eff r).Local r := by
  cases i with
  | abs | add | and | andn | bswap | clz | ctz | div | exts | extz | ins | madr | max | min | mul | mulh
  | neg | or | popc | rem | rol | sar | sel | shl | shr | sub | xor | fabs | fadd | fcvt | fdiv | ffma | fmax
  | fmin | fmul | fneg | fsqrt | fsub =>
    cases hi
    exact ⟨_, rfl, fun r => arith_local _ _ _ r⟩
  | cmp | fcmp =>
    cases hi
    exact ⟨_, rfl, fun r => compare_local _ _ r⟩
  | li =>
    cases hi
    exact ⟨_, rfl, fun r => (Quiet.refl r).put _ _ _⟩
  | lih =>
    cases hi
    exact ⟨_, rfl, fun r => lih_local _ _ r⟩
  | mov =>
    cases hi
    refine ⟨_, rfl, fun r => ?_⟩
    split
    · exact arith_local _ _ _ r
    · exact movVE_local _ r
  | br | jmp =>
    cases hi
    exact ⟨_, rfl, fun r => effBr_local _ r⟩
  | brl =>
    cases hi
    exact ⟨_, rfl, fun r => effBrl_local _ r⟩
  | chk =>
    cases hi
    exact ⟨_, rfl, fun r => effChk_local _ r⟩
  | ret =>
    cases hi
    exact ⟨_, rfl, fun r => effRet_local _ r⟩
  | loop =>
    cases hi
    exact ⟨_, rfl, fun r => effLoop_local _ r⟩
  | nop | yield =>
    cases hi
    exact ⟨_, rfl, fun r => Quiet.refl r⟩
  | gand | gor | gnot =>
    cases hi
    refine ⟨_, rfl, fun r => ?_⟩
    split
    · exact putGuard_local r _ _
    · rfl
  | mall | many =>
    cases hi
    exact ⟨_, rfl, fun r => (Quiet.refl r).resolveGuard _ _⟩
  | mand | mfirst | mnot | mor =>
    cases hi
    exact ⟨_, rfl, fun r => putMask_local r _ _⟩
  | mpop =>
    cases hi
    refine ⟨_, rfl, fun r => ?_⟩
    dsimp only
    split
    · exact (Quiet.refl r).put _ _ _
    · exact (Quiet.refl r).modMe _
  | vabs | vadd | vand | vcvt | vfma | vmax | vmin | vmov | vmul | vor | vsar | vshl | vshr | vsub | vxor
  | vdot4 | vperm | vscan | vslide | vexp2 | vlog2 | vrcp | vrsq | vsel =>
    cases hi
    exact ⟨_, rfl, fun r => lanes_local _ _ _ _ r⟩
  | vcmp =>
    cases hi
    exact ⟨_, rfl, fun r => effVcmp_local _ r⟩
  | vext =>
    cases hi
    refine ⟨_, rfl, fun r => ?_⟩
    split
    · next e => exact ⟨rfl, deliv_firstDeferredV e⟩
    · next e => exact ⟨rfl, deliv_firstDeferred e⟩
    · exact (Quiet.refl r).put _ _ _
  | vins =>
    cases hi
    exact ⟨_, rfl, fun r => effVins_local _ r⟩
  | vlget =>
    cases hi
    exact ⟨_, rfl, fun r => effVlget_local _ r⟩
  | vqnt =>
    cases hi
    exact ⟨_, rfl, fun r => effVqnt_local _ r⟩
  | vred =>
    cases hi
    exact ⟨_, rfl, fun r => effVred_local _ r⟩
  | vsplat =>
    cases hi
    exact ⟨_, rfl, fun r => effVsplat_local _ r⟩
  -- An event has no opcode, and the opcode of any other word is not among those of `registerOnly`.
  | _ => cases hi <;> cases hr

/-- Settles O44: its effect ends quietly, and so does its issue, for a fault that it takes is Held and none gives way to it. -/
theorem registerWordsKeepMemory : Obligations.RegisterWordsKeepMemory := by
  unfold Obligations.RegisterWordsKeepMemory
  intro i opc w s t hi hr hn e
  obtain ⟨eff, hx, heff⟩ := exec_registerOnly hi hr s
  rw [hx] at e
  cases e
  have h : Quiet s (issueWord opc w false eff s) := Quiet.issueWord hn heff
  exact ⟨sameMemory_of_mems h.mems, h.others⟩

end Sys2Proof.Machine
end

section
/-!
Stages and launches: an event whose conditions are met does what it is for. A launch is made when each of its checks passes; a grant of
clusters reaches every core of them.
-/

namespace Sys2Proof.Machine

variable {s : State}

/-! ## Stages (R83, R84, R86) -/

/-- A stage that may fire, on a core that takes the firing, fires there. -/
theorem execFiringStart_fires {u : State} {part stage c k : Nat} {g : Stage} (hg : (s.part part).stages[stage]? = some g)
    (hlive : (s.part part).live = true) (hsource : g.decl.ins = [] → (s.part part).closed = false)
    (hqueues : (s.part part).queuesReady g = true) (hu : u = g.cores.foldl (fun s c => s.readLog c) s)
    (hcore : u.firingCore (g.cores.filter (fun c => u.firingOn c (firingKey stage g.next) &&
      !(g.decl.ins.isEmpty && (s.part part).lt && g.fired.contains c))) = some c)
    (hslot : u.slotFor c .firing (firingKey stage g.next) = some k) :
    execFiringStart part stage s = .next (u.startFiring part stage c k g) := by
  have hopen : (g.decl.ins.isEmpty && (s.part part).closed) = false := by
    cases hins : g.decl.ins with
    | nil => simp [hsource hins]
    | cons => rfl
  subst hu
  simp only [execFiringStart, hg, hlive, hopen, hqueues, hcore, hslot, Bool.not_true, Bool.or_self, Bool.false_eq_true, if_false]

/-- A partition whose last move is long enough past moves a core from the donor to the recipient. -/
theorem execRebalanceTick_moves {u : State} {part r d c : Nat} (hlive : (s.part part).live = true)
    (hage : (s.part part).lastRebal + 4096 ≤ s.cycle)
    (hheld : ∀ x ∈ (s.part part).stages.flatMap (·.cores), (s.core x).covered = false)
    (hu : u = s.modPart part (fun p => { p with lastRebal := s.cycle })) (hr : u.recipient part = some r)
    (hd : u.donor part r = some d) (hc : u.moveCore part d = some c) :
    execRebalanceTick part s = .next ((u.modCore c (fun x => { x with moving := some r })).joinStage c) := by
  have hfree : ((s.part part).stages.flatMap (·.cores)).any (fun x => (s.core x).covered) = false :=
    List.any_eq_false.2 fun x hx => by simp [hheld x hx]
  have hdue : ¬ s.cycle - (s.part part).lastRebal < 4096 := by omega
  subst hu
  simp [execRebalanceTick, hlive, hfree, hdue, hr, hd, hc]

theorem stageEvents : StageEvents :=
  ⟨fun _ _ _ _ _ _ _ hg hlive hsource hqueues hu hcore hslot => execFiringStart_fires hg hlive hsource hqueues hu hcore hslot,
   fun _ _ _ _ _ _ hlive hage hheld hu hr hd hc => execRebalanceTick_moves hlive hage hheld hu hr hd hc⟩

/-! ## Resizing (R98, R99) -/

theorem cover_cores (s : State) (g : Nat → Granule) (cells : List (Nat × Byte)) : (s.cover g cells).cores = s.cores := by
  unfold State.cover
  split <;> rfl

theorem cover_parts (s : State) (g : Nat → Granule) (cells : List (Nat × Byte)) : (s.cover g cells).parts = s.parts := by
  unfold State.cover
  split <;> rfl

@[simp] theorem fillLoc_cores (s : State) (cells : List (Nat × Byte)) (core : Nat) : (s.fillLoc cells core).cores = s.cores :=
  cover_cores s _ _

@[simp] theorem fillLoc_parts (s : State) (cells : List (Nat × Byte)) (core : Nat) : (s.fillLoc cells core).parts = s.parts :=
  cover_parts s _ _

@[simp] theorem fillShm_cores (s : State) (base : Nat) (cells : List (Nat × Byte)) (d : Nat) :
    (s.fillShm base cells d).cores = s.cores :=
  cover_cores s _ _

@[simp] theorem fillShm_parts (s : State) (base : Nat) (cells : List (Nat × Byte)) (d : Nat) :
    (s.fillShm base cells d).parts = s.parts :=
  cover_parts s _ _

/-- A core that joins belongs to the partition, whether it is new or comes back. -/
theorem joined_part (c : Core) (part now : Nat) (mode : RMode) : (c.joined part now mode).part = some part := by
  unfold Core.joined
  dsimp only
  split <;> rfl

/-- A core as a grant sets it up, the step of execPartitionGrow's fold over the cores: joined to the partition, its LOC as the launch left
that of the others. -/
def State.joinCore (s : State) (part : Nat) (mode : RMode) (cells : List (Nat × Byte)) (c : Nat) : State :=
  (s.modCore c (fun x => x.joined part s.cycle mode)).fillLoc cells c

theorem joinCore_part_same (s : State) (part : Nat) (mode : RMode) (cells : List (Nat × Byte)) (c : Nat) :
    ((s.joinCore part mode cells c).core c).part = some part := by
  have h := State.core_modCore s c (fun x => x.joined part s.cycle mode)
  unfold State.joinCore State.core at *
  rw [fillLoc_cores, h, joined_part]

theorem joinCore_core_other (s : State) (part : Nat) (mode : RMode) (cells : List (Nat × Byte)) {c d : Nat} (hd : d ≠ c) :
    (s.joinCore part mode cells c).core d = s.core d := by
  have h := State.core_modCore_other s hd (fun x => x.joined part s.cycle mode)
  unfold State.joinCore State.core at *
  rw [fillLoc_cores, h]

theorem joinCores_parts (s : State) (part : Nat) (mode : RMode) (cells : List (Nat × Byte)) (l : List Nat) :
    (l.foldl (fun s c => s.joinCore part mode cells c) s).parts = s.parts :=
  List.foldlRecOn (motive := fun t : State => t.parts = s.parts) l _ rfl fun t ht c _ =>
    (fillLoc_parts (t.modCore c _) cells c).trans ht

/-- Every core of a grant belongs to the partition: the step of a later core leaves it there. -/
theorem joinCores_part (s : State) (part : Nat) (mode : RMode) (cells : List (Nat × Byte)) (l : List Nat) :
    ∀ c, (c ∈ l ∨ (s.core c).part = some part) → ((l.foldl (fun s c => s.joinCore part mode cells c) s).core c).part = some part := by
  induction l generalizing s with
  | nil => simp
  | cons d l ih =>
    intro c hc
    refine ih _ c ?_
    by_cases h : c = d
    · exact .inr (h ▸ joinCore_part_same s part mode cells d)
    · rw [joinCore_core_other s part mode cells h]
      exact hc.imp_left fun hm => (List.mem_cons.1 hm).resolve_left h

theorem fillDies_cores (s : State) (base : Nat → Nat) (cells : List (Nat × Byte)) (l : List Nat) :
    (l.foldl (fun s d => s.fillShm (base d) cells d) s).cores = s.cores :=
  List.foldlRecOn (motive := fun t : State => t.cores = s.cores) l _ rfl fun t ht d _ => (fillShm_cores t _ cells d).trans ht

theorem fillDies_parts (s : State) (base : Nat → Nat) (cells : List (Nat × Byte)) (l : List Nat) :
    (l.foldl (fun s d => s.fillShm (base d) cells d) s).parts = s.parts :=
  List.foldlRecOn (motive := fun t : State => t.parts = s.parts) l _ rfl fun t ht d _ => (fillShm_parts t _ cells d).trans ht

/-- A grant of clusters that may be granted, and whose dies hold the launch's SHM, grows the partition by them. -/
theorem execPartitionGrow_grows {part : Nat} {cls new : List Nat} (hlive : (s.part part).live = true)
    (hnew : new = (cls.filter (fun c => !(s.part part).clusters.contains c)).dedup) (hgrant : ∀ c ∈ new, s.grantable part c = true)
    (hfits : ∀ c ∈ new.flatMap coresOfCluster, ∀ x ∈ (s.part part).shmInit, x.1 < (s.part part).shmSize (dieOf c)) :
    ∃ u : State, execPartitionGrow part cls s = .next u ∧ (u.part part).clusters = (s.part part).granted new ∧
      ∀ c ∈ new.flatMap coresOfCluster, (u.core c).part = some part := by
  have hall : new.all (s.grantable part) = true := List.all_eq_true.2 hgrant
  have hroom : ((new.flatMap coresOfCluster).all fun c => (s.part part).shmInit.all fun x => x.1 < (s.part part).shmSize (dieOf c)) =
      true := by
    simpa only [List.all_eq_true, decide_eq_true_eq] using hfits
  unfold execPartitionGrow
  simp only [← hnew, hlive, hall, hroom, Bool.not_true, Bool.or_self, Bool.false_eq_true, if_false]
  refine ⟨_, rfl, ?_, fun c hc => ?_⟩
  · rw [State.part, fillDies_parts]
    have hparts := joinCores_parts (s.modPart part (fun p => { p with clusters := p.granted new })) part
    refine (congrArg (fun ps => (tget {} part ps : Part).clusters) (hparts _ _ _)).trans ?_
    exact congrArg Part.clusters (State.part_modPart s part _)
  · rw [State.core, fillDies_cores]
    exact joinCores_part _ part _ _ _ c (.inl hc)

/-- A cluster that may not be granted makes the grant change nothing. -/
theorem execPartitionGrow_refused {part : Nat} {cls new : List Nat} {c : Nat}
    (hnew : new = (cls.filter (fun c => !(s.part part).clusters.contains c)).dedup) (hc : c ∈ new)
    (hgrant : s.grantable part c = false) : execPartitionGrow part cls s = .next s := by
  have hall : new.all (s.grantable part) = false := List.all_eq_false.2 ⟨c, hc, by simp [hgrant]⟩
  unfold execPartitionGrow
  simp only [← hnew, hall, Bool.not_false, Bool.or_true, Bool.true_or, if_true]

/-- What a core holds 2^20 cycles after its departure began is pre-empted. -/
theorem execDepartureTimeout_preempts {core t : Nat} (ht : (s.core core).departing = some t) (hage : t + 2 ^ 20 ≤ s.cycle)
    (hleft : (s.core core).left = false) :
    execDepartureTimeout core s = .next ((slotsOf core).foldl (fun s k => s.preemptSlot k) s) := by
  have hdue : ¬ s.cycle - t < 2 ^ 20 := by omega
  simp only [execDepartureTimeout, ht, hdue, hleft, decide_false, Bool.or_self, Bool.false_eq_true, if_false]

/-! ## Launches (R39, R61, R91, R92, R101) -/

/-- The checks of a launch in the order of R91 (State.checkLaunch): the grant, keys, patches, experimental opcodes, entries, groups,
placement and links. `l` is what the launch sets up, with the image as its patches leave it. -/
structure ChecksPass (s : State) (im : Image) (l : Launching) : Prop where
  clusters : l.cls = (s.part im.part).granted im.clusters
  cores    : l.cores = (l.cls.flatMap coresOfCluster).filter (fun c => !((s.core c).part == some im.part && (s.core c).left))
  ended    : (s.part im.part).live = true → (s.part im.part).ended = true
  nonempty : l.cls ≠ []
  enough   : im.need ≤ l.cls.length
  grants   : ∀ c ∈ l.cls, s.grantable im.part c = true
  keys     : ∀ k ∈ im.keys, 1 ≤ k.2 ∧ k.2 < 64 ∧ k.2 ∈ im.granted
  shm      : Image_grantsHold im (l.cores.map dieOf) = true
  patches  : applyPatches im = .ok l.image
  quantum  : quantumOf im = .ok l.quantum
  opcodes  : ∀ w ∈ l.image.code, experimental w = false
  entries  : ∀ e ∈ l.image.stages.map (·.entry) ++ l.image.handlers.map (·.2) ++ l.image.entries,
    (s.mapImage l.image).badEntryAt l.image.asid.toNat e = none
  groups   : (s.mapImage l.image).groupsOf l.image.asid.toNat l.cores l.image.groups [] = .ok l.groups
  stages   : placeAll l.cores l.image.stages = some l.stages
  links    : placeLinks l.stages 0 l.image.links = .ok l.links
  pairs    : linksFault [] 0 l.links = none

/-- A launch whose checks pass sets up what they have found. -/
theorem ChecksPass.checkLaunch {im : Image} {l : Launching} (h : ChecksPass s im l) : s.checkLaunch im = .ok l := by
  obtain ⟨hcls, hcores, hover, hsome, henough, hgrants, hkeys, hshm, hpatches, hquantum, hopcodes, hentries, hgroups, hstages, hlinks,
    hpairs⟩ := h
  have hended : ((s.part im.part).live && !(s.part im.part).ended) = false := by
    cases hl : (s.part im.part).live with
    | false => rfl
    | true => simp [hover hl]
  have hgranted : (l.cls.isEmpty || decide (l.cls.length < im.need) || !l.cls.all (s.grantable im.part)) = false := by
    simp [List.all_eq_true.2 hgrants, hsome, henough]
  have hkey : im.keys.find? (fun k => k.2 < 1 || 64 ≤ k.2 || !im.granted.contains k.2) = none := by
    refine List.find?_eq_none.2 fun k hk => ?_
    obtain ⟨h1, h64, hin⟩ := hkeys k hk
    simp [hin, Nat.not_le.2 h64, Nat.one_le_iff_ne_zero.1 h1]
  have hcode : l.image.code.any experimental = false := List.any_eq_false.2 fun w hw => by simp [hopcodes w hw]
  have hentry : (l.image.stages.map (·.entry) ++ l.image.handlers.map (·.2) ++ l.image.entries).findSome?
      ((s.mapImage l.image).badEntryAt l.image.asid.toNat) = none := List.findSome?_eq_none_iff.2 hentries
  unfold State.checkLaunch
  simp only [← hcls, ← hcores, hended, hgranted, hkey, hshm, hpatches, hquantum, hcode, hentry, hgroups, hstages, hlinks, hpairs,
    Bool.false_eq_true, Bool.not_true, if_false]

/-- A closed launch of which nothing is left ends. -/
theorem execLaunchEnd_ends {part : Nat} (hlive : (s.part part).live = true) (hended : (s.part part).ended = false)
    (hclosed : (s.part part).closed = true) (hover : s.launchOver part = true) : execLaunchEnd part s =
      .next (s.modPart part (fun p => { p with ended := true, dispatch := false, edges := [] })) := by
  simp [execLaunchEnd, hlive, hended, hclosed, hover]

theorem launchEvents : LaunchEvents := by
  refine ⟨?_, fun s im e he => ?_, fun s part => rfl, fun s part hlive hended hclosed hover => execLaunchEnd_ends hlive hended hclosed hover,
    fun s part cls new hlive hnew => ⟨execPartitionGrow_grows hlive hnew, fun c hc => execPartitionGrow_refused hnew hc⟩,
    fun s part cls => ?_, fun s core t ht hage hleft => execDepartureTimeout_preempts ht hage hleft⟩
  · rintro s im _ l rfl hcls hcores hover hsome henough hgrants hkeys hshm hpatches hquantum hopcodes hentries hgroups hstages hlinks hpairs
    have h : ChecksPass s im l := ⟨hcls, hcores, hover, hsome, henough, hgrants, hkeys, hshm, hpatches, hquantum, hopcodes, hentries,
      hgroups, hstages, hlinks, hpairs⟩
    change execLaunch im s = _
    rw [execLaunch, h.checkLaunch]
  · change execLaunch im s = _
    rw [execLaunch, he]
  · change execPartitionShrink part cls s = _
    simp only [execPartitionShrink, Bool.and_eq_true, beq_iff_eq, Option.isNone_iff_eq_none]

/-- Settles O40: each event is the one case of its definition that its conditions lead to. -/
theorem stageAndLaunchEvents : Obligations.StageAndLaunchEvents := by
  unfold Obligations.StageAndLaunchEvents
  exact ⟨stageEvents, launchEvents⟩

end Sys2Proof.Machine
end

section
/-!
Runs of bits: the fields of a word read from a concatenation, and a word put together again from its fields (R10, R41).
-/

namespace Sys2Proof

/-- A run inside the low part of a concatenation. -/
theorem bits_append_low {p q : Nat} (x : BitVec p) (y : BitVec q) {lo n : Nat} (h : lo + n ≤ q) :
    bits (x ++ y) lo n = bits y lo n := BitVec.extractLsb'_append_eq_of_add_le h

/-- A run inside the high part. -/
theorem bits_append_high {p q : Nat} (x : BitVec p) (y : BitVec q) {lo n : Nat} (h : q ≤ lo) :
    bits (x ++ y) lo n = bits x (lo - q) n := BitVec.extractLsb'_append_eq_of_le h

/-- A vector is the run of all its bits. -/
theorem bits_all {n : Nat} (x : BitVec n) : bits x 0 n = x := BitVec.extractLsb'_eq_self

theorem getLsbD_append_low {p q : Nat} (x : BitVec p) (y : BitVec q) {i : Nat} (h : i < q) :
    (x ++ y).getLsbD i = y.getLsbD i := by
  rw [BitVec.getLsbD_append, if_pos h]

theorem getLsbD_append_high {p q : Nat} (x : BitVec p) (y : BitVec q) {i : Nat} (h : q ≤ i) :
    (x ++ y).getLsbD i = x.getLsbD (i - q) := by
  rw [BitVec.getLsbD_append, if_neg (Nat.not_lt.2 h)]

/-- Two neighbouring runs of a vector are one run. -/
theorem bits_append_bits {m : Nat} (w : BitVec m) {hi lo k n : Nat} (h : hi = lo + n) :
    bits w hi k ++ bits w lo n = bits w lo (k + n) :=
  BitVec.extractLsb'_append_extractLsb'_eq_extractLsb' h

/-- A run of a run. -/
theorem bits_bits {m : Nat} (w : BitVec m) {lo n lo' n' : Nat} (h : lo' + n' ≤ n) :
    bits (bits w lo n) lo' n' = bits w (lo + lo') n' := by
  apply BitVec.eq_of_getLsbD_eq
  intro i hi
  simp [bits, hi, Nat.add_assoc]
  omega

/-- One bit as a run. -/
theorem ofBool_getLsbD {m : Nat} (w : BitVec m) (i : Nat) : BitVec.ofBool (w.getLsbD i) = bits w i 1 := by
  apply BitVec.eq_of_getLsbD_eq
  intro j hj
  obtain rfl : j = 0 := by omega
  simp [bits]

theorem getLsbD_bits {m : Nat} (w : BitVec m) {lo n i : Nat} (h : i < n) : (bits w lo n).getLsbD i = w.getLsbD (lo + i) := by
  simp [bits, h]

end Sys2Proof
end

section
/-!
The codec: every code is read back, and so is every operand field, the guard and hint fields, and the word (R41 to R50).
-/

namespace Sys2Proof

/-! ## The parts of a word -/

/-- OPC with the guard and hint fields: bits 95 to 64 (R41). -/
def headBits (opc : Nat) (h : Head) : BitVec (10 + 1 + 5 + 2 + 1 + 1 + 4 + 3 + 1 + 4) :=
  BitVec.ofNat 10 opc ++ BitVec.ofBool h.neg ++ h.guard ++ h.stream.code ++ BitVec.ofBool h.fin ++ BitVec.ofBool h.yield ++ h.stall ++
    h.cache ++ BitVec.ofBool h.likely ++ 0#4

/-- Bits 41 to 0: the pair, or fields B and C (R44). -/
def pairBits (w : Operands) : BitVec 42 :=
  match w.pair with
  | some p => p
  | none => encodeOpnd w.b (0#2 ++ w.msk ++ w.flg) ++ encodeOpnd w.c (w.opf ++ 0#4)

variable (opc : Nat) (l : Layout) (w : Operands)

theorem encodeWord_eq : encodeWord opc l w =
    headBits opc w.head ++ BitVec.ofBool w.pair.isSome ++ encodeOpnd w.a (modA l w) ++ pairBits w := rfl

/-- A run of the upper part of a word. -/
theorem bits_encodeWord_head {lo n : Nat} (h : 64 ≤ lo) :
    bits (encodeWord opc l w) lo n = bits (headBits opc w.head) (lo - 64) n := by
  rw [encodeWord_eq, bits_append_high _ _ (by omega), bits_append_high _ _ (by omega), bits_append_high _ _ (by omega)]
  congr 1

theorem getLsbD_encodeWord_head {i : Nat} (h : 64 ≤ i) : (encodeWord opc l w).getLsbD i = (headBits opc w.head).getLsbD (i - 64) := by
  rw [encodeWord_eq, getLsbD_append_high _ _ (by omega), getLsbD_append_high _ _ (by omega), getLsbD_append_high _ _ (by omega)]
  congr 1

@[simp] theorem pairField_encodeWord : pairField (encodeWord opc l w) = w.pair.isSome := by
  rw [pairField, encodeWord_eq, getLsbD_append_high _ _ (by decide), getLsbD_append_high _ _ (by decide),
    getLsbD_append_low _ _ (by decide)]
  simp

@[simp] theorem fieldA_encodeWord : fieldA (encodeWord opc l w) = encodeOpnd w.a (modA l w) := by
  rw [fieldA, encodeWord_eq, bits_append_high _ _ (by decide), bits_append_low _ _ (by decide), Nat.sub_self, bits_all]

theorem bits_encodeWord_pair {lo n : Nat} (h : lo + n ≤ 42) : bits (encodeWord opc l w) lo n = bits (pairBits w) lo n := by
  rw [encodeWord_eq, bits_append_low _ _ h]

theorem fieldB_encodeWord (h : w.pair = none) : fieldB (encodeWord opc l w) = encodeOpnd w.b (0#2 ++ w.msk ++ w.flg) := by
  rw [fieldB, bits_encodeWord_pair _ _ _ (by decide), pairBits, h, bits_append_high _ _ (by decide), Nat.sub_self, bits_all]

theorem fieldC_encodeWord (h : w.pair = none) : fieldC (encodeWord opc l w) = encodeOpnd w.c (w.opf ++ 0#4) := by
  rw [fieldC, bits_encodeWord_pair _ _ _ (by decide), pairBits, h, bits_append_low _ _ (by decide), bits_all]

/-! ## Guard and hint fields -/

/-- The stream of its code. -/
@[simp] theorem Stream.ofCode_code (s : Stream) : Stream.ofCode s.code.toNat = some s := by cases s <;> rfl

theorem opcField_encodeWord (h : opc < 1024) : opcField (encodeWord opc l w) = opc := by
  rw [opcField, bits_encodeWord_head _ _ _ (by decide), headBits]
  simp (disch := decide) only [bits_append_high, Nat.reduceSub, bits_all]
  rw [BitVec.toNat_ofNat, Nat.mod_eq_of_lt h]

@[simp] theorem streamField_encodeWord : streamField (encodeWord opc l w) = w.head.stream.code.toNat := by
  rw [streamField, bits_encodeWord_head _ _ _ (by decide), headBits]
  simp (disch := decide) only [bits_append_high, bits_append_low, Nat.reduceSub, bits_all]

@[simp] theorem decodeHead_encodeWord : decodeHead (encodeWord opc l w) = w.head := by
  rw [decodeHead, streamField_encodeWord]
  simp (disch := decide) only [bits_encodeWord_head, getLsbD_encodeWord_head, headBits, bits_append_high, bits_append_low, bits_all,
    getLsbD_append_high, getLsbD_append_low, Nat.reduceSub, Stream.ofCode_code, Option.getD_some, BitVec.getLsbD_ofBool,
    decide_true, Bool.true_and]

/-! ## Operand fields -/

/-- KIND of an operand (R45). -/
def Opnd.kind : Opnd → Nat | .reg .. => 0 | .imm _ => 1 | .queue .. => 2 | .none => 3

section
variable (o : Opnd) (m : BitVec 9)

@[simp] theorem kindOf_encodeOpnd : kindOf (encodeOpnd o m) = o.kind := by
  cases o <;> rw [kindOf, encodeOpnd] <;> simp (disch := decide) only [bits_append_high, Nat.reduceSub, bits_all] <;> rfl

/-- The file of its code. -/
@[simp] theorem File.ofCode_code (x : File) : File.ofCode x.code.toNat = some x := by cases x <;> rfl

/-- MOD, which an immediate has no room for (R45). -/
theorem modOf_encodeOpnd (h : o.kind ≠ 1) : modOf (encodeOpnd o m) = m := by
  cases o with
  | imm v => exact absurd rfl h
  | none | reg | queue =>
    rw [modOf, encodeOpnd]
    simp (disch := decide) only [bits_append_low, bits_all]

@[simp] theorem decodeOpnd_encodeOpnd : decodeOpnd (encodeOpnd o m) = o := by
  have hk := kindOf_encodeOpnd o m
  unfold decodeOpnd
  rw [hk]
  cases o with
  | none => rfl
  | reg x r n =>
    have hfile : fileCode (encodeOpnd (.reg x r n) m) = x.code.toNat := by
      rw [fileCode, encodeOpnd]
      simp (disch := decide) only [bits_append_high, bits_append_low, Nat.reduceSub, bits_all]
    have hnum : numOf (encodeOpnd (.reg x r n) m) = n := by
      rw [numOf, encodeOpnd]
      simp (disch := decide) only [bits_append_high, bits_append_low, Nat.reduceSub, bits_all]
    have hrot : rotOf (encodeOpnd (.reg x r n) m) = r := by
      rw [rotOf, encodeOpnd]
      simp (disch := decide) only [getLsbD_append_high, getLsbD_append_low, Nat.reduceSub, BitVec.getLsbD_ofBool, decide_true,
        Bool.true_and]
    simp only [Opnd.kind, hfile, File.ofCode_code, hnum, hrot]
  | imm v =>
    simp only [Opnd.kind]
    rw [immOf, encodeOpnd, bits_append_low _ _ (by decide), bits_all]
  | queue p n =>
    have hnum : bits (encodeOpnd (.queue p n) m) 9 3 = n := by
      rw [encodeOpnd]
      simp (disch := decide) only [bits_append_high, bits_append_low, Nat.reduceSub, bits_all]
    have hpeek : rotOf (encodeOpnd (.queue p n) m) = p := by
      rw [rotOf, encodeOpnd]
      simp (disch := decide) only [getLsbD_append_high, getLsbD_append_low, Nat.reduceSub, BitVec.getLsbD_ofBool, decide_true,
        Bool.true_and]
    simp only [Opnd.kind, hnum, hpeek]
end

/-! ## Operand fields and modifiers of a word -/

@[simp] theorem Ty.ofCode_code (t : Ty) : Ty.ofCode t.code = t := by cases t <;> rfl
@[simp] theorem Rnd.ofCode_code (r : Rnd) : Rnd.ofCode r.code = some r := by cases r <;> rfl
@[simp] theorem Scope.ofCode_code (s : Scope) : Scope.ofCode s.code = s := by cases s <;> rfl
@[simp] theorem Ord.ofCode_code (o : Ord) : Ord.ofCode o.code = o := by cases o <;> rfl

/-- The modifiers that a layout does not hold stand at their first codes (R47). -/
def Operands.ModsFit (l : Layout) (w : Operands) : Prop :=
  match l with
  | .AR => w.scope = .none ∧ w.ord = .rlx
  | .MEM => w.sat = false ∧ w.rnd = .rne
  | .SYN => w.ty = .i8 ∧ w.sat = false ∧ w.rnd = .rne
  | .NONE => w.ty = .i8 ∧ w.sat = false ∧ w.rnd = .rne ∧ w.scope = .none ∧ w.ord = .rlx

theorem canonical_iff {l : Layout} {w : Operands} : w.canonical l = true ↔
    w.a.kind ≠ 1 ∧ w.b.kind ≠ 1 ∧
    (w.pair.isSome = true → w.b = .none ∧ w.c = .none ∧ w.msk = 0 ∧ w.flg = 0 ∧ w.opf = 0) ∧
    (w.c.kind = 1 → w.opf = 0) ∧ w.ModsFit l := by
  unfold Operands.canonical
  simp only [Bool.and_eq_true, and_assoc]
  refine and_congr ?_ (and_congr ?_ (and_congr ?_ (and_congr ?_ ?_)))
  · cases w.a <;> simp [Opnd.kind]
  · cases w.b <;> simp [Opnd.kind]
  · cases w.pair <;> simp [and_assoc]
  · cases w.c <;> simp [Opnd.kind]
  · cases l <;> simp [Operands.ModsFit, and_assoc]

/-- Operands with the modifiers that the MOD bits of field A hold under a layout (R47). -/
def Operands.withMods (v : Operands) (m : BitVec 9) : Layout → Operands
  | .AR =>
    { v with ty := Ty.ofCode (bits m 5 4), sat := m.getLsbD 4, rnd := (Rnd.ofCode (bits m 1 3)).getD .rne, scope := .none, ord := .rlx }
  | .MEM =>
    { v with ty := Ty.ofCode (bits m 5 4), sat := false, rnd := .rne, scope := Scope.ofCode (bits m 2 3), ord := Ord.ofCode (bits m 0 2) }
  | .SYN => { v with ty := .i8, sat := false, rnd := .rne, scope := Scope.ofCode (bits m 6 3), ord := Ord.ofCode (bits m 4 2) }
  | .NONE => { v with ty := .i8, sat := false, rnd := .rne, scope := .none, ord := .rlx }

/-- Fields B and C of a word, the pair, and the modifiers that stand in them (R44, R49). -/
def decodeBC (w : IWord) : Operands :=
  if pairField w then { pair := some (bits w 0 42) }
  else { b := decodeOpnd (fieldB w), c := decodeOpnd (fieldC w), msk := bits (modOf (fieldB w)) 4 3, flg := bits (modOf (fieldB w)) 0 4,
         opf := if decide (kindOf (fieldC w) = 1) then 0 else bits (modOf (fieldC w)) 4 5 }

theorem decodeOperands_eq (w : IWord) : decodeOperands l w =
    { decodeBC w with head := decodeHead w, a := decodeOpnd (fieldA w) }.withMods (modOf (fieldA w)) l := by
  unfold decodeOperands decodeBC
  cases pairField w <;> cases l <;> rfl

section
variable (w : IWord)

@[simp] theorem decodeOperands_head : (decodeOperands l w).head = decodeHead w := rfl
@[simp] theorem decodeOperands_a : (decodeOperands l w).a = decodeOpnd (fieldA w) := rfl
@[simp] theorem decodeOperands_b : (decodeOperands l w).b = (decodeBC w).b := by rw [decodeOperands_eq]; cases l <;> rfl
@[simp] theorem decodeOperands_c : (decodeOperands l w).c = (decodeBC w).c := by rw [decodeOperands_eq]; cases l <;> rfl
@[simp] theorem decodeOperands_pair : (decodeOperands l w).pair = (decodeBC w).pair := by rw [decodeOperands_eq]; cases l <;> rfl
@[simp] theorem decodeOperands_msk : (decodeOperands l w).msk = (decodeBC w).msk := by rw [decodeOperands_eq]; cases l <;> rfl
@[simp] theorem decodeOperands_flg : (decodeOperands l w).flg = (decodeBC w).flg := by rw [decodeOperands_eq]; cases l <;> rfl
@[simp] theorem decodeOperands_opf : (decodeOperands l w).opf = (decodeBC w).opf := by rw [decodeOperands_eq]; cases l <;> rfl

theorem isSome_pair_decodeBC : (decodeBC w).pair.isSome = pairField w := by
  cases hp : pairField w <;> simp [decodeBC, hp]

end

/-- The modifiers of field A are read back. -/
theorem withMods_modA {l : Layout} {w : Operands} (h : w.ModsFit l) (v : Operands) :
    v.withMods (modA l w) l = { v with ty := w.ty, sat := w.sat, rnd := w.rnd, scope := w.scope, ord := w.ord } := by
  cases l <;> simp (disch := decide) only [Operands.withMods, modA, bits_append_high, bits_append_low, bits_all, Nat.reduceSub,
    Ty.ofCode_code, Rnd.ofCode_code, Option.getD_some, Scope.ofCode_code, Ord.ofCode_code, getLsbD_append_high, getLsbD_append_low,
    BitVec.getLsbD_ofBool, decide_true, Bool.true_and] <;>
    simp_all only [Operands.ModsFit]

/-- Fields B and C are read back, and so is the pair. -/
theorem decodeBC_encodeWord {w : Operands} (h : w.canonical l = true) :
    decodeBC (encodeWord opc l w) = { b := w.b, c := w.c, pair := w.pair, msk := w.msk, flg := w.flg, opf := w.opf } := by
  obtain ⟨-, hb, hpair, hc, -⟩ := canonical_iff.1 h
  rw [decodeBC, pairField_encodeWord]
  cases hp : w.pair with
  | some p =>
    obtain ⟨hb0, hc0, hmsk, hflg, hopf⟩ := hpair (by rw [hp]; rfl)
    rw [bits_encodeWord_pair _ _ _ (by decide), pairBits, hp, bits_all, hb0, hc0, hmsk, hflg, hopf]
    rfl
  | none =>
    rw [fieldB_encodeWord _ _ _ hp, fieldC_encodeWord _ _ _ hp, modOf_encodeOpnd _ _ hb, kindOf_encodeOpnd]
    have hopf : (if decide (w.c.kind = 1) = true then 0 else bits (modOf (encodeOpnd w.c (w.opf ++ 0#4))) 4 5) = w.opf := by
      split
      · next hk => exact (hc (of_decide_eq_true hk)).symm
      · next hk => rw [modOf_encodeOpnd _ _ (fun e => hk (decide_eq_true e)), bits_append_high _ _ (by decide), Nat.sub_self, bits_all]
    rw [hopf]
    simp (disch := decide) only [bits_append_high, bits_append_low, bits_all, Nat.reduceSub, decodeOpnd_encodeOpnd]
    rfl

/-- The operand fields of a word are those that it was written with. -/
theorem decodeOperands_encodeWord {w : Operands} (h : w.canonical l = true) : decodeOperands l (encodeWord opc l w) = w := by
  obtain ⟨ha, -, -, -, hmods⟩ := canonical_iff.1 h
  rw [decodeOperands_eq, decodeBC_encodeWord _ _ h, fieldA_encodeWord, modOf_encodeOpnd _ _ ha, decodeHead_encodeWord,
    decodeOpnd_encodeOpnd, withMods_modA hmods]

/-! ## Opcodes -/

/-- From the opcode of each entry of a list comes an instruction with that opcode and the operand fields that it was made with. -/
def OpcodesReadBack (w : Operands) (l : List Entry) : Prop :=
  l.map (fun e => (ofOpcode e.opc w).bind toOpcode) = l.map (fun e => some (e.opc, w))

theorem OpcodesReadBack.append {w : Operands} {l l' : List Entry} (h : OpcodesReadBack w l) (h' : OpcodesReadBack w l') :
    OpcodesReadBack w (l ++ l') := by
  rw [OpcodesReadBack, List.map_append, List.map_append, h, h']

/-- The opcode map read forwards and backwards, one list of the reference after the other. -/
theorem opcodesReadBack_entries (w : Operands) : OpcodesReadBack w entries :=
  .append (.append (.append (.append (.append (.append (.append rfl rfl) rfl) rfl) rfl) rfl) rfl) rfl

theorem entryOf_some {opc : Nat} {e : Entry} (h : entryOf opc = some e) : e ∈ entries ∧ e.opc = opc :=
  ⟨List.mem_of_find?_eq_some h, by simpa using List.find?_some h⟩

/-- The last opcode that the part assigns is 0x388 (R60). -/
theorem opc_le_of_mem_entries : ∀ e ∈ entries, e.opc ≤ 0x388 := by decide +kernel

theorem toOpcode_of_ofOpcode {opc : Nat} {w : Operands} {e : Entry} {i : Instr} (he : entryOf opc = some e)
    (h : ofOpcode opc w = some i) : toOpcode i = some (opc, w) := by
  obtain ⟨hmem, rfl⟩ := entryOf_some he
  have hback := List.map_inj_left.1 (opcodesReadBack_entries w) e hmem
  rwa [h] at hback

/-- An instruction is that of its opcode. -/
theorem ofOpcode_of_toOpcode {opc : Nat} {w : Operands} {i : Instr} (h : toOpcode i = some (opc, w)) : ofOpcode opc w = some i := by
  have hcodec : Laws.Codec.Statement i := by cases i <;> trivial
  rwa [Laws.Codec.Statement, h] at hcodec

/-! ## The word that decodes -/

/-- A word decodes when it breaks no rule of R55, to the instruction of its opcode. -/
theorem decodeWord_eq_ok {body : Bool} {w : IWord} {i : Instr} : decodeWord body w = .ok i ↔
    encodingFault body w = none ∧
    ∃ e, entryOf (opcField w) = some e ∧ ofOpcode (opcField w) (decodeOperands e.layout w) = some i := by
  unfold decodeWord
  cases encodingFault body w with
  | some c => simp
  | none =>
    cases entryOf (opcField w) with
    | none => simp
    | some e => cases h : ofOpcode (opcField w) (decodeOperands e.layout w) <;> simp [h]

/-- The word of a well-formed instruction decodes to it. -/
theorem decodeWord_of_encode {body : Bool} {i : Instr} {w : IWord} (hwf : i.wf body = true) (henc : encode i = some w) :
    decodeWord body w = .ok i := by
  unfold Instr.wf at hwf
  unfold encode at henc
  cases hop : toOpcode i with
  | none => simp [hop] at henc
  | some p =>
    obtain ⟨opc, v⟩ := p
    cases he : entryOf opc with
    | none => simp [hop, he] at henc
    | some e =>
      simp only [hop, he, Option.map_some, Option.some.injEq] at henc
      subst henc
      simp only [hop, he, Bool.and_eq_true, Option.isNone_iff_eq_none] at hwf
      obtain ⟨hcan, hfault⟩ := hwf
      obtain ⟨hmem, hopc⟩ := entryOf_some he
      have hfield : opcField (encodeWord opc e.layout v) = opc :=
        opcField_encodeWord _ _ _ (by have := opc_le_of_mem_entries e hmem; omega)
      rw [decodeWord_eq_ok, hfield]
      exact ⟨hfault, e, he, by rw [decodeOperands_encodeWord _ _ hcan, ofOpcode_of_toOpcode hop]⟩

/-! ## The word of what is decoded -/

theorem Stream.code_of_ofCode {n : BitVec 2} {s : Stream} (h : Stream.ofCode n.toNat = some s) : s.code = n := by
  revert h
  cases s <;> revert n <;> decide

theorem Rnd.code_of_ofCode {n : BitVec 3} {r : Rnd} (h : Rnd.ofCode n = some r) : r.code = n := by
  revert h
  cases r <;> revert n <;> decide

theorem File.code_of_ofCode {n : BitVec 3} {x : File} (h : File.ofCode n.toNat = some x) : x.code = n := by
  revert h
  cases x <;> revert n <;> decide

theorem Ty.code_ofCode : ∀ n : BitVec 4, (Ty.ofCode n).code = n := by decide
theorem Scope.code_ofCode : ∀ n : BitVec 3, (Scope.ofCode n).code = n := by decide
theorem Ord.code_ofCode : ∀ n : BitVec 2, (Ord.ofCode n).code = n := by decide

/-- The upper half of a word is that of its opcode, guard and hints, where HINT.STREAM is no reserved code and bits 67 to 64 are 0. -/
theorem headBits_decodeHead {w : IWord} {st : Stream} (hst : Stream.ofCode (streamField w) = some st) (hzero : bits w 64 4 = 0) :
    headBits (opcField w) (decodeHead w) = bits w 64 32 := by
  have hcode : ((Stream.ofCode (streamField w)).getD .S).code = bits w 78 2 := by
    rw [hst]
    exact Stream.code_of_ofCode hst
  have hopc : BitVec.ofNat 10 (opcField w) = bits w 86 10 := BitVec.ofNat_toNat _ _ |>.trans (BitVec.setWidth_eq _)
  simp only [headBits, decodeHead, hopc, hcode, ofBool_getLsbD, show (0#4) = bits w 64 4 from hzero.symm]
  simp (disch := decide) only [bits_append_bits]

/-- A field that an operand stands for: a file of R46 under kind 0b00, a queue register's number under kind 0b10, and CODE 0 under kind
0b11. -/
structure FieldOk (f : BitVec 21) : Prop where
  file    : kindOf f = 0 → ∃ x, File.ofCode (fileCode f) = some x
  queue   : kindOf f = 2 → fileCode f = 5 ∧ (numOf f).toNat < 8
  special : kindOf f = 3 → specialCode f = 0

theorem bits_high_eq_zero_of_lt : ∀ x : BitVec 6, x.toNat < 8 → bits x 3 3 = 0 := by decide

/-- The four kinds of an operand field (R45). -/
theorem kindOf_cases (f : BitVec 21) : (kindOf f = 0 ∧ 0b00#2 = bits f 19 2) ∨ (kindOf f = 1 ∧ 0b01#2 = bits f 19 2) ∨
    (kindOf f = 2 ∧ 0b10#2 = bits f 19 2) ∨ (kindOf f = 3 ∧ 0b11#2 = bits f 19 2) := by
  unfold kindOf
  generalize bits f 19 2 = k
  revert k
  decide

/-- A field is that of the operand that it holds. -/
theorem encodeOpnd_decodeOpnd {f : BitVec 21} {m : BitVec 9} (h : FieldOk f) (hm : kindOf f ≠ 1 → m = modOf f) :
    encodeOpnd (decodeOpnd f) m = f := by
  unfold decodeOpnd
  rcases kindOf_cases f with ⟨hk, hbits⟩ | ⟨hk, hbits⟩ | ⟨hk, hbits⟩ | ⟨hk, hbits⟩ <;> rw [hk]
  · obtain ⟨x, hx⟩ := h.file hk
    rw [hx, hm (by rw [hk]; decide)]
    simp only [encodeOpnd, hbits, File.code_of_ofCode hx, rotOf, ofBool_getLsbD, numOf, modOf]
    simp (disch := decide) only [bits_append_bits]
    exact bits_all f
  · simp only [encodeOpnd, hbits, immOf]
    simp (disch := decide) only [bits_append_bits]
    exact bits_all f
  · obtain ⟨hfile, hnum⟩ := h.queue hk
    have hfile' : 0b101#3 = bits f 16 3 := BitVec.eq_of_toNat_eq hfile.symm
    have hhigh : 0#3 = bits f 12 3 := by
      rw [show bits f 12 3 = bits (numOf f) 3 3 from (bits_bits f (lo := 9) (n := 6) (lo' := 3) (n' := 3) (by decide)).symm]
      exact (bits_high_eq_zero_of_lt _ hnum).symm
    rw [hm (by rw [hk]; decide)]
    simp only [encodeOpnd, hbits, hfile', hhigh, rotOf, ofBool_getLsbD, modOf]
    simp (disch := decide) only [bits_append_bits]
    exact bits_all f
  · have hcode : 0#10 = bits f 9 10 := BitVec.eq_of_toNat_eq (h.special hk).symm
    rw [hm (by rw [hk]; decide)]
    simp only [encodeOpnd, hbits, hcode, modOf]
    simp (disch := decide) only [bits_append_bits]
    exact bits_all f

/-- The operand of a field is of the field's kind. -/
theorem kind_decodeOpnd {f : BitVec 21} (h : FieldOk f) : (decodeOpnd f).kind = kindOf f := by
  conv_rhs => rw [← encodeOpnd_decodeOpnd h (fun _ => rfl), kindOf_encodeOpnd]

/-! ## What the causes of R55 leave -/

theorem fieldOk_of_causes {e : Entry} {w : IWord} {i : Nat} {f : BitVec 21} (hfile : fileBad e w i f = false)
    (hnum : numberBad e w i f = false) (hspecial : specialBad f = false) : FieldOk f where
  file hk := by
    cases hx : File.ofCode (fileCode f) with
    | none => simp [fileBad, hk, hx] at hfile
    | some x => exact ⟨x, rfl⟩
  queue hk := by
    simp only [fileBad, hk, Bool.or_eq_false_iff, bne_eq_false_iff_eq] at hfile
    simp only [numberBad, hk, decide_eq_false_iff_not, Nat.not_le] at hnum
    obtain ⟨⟨hcode, -⟩, -⟩ := hfile
    exact ⟨hcode, hnum⟩
  special hk := by simpa [specialBad, hk] using hspecial

/-- Field A's MOD bits are those of the modifiers that it holds (R47, R48). -/
theorem modA_withMods {e : Entry} {w : IWord} {m : BitVec 9} (h : modABad e w m = false) (v : Operands) :
    modA e.layout (v.withMods m e.layout) = m := by
  unfold modABad at h
  cases hl : e.layout with
  | AR =>
    simp only [hl, Bool.or_eq_false_iff] at h
    obtain ⟨⟨-, hrnd⟩, hlow⟩ := h
    cases hr : Rnd.ofCode (bits m 1 3) with
    | none => simp [hr] at hrnd
    | some r =>
      have hlow' : 0#1 = bits m 0 1 := by rw [← ofBool_getLsbD, hlow]; rfl
      simp only [Operands.withMods, modA, hr, Option.getD_some, Rnd.code_of_ofCode hr, Ty.code_ofCode, ofBool_getLsbD, hlow']
      simp (disch := decide) only [bits_append_bits]
      exact bits_all m
  | MEM =>
    simp only [Operands.withMods, modA, Ty.code_ofCode, Scope.code_ofCode, Ord.code_ofCode]
    simp (disch := decide) only [bits_append_bits]
    exact bits_all m
  | SYN =>
    simp only [hl, Bool.or_eq_false_iff, bne_eq_false_iff_eq] at h
    simp only [Operands.withMods, modA, Scope.code_ofCode, Ord.code_ofCode, show 0#4 = bits m 0 4 from h.2.symm]
    simp (disch := decide) only [bits_append_bits]
    exact bits_all m
  | NONE =>
    simp only [hl, bne_eq_false_iff_eq] at h
    exact h.symm

theorem modB_of_ok {e : Entry} {f : BitVec 21} (h : modBBad e f = false) :
    0#2 ++ bits (modOf f) 4 3 ++ bits (modOf f) 0 4 = modOf f := by
  simp only [modBBad, Bool.or_eq_false_iff, bne_eq_false_iff_eq] at h
  obtain ⟨⟨⟨hhigh, -⟩, -⟩, -⟩ := h
  rw [show 0#2 = bits (modOf f) 7 2 from hhigh.symm]
  simp (disch := decide) only [bits_append_bits]
  exact bits_all _

theorem modC_of_ok {e : Entry} {f : BitVec 21} (h : modCBad e f = false) : bits (modOf f) 4 5 ++ 0#4 = modOf f := by
  have hlow : 0#4 = bits (modOf f) 0 4 := by
    unfold modCBad at h
    split at h
    · rw [show modOf f = 0 by simpa using h]
      rfl
    · simp only [Bool.or_eq_false_iff, bne_eq_false_iff_eq] at h
      exact h.1.symm
  rw [hlow]
  simp (disch := decide) only [bits_append_bits]
  exact bits_all _

/-- A field with none of the causes 0x05 to 0x0A of R55. -/
def FieldLegal (body : Bool) (e : Entry) (w : IWord) (i : Nat) (f : BitVec 21) : Prop :=
  ∀ c ∈ fieldCauses body e w, c.2 i f = false

theorem firstField_eq_none {w : IWord} {bad : Nat → BitVec 21 → Bool} : firstField w bad = none ↔
    bad 1 (fieldA w) = false ∧ (pairField w = false → bad 2 (fieldB w) = false ∧ bad 3 (fieldC w) = false) := by
  simp [firstField, ite_eq_iff]

theorem firstCause_eq_none {w : IWord} {l : List (Nat × (Nat → BitVec 21 → Bool))} :
    firstCause w l = none ↔ ∀ c ∈ l, firstField w c.2 = none := by
  induction l with
  | nil => simp [firstCause]
  | cons c l ih =>
    obtain ⟨k, bad⟩ := c
    cases hf : firstField w bad <;> simp [firstCause, hf, ih]

/-- What a word that breaks no rule of R55 keeps to: the stream is one, the reserved hint bits are 0, and no field has a cause. -/
structure LegalWord (body : Bool) (e : Entry) (w : IWord) : Prop where
  stream : ∃ st, Stream.ofCode (streamField w) = some st
  zero   : bits w 64 4 = 0
  a      : FieldLegal body e w 1 (fieldA w)
  b      : pairField w = false → FieldLegal body e w 2 (fieldB w)
  c      : pairField w = false → FieldLegal body e w 3 (fieldC w)

theorem legalWord_of_encodingFault {body : Bool} {e : Entry} {w : IWord} (he : entryOf (opcField w) = some e)
    (h : encodingFault body w = none) : LegalWord body e w := by
  simp only [encodingFault, he, ite_eq_iff, reduceCtorEq, and_false, false_or, Bool.not_eq_true, Bool.or_eq_false_iff,
    bne_eq_false_iff_eq, Bool.not_eq_false'] at h
  obtain ⟨hstream, ⟨hzero, -⟩, -, hcauses⟩ := h
  have hfields c hc := firstField_eq_none.1 (firstCause_eq_none.1 hcauses c hc)
  refine ⟨?_, hzero, fun c hc => (hfields c hc).1, fun hp c hc => ((hfields c hc).2 hp).1, fun hp c hc => ((hfields c hc).2 hp).2⟩
  cases hst : Stream.ofCode (streamField w) with
  | none => simp [hst] at hstream
  | some st => exact ⟨st, rfl⟩

theorem FieldLegal.causes {body : Bool} {e : Entry} {w : IWord} {i : Nat} {f : BitVec 21} (h : FieldLegal body e w i f) :
    kindBad e w i f = false ∧ FieldOk f ∧ modifierBad e w i f = false := by
  simp only [FieldLegal, fieldCauses, List.forall_mem_cons] at h
  obtain ⟨hkind, hfile, hnum, hmod, -, hspecial, -⟩ := h
  exact ⟨hkind, fieldOk_of_causes hfile hnum hspecial, hmod⟩

theorem FieldLegal.ok {body : Bool} {e : Entry} {w : IWord} {i : Nat} {f : BitVec 21} (h : FieldLegal body e w i f) : FieldOk f := by
  obtain ⟨-, hok, -⟩ := h.causes
  exact hok

/-- Only field C takes an immediate (R44). -/
theorem kind_ne_imm {e : Entry} {w : IWord} {i : Nat} {f : BitVec 21} (h : kindBad e w i f = false) (hi : i ≠ 3) : kindOf f ≠ 1 := by
  intro hk
  simp [kindBad, hk, hi] at h

variable {body : Bool} {e : Entry} {w : IWord}

theorem LegalWord.modA (h : LegalWord body e w) : modA e.layout (decodeOperands e.layout w) = modOf (fieldA w) := by
  obtain ⟨hkind, -, hmod⟩ := h.a.causes
  rw [decodeOperands_eq]
  exact modA_withMods (w := w) (by simpa [modifierBad, kind_ne_imm hkind] using hmod) _

theorem LegalWord.fieldB (h : LegalWord body e w) (hp : pairField w = false) :
    encodeOpnd (decodeOpnd (fieldB w)) (0#2 ++ bits (modOf (fieldB w)) 4 3 ++ bits (modOf (fieldB w)) 0 4) = fieldB w := by
  obtain ⟨hkind, hok, hmod⟩ := (h.b hp).causes
  exact encodeOpnd_decodeOpnd hok fun hk => modB_of_ok (e := e) (by simpa [modifierBad, hk] using hmod)

theorem LegalWord.fieldC (h : LegalWord body e w) (hp : pairField w = false) :
    encodeOpnd (decodeOpnd (fieldC w)) ((if kindOf (fieldC w) = 1 then 0 else bits (modOf (fieldC w)) 4 5) ++ 0#4) = fieldC w := by
  obtain ⟨-, hok, hmod⟩ := (h.c hp).causes
  refine encodeOpnd_decodeOpnd hok fun hk => ?_
  rw [if_neg hk]
  exact modC_of_ok (e := e) (by simpa [modifierBad, hk] using hmod)

/-- Bits 41 to 0 of a legal word are read back. -/
theorem LegalWord.pairBits (h : LegalWord body e w) : pairBits (decodeOperands e.layout w) = bits w 0 42 := by
  rw [Sys2Proof.pairBits]
  simp only [decodeOperands_pair, decodeOperands_b, decodeOperands_c, decodeOperands_msk, decodeOperands_flg, decodeOperands_opf]
  cases hp : pairField w with
  | true => simp [decodeBC, hp]
  | false =>
    simp only [decodeBC, hp, Bool.false_eq_true, if_false, decide_eq_true_eq, h.fieldB hp, h.fieldC hp]
    exact bits_append_bits w rfl

/-- A legal word is that of the operand fields that it holds. -/
theorem encodeWord_decodeOperands (h : LegalWord body e w) : encodeWord (opcField w) e.layout (decodeOperands e.layout w) = w := by
  obtain ⟨st, hst⟩ := h.stream
  have hA : encodeOpnd (decodeOpnd (fieldA w)) (modOf (fieldA w)) = bits w 42 21 := encodeOpnd_decodeOpnd h.a.ok fun _ => rfl
  rw [encodeWord_eq, h.pairBits, h.modA, decodeOperands_pair, isSome_pair_decodeBC, decodeOperands_head, decodeOperands_a, hA,
    headBits_decodeHead hst h.zero, pairField, ofBool_getLsbD]
  simp (disch := decide) only [bits_append_bits]
  exact bits_all w

theorem modsFit_withMods (v : Operands) (m : BitVec 9) (l : Layout) : (v.withMods m l).ModsFit l := by
  cases l <;> simp [Operands.withMods, Operands.ModsFit]

/-- The operand fields of a legal word are in the form that the word alone determines. -/
theorem canonical_decodeOperands (h : LegalWord body e w) : (decodeOperands e.layout w).canonical e.layout = true := by
  obtain ⟨hkindA, hokA, -⟩ := h.a.causes
  refine canonical_iff.2 ⟨?_, ?_, ?_, ?_, ?_⟩
  · exact kind_decodeOpnd hokA ▸ kind_ne_imm hkindA (by decide)
  · cases hp : pairField w with
    | true => simp [decodeBC, hp, Opnd.kind]
    | false =>
      obtain ⟨hkindB, hokB, -⟩ := (h.b hp).causes
      simpa [decodeBC, hp, kind_decodeOpnd hokB] using kind_ne_imm hkindB (by decide)
  · intro hp
    rw [decodeOperands_pair, isSome_pair_decodeBC] at hp
    simp [decodeBC, hp]
  · cases hp : pairField w with
    | true => simp [decodeBC, hp]
    | false => simp +contextual [decodeBC, hp, kind_decodeOpnd (h.c hp).ok]
  · rw [decodeOperands_eq]
    exact modsFit_withMods _ _ _

/-- What a word decodes to is well formed, and the word is its own. -/
theorem encode_of_decodeWord {i : Instr} (h : decodeWord body w = .ok i) : i.wf body = true ∧ encode i = some w := by
  obtain ⟨hfault, e, he, hof⟩ := decodeWord_eq_ok.1 h
  have hlegal := legalWord_of_encodingFault he hfault
  have hop := toOpcode_of_ofOpcode he hof
  have hword := encodeWord_decodeOperands hlegal
  exact ⟨by simp [Instr.wf, hop, he, hword, hfault, canonical_decodeOperands hlegal], by simp [encode, hop, he, hword]⟩

/-- Settles O48: each part of a word is read back as it was written, and is written as it was read where no rule of R55 is broken. -/
theorem codecRoundTrip : Obligations.CodecRoundTrip :=
  ⟨fun _ _ _ => decodeWord_of_encode, fun _ _ _ => encode_of_decodeWord⟩

/-! ## Unassigned opcodes -/

/-- No opcode above the last is assigned. -/
theorem entryOf_eq_none_of_le {opc : Nat} (h : 0x389 ≤ opc) : entryOf opc = none := by
  cases he : entryOf opc with
  | none => rfl
  | some e =>
    obtain ⟨hmem, rfl⟩ := entryOf_some he
    have hle := opc_le_of_mem_entries e hmem
    omega

/-- A word of an unassigned opcode has cause 0x01, which names no field (R55). -/
theorem decodeWord_unassigned {body : Bool} {w : IWord} (h : entryOf (opcField w) = none) : decodeWord body w = .error (0x01, 0) := by
  simp [decodeWord, encodingFault, h]

theorem decoded_illegal {s : Machine.State} {w : IWord} {c : Nat × Nat} (h : ∀ body, decodeWord body w = .error c) :
    s.decoded none w = .next (s.takeFaultAt s.cur (Machine.illegalWord w c) s.me.pc) := by
  simp [Machine.State.decoded, Machine.wantedBy, h]

theorem isSome_entryOf {opc : Nat} : (entryOf opc).isSome = true ↔ opc ∈ entries.map (·.opc) := by
  simp [entryOf]

/-- No two entries are of one opcode. -/
theorem nodup_opcodes : (entries.map (·.opc)).Nodup := by decide +kernel

/-- The assigned opcodes of the ten-bit field are those of the entries, each once. -/
theorem assigned_perm_opcodes : ((List.range 1024).filter fun opc => (entryOf opc).isSome).Perm (entries.map (·.opc)) := by
  refine (List.perm_ext_iff_of_nodup (List.nodup_range.filter _) nodup_opcodes).2 fun opc => ?_
  rw [List.mem_filter, isSome_entryOf, List.mem_range]
  refine and_iff_right_of_imp fun h => ?_
  obtain ⟨e, hmem, rfl⟩ := List.mem_map.1 h
  have hle := opc_le_of_mem_entries e hmem
  omega

/-- Settles O49: the assigned opcodes are those of the entries, and the first cause of R55 is that an opcode has none. -/
theorem unassignedOpcodesFault : Obligations.UnassignedOpcodesFault := by
  refine ⟨assigned_perm_opcodes.length_eq, fun _ => entryOf_eq_none_of_le, fun _ _ => decodeWord_unassigned, fun s w h => ?_⟩
  rw [decoded_illegal fun _ => decodeWord_unassigned h]
  simp only [Machine.illegalWord, Nat.zero_mul, Nat.zero_add]

/-! ## Words that the spec writes out -/

/-- Settles O47: each word is the encoding of a well-formed instruction, so it decodes to it (O48). -/
theorem specWordsDecode : Obligations.SpecWordsDecode := by
  unfold Obligations.SpecWordsDecode
  refine ⟨?_, ?_, ?_, ?_, ?_, ?_, ?_, ?_, ?_, ?_, ?_, ?_, ?_⟩ <;> exact decodeWord_of_encode (by decide +kernel) rfl

end Sys2Proof
end

section
/-!
Control transfers: where a target is, and what a transfer whose target is good completes to (R54, R354 to R397).
-/

namespace Sys2Proof.Machine

variable {s r : State} {w : Operands} {t : Word}

/-! ## Targets -/

theorem targetRange_eq_none (h : t.toNat < 2 ^ 56) : targetRange t = none := if_neg (Nat.not_le.2 h)

theorem targetRange_eq_some (h : 2 ^ 56 ≤ t.toNat) : targetRange t = some { code := 0x0A, space := 5, addr := t } := if_pos h

/-- A target once its range is checked (R58). -/
def ranged (t : Word) : Except FaultReq Word := match targetRange t with | some f => .error f | none => .ok t

theorem ranged_ok (h : t.toNat < 2 ^ 56) : ranged t = .ok t := by rw [ranged, targetRange_eq_none h]

theorem ranged_error (h : 2 ^ 56 ≤ t.toNat) : ranged t = .error { code := 0x0A, space := 5, addr := t } := by
  rw [ranged, targetRange_eq_some h]

/-- A pair, or a field C that is no s register, gives a relative target (R354). -/
theorem target_relative (s : State) (h : w.pair.isSome = true ∨ ∀ rot n, w.c ≠ .reg .s rot n) :
    s.target w = ranged (s.me.pc + 4 * s.valC w) := by
  unfold State.target
  split
  · next rot n hp hc =>
    rcases h with h | h
    · simp [hp] at h
    · exact absurd hc (h rot n)
  · rfl

/-- An s register in C gives the address itself, which must be a multiple of 4 (R54, R374). -/
theorem target_register {rot : Bool} {n : BitVec 6} (hp : w.pair = none) (hc : w.c = .reg .s rot n) (hd : s.dfr w.c = false) :
    s.target w = if (s.val w.c).toNat % 4 = 0 then ranged (s.val w.c) else .error { code := 0x02, addr := s.val w.c } := by
  rw [hc] at hd ⊢
  by_cases hal : (s.val (.reg .s rot n)).toNat % 4 = 0
  · simp [State.target, hp, hc, hd, hal]
    rfl
  · simp [State.target, hp, hc, hd, hal]

theorem transferTargets : TransferTargets := by
  refine ⟨fun w s h hlt => ?_, fun w s rot n hp hc hd hal hlt => ?_, fun w s rot n hp hc hd hal => ?_, fun w s h hge => ?_,
    fun w s rot n hp hc hd hal hge => ?_⟩
  · rw [target_relative s h, ranged_ok hlt]
  · rw [target_register hp hc hd, if_pos hal, ranged_ok hlt]
  · rw [target_register hp hc hd, if_neg hal]
  · rw [target_relative s h, ranged_error hge]
  · rw [target_register hp hc hd, if_pos hal, ranged_error hge]

/-! ## Effects -/

theorem effBr_taken (h : r.target w = .ok t) : effBr w r = .goto r t := by rw [effBr, h]

theorem effJmp_taken (h : r.target w = .ok t) : effJmp w r = .goto r t := by rw [effJmp, h]

theorem effRet_taken (h : r.target w = .ok t) : effRet w r = .goto (r.modMe fun a => { a with rstack := a.rstack.drop 1 }) t := by
  rw [effRet, h]

theorem effBrl_taken {rot : Bool} {n : BitVec 6} (h : r.target w = .ok t) (ha : w.a = .reg .s rot n) : effBrl w r =
    .goto (r.modMe fun a => { a.sSet n.toNat (r.me.pc + 12) with rstack := ((r.me.pc + 12) :: a.rstack).take 8 }) t := by
  rw [effBrl, h, ha]; rfl

theorem effChk_of_lt (h : (r.relTarget w).toNat < 2 ^ 56) :
    effChk w r = if r.dfr w.a then .goto r (r.relTarget w) else .done r := by
  rw [effChk, targetRange_eq_none h]

/-- The count reaches zero, and the word goes on to the next (R380). -/
theorem effLoop_ends {rot : Bool} {n : BitVec 6} (ha : w.a = .reg .s rot n) (hd : r.dfr w.a = false) (h1 : r.val w.a = 1) :
    effLoop w r = .done (r.wroteS n.toNat 0) := by
  unfold effLoop
  rw [if_neg (by simp [hd]), h1, ha]
  rfl

/-- The count is not zero yet, and the word branches (R380). -/
theorem effLoop_branches {rot : Bool} {n : BitVec 6} (ha : w.a = .reg .s rot n) (hd : r.dfr w.a = false) (h1 : r.val w.a ≠ 1)
    (hlt : (r.relTarget w).toNat < 2 ^ 56) : effLoop w r = .goto (r.wroteS n.toNat (r.val w.a - 1)) (r.relTarget w) := by
  have hn : r.val w.a - 1 ≠ 0 := fun h => h1 (by rw [← BitVec.sub_add_cancel (r.val w.a) 1, h]; rfl)
  unfold effLoop
  rw [if_neg (by simp [hd])]
  simp only [if_neg hn, targetRange_eq_none hlt]
  rw [ha]
  rfl

theorem transfersComplete : TransfersComplete := by
  refine ⟨fun w s r t h => ⟨fun hi => issue_goto hi (effBr_taken h), fun hi => issue_goto hi (effJmp_taken h),
      fun hi => issue_goto hi (effRet_taken h), fun hi rot n ha => issue_goto hi (effBrl_taken h ha)⟩,
    fun w s r hi hlt => ?_, fun w s r rot n hi ha hd => ⟨fun h1 => issue_done hi (effLoop_ends ha hd h1),
      fun h1 hlt => issue_goto hi (effLoop_branches ha hd h1 hlt)⟩,
    fun w s r hi => issue_done hi rfl, fun w s r hi => issue_done hi rfl⟩
  have heff := effChk_of_lt hlt
  split
  · next hd => exact issue_goto hi (heff.trans (if_pos hd))
  · next hd => exact issue_done hi (heff.trans (if_neg hd))

/-! ## END -/

/-- A word whose effect says itself where everything stands. -/
theorem issueSerial_wait {opc : Nat} {r t : State} {eff : State → Res} (h : Issues opc w true s r) (he : eff r = .wait t) :
    issueSerial opc w eff s = .next t := by
  obtain ⟨q, hq⟩ := issueWord_of_issues h eff
  rw [issueSerial, hq, he]; rfl

theorem effEnd_completes (ho : r.me.oblUsed = []) (he : r.me.event = true → r.releaseReady .core = true) :
    effEnd w r = .wait ((r.turned 0x093 w.head).completeEnd r.cur) := by
  unfold effEnd
  rw [ho]
  exact if_neg (by simp [release_ok he])

theorem endCompletes : EndCompletes := fun _ _ _ hi ho he => issueSerial_wait hi (effEnd_completes ho he)

/-- Settles O4: a target is a register's value or counts from the word, and each transfer's effect is the one case that its conditions
lead to. -/
theorem controlTransfers : Obligations.ControlTransfers := ⟨transferTargets, transfersComplete, endCompletes⟩

end Sys2Proof.Machine
end

section
/-!
The step: what each party that the agenda names does when it moves (R57, R66, R76, R157).
-/

namespace Sys2Proof.Machine

variable {s x u : State} {want : Option Stream} {w : IWord}

/-! ## One turn of a slot -/

/-- The outcome of a slot's turn: the next state is again one in which no word is in execution. -/
def turnEnds (o : Host.Outcome State Fault Refusal) : Host.Outcome State Fault Refusal :=
  match o with
  | .next t => .next { t with iss := .front, later := false }
  | .fault f => .fault f
  | .refused r => .refused r

/-- A slot that exists and whose core is powered takes its turn. -/
theorem turn_eq {key : Nat} (hslot : slotExists key = true) (hpow : s.powered key = true) (iss : Iss)
    (go : State → Host.Outcome State Fault Refusal) : s.turn key iss go = turnEnds (go { s with cur := key, iss := iss }) := by
  simp only [State.turn, hslot, hpow, Bool.not_true, Bool.false_eq_true, if_false]
  cases go { s with cur := key, iss := iss } <;> rfl

theorem turn_noSuchSlot {key : Nat} (hslot : slotExists key = false) (iss : Iss) (go : State → Host.Outcome State Fault Refusal) :
    s.turn key iss go = .fault .noSuchSlot := by
  simp [State.turn, hslot]

/-! ## The word at the front end -/

section
variable (hst : x.me.st = .running) (hrpt : x.me.rpt = none)
include hst hrpt

theorem front_stall (hf : x.fetch x.me.pc = .stall u) : x.front want = .next u := by
  simp [State.front, hst, hrpt, hf]

theorem front_fault {f : FaultReq} (hf : x.fetch x.me.pc = .fault f u) :
    x.front want = .next (u.takeFaultAt u.cur { f with strm := 3 } x.me.pc) := by
  simp [State.front, hst, hrpt, hf]

theorem front_bytes {bs : List Byte} (hf : x.fetch x.me.pc = .bytes bs u) :
    x.front want = u.decoded want (BitVec.ofNat 96 (leNat bs)) := by
  simp [State.front, hst, hrpt, hf]

end

theorem decoded_unwanted (h : wantedBy want (streamField w) = false) : u.decoded want w = .next u := by
  simp [State.decoded, h]

theorem decoded_ok {i : Instr} (h : wantedBy want (streamField w) = true) (hrpt : u.me.rpt = none) (hi : decodeWord false w = .ok i) :
    u.decoded want w = exec i u := by
  simp [State.decoded, h, hrpt, hi]

theorem decoded_error {c : Nat × Nat} (h : wantedBy want (streamField w) = true) (hrpt : u.me.rpt = none)
    (hc : decodeWord false w = .error c) : u.decoded want w = .next (u.takeFaultAt u.cur (illegalWord w c) u.me.pc) := by
  simp [State.decoded, h, hrpt, hc]

/-- The front end of a running slot without a repetition runs the word that it fetches. -/
theorem frontRuns_front (x : State) (want : Option Stream) : FrontRuns x want (turnEnds (x.front want)) := by
  intro hst hrpt
  refine ⟨fun u hf => ?_, fun f u hf => ?_, fun bs u hf hu => ?_⟩
  · exact congrArg turnEnds (front_stall hst hrpt hf)
  · exact congrArg turnEnds (front_fault hst hrpt hf)
  · rw [front_bytes hst hrpt hf]
    refine ⟨fun hw => ?_, fun hw => ⟨fun i hi => ?_, fun c hc => ?_⟩⟩
    · exact congrArg turnEnds (decoded_unwanted hw)
    · exact congrArg turnEnds (decoded_ok hw hu hi)
    · exact congrArg turnEnds (decoded_error hw hu hc)

/-! ## A queued word, and a load that is bound -/

theorem nextOf_front {st : Stream} (h : st = .S ∨ ∀ p ∈ x.me.pend, p.strm ≠ st) : x.nextOf st = x.front (some st) := by
  refine if_neg ?_
  rcases h with rfl | h
  · simp
  · simpa using fun _ => h

/-- The oldest queued word of a stream runs, where no word before it is illegal. -/
theorem nextOf_queued {st : Stream} {p : Pending} {i : Instr} (hst : st ≠ .S) (hp : x.me.pend.find? (fun p => p.strm == st) = some p)
    (hi : decodeWord false p.word = .ok i)
    (hbefore : ∀ q ∈ x.me.pend.takeWhile (fun q => q.strm != st), encodingFault false q.word = none) :
    x.nextOf st = exec i { x with iss := .queued p } := by
  have hany : x.me.pend.any (fun p => p.strm == st) = true := by
    rw [← List.isSome_find?, hp]
    rfl
  have hlegal : (x.me.pend.takeWhile (fun q => q.strm != st)).any (fun q => (encodingFault false q.word).isSome) = false :=
    List.any_eq_false.2 fun q hq => by simp [hbefore q hq]
  simp [State.nextOf, hany, hst, State.queued, hp, hi, hlegal]

/-- A load that has issued has its effect, where its activation is not saved for it or nothing of it has issued since. -/
theorem bindLate_binds {seq opc : Nat} {w : Operands} {p : Pending} {i : Instr} {t : State}
    (hp : x.me.late.find? (fun p => p.seq == seq) = some p) (hw : p.fields = some (opc, w)) (hd : deferrable opc = true)
    (hi : decodeWord false p.word = .ok i) (ht : exec i { x with iss := .queued p } = .next t)
    (hend : (t.me.st = x.me.st ∧ t.me.save = x.me.save) ∨ x.me.lastIssued p = true) : x.bindLate seq = .next t := by
  have hbound : (x.me.lastIssued p || (t.me.st == x.me.st && t.me.save == x.me.save)) = true := by
    simpa [or_comm] using hend
  simp [State.bindLate, hp, hi, hw, hd, ht, hbound]

/-! ## The agenda -/

/-- With an empty agenda the slot in `cur` moves, unless a port holds its words back. -/
theorem step_idle (h : s.agenda = []) (hfree : s.portsFree s.cur = true) : step s = s.turn s.cur .front (fun s => s.front none) := by
  simp [step, State.move, h, hfree]

/-- While a port holds the words of the slot back, a cycle passes (R78, R446). -/
theorem step_heldBack (h : s.agenda = []) (hheld : s.portsFree s.cur = false) : step s = .next { s with cycle := s.cycle + 1 } := by
  simp [step, State.move, h, hheld, State.tick]

section
variable {k core j seq : Nat} {st : Stream} {nr : BitVec 8} {later : Bool} {r : List Sched} {e : Instr} {y : State}

theorem step_front (h : s.agenda = []) (hslot : slotExists s.cur = true) (hpow : s.powered s.cur = true)
    (hfree : s.portsFree s.cur = true) : step s = turnEnds ({ s with iss := .front }.front none) :=
  (step_idle h hfree).trans (turn_eq hslot hpow _ _)

theorem step_hold (h : s.agenda = .hold k :: r) (hslot : slotExists k = true) (hpow : s.powered k = true) :
    step s = turnEnds ({ s with agenda := r, cur := k, iss := .hold }.front none) := by
  rw [step, State.move, h]
  exact turn_eq (s := { s with agenda := r }) hslot hpow _ _

/-- The slot that a port has chosen takes its next word of the port's stream (R76). -/
theorem step_port (h : s.agenda = .port core st nr later :: r) (hcore : slotExists (8 * core) = true)
    (hnext : { s with agenda := r }.portNext core st nr = (y, some j)) (hslot : slotExists (8 * core + j) = true)
    (hpow : y.powered (8 * core + j) = true) :
    step s = turnEnds ({ y with cur := 8 * core + j, iss := .front, later := later }.nextOf st) := by
  have hmove : step s = { s with agenda := r }.portMove core st nr later := by
    rw [step, State.move, h]
    exact if_pos hcore
  rw [hmove, State.portMove, hnext]
  exact turn_eq hslot hpow _ _

theorem step_bind (h : s.agenda = .bind k seq :: r) (hslot : slotExists k = true) (hpow : s.powered k = true) :
    step s = turnEnds ({ s with agenda := r, cur := k, iss := .front }.bindLate seq) := by
  rw [step, State.move, h]
  exact turn_eq (s := { s with agenda := r }) hslot hpow _ _

/-- An event happens, if it can (R330, R339). -/
theorem step_event (h : s.agenda = .event e :: r) (he : toOpcode e = none) :
    step s = if s.canHappen e then exec e { s with agenda := r } else .next { s with agenda := r } := by
  rw [step, State.move, h]
  simp only [State.happen, he]
  rfl

end

/-- Settles O46: the first entry of the agenda says whose turn it is, and a turn ends with what the front end, the decode queue or the
load that is bound gives. -/
theorem stepRunsInstruction : Obligations.StepRunsInstruction := by
  refine ⟨fun s h hslot hpow hfree => ⟨?_, fun t hr ht => ?_⟩, fun s => step_heldBack, fun s k r h hslot hpow => ?_,
    fun s y core j st nr later r h hcore hnext hslot hpow => ⟨fun hS => ?_, fun p i hst hp hi hbefore => ?_⟩,
    fun s k seq opc w p i r h hslot hpow hp hw hd hi t ht hend => ?_,
    fun s e r h he => ⟨fun hc => (step_event h he).trans (if_pos hc), fun hc => (step_event h he).trans (if_neg (by simp [hc]))⟩,
    fun s a os r h => ?_, fun s m r h => ?_, fun s c n r h => ?_, fun s hslot h hfree => ?_⟩
  case refine_1 =>
    rw [step_front h hslot hpow hfree]
    exact frontRuns_front _ none
  case refine_2 =>
    rw [step_front h hslot hpow hfree]
    exact congrArg turnEnds ht
  case refine_3 =>
    rw [step_hold h hslot hpow]
    exact frontRuns_front _ none
  case refine_4 =>
    rw [step_port h hcore hnext hslot hpow, nextOf_front hS]
    exact frontRuns_front _ _
  case refine_5 =>
    rw [step_port h hcore hnext hslot hpow, nextOf_queued hst hp hi hbefore]
    rfl
  case refine_6 =>
    rw [step_bind h hslot hpow]
    exact congrArg turnEnds (bindLate_binds hp hw hd hi ht hend)
  · rw [step, State.move, h]
  · rw [step, State.move, h]
    simp
  · rw [step, State.move, h]
    rfl
  · rw [step_idle h hfree, turn_noSuchSlot hslot]

end Sys2Proof.Machine
end

section
/-!
The lane loop (R75, R423 to R427, R431) and the vector length (R94, R434): what a word of the loop ends in, and what VLGET grants.
-/

namespace Sys2Proof.Machine

variable {w : Operands} {s r : State}

/-! ## The lane loop -/

/-- The lane loop always completes, and leaves what `afterLanes` says. -/
theorem lanes_afterLanes (w : Operands) (deferred : Bool) (on : Nat → Bool) (f : Nat → Val) (r : State) :
    lanes w deferred on f r = .done (r.afterLanes w deferred on f) := by
  unfold lanes State.afterLanes
  split
  · rfl
  · rfl

/-- A word whose effect is the loop of R426 completes lane by lane. -/
theorem laneWord_of_exec {mk : Operands → Instr} {opc : Nat} {tied : Bool} {f : State → Operands → (d b c : Word) → Val}
    (h : ∀ w s, exec (mk w) s = issue opc w (laneOp w tied (f s w)) s) : LaneWord mk opc tied f :=
  fun w s _ hi => (h w s).trans (issue_done hi (lanes_afterLanes ..))

/-- A word whose effect is a function of the lanes of C completes lane by lane (R431). -/
theorem approxWord_of_exec {mk : Operands → Instr} {opc : Nat} {f : Bool → Lane → FRes}
    (h : ∀ w s, exec (mk w) s = issue opc w (laneFn w f) s) : ApproxWord mk opc f :=
  fun w s _ hi => (h w s).trans (issue_done hi (lanes_afterLanes ..))

theorem vectorLaneResults : VectorLaneResults := by
  refine ⟨?_, ?_, ?_, ?_, ?_, ?_, ?_, ?_, ?_, ?_, ?_, ?_, ?_, ?_, ?_⟩ <;> exact laneWord_of_exec fun _ _ => rfl

theorem vectorApproximations : VectorApproximations := by
  refine ⟨?_, ?_, ?_, ?_⟩ <;> exact approxWord_of_exec fun _ _ => rfl

/-- Settles O6: each of these words issues with the lane loop as its effect, and the loop completes. -/
theorem vectorLanes : Obligations.VectorLanes := ⟨vectorLaneResults, vectorApproximations⟩

/-! ## The vector length -/

/-- VLMAX is a constant (R94). -/
theorem ctlRead_vlmax (s : State) : s.ctlRead 0x09 = 0x2010 := rfl

/-- The length that VLGET grants: the smaller of the request and LANES (R434). -/
def State.grantedVl (r : State) (w : Operands) : Nat := min (r.val w.c).toNat 16

theorem State.grantedVl_le (r : State) (w : Operands) : r.grantedVl w ≤ 16 := Nat.min_le_right _ _

/-- The slot after a VLGET whose request is there. -/
def State.vlGranted (r : State) (w : Operands) (a : Act) : Act :=
  if w.head.stream == .V then
    { (a.sSet (opndNum w.a) (BitVec.ofNat 64 (r.grantedVl w))) with
      vl := if a.vlGen = r.vlGen then r.grantedVl w else a.vl
      pend := a.pend.map (fun p => if p.strm == .V && p.vlGen == r.vlGen then { p with vl := r.grantedVl w } else p) }
  else { (a.sSet (opndNum w.a) (BitVec.ofNat 64 (r.grantedVl w))) with vl := r.grantedVl w, vlGen := a.vlGen + 1 }

theorem effVlget_grants (h : r.dfr w.c = false) : effVlget w r = .done (r.modMe (r.vlGranted w)) := by
  unfold effVlget
  rw [if_neg (by simp [h])]
  rfl

theorem vlGranted_vl (r : State) (w : Operands) {a : Act} (h : a.vlGen = r.vlGen) : (r.vlGranted w a).vl = r.grantedVl w := by
  unfold State.vlGranted
  split
  · rfl
  · rfl

theorem vlGranted_sGet (r : State) (w : Operands) (a : Act) (n : Nat) :
    (r.vlGranted w a).sGet n = (a.sSet (opndNum w.a) (BitVec.ofNat 64 (r.grantedVl w))).sGet n := by
  unfold State.vlGranted
  split
  · rfl
  · rfl

/-- An s register that a VLGET has written holds no more than LANES. -/
theorem vlGranted_sGet_le (r : State) {rot : Bool} {n : BitVec 6} (ha : w.a = .reg .s rot n) (a : Act) :
    ((r.vlGranted w a).sGet n.toNat).toNat ≤ 16 := by
  rw [vlGranted_sGet, ha, show opndNum (.reg .s rot n) = n.toNat from rfl]
  by_cases hn : n.toNat = 0
  · simp [hn]
  · have hle := r.grantedVl_le w
    rw [Act.sGet_sSet a hn, BitVec.toNat_ofNat, Nat.mod_eq_of_lt (by omega)]
    exact hle

theorem Advanced.vl {a b : Act} (h : Advanced a b) : b.vl = a.vl := by
  unfold Advanced at h
  rw [h]

/-- The issue of a word leaves its slot advanced and no more. -/
theorem advanced_issued (t : State) (opc : Nat) (w : Operands) : Advanced t.me ((t.issued opc w).act t.cur) :=
  ((GoesOn.refl t).issued opc w).mine

/-- Settles O50: VLMAX is a constant that nothing writes, and VLGET grants the smaller of the request and 16. -/
theorem vectorLengthLimit : Obligations.VectorLengthLimit := by
  refine ⟨fun s => ctlRead_vlmax s ▸ by decide, fun s v => rfl, fun w s r hi hd =>
    ⟨_, issue_done hi (effVlget_grants hd), fun hgen => ?_, fun rot n ha => ?_⟩⟩
  all_goals
    have h : Advanced (r.vlGranted w r.me) (((r.modMe (r.vlGranted w)).issued 0x10A w).act r.cur) :=
      State.me_modMe r (r.vlGranted w) ▸ advanced_issued (r.modMe (r.vlGranted w)) 0x10A w
    rw [ctlRead_vlmax, show (bits (0x2010 : Word) 0 8).toNat = 16 by decide]
  · rw [h.vl, vlGranted_vl r w hgen]
    exact ⟨rfl, r.grantedVl_le w⟩
  · rw [h.sGet]
    exact vlGranted_sGet_le r ha _

end Sys2Proof.Machine
end

section
/-!
Push addresses (R85): of the accesses that meet one, a 64-bit LDG reads the units owed and a 64-bit STG pushes a token; every other
one faults with ATOMIC_PATH.
-/

namespace Sys2Proof.Machine

variable {w : Operands} {r : State} {e va n : Nat}

/-! ## Scalar accesses -/

/-- An LDG that passes its own checks, at a push address. -/
theorem effLoad_push (hd : r.deferredIn 0x180 w [1, 2] = none) (hspec : isSpec w = true → r.poisonHit 0x180 w = none)
    (hrange : rangeFault 4 (r.eaOf 0x180 w) = none) (halign : aligned 4 (r.eaOf 0x180 w) w.ty.bytes = none)
    (hpush : r.myPart.pushEdge (r.eaOf 0x180 w).toNat = some e) :
    effLoad 0x180 4 w r =
      if w.ty.bytes ≠ 8 then .fault { code := 0x0E, space := 4, addr := r.eaOf 0x180 w } r
      else if r.releaseHeld w then .stall r
      else .done (r.wroteS (opndNum w.a) (BitVec.ofNat 64 (r.emitOwed e))) := by
  have hclean : (isSpec w && (r.poisonHit 0x180 w).isSome) = false := by
    cases hs : isSpec w with
    | false => rfl
    | true => simp [hspec hs]
  unfold effLoad
  simp only [hd, hclean, hrange, halign, hpush, orFault, Bool.false_eq_true, if_false, if_true, bne_iff_ne]
  rfl

/-- An STG that passes its own checks, at a push address. -/
theorem effStore_push (hd : r.deferredIn 0x184 w [0, 1, 2] = none) (hrange : rangeFault 4 (r.eaOf 0x184 w) = none)
    (halign : aligned 4 (r.eaOf 0x184 w) w.ty.bytes = none) (hpush : r.myPart.pushEdge (r.eaOf 0x184 w).toNat = some e) :
    effStore 0x184 4 w r =
      if w.ty.bytes ≠ 8 then .fault { code := 0x0E, space := 4, addr := r.eaOf 0x184 w } r
      else if r.emitOwed e = 0 then
        .fault { code := 0x1B, space := 4, addr := r.eaOf 0x184 w, info := BitVec.ofNat 64 ((r.portOf e).getD 0) } r
      else if !r.releaseReady w.scope then .stall r
      else .done (r.pushToken e (r.storeVal w)) := by
  unfold effStore
  simp only [hd, hrange, halign, hpush, orFault, if_true, bne_iff_ne]
  rfl

/-! ## Every other access -/

/-- An access to GLB that meets a push address faults, whatever it does there. -/
theorem access_pushMeets (h : r.myPart.pushMeets va n = true) (u : Use) (extra : Nat → Page → Option FaultReq) :
    r.access 4 u va n extra = .fault { code := 0x0E, space := 4, addr := BitVec.ofNat 64 va } r := by
  simp [State.access, h]

theorem effAtomic_push {opc : Nat} (hd : r.deferredIn opc w [1, 0, 2] = none) (hrange : rangeFault 4 (r.val w.b) = none)
    (halign : aligned 4 (r.val w.b) w.ty.bytes = none) (hmeet : r.myPart.pushMeets (r.val w.b).toNat w.ty.bytes = true)
    (op : Option Nat) (v expect : Word) :
    effAtomic opc 4 w op v expect r = .fault { code := 0x0E, space := 4, addr := r.val w.b } r := by
  unfold effAtomic
  simp only [hd, hrange, halign, orFault, access_pushMeets hmeet, BitVec.ofNat_toNat, BitVec.setWidth_eq]

theorem effRed_push (hd : r.deferredIn 0x204 w [0, 1, 2] = none) (hrange : rangeFault 4 (r.eaOf 0x204 w) = none)
    (halign : aligned 4 (r.eaOf 0x204 w) w.ty.bytes = none)
    (hmeet : r.myPart.pushMeets (r.eaOf 0x204 w).toNat w.ty.bytes = true) :
    effRed 0x204 4 w r = .fault { code := 0x0E, space := 4, addr := r.eaOf 0x204 w } r := by
  unfold effRed
  simp only [hd, hrange, halign, orFault, access_pushMeets hmeet, BitVec.ofNat_toNat, BitVec.setWidth_eq]

/-- The first lane of a vector access that meets a push address stops it, with no lane performed. -/
theorem checkLanes_push {m : VMem} {x : LaneAcc} {l : List LaneAcc} (hsp : m.sp = 4)
    (hmeet : r.myPart.pushMeets x.addr.toNat x.n = true) (fmt span : Option PageFmt) :
    r.checkLanes m w fmt span (x :: l) = (r, [], .fault { code := 0x0E, space := 4, addr := x.addr, lane := x.lane }) := by
  unfold State.checkLanes
  simp only [hsp, access_pushMeets hmeet, BitVec.ofNat_toNat, BitVec.setWidth_eq]

/-- What can only stop a `.spec` load stops no access where it stops no such load. -/
theorem spec_and_eq_false {spec store b : Bool} (h : spec = true → store = false → b = false) : (spec && !store && b) = false := by
  cases spec with
  | false => rfl
  | true =>
    cases store with
    | false => exact h rfl rfl
    | true => rfl

/-- A vector access whose earlier checks pass faults at its first active lane, where that meets a push address. -/
theorem effVec_push {m : VMem} {x : LaneAcc} {l : List LaneAcc} {a : Word} {fmt : Option PageFmt} {ix : Vec} (hsp : m.sp = 4)
    (ha : (if m.idx then r.val (baseOf m.opc w) else r.eaOf m.opc w) = a)
    (hfmt : (if 2 ^ 56 ≤ a.toNat then none else r.codeFmt m w a) = fmt) (hix : r.me.progIdx.getD (r.vecOf w.c) = ix)
    (hd : r.vecDeferred m w = none) (haccs : r.laneAccs m w a fmt ix r.me.prog = x :: l)
    (hearly : (x :: l).findSome? (laneFault m) = none) (halign : m.idx = true ∨ r.vecAligned m w a fmt = true)
    (hspec : isSpec w = true → m.store = false →
      r.poisonHit m.opc w = none ∧ ∀ y ∈ x :: l, r.specPath y.addr.toNat y.n = false)
    (hmeet : r.myPart.pushMeets x.addr.toNat x.n = true) :
    effVec m w r = .fault { code := 0x0E, space := 4, addr := x.addr, lane := x.lane }
      (r.modMe (fun b => { b with prog := x.lane, progIdx := if m.idx then some ix else none })) := by
  have hclean : (isSpec w && !m.store && (r.poisonHit m.opc w).isSome) = false :=
    spec_and_eq_false fun hs hl => by rw [(hspec hs hl).1, Option.isSome_none]
  have hpath : (isSpec w && !m.store && (x :: l).any (fun y => r.specPath y.addr.toNat y.n)) = false :=
    spec_and_eq_false fun hs hl => List.any_eq_false.2 fun y hy => by simp [(hspec hs hl).2 y hy]
  have hplaced : (!m.idx && !r.vecAligned m w a fmt) = false := by
    rcases halign with h | h
    · simp [h]
    · simp [h]
  have hcode : specFault 0x0E = false := by decide
  unfold effVec
  simp only [hd, hclean, ha, hfmt, hix, haccs, hearly, hplaced, hpath, orFault, checkLanes_push hsp hmeet, List.isEmpty_cons,
    Bool.not_false, Bool.and_true, Bool.false_eq_true, if_false, Option.isNone_none, hsp, decide_true]
  simp [hcode]

/-- Settles O10: a word whose own checks pass meets the push address next, and each kind of access answers there in one way. -/
theorem pushAddresses : Obligations.PushAddresses := by
  refine ⟨fun w s r e hi hd hspec hrange halign hpush => ?_, fun w s r e hi hd hrange halign hpush => ?_, ?_,
    fun w s r hi hd hrange halign hmeet => issue_fault hi (effRed_push hd hrange halign hmeet), ?_⟩
  · have heff := effLoad_push hd hspec hrange halign hpush
    refine ⟨fun h8 hrel => issue_done hi ?_, fun h8 => issue_fault hi (heff.trans (if_pos h8))⟩
    rw [heff, if_neg (by simpa using h8), if_neg (by simp [releaseHeld_of_ready hrel])]
  · have heff := effStore_push hd hrange halign hpush
    refine ⟨fun h8 howed hrel => issue_done hi ?_, fun h8 howed => issue_fault hi ?_,
      fun h8 => issue_fault hi (heff.trans (if_pos h8))⟩
    · rw [heff, if_neg (by simpa using h8), if_neg howed, if_neg (by simp [hrel])]
    · rw [heff, if_neg (by simpa using h8), if_pos howed]
  · intro opc mk hk w s r hi hd hrange halign hmeet
    rcases hk with ⟨rfl, rfl⟩ | ⟨rfl, rfl⟩
    · exact issue_fault hi (effAtomic_push hd hrange halign hmeet _ _ _)
    · exact issue_fault hi (effAtomic_push hd hrange halign hmeet _ _ _)
  · intro m mk hk w s r x l a fmt ix hi hd haccs hearly halign hspec hmeet
    have heff (hsp : m.sp = 4) := effVec_push hsp rfl rfl rfl hd haccs hearly halign hspec hmeet
    rcases hk with ⟨rfl, rfl⟩ | ⟨rfl, rfl⟩ | ⟨rfl, rfl⟩ | ⟨rfl, rfl⟩
    all_goals exact issue_fault hi (heff rfl)

end Sys2Proof.Machine
end

section
/-!
Barrier words (R88, R89, R144, R303, R350, R351, R373): what BARA, BARW and GRPQRY end in, by phase, membership, poison and rank.
-/

namespace Sys2Proof.Machine

variable {w : Operands} {r : State}

/-- The slot's core has arrived in the current phase of group g, which it has not before (R88). -/
def State.arrived (r : State) (g : Nat) : State :=
  let c := r.modCore r.myCore (fun y => { y with arrived := tset 0 g ((r.group g).phase + 1) y.arrived })
  c.modPart c.me.part (fun p => { p with groups := tset {} g { r.group g with here := (r.group g).here ++ [r.myCore] } p.groups })

/-- The phase that a BARW of group g waits for: the one in which its core arrived last, or the current one (R144). -/
def State.awaitedPhase (r : State) (g : Nat) : Nat :=
  if tget 0 g (r.core r.myCore).arrived = 0 then (r.group g).phase else tget 0 g (r.core r.myCore).arrived - 1

/-- Whether a BARW of group g keeps the rank order: a member that has arrived owes the group its phase (R144). -/
def State.barwLegal (r : State) (g : Nat) : Bool :=
  r.rankLegal r.myCore r.me (if tget 0 g (r.core r.myCore).arrived = 0 then none else some g) (r.group g).rank

/-- BARA of a group that its slot can name. -/
theorem effBara_eq (hd : r.deferredIn 0x218 w [2] = none) : effBara w r =
    if r.inGroup (r.groupNum w) = false then .fault (barrierPhase (r.groupNum w) 0xFFFFFFFFFFFFFFFF) r
    else if tget 0 (r.groupNum w) (r.core r.myCore).arrived = (r.group (r.groupNum w)).phase + 1 then
      .fault (barrierPhase (r.groupNum w) (BitVec.ofNat 64 (r.group (r.groupNum w)).phase)) r
    else if r.releaseReady w.scope = false then .stall r
    else .done (r.arrived (r.groupNum w)) := by
  unfold effBara
  simp only [hd, Bool.not_eq_true', beq_iff_eq]
  rfl

/-- BARW outside local time, of a group that its slot can name. -/
theorem effBarw_eq (hlt : r.myPart.lt = false) (hd : r.deferredIn 0x219 w [2] = none) : effBarw w r =
    if r.inGroup (r.groupNum w) = false then .fault (barrierPhase (r.groupNum w) 0xFFFFFFFFFFFFFFFF) r
    else if r.barwLegal (r.groupNum w) = false then
      .fault (r.rankOrder (BitVec.ofNat 64 (r.groupNum w)) (r.group (r.groupNum w)).rank) r
    else if r.awaitedPhase (r.groupNum w) ∈ (r.group (r.groupNum w)).poisoned then
      .fault (sigPoisoned (BitVec.ofNat 64 (r.groupNum w))) r
    else if r.awaitedPhase (r.groupNum w) < (r.group (r.groupNum w)).phase then .done r
    else .halt (r.enterWait (.group r.me.part (r.groupNum w) (r.awaitedPhase (r.groupNum w))) (r.group (r.groupNum w)).rank) := by
  unfold effBarw
  simp only [hlt, hd, Bool.false_eq_true, if_false, Bool.not_eq_true', List.contains_iff_mem]
  rfl

theorem effBarw_localTime (hlt : r.myPart.lt = true) : effBarw w r = .fault r.timeWaitHeld r := if_pos hlt

theorem effGrpqry_eq (hd : r.deferredIn 0x21A w [2] = none) : effGrpqry w r =
    .done (r.wroteS (opndNum w.a) ((r.group ((r.val w.c).toNat % 256)).item r.myCore
      (tget 0 ((r.val w.c).toNat % 256) (r.core r.myCore).arrived) ((r.val w.c).toNat / 256 % 4))) := by
  unfold effGrpqry
  rw [hd]
  rfl

/-- Settles O18: each word ends in the one case of its effect that its conditions lead to. -/
theorem barrierWordsComplete : Obligations.BarrierWordsComplete := by
  refine ⟨fun w s r hi hd hin => issue_fault hi ?_, fun w s r hi hd hin => ⟨fun hfirst hrel => issue_done hi ?_, fun hagain =>
      issue_fault hi ?_⟩, fun w s r hi => ⟨fun hlt => issueSerial_fault hi (effBarw_localTime hlt), fun hlt hd hin =>
      issueSerial_fault hi ?_⟩, fun w s r hi hlt hd hin => ?_, fun w s r hi hd => issue_done hi (effGrpqry_eq hd)⟩
  · rw [effBara_eq hd, if_pos hin]
  · rw [effBara_eq hd, if_neg (by simp [hin]), if_neg hfirst, if_neg (by simp [hrel])]
    rfl
  · rw [effBara_eq hd, if_neg (by simp [hin]), if_pos hagain]
  · rw [effBarw_eq hlt hd, if_pos hin]
  · have heff := (effBarw_eq hlt hd).trans (if_neg (by simp [hin]))
    have hlegal (hrank : r.barwLegal (r.groupNum w) = true) := heff.trans (if_neg (by simp [hrank]))
    refine ⟨fun hrank => issueSerial_fault hi (heff.trans (if_pos hrank)), fun hrank hpois =>
      issueSerial_fault hi ((hlegal hrank).trans (if_pos hpois)), fun hrank hclean => ?_⟩
    have hopen := (hlegal hrank).trans (if_neg hclean)
    by_cases hpast : r.awaitedPhase (r.groupNum w) < (r.group (r.groupNum w)).phase
    · exact (issueSerial_done hi (hopen.trans (if_pos hpast))).trans (congrArg _ (if_pos hpast).symm)
    · exact (issueSerial_halt hi (hopen.trans (if_neg hpast))).trans (congrArg _ (if_neg hpast).symm)

end Sys2Proof.Machine
end

section
/-!
Events of slots and of blocked streams (R63, R72, R77): what each does once its conditions are met.
-/

namespace Sys2Proof.Machine

variable {s : State} {core slot : Nat}

/-- A slot whose front end is stuck, and each of whose queues is, takes STREAM_DEADLOCK at its oldest word. -/
theorem streamDeadlockTaken : StreamDeadlockTaken := by
  intro s core slot qs
  dsimp only
  intro hst hasked hlate hfront hheads hany
  have hstuck : (s.act (8 * core + slot)).streamHeads.any (fun p => ((s.act (8 * core + slot)).stuckAt p).isEmpty) = false :=
    List.any_eq_false.2 fun p hp => by simpa using hheads p hp
  have hsome : (qs.isEmpty && (s.act (8 * core + slot)).streamHeads.isEmpty) = false := by
    rcases hany with h | h
    · simp [h]
    · simp [h]
  refine ⟨fun hp => ?_, fun p r hp => ?_⟩
  all_goals
    change execStreamDeadlock core slot s = _
    unfold execStreamDeadlock
    simp only [hst, hasked, hlate, hfront, hstuck, hsome, hp, beq_self_eq_true, Option.isNone_none, List.isEmpty_nil, Bool.and_self,
      Bool.or_self, Bool.false_eq_true, if_false, if_true]

/-- An update of a slot is one by any function that gives the same there. -/
theorem State.modAct_congr (s : State) {k : Nat} {f g : Act → Act} (h : f (s.act k) = g (s.act k)) : s.modAct k f = s.modAct k g :=
  congrArg (s.setAct k) h

theorem slotEvents : SlotEvents := by
  refine ⟨fun s core slot hst => ?_, fun s core slot c port hcls hready hlong hnew => ?_⟩
  · refine congrArg _ (s.modAct_congr ?_)
    exact if_pos (beq_iff_eq.2 hst)
  · have hstarved : 256 ≤ s.cycle - c := by omega
    refine congrArg _ (s.modAct_congr ?_)
    simp [hcls, hready, hstarved, hnew]

/-- Settles O27: each event is the one case of its definition that its conditions lead to. -/
theorem slotAndStreamEvents : Obligations.SlotAndStreamEvents := ⟨streamDeadlockTaken, slotEvents⟩

end Sys2Proof.Machine
end

section
/-!
The dispatcher (R79, R80, R99, R139, R148, R209, R272, R273, R322): what DISPATCH does with the message that it takes, and what becomes
of messages that wait or are dead.
-/

namespace Sys2Proof.Machine

variable {s u : State} {core : Nat} {at_ : At} {m : Msg}

/-! ## One message -/

theorem any_free_eq_false {ks : List Nat} (h : ∀ k ∈ ks, (u.act k).st ≠ .free) : ks.any (fun k => (u.act k).st == .free) = false :=
  List.any_eq_false.2 fun k hk => by simpa using h k hk

theorem any_free_eq_true {ks : List Nat} (h : ∃ k ∈ ks, (u.act k).st = .free) : ks.any (fun k => (u.act k).st == .free) = true := by
  simpa using h

/-- A message at its dispatch goes where `Dispatched` says. -/
theorem dispatched_dispatchMsg (u : State) (core : Nat) (at_ : At) (m : Msg) (event : Bool) :
    Dispatched core at_ m event u (u.dispatchMsg core at_ m event) := by
  refine ⟨fun e k he hk => ?_, fun e he hk => ⟨fun hfull => ?_, fun hfree => ?_⟩, fun he => ?_⟩
  · simp only [State.dispatchMsg, he, hk]
  · simp only [State.dispatchMsg, he, hk, any_free_eq_false hfull, Bool.false_eq_true, if_false]
  · simp only [State.dispatchMsg, he, hk, any_free_eq_true hfree, if_true]
  · simp only [State.dispatchMsg, he]

/-! ## DISPATCH -/

/-- DISPATCH on a core that may start activations, of a system message (R79). -/
theorem execDispatch_system (hleft : (s.core core).left = false) (hmay : s.mayStart core = true)
    (hnext : (s.readLog core).systemNext core = some (at_, m)) : execDispatch core s =
      if (((s.readLog core).entryFor m).isNone || ((s.readLog core).slotFor core .system m.logKey).isSome) = true then
        .next ((s.readLog core).dispatchMsg core at_ m false)
      else .next (((s.readLog core).dispatchMsg core at_ m false).dispatchHandler core) := by
  unfold execDispatch
  simp only [hleft, hmay, hnext, Bool.not_true, Bool.false_eq_true, if_false]
  exact apply_ite Host.Outcome.next _ _ _

/-- Where no system message waits, the handler class moves (R80). -/
theorem execDispatch_handler (hleft : (s.core core).left = false) (hmay : s.mayStart core = true)
    (hnext : (s.readLog core).systemNext core = none) : execDispatch core s = .next ((s.readLog core).dispatchHandler core) := by
  unfold execDispatch
  simp only [hleft, hmay, hnext, Bool.not_true, Bool.false_eq_true, if_false]

theorem dispatchHandler_idle (h : u.restoreFirst core = true ∨ u.candidate core = none) : u.dispatchHandler core = u := by
  unfold State.dispatchHandler
  rcases h with h | h
  · exact if_pos h
  · simp [h]

/-- Whether a candidate moves as an event: only one of the bind-wait area of a local-time core does (R272, R293). -/
def State.asEvent (u : State) (core : Nat) (at_ : At) (m : Msg) : Bool :=
  match at_ with
  | .bind _ => u.ltCore core && m.isEvent
  | .buf _ => false

/-- The first candidate of the handler class: a spawn request waits for SPAWN_REQUEST, any other message is dispatched. -/
theorem dispatchHandler_candidate (hrest : u.restoreFirst core = false) (hcand : u.candidate core = some (at_, m)) :
    u.dispatchHandler core = if m.isSpawn = true then u
      else u.dispatchMsg core at_ m (u.asEvent core at_ m) := by
  have hspawn : m.isSpawn = (m.kind matches .spawnReq _ _ _ _) := by
    unfold Msg.isSpawn
    cases m.kind <;> rfl
  unfold State.dispatchHandler
  simp only [hrest, hcand, hspawn, Bool.false_eq_true, if_false]
  rfl

theorem dispatchCompletes : DispatchCompletes := by
  refine ⟨?_, ?_, fun s core hleft => ?_⟩
  · rintro s _ core at_ m hleft hmay rfl hnext -
    have hx := execDispatch_system hleft hmay hnext
    refine ⟨fun hgoes => ⟨_, hx.trans (if_pos ?_), dispatched_dispatchMsg ..⟩,
      fun hbound hfull => ⟨_, hx.trans (if_neg ?_), dispatched_dispatchMsg ..⟩⟩
    · rcases hgoes with h | h
      · simp [h]
      · simp [Option.isSome_iff_ne_none.2 h]
    · simp [Option.isNone_iff_eq_none, hbound, hfull]
  · rintro s _ core hleft hmay rfl hnext
    have hx := execDispatch_handler hleft hmay hnext
    refine ⟨fun hidle => hx.trans (congrArg _ (dispatchHandler_idle hidle)), fun at_ m hrest hcand => ?_⟩
    have hgo := dispatchHandler_candidate hrest hcand
    exact ⟨fun hm => hx.trans (congrArg _ (hgo.trans (if_pos hm))),
      fun hm => ⟨_, hx.trans (congrArg _ (hgo.trans (if_neg (by simp [hm])))), dispatched_dispatchMsg ..⟩⟩
  · have hx : exec (.dispatch core) s = .next (s.emptyLeft core) := if_pos hleft
    refine ⟨fun m r hq => ?_, fun b r hq hb => ?_⟩
    · rw [hx, State.emptyLeft, hq]
    · rw [hx, State.emptyLeft, hq, hb]

/-! ## Messages that wait, and dead ones -/

theorem waitingMessages : WaitingMessages := by
  refine ⟨fun s core i b hcov hmode hfind => ?_, fun s core code detail i m r hwait hfree => ?_,
    fun s part i m hrec => ⟨?_, ?_⟩, ?_⟩
  · change execBindwaitExpiry core s = _
    have hcount : ((s.core core).covered || (s.core core).rmode == .replay) = false := by simp [hcov, hmode]
    unfold execBindwaitExpiry
    simp only [hcount, Bool.false_eq_true, if_false, hfind]
  · change execDeadQueueRetry core s = _
    simp only [execDeadQueueRetry, hwait, hfree]
  · change execDeadMessageRedispatch part i false s = _
    simp only [execDeadMessageRedispatch, hrec]
    rfl
  · change execDeadMessageRedispatch part i true s = _
    simp only [execDeadMessageRedispatch, hrec]
    rfl
  · rintro s _ core i w0 w1 rfl hmode hlog hlate hcov hnone hsome
    change execReplayTimeout core s = _
    have hthere : ((s.readLog core).waitingKeys core).any (fun x => ((s.readLog core).logged core x).isSome) = false :=
      List.any_eq_false.2 fun x hx => by simp [hnone x hx]
    unfold execReplayTimeout
    simp only [hmode, hlog, hthere, hcov]
    have hlong : 2 ^ 24 ≤ (s.readLog core).cycle - ((s.readLog core).core core).lastDisp := by omega
    exact if_neg (by simpa [hsome] using hlong)

/-- Settles O28: DISPATCH takes a system message, else the first candidate, and what it takes goes where `dispatchMsg` says. -/
theorem dispatchEvents : Obligations.DispatchEvents := ⟨dispatchCompletes, waitingMessages⟩

end Sys2Proof.Machine
end

section
/-!
Spawn requests and time-ordered messages (R80, R81, R99, R148, R292, R293, R309, R321, R322, R410): which request SPAWN_REQUEST
takes and what it answers, and what goes first on a local-time core.
-/

namespace Sys2Proof.Machine

variable {s u : State} {core i k caller id : Nat} {m : Msg} {inh : Option Rank} {cls : Cls}

/-! ## SPAWN_REQUEST -/

/-- The first entry of a list that a test accepts is found with its place. -/
theorem find?_zipIdx_first {α : Type} {l : List α} {p : α → Bool} {i : Nat} {x : α} (hx : l[i]? = some x) (hp : p x = true)
    (hbefore : ∀ y ∈ l.take i, p y = false) : l.zipIdx.find? (fun y => p y.1) = some (x, i) := by
  obtain ⟨hi, rfl⟩ := List.getElem?_eq_some_iff.1 hx
  refine List.find?_eq_some_iff_getElem.2 ⟨hp, i, by simpa using hi, by simp, fun j hj => ?_⟩
  have hmem : l[j] ∈ l.take i := List.mem_take_iff_getElem.2 ⟨j, by omega, rfl⟩
  simp [hbefore _ hmem]

theorem isSpawn_of_kind (h : m.kind = .spawnReq caller inh cls id) : m.isSpawn = true := by rw [Msg.isSpawn, h]

/-- A core that may start activations has not left, and does not depart. -/
theorem stays_of_mayStart (h : u.mayStart core = true) : (u.core core).left = false ∧ (u.core core).departing = none := by
  unfold State.mayStart at h
  dsimp only at h
  split at h
  · cases h
  · simp only [Bool.and_eq_true, Bool.not_eq_true', Option.isNone_iff_eq_none] at h
    tauto

theorem slotFor_free (h : (u.core core).rmode ≠ .replay) (key : LogKey) : u.slotFor core cls key = u.freeSlotFor core cls :=
  if_neg (by simpa using h)

/-- SPAWN_REQUEST outside replay: the first request of the buffer is taken (R81, R99). -/
theorem spawnRequest_normal (hu : u = s.readLog core) (hmode : (u.core core).rmode ≠ .replay)
    (hkind : m.kind = .spawnReq caller inh cls id) (hi : (u.core core).inQ[i]? = some m)
    (hbefore : ∀ x ∈ (u.core core).inQ.take i, x.isSpawn = false) :
    (((u.core core).left = true ∨ ((u.core core).departing = none ∧ u.freeSlotFor core cls = none)) →
      exec (.spawnRequest core) s = .next (u.refuseSpawn core i m)) ∧
    ((u.core core).left = false → (u.core core).departing ≠ none → exec (.spawnRequest core) s = .next u) ∧
    (∀ k, u.mayStart core = true → u.freeSlotFor core cls = some k → (∀ x, u.candidate core = some x → x.2 = m) →
      u.restoreFirst core = false → exec (.spawnRequest core) s = .next (u.acceptSpawn core i k m inh cls)) := by
  have hnormal : ((u.core core).rmode == .replay) = false := by simpa using hmode
  have hfind := find?_zipIdx_first (p := Msg.isSpawn) hi (isSpawn_of_kind hkind) hbefore
  refine ⟨fun h => ?_, fun hleft hdep => ?_, fun k hmay hslot hfirst hrest => ?_⟩
  all_goals
    change execSpawnRequest core s = _
    unfold execSpawnRequest
    simp only [← hu, hnormal, Bool.not_false, Bool.true_or, Bool.and_true, hfind, hkind, slotFor_free hmode, Bool.false_and,
      Bool.or_false, Bool.false_eq_true, if_false]
  · rcases h with hleft | ⟨hdep, hslot⟩
    · exact if_pos hleft
    · simp [hdep, hslot]
  · simp [hleft, Option.isSome_iff_ne_none.2 hdep]
  · obtain ⟨hleft, hdep⟩ := stays_of_mayStart hmay
    cases hc : u.candidate core with
    | none => simp [hleft, hdep, hslot, hmay, hrest]
    | some x => simp [hleft, hdep, hslot, hmay, hrest, hfirst x hc]

/-- SPAWN_REQUEST in replay: the first request that the log names is taken, and answered as the log has it (R322). -/
theorem spawnRequest_replay (hu : u = s.readLog core) (hmode : (u.core core).rmode = .replay)
    (hkind : m.kind = .spawnReq caller inh cls id) (hi : (u.core core).inQ[i]? = some m)
    (hlog : (u.logged core m.logKey).isSome = true)
    (hbefore : ∀ x ∈ (u.core core).inQ.take i, x.isSpawn = true → u.logged core x.logKey = none) :
    (u.replayAllows core m.logKey 2 = true → exec (.spawnRequest core) s = .next (u.refuseSpawn core i m)) ∧
    (∀ k, u.replayAllows core m.logKey 2 = false → (u.core core).left = false → (u.core core).departing = none →
      u.slotFor core cls m.logKey = some k → u.mayStart core = true → u.restoreFirst core = false →
      exec (.spawnRequest core) s = .next (u.acceptSpawn core i k m inh cls)) := by
  have hfind := find?_zipIdx_first (p := fun x => x.isSpawn && (u.logged core x.logKey).isSome) hi
    (by simp [isSpawn_of_kind hkind, hlog]) fun x hx => by simpa using hbefore x hx
  refine ⟨fun hrefuse => ?_, fun k haccept hleft hdep hslot hmay hrest => ?_⟩
  all_goals
    change execSpawnRequest core s = _
    unfold execSpawnRequest
    simp only [← hu, hmode, beq_self_eq_true, Bool.not_true, Bool.false_or, hfind, hkind]
  · simp [hrefuse]
  · simp [haccept, hleft, hdep, hslot, hmay, hrest]

theorem spawnRequestCompletes : SpawnRequestCompletes :=
  ⟨fun _ _ _ _ _ _ _ _ _ => spawnRequest_normal, fun _ _ _ _ _ _ _ _ _ => spawnRequest_replay⟩

/-! ## EVENT_DISPATCH -/

/-- The lowest LTWAIT whose condition holds goes first, where the head is not due or is not lower (R293). -/
theorem firstTimer_first {t : Nat} {framed : Bool} (hidle : u.eventRuns core = false) (ht : u.eventTimer core = some (t, k, framed))
    (hhead : u.headDue core = false ∨ t ≤ u.headStamp core) : u.firstTimer core = some (t, k, framed) := by
  unfold State.firstTimer
  rw [hidle, ht]
  simpa using hhead

/-- No LTWAIT goes before a head that is due and is lower (R293). -/
theorem firstTimer_head (hidle : u.eventRuns core = false) (hdue : u.headDue core = true)
    (hlow : ∀ x, u.eventTimer core = some x → u.headStamp core < x.1) : u.firstTimer core = none := by
  unfold State.firstTimer
  rw [hidle]
  simpa [hdue] using hlow

/-- A head for which a slot is free is dispatched, and LVT rises to its stamp (R292). -/
theorem dispatchHead_slot {key : Nat} (hhead : u.head core = some (m, i)) (hslot : u.slotFor core .handler m.logKey = some key) :
    u.dispatchHead core = (u.dispatchMsg core (.buf i) m true).raiseLvt core m.stamp.toNat := by
  simp [State.dispatchHead, hhead, hslot]

/-- With no slot free for it, a waiting activation is saved for it (R148). -/
theorem dispatchHead_full (hhead : u.head core = some (m, i)) (hslot : u.slotFor core .handler m.logKey = none)
    (hfull : ∀ k ∈ classSlots core .handler, (u.act k).st ≠ .free) :
    u.dispatchHead core = u.saveWaiter core (classSlots core .handler) := by
  simp [State.dispatchHead, hhead, hslot, any_free_eq_false hfull]

section
variable (hlt : s.ltCore core = true) (hu : u = ((s.readLog core).freeTimers core).demandHeld core)
  (hidle : u.eventRuns core = false)
include hlt hu hidle

/-- EVENT_DISPATCH ends an LTWAIT, where one goes first. -/
theorem execEventDispatch_timer {t : Nat} {framed : Bool} (hfirst : u.firstTimer core = some (t, k, framed)) :
    execEventDispatch core s = .next (u.endEventWait core t k framed) := by
  unfold execEventDispatch
  simp [hlt, ← hu, hidle, hfirst]

/-- EVENT_DISPATCH dispatches the head, where no LTWAIT goes before it. -/
theorem execEventDispatch_head (hfirst : u.firstTimer core = none) (hdue : u.headDue core = true) (hmay : u.mayStart core = true)
    (hrest : u.restoreFirst core = false) (hhead : u.head core = some (m, i)) (hlog : u.replayAllows core m.logKey 1 = true) :
    execEventDispatch core s = .next (u.dispatchHead core) := by
  unfold execEventDispatch
  simp [hlt, ← hu, hidle, hfirst, hdue, hmay, hrest, hhead, hlog]

end

theorem eventDispatchCompletes : EventDispatchCompletes := by
  intro s u core hlt hu hidle
  refine ⟨fun t k framed ht hhead => execEventDispatch_timer hlt hu hidle (firstTimer_first hidle ht hhead),
    fun m i hdue hlow hmay hrest hhead hlog => ?_⟩
  have hx : exec (.eventDispatch core) s = .next (u.dispatchHead core) :=
    execEventDispatch_head hlt hu hidle (firstTimer_head hidle hdue hlow) hdue hmay hrest hhead hlog
  exact ⟨fun k _ hslot => ⟨_, hx.trans (congrArg _ (dispatchHead_slot hhead hslot)), dispatched_dispatchMsg ..⟩,
    fun hslot hfull => hx.trans (congrArg _ (dispatchHead_full hhead hslot hfull))⟩

/-- Settles O29: the first request is found in the buffer, and what is to go first on a local-time core is what `firstTimer` says. -/
theorem spawnAndEventDispatch : Obligations.SpawnAndEventDispatch := ⟨spawnRequestCompletes, eventDispatchCompletes⟩

end Sys2Proof.Machine
end

section
/-!
Barrier trees and clock messages (R88, R147, R153, R297, R299, R309): arrivals and releases, what a held clock message does once its
count has come, and the answer of an idle core to a demand.
-/

namespace Sys2Proof.Machine

variable {s t : State} {core i : Nat}

/-! ## Barriers -/

/-- A cluster whose members have all arrived sends its arrival on, once. -/
theorem execBarrierArrival_sends {part group cl : Nat} {x : Group} (hx : tget {} group (s.part part).groups = x)
    (hvalid : x.valid = true) (hmine : ∃ c ∈ x.members, clusterOf c = cl)
    (hhere : ∀ c ∈ x.members, clusterOf c = cl → c ∈ x.here) (hnew : cl ∉ x.teams) :
    execBarrierArrival part group cl s =
      .next (s.modPart part (fun p => { p with groups := tset {} group { x with teams := x.teams ++ [cl] } p.groups })) := by
  have hall : ∀ c ∈ x.members, ¬ clusterOf c = cl ∨ c ∈ x.here := fun c hc => not_or_of_imp (hhere c hc)
  unfold execBarrierArrival
  simp only [hx]
  refine if_pos ?_
  simpa [hvalid, hnew] using ⟨hmine, hall⟩

/-- Whether a wait is for a phase of a group (R88). -/
def WaitOn.atPhase (part group phase : Nat) : WaitOn → Bool
  | .group p g n => p == part && g == group && n == phase
  | _ => false

theorem releasePhase_clean {part group : Nat} {x : Group} (hx : tget {} group (s.part part).groups = x) :
    s.releasePhase part group false =
      (s.modPart part (fun p =>
        { p with groups := tset {} group { x with phase := x.phase + 1, here := [], teams := [] } p.groups })).wakeAll
        (WaitOn.atPhase part group x.phase) .released := by
  subst hx
  unfold State.releasePhase
  simp only [Bool.false_eq_true, if_false, List.append_nil]
  rfl

theorem barrierEvents : BarrierEvents := by
  refine ⟨fun s part group cl x => execBarrierArrival_sends, fun s part group x hx hvalid hteams => ?_⟩
  have hall : x.clusters.all x.teams.contains = true := by simpa using hteams
  change execBarrierRelease part group s = _
  unfold execBarrierRelease
  simp only [hx, hvalid, hall, Bool.and_self, if_true, releasePhase_clean hx]
  rfl

/-! ## Clock messages -/

/-- A fold each of whose steps leaves the start as it is. -/
theorem foldl_of_fixed {α β : Type} {f : β → α → β} {b : β} {l : List α} (h : ∀ x ∈ l, f b x = b) : l.foldl f b = b :=
  List.foldlRecOn (motive := (· = b)) _ _ rfl fun _ hc x hx => hc ▸ h x hx

section
variable (hslots : ∀ k ∈ slotsOf core, (t.act k).timeTarget = none) (hframes : t.framedTimers core = [])
include hslots

theorem liveTarget_none {k : Nat} (hk : k ∈ slotsOf core) : (t.act k).liveTarget = none := by
  simp [Act.liveTarget, hslots k hk]

include hframes

theorem freeTimers_none : t.freeTimers core = t := by
  unfold State.freeTimers
  dsimp only
  rw [foldl_of_fixed (l := slotsOf core) fun k hk => by simp only [liveTarget_none hslots hk], hframes]
  rfl

theorem eventTimer_none : t.eventTimer core = none := by
  unfold State.eventTimer
  dsimp only
  rw [hframes, List.filterMap_eq_nil_iff.2 fun k hk => by simp only [liveTarget_none hslots hk, Option.bind_none]]
  rfl

/-- Where no slot of a core waits for time and no frame does, no LTWAIT completes. -/
theorem completeTimers_none : t.completeTimers core = t := by
  unfold State.completeTimers
  simp [freeTimers_none hslots hframes, State.firstTimer, eventTimer_none hslots hframes]

end

/-- A held clock message takes effect, or stays (R297). -/
theorem applyClock_eq {null : Bool} {l : InLink} {m : ClockMsg} (hl : (s.core core).ins[i]? = some l) (hm : l.held = some m)
    (hnull : m.null = null) : s.applyClock core i null =
      if 2 ^ 31 ≤ (l.rcvd + 2 ^ 32 - m.sent % 2 ^ 32) % 2 ^ 32 then s
      else (s.modCore core (fun x =>
        { x with ins := setNth x.ins i { l with clock := max l.clock m.cc, held := none } })).completeTimers core := by
  unfold State.applyClock
  simp [hl, hm, hnull]

/-! ## Demands -/

section
variable {j d : Nat} {l : OutLink} (hl : (s.core core).outs[j]? = some l) (hd : l.demand = some d)
include hl hd

/-- A core that is not idle, or has a head to dispatch, keeps the demand (R299 step 4). -/
theorem execDemand_keeps (h : s.idle core = false ∨ s.headDue core = true) : execDemand core j s = .next s := by
  unfold execDemand
  rcases h with h | h
  · simp [hl, hd, h]
  · simp [hl, hd, h]

/-- An idle core answers it with the bound that it can promise (R299 steps 2 and 3). -/
theorem execDemand_answers (hidle : s.idle core = true) (hdue : s.headDue core = false) {c : Nat} {l' : OutLink} {t u : State}
    (hc : c = max (s.core core).lvt ((s.targets core).foldl min (min (s.headStamp core) (s.safe core))))
    (hl' : l' = { l with floor := max l.floor (satAdd c l.look) })
    (ht : t = s.modCore core (fun x => { x with outs := setNth x.outs j l' }))
    (hu : u = (if l.lastCC < l'.cc (s.core core).lvt then t.clockMsg core j true else t)) :
    execDemand core j s =
      .next (if satAdd (l'.cc (s.core core).lvt) l.look ≤ d then u.demandAll core (d - l.look) else u) := by
  subst hu ht hl' hc
  unfold execDemand
  simp only [hl, hd, hidle, hdue, State.core_modCore]
  rfl

end

theorem clockEvents : ClockEvents := by
  refine ⟨fun null mk hk s core i l m hl hm hnull => ?_, fun s t u core j d c l l' hl hd =>
    ⟨execDemand_keeps hl hd, fun hidle hdue => execDemand_answers hl hd hidle hdue⟩⟩
  have hx : exec (mk core i) s = .next (s.applyClock core i null) := by
    rcases hk with ⟨rfl, rfl⟩ | ⟨rfl, rfl⟩
    · rfl
    · rfl
  rw [hx, applyClock_eq hl hm hnull]
  refine ⟨?_, fun hearly => congrArg _ (if_pos hearly)⟩
  rintro hcome t rfl
  rw [if_neg (Nat.not_le.2 hcome)]
  exact ⟨rfl, fun hslots hframes => congrArg _ (completeTimers_none hslots hframes)⟩

/-- Settles O37: each event is the one case of its definition that its conditions lead to. -/
theorem barrierAndClockEvents : Obligations.BarrierAndClockEvents := ⟨barrierEvents, clockEvents⟩

end Sys2Proof.Machine
end

section
/-!
Words whose guard is false (R74, R76): a word that is no engine command and no repetition means its issue, and the issue of one whose
guard is false only moves the front end on.
-/

namespace Sys2Proof.Machine

variable {i : Instr} {opc : Nat} {w : Operands} {serial : Bool} {eff : State → Res} {s : State}

/-- Every word but an engine command and a repetition means the issue of some effect, and serialises where `serialises` says so. -/
theorem exec_word (hi : toOpcode i = some (opc, w)) (hcmd : isEngineCmd opc = false) (hrpt : opc ≠ 0x308) (hend : opc ≠ 0x309)
    (s : State) : ∃ eff, exec i s = .next (issueWord opc w (s.serialises opc w) eff s) := by
  cases i with
  | rpt =>
    cases hi
    exact absurd rfl hrpt
  | rptend =>
    cases hi
    exact absurd rfl hend
  | mma | mmdrain | mmz | cpy | cpyg | colag | colrs =>
    cases hi
    cases hcmd
  -- An event has no opcode. What any other word means is the issue of its effect, by definition.
  | _ => cases hi <;> exact ⟨_, rfl⟩

/-- A word at the front end whose guard is false takes its turn with no effect. -/
theorem atFront_guard_false (hfront : s.iss = .front) (hturn : s.inTurn opc w serial = true) (hguard : s.guardOf w.head = some false)
    (hcmd : isEngineCmd opc = false) : s.atFront opc w serial eff = (s.turnedOff opc w.head).advance := by
  simp only [State.inTurn, hfront, Bool.and_eq_true, Bool.or_eq_true, Bool.not_eq_true', beq_iff_eq] at hturn
  obtain ⟨⟨⟨hfree, hresolved⟩, hplace⟩, halone⟩ := hturn
  have hserial : (serial && (!s.me.pend.isEmpty || !s.me.late.isEmpty || s.accepting)) = false := by
    rcases halone with h | ⟨⟨hpend, hlate⟩, hacc⟩
    · simp [h]
    · simp [hpend, hlate, hacc]
  rcases hplace with hS | ⟨⟨hroom, hbusy⟩, hacc⟩
  · simp [State.atFront, hfree, hresolved, hserial, hS, hguard, hcmd]
  · simp [State.atFront, hfree, hresolved, hserial, hroom, hbusy, hacc, hguard, hcmd]

/-- So does its issue: no load of it is left to be bound. -/
theorem issueWord_guard_false (hmay : s.mayIssue = true) (hfront : s.iss = .front) (hturn : s.inTurn opc w serial = true)
    (hguard : s.guardOf w.head = some false) (hcmd : isEngineCmd opc = false) :
    issueWord opc w serial eff s = (s.turnedOff opc w.head).advance := by
  unfold issueWord
  simp [hmay, hfront, hguard, atFront_guard_false hfront hturn hguard hcmd]

/-- Settles O43: the word means its issue, and the issue takes its turn with no effect. -/
theorem falseGuardHasNoEffect : Obligations.FalseGuardHasNoEffect := by
  unfold Obligations.FalseGuardHasNoEffect
  intro i opc w s hi hcmd hrpt hend hturn hfront hmay hguard
  obtain ⟨eff, hx⟩ := exec_word hi hcmd hrpt hend s
  rw [hx, issueWord_guard_false hmay hfront hturn hguard hcmd]

end Sys2Proof.Machine
end

section
/-!
The matrix unit (R234, R242, R246, R248, R249, R262, R302): what a granted step of an MMA, an MMZ or an MMDRAIN comes to.
-/

namespace Sys2Proof.Machine

variable {s t u : State} {core : Nat} {c : Cmd}

/-! ## MMA -/

/-- What a step of an MMA comes to by the outcome of its last chunk: the command waits with its grant, parks, or is done with as many
chunks as it has (R246). -/
def State.stepEnds (core : Nat) : ERes → State
  | .stall u d => (u.setCmd core .matrix 0 d).holdStep core
  | .fault f u d => u.parkCmd core .matrix 0 d f
  | .ok u d => if 2 * d.steps ≤ d.done then u.finishCmd core .matrix 0 { d with phase := .closing } else u.setCmd core .matrix 0 d

/-- The outcome of a step by that of its first chunk: the second is added too, where one is left (R242). -/
def State.secondChunk (core : Nat) : ERes → ERes
  | .ok u d => if d.done % 2 = 1 then u.chunk core d d.done else .ok u d
  | r => r

/-- A command whose guard is not false is not discarded. -/
theorem guard_beq_false (h : c.guard ≠ some false) : (c.guard == some false) = false := beq_eq_false_iff_ne.2 h

theorem mmaGrant_discarded (h : c.guard = some false) : t.mmaGrant core c = t.finishCmd core .matrix 0 { c with phase := .closing } :=
  if_pos (beq_iff_eq.2 h)

theorem mmaGrant_empty (hguard : c.guard ≠ some false) (hsteps : c.steps = 0) :
    t.mmaGrant core c = (t.holdTile core c.z).finishCmd core .matrix 0 { c with phase := .closing } := by
  simp [State.mmaGrant, guard_beq_false hguard, hsteps]

/-- A step of an MMA adds a chunk, then a second one. -/
theorem mmaGrant_eq (hguard : c.guard ≠ some false) (hsteps : c.steps ≠ 0) :
    t.mmaGrant core c = State.stepEnds core (State.secondChunk core (t.chunk core c c.done)) := by
  unfold State.mmaGrant
  rw [guard_beq_false hguard]
  simp only [Bool.false_eq_true, if_false, if_neg hsteps]
  cases t.chunk core c c.done with
  | stall u d => rfl
  | fault f u d => rfl
  | ok u d => rfl

/-- The step that the arbiter grants to a core whose head is an MMA (R242). -/
theorem execMmaStep_granted (h : Granted s t .mma core c) : execMmaStep (octetOf core) s = .next (t.mmaGrant core c) := by
  obtain ⟨hkind, ⟨r, hhead⟩, hturn⟩ := h
  simp [execMmaStep, hturn, hhead, hkind]

/-! ## MMZ -/

/-- An MMZ zeroes its tile, unless it is discarded, and completes (R248). -/
theorem execMmzExec_granted (h : Granted s t .mmz core c) : execMmzExec (octetOf core) s =
    .next ((if c.guard = some false then t else ((t.holdTile core c.z).accClean core c.z).putTile core c.z
      (List.replicate 256 0)).finishCmd core .matrix 0 { c with phase := .closing }) := by
  obtain ⟨hkind, ⟨r, hhead⟩, hturn⟩ := h
  unfold execMmzExec
  simp only [hturn, hhead, hkind, bne_self_eq_false, Bool.false_eq_true, if_false, beq_iff_eq]

/-! ## MMDRAIN -/

/-- The start that the arbiter grants to a core whose head is an MMDRAIN: its bid first, then what follows a bid that has won. -/
theorem execDrainStart_granted {r : List Cmd} (hhead : (s.core core).matrixQ = c :: r) (hkind : c.op = .mmdrain)
    (hturn : s.grantStep (octetOf core) = some (core, t)) :
    execDrainStart core s = .next ((s.drainBid core c).getD (t.startDrain core c)) := by
  simp [execDrainStart, hhead, hkind, hturn]

/-- An MMDRAIN that is late, discarded or holds its claim makes no bid. -/
theorem drainBid_none (h : (s.drainTime c).isSome = true ∨ c.guard = some false ∨ c.claimed = true) : s.drainBid core c = none := by
  refine if_pos ?_
  rcases h with h | h | h
  all_goals simp [h]

/-- Any other bids for its tile, or waits for its bid to win (R111, R264). -/
theorem drainBid_eq (htime : s.drainTime c = none) (hguard : c.guard ≠ some false) (hclaimed : c.claimed = false) :
    s.drainBid core c = s.bidding core .matrix 0 c c.dest.1 c.dest.2 := by
  simp [State.drainBid, htime, guard_beq_false hguard, hclaimed]

theorem bidding_first {e : Eng} {i addr tile : Nat} (h : c.bid = none) :
    s.bidding core e i c addr tile = some (s.setCmd core e i { c with bid := some (s.cycle, addr, tile) }) := by
  rw [State.bidding, h]

theorem bidding_again {e : Eng} {i addr tile n : Nat} {d : Nat × Nat} (h : c.bid = some (n, d)) :
    s.bidding core e i c addr tile = if s.bidWins core addr tile n then none else some s := by
  rw [State.bidding, h]

/-- An MMDRAIN whose bid has won makes no further one. -/
theorem drainBid_won {n : Nat} {d : Nat × Nat} (htime : s.drainTime c = none) (hguard : c.guard ≠ some false)
    (hclaimed : c.claimed = false) (hbid : c.bid = some (n, d)) (hwins : s.bidWins core c.dest.1 c.dest.2 n = true) :
    s.drainBid core c = none := by
  rw [drainBid_eq htime hguard hclaimed, bidding_again hbid, if_pos hwins]

theorem startDrain_late {f : FaultReq} (h : t.drainTime c = some f) : t.startDrain core c = t.parkCmd core .matrix 0 c f := by
  rw [State.startDrain, h]

theorem startDrain_discarded (htime : t.drainTime c = none) (hguard : c.guard = some false) : t.startDrain core c = t.endDrain core c := by
  rw [State.startDrain, htime]
  exact if_pos (beq_iff_eq.2 hguard)

theorem startDrain_busy {f : FaultReq} (htime : t.drainTime c = none) (hguard : c.guard ≠ some false) (hclaimed : c.claimed = false)
    (hclaim : t.claim c.part c.dest.1 c.dest.2 = .error f) :
    t.startDrain core c = t.parkCmd core .matrix 0 { c with bid := none } f := by
  simp [State.startDrain, htime, guard_beq_false hguard, hclaimed, hclaim]

theorem startDrain_claims {d : Nat} (htime : t.drainTime c = none) (hguard : c.guard ≠ some false) (hclaimed : c.claimed = false)
    (hclaim : t.claim c.part c.dest.1 c.dest.2 = .ok (d, u)) :
    t.startDrain core c = u.drainRows core d { c with claimed := true, bid := none } := by
  simp [State.startDrain, htime, guard_beq_false hguard, hclaimed, hclaim]

theorem startDrain_claimed {d : Nat} (htime : t.drainTime c = none) (hguard : c.guard ≠ some false) (hclaimed : c.claimed = true)
    (hcore : t.coreIn c.part c.dest.1 = some d) : t.startDrain core c = t.drainRows core d c := by
  simp [State.startDrain, htime, guard_beq_false hguard, hclaimed, hcore]

/-- Rows for which the tile has no room. -/
theorem drainRows_noRoom {d : Nat} (h : 64 * (u.tile d c.dest.2).size < 16 * rowBytes c.ty) : u.drainRows core d c =
    u.parkCmd core .matrix 0 c { code := 0x08, space := 1, addr := BitVec.ofNat 64 (64 * (u.tile d c.dest.2).base) } :=
  if_pos h

theorem drainRows_poisoned {d : Nat} {f : FaultReq} (hroom : 16 * rowBytes c.ty ≤ 64 * (u.tile d c.dest.2).size)
    (h : u.accPoison core c.z = some f) : u.drainRows core d c = u.parkCmd core .matrix 0 c f := by
  simp [State.drainRows, Nat.not_lt.2 hroom, h]

/-- The rows land in the tile, and the command holds the drain port (R248). -/
theorem drainRows_writes {d : Nat} {v : State} (hroom : 16 * rowBytes c.ty ≤ 64 * (u.tile d c.dest.2).size)
    (hclean : u.accPoison core c.z = none)
    (hv : v = (u.tileElems core c.z).2.locPut (32768 * d + 64 * (u.tile d c.dest.2).base)
      ((upTo 16).flatMap (fun r => drainRow c.ty (((u.tileElems core c.z).1.drop (16 * r)).take 16)))) :
    u.drainRows core d c = { v.setCmd core .matrix 0 { c with phase := .running } with
      drainPort := tset none (octetOf core) (some core) v.drainPort } := by
  subst hv
  simp [State.drainRows, Nat.not_lt.2 hroom, hclean]

/-- An MMDRAIN that has its claim, now or from before, goes on with its rows. -/
theorem execDrainStart_rows {r : List Cmd} {c' : Cmd} {d : Nat} (hhead : (s.core core).matrixQ = c :: r) (hkind : c.op = .mmdrain)
    (hturn : s.grantStep (octetOf core) = some (core, t)) (hs : s.drainTime c = none) (ht : t.drainTime c = none)
    (hguard : c.guard ≠ some false)
    (hclaim : (∃ n b, c.claimed = false ∧ c.bid = some (n, b) ∧ s.bidWins core c.dest.1 c.dest.2 n = true ∧
        t.claim c.part c.dest.1 c.dest.2 = .ok (d, u) ∧ c' = { c with claimed := true, bid := none }) ∨
      (c.claimed = true ∧ t.coreIn c.part c.dest.1 = some d ∧ u = t ∧ c' = c)) :
    execDrainStart core s = .next (u.drainRows core d c') := by
  rw [execDrainStart_granted hhead hkind hturn]
  rcases hclaim with ⟨n, b, hclaimed, hbid, hwins, hok, rfl⟩ | ⟨hclaimed, hcore, rfl, rfl⟩
  · rw [drainBid_won hs hguard hclaimed hbid hwins, Option.getD_none, startDrain_claims ht hguard hclaimed hok]
  · rw [drainBid_none (.inr (.inr hclaimed)), Option.getD_none, startDrain_claimed ht hguard hclaimed hcore]

theorem execDrainComplete_closing {r : List Cmd} (hhead : (s.core core).matrixQ = c :: r) (hkind : c.op = .mmdrain)
    (hparked : c.parked = none) (hphase : c.phase = .closing) : execDrainComplete core s = .next (s.endDrain core c) := by
  simp [execDrainComplete, hhead, hkind, hparked, hphase]

/-- The tile goes ready, and the accumulator tile and the drain port are free (R249). -/
theorem execDrainComplete_running {r : List Cmd} {d : Nat} (hhead : (s.core core).matrixQ = c :: r) (hkind : c.op = .mmdrain)
    (hparked : c.parked = none) (hphase : c.phase = .running) (hcore : s.coreIn c.part c.dest.1 = some d)
    (ht : t = (s.tileReady d c.dest.2 false).modCore core (fun x => { x with held := tset false c.z false x.held })) :
    execDrainComplete core s = .next ({ t with drainPort := tset none (octetOf core) none t.drainPort }.endDrain core c) := by
  subst ht
  simp [execDrainComplete, hhead, hkind, hparked, hphase, hcore]

/-- Settles O35: each granted step is the one case of its definition that its conditions lead to. -/
theorem matrixEvents : Obligations.MatrixEvents := by
  refine ⟨fun s t core c h => ?_, fun s t core c h => execMmzExec_granted h, fun s t core c r hhead hkind hturn => ?_,
    fun s core d c r hhead hkind hparked => ⟨execDrainComplete_closing hhead hkind hparked,
      fun hphase hcore => execDrainComplete_running hhead hkind hparked hphase hcore rfl⟩⟩
  · have hstep : exec (.mmaStep (octetOf core)) s = .next (t.mmaGrant core c) := execMmaStep_granted h
    rw [hstep]
    refine ⟨fun hguard => by rw [mmaGrant_discarded hguard], fun hguard hsteps => by rw [mmaGrant_empty hguard hsteps],
      fun hguard hsteps => ?_⟩
    rw [mmaGrant_eq hguard hsteps]
    refine ⟨fun u d hfirst => by rw [hfirst]; rfl, fun f u d hfirst => by rw [hfirst]; rfl, fun u d hfirst => ?_⟩
    rw [hfirst, State.secondChunk]
    refine ⟨fun heven => by rw [if_neg (by omega)]; rfl, fun v e hodd hsecond => ?_, fun v e hodd hsecond => ?_,
      fun f v e hodd hsecond => ?_⟩
    all_goals
      rw [if_pos hodd, hsecond]
      rfl
  · have hstart : exec (.drainStart core) s = .next ((s.drainBid core c).getD (t.startDrain core c)) :=
      execDrainStart_granted hhead hkind hturn
    refine ⟨fun f hs ht => ?_, fun ht hguard => ?_, fun hs hguard hclaimed => ⟨fun hbid => ?_, fun n d hbid hloses => ?_,
      fun n d f hbid hwins ht hbusy => ?_⟩, fun d u c' hs ht hguard hclaim => ?_⟩
    · rw [hstart, drainBid_none (.inl (by rw [hs]; rfl)), Option.getD_none, startDrain_late ht]
    · rw [hstart, drainBid_none (.inr (.inl hguard)), Option.getD_none, startDrain_discarded ht hguard]
    · rw [hstart, drainBid_eq hs hguard hclaimed, bidding_first hbid]
      rfl
    · rw [hstart, drainBid_eq hs hguard hclaimed, bidding_again hbid, hloses]
      rfl
    · rw [hstart, drainBid_won hs hguard hclaimed hbid hwins, Option.getD_none, startDrain_busy ht hguard hclaimed hbusy]
    · have hrows : exec (.drainStart core) s = .next (u.drainRows core d c') :=
        execDrainStart_rows hhead hkind hturn hs ht hguard hclaim
      have hfields : c'.ty = c.ty ∧ c'.z = c.z ∧ c'.dest = c.dest := by
        rcases hclaim with ⟨_, _, _, _, _, _, rfl⟩ | ⟨_, _, _, rfl⟩
        all_goals exact ⟨rfl, rfl, rfl⟩
      obtain ⟨hty, hz, hdest⟩ := hfields
      rw [hrows, ← hty, ← hz, ← hdest]
      exact ⟨fun h => congrArg _ (drainRows_noRoom h), fun f hroom hf => congrArg _ (drainRows_poisoned hroom hf),
        fun v hroom hclean hv => congrArg _ (drainRows_writes hroom hclean hv)⟩

end Sys2Proof.Machine
end

section
/-!
The copy and collective engines (R109, R240, R250 to R255): a command starts, moves a line when the engine comes to its core, and
completes.
-/

namespace Sys2Proof.Machine

variable {s t u v : State} {core i : Nat} {c : Cmd}

/-! ## Copies -/

section
variable (hcmd : (s.core core).copyQ[i]? = some c) (hmay : (s.core core).mayMove .copy i = true)
include hcmd hmay

theorem execCopyLine_starts (hphase : c.phase = .queued) : execCopyLine core i s = .next (s.startCopy core i c) := by
  simp [execCopyLine, hcmd, hmay, hphase]

/-- A copy that runs moves its next line in its core's turn (R240). -/
theorem execCopyLine_runs (hphase : c.phase = .running) : execCopyLine core i s =
    .next (if s.engTurn .copy core then (s.passTurn .copy core).copyLine core i c else s) := by
  simp [execCopyLine, hcmd, hmay, hphase]

end

/-- A copy once its line of these stretches has moved: read, then written. -/
def State.movedLine (v : State) (core i : Nat) (c : Cmd) (ps qs : List Piece) : State :=
  let l := v.engLoads (dieOf core) ps
  let w := l.2.engStores (dieOf core) qs l.1
  let c' := { c with done := c.done + 1, wids := c.wids ++ w.1 }
  w.2.setCmd core .copy i (if c.lines ≤ c.done + 1 then { c' with phase := .closing } else c')

section
variable {src dst : CopyEnd} {ps qs : List Piece} {f : FaultReq} (hsrc : copyEnd (nth 0 c.vals 1) = .ok src)
  (hdst : copyEnd (nth 0 c.vals 0) = .ok dst)
include hsrc hdst

theorem copyLine_source_fault
    (h : s.endAccess core c src (c.lineOff c.shape.2.2.1).1 (c.lineOff c.shape.2.2.1).2 false = .fault f t) :
    s.copyLine core i c = t.parkCmd core .copy i c f := by
  simp only [State.copyLine, hsrc, hdst, h]

variable (hread : s.endAccess core c src (c.lineOff c.shape.2.2.1).1 (c.lineOff c.shape.2.2.1).2 false = .ok t ps)
include hread

theorem copyLine_dest_fault
    (h : t.endAccess core c dst (c.lineOff c.shape.2.2.2).1 (c.lineOff c.shape.2.2.1).2 true = .fault f u) :
    s.copyLine core i c = u.parkCmd core .copy i c f := by
  simp only [State.copyLine, hsrc, hdst, hread, h]

/-- A line whose stretches pass their checks moves, unless its write may not take its place yet (R185, R187). -/
theorem copyLine_moves {go : Bool}
    (hwrite : t.endAccess core c dst (c.lineOff c.shape.2.2.2).1 (c.lineOff c.shape.2.2.1).2 true = .ok u qs)
    (hready : u.engReadies (dieOf core) (engKey core .copy) qs = (go, v)) :
    s.copyLine core i c = if go then v.movedLine core i c ps qs else v := by
  simp only [State.copyLine, hsrc, hdst, hread, hwrite, hready]
  cases go <;> rfl

end

/-- What the completion of a copy does to its destination tile: once claimed, it goes ready (R109). -/
def State.destReady (s : State) (c : Cmd) : State :=
  match c.claimed, copyEnd (nth 0 c.vals 0) with
  | true, .ok (.tile a t) => (match s.coreIn c.part a with | some d => s.tileReady d t false | none => s)
  | _, _ => s

/-- What it does to its source tile: one that is still draining is empty (R109). -/
def State.sourceEmpty (s : State) (core : Nat) (c : Cmd) : State :=
  match c.drains, copyEnd (nth 0 c.vals 1) with
  | true, .ok (.tile _ t) =>
    if (s.tile core t).state == TileState.draining then s.setTile core t { s.tile core t with state := .empty } else s
  | _, _ => s

theorem destReady_unclaimed (h : c.claimed = false) : s.destReady c = s := by
  simp [State.destReady, h]

theorem destReady_tile {a t d : Nat} (h : c.claimed = true) (hdst : copyEnd (nth 0 c.vals 0) = .ok (.tile a t))
    (hcore : s.coreIn c.part a = some d) : s.destReady c = s.tileReady d t false := by
  simp only [State.destReady, h, hdst, hcore]

theorem sourceEmpty_undrained (h : c.drains = false) : s.sourceEmpty core c = s := by
  simp [State.sourceEmpty, h]

theorem sourceEmpty_tile {a t : Nat} (h : c.drains = true) (hsrc : copyEnd (nth 0 c.vals 1) = .ok (.tile a t)) :
    s.sourceEmpty core c =
      if (s.tile core t).state = .draining then s.setTile core t { s.tile core t with state := .empty } else s := by
  simp only [State.sourceEmpty, h, hsrc, beq_iff_eq]

/-- The tiles of a copy whose lines are all moved, and then its obligations (R109, R255). -/
theorem execCopyComplete_closing (hcmd : (s.core core).copyQ[i]? = some c) (hphase : c.phase = .closing) (hparked : c.parked = none)
    (hrel : s.cmdReleased core c = true) : execCopyComplete core i s =
      .next (((s.destReady c).sourceEmpty core c).finishCmd core .copy i { c with claimed := false, drains := false }) := by
  unfold execCopyComplete
  rw [hcmd]
  exact if_neg (by simp [hphase, hparked, hrel])

/-! ## Collectives -/

section
variable {part : Nat} (hcmd : (s.core core).colQ[i]? = some c)
include hcmd

theorem execCollectiveLine_accepting {n : Nat} (hphase : c.phase = .accepting n) (hparked : c.parked = none) :
    execCollectiveLine core i part s = .next (s.acceptMore core i c) := by
  simp [execCollectiveLine, hcmd, hphase, hparked]

theorem execCollectiveLine_starts (hphase : c.phase = .queued) (hmay : (s.core core).mayMove .col i = true) :
    execCollectiveLine core i part s = .next (s.startCol core i c) := by
  simp [execCollectiveLine, hcmd, hphase, hmay]

/-- A collective that runs goes on with one of its parts in its core's turn (R240). -/
theorem execCollectiveLine_runs (hphase : c.phase = .running) (hmay : (s.core core).mayMove .col i = true) :
    execCollectiveLine core i part s = .next (if s.engTurn .col core then s.colTurn core i c part else s) := by
  simp [execCollectiveLine, hcmd, hphase, hmay]

theorem execCollectiveComplete_done (hparked : c.parked = none) (hdone : s.colDone c = true) (hrel : s.cmdReleased core c = true) :
    execCollectiveComplete core i s = .next (s.finishCmd core .col i { c with phase := .closing }) := by
  simp [execCollectiveComplete, hcmd, hparked, hdone, hrel]

end

/-- Settles O36: each event is the one case of its definition that its conditions lead to. -/
theorem copyAndCollectiveEvents : Obligations.CopyAndCollectiveEvents := by
  refine ⟨fun s core i c hcmd hmay => ⟨execCopyLine_starts hcmd hmay, fun hphase hturn => ?_,
      fun src dst hphase hturn hsrc hdst => ?_⟩,
    fun s core i c hcmd hphase hparked hrel => ?_,
    fun s core i part c hcmd => ⟨fun n => execCollectiveLine_accepting hcmd, execCollectiveLine_starts hcmd,
      execCollectiveLine_runs hcmd, execCollectiveComplete_done hcmd⟩⟩
  · exact (execCopyLine_runs hcmd hmay hphase).trans (congrArg _ (if_neg (by simp [hturn])))
  · have hline : exec (.copyLine core i) s = .next ((s.passTurn .copy core).copyLine core i c) :=
      (execCopyLine_runs hcmd hmay hphase).trans (congrArg _ (if_pos hturn))
    rw [hline]
    refine ⟨fun f t h => congrArg _ (copyLine_source_fault hsrc hdst h), fun t ps hread =>
      ⟨fun f u h => congrArg _ (copyLine_dest_fault hsrc hdst hread h), fun u qs go v hwrite hready =>
        congrArg _ (copyLine_moves hsrc hdst hread hwrite hready)⟩⟩
  · exact ⟨s.destReady c, (s.destReady c).sourceEmpty core c, execCopyComplete_closing hcmd hphase hparked hrel,
      destReady_unclaimed, fun _ _ _ => destReady_tile, sourceEmpty_undrained, fun _ _ => sourceEmpty_tile⟩

end Sys2Proof.Machine
end

section
/-!
Parked registers (R118, R393, R422): whichever place PARK finds for an s register, its value stands there, and UNPARK reads it back.
-/

namespace Sys2Proof.Machine

variable {s t : State}

/-! ## Bytes, lanes and columns -/

/-- A run of bytes that has been stored reads as stored. -/
theorem mread_mwrite (bs : List Byte) : ∀ (a : Nat) (m : Mem), mread a bs.length (mwrite a bs m) = bs := by
  induction bs with
  | nil => exact fun _ _ => rfl
  | cons b bs ih =>
    intro a m
    have hhead : mget a (mwrite (a + 1) bs (tset 0 a b m)) = b := by
      rw [mget_mwrite_other bs (a + 1) (by omega)]
      exact tget_tset_same _ _ _ _
    rw [List.length_cons, mread, mwrite, hhead, ih]

theorem leNat_leBytes (n v : Nat) : leNat (leBytes n v) = v % 256 ^ n := by
  induction n generalizing v with
  | zero => simp [leBytes, leNat, Nat.mod_one]
  | succ n ih => rw [leBytes, leNat, ih, BitVec.toNat_ofNat, pow_succ' 256 n, Nat.mod_mul]

/-- A 64-bit value is in the two low lanes that hold it. -/
@[simp] theorem lanesWord_wordLanes (v : Word) : lanesWord (wordLanes v) = v := by
  change (v >>> 32).setWidth 32 ++ v.setWidth 32 = v
  ext i hi
  rw [BitVec.getElem_append]
  split
  · simpa using BitVec.getLsbD_eq_getElem hi
  · next h => simpa [show 32 + (i - 32) = i by omega] using BitVec.getLsbD_eq_getElem hi

/-- Distinct entries written one after the other are read back each. -/
theorem tget_foldl_tset {α : Type} [DecidableEq α] (d : α) {key : Nat → Nat} (hkey : ∀ i j, key i = key j → i = j) (v : Nat → α)
    (m : Tab α) {n i : Nat} (hi : i < n) : tget d (key i) ((upTo n).foldl (fun m j => tset d (key j) (v j) m) m) = v i := by
  induction n with
  | zero => exact absurd hi (Nat.not_lt_zero i)
  | succ n ih =>
    simp only [upTo, List.foldl_append, List.foldl_cons, List.foldl_nil]
    by_cases h : i = n
    · rw [h, tget_tset_same]
    · rw [tget_tset_other d (fun e => h (hkey _ _ e)), ih (by omega)]

/-- A lane written to a column of a tile is read back from it. -/
theorem accGet_colSet {core tile col i : Nat} (hi : i < 16) (v : Vec) :
    (s.colSet core tile col v).accGet (accKey core tile i col) = v.lane i := by
  have hkey : ∀ i j, accKey core tile i col = accKey core tile j col → i = j := fun i j h => by
    simp only [accKey] at h
    omega
  have hcell := tget_foldl_tset none hkey (fun i => some (v.lane i)) s.acc hi
  simp only [State.accGet, State.colSet, accSet, hcell]

theorem upTo_eq_range (n : Nat) : upTo n = List.range n := by
  induction n with
  | zero => rfl
  | succ n ih => rw [upTo, ih, List.range_succ]

theorem lane_ofFn (f : Nat → Lane) {i : Nat} (h : i < 16) : (Vec.ofFn f).lane i = f i := by
  rw [Vec.lane, Vec.ofFn, List.getD_eq_getElem?_getD, List.getElem?_map, upTo_eq_range, List.getElem?_range h]
  rfl

/-- An s value parked in a column is read back from it. -/
theorem lanesWord_colGet_colSet (core tile col : Nat) (v : Vec) :
    lanesWord ((s.colSet core tile col v).colGet core tile col) = lanesWord v := by
  rw [lanesWord, State.colGet, lane_ofFn _ (by decide), lane_ofFn _ (by decide), accGet_colSet (by decide), accGet_colSet (by decide),
    lanesWord]

/-! ## Parking -/

/-- The spill-map entry of s register n of slot k replaced. -/
def State.spilled (s : State) (k n : Nat) (e : Spill) : State :=
  s.modAct k (fun a => { a with spill := tset {} (spillKey false n) e a.spill })

/-- Register n of slot k is parked, where its entry says, with this value and deferral bit. -/
structure State.Holds (s : State) (k n : Nat) (v : Word) (d : Bool) : Prop where
  parked : ((s.act k).spillOf false n).place ≠ .none
  dfr    : ((s.act k).spillOf false n).dfr = d
  value  : lanesWord (s.parkedVal k false ((s.act k).spillOf false n)) = v

/-- A parked value does not depend on what the spill map says. -/
theorem parkedVal_spilled (k n : Nat) (e e' : Spill) : (s.spilled k n e).parkedVal k false e' = s.parkedVal k false e' := by
  have hbank j : ((s.spilled k n e).act j).sGet (e'.index % 32) = (s.act j).sGet (e'.index % 32) := by
    by_cases hj : j = k
    · rw [hj, State.spilled, State.act_modAct]
      rfl
    · rw [State.spilled, State.act_modAct_other s hj]
  cases hplace : e'.place with
  | none => simp only [State.parkedVal, hplace]
  | bank => simp only [State.parkedVal, hplace, hbank, Bool.false_eq_true, if_false]
  | acc | loc =>
    simp only [State.parkedVal, hplace]
    rfl

/-- A register is parked once its value stands at the place of its new entry. -/
theorem holds_spilled {k n : Nat} {e : Spill} {v : Word} {d : Bool} (hplace : e.place ≠ .none) (hdfr : e.dfr = d)
    (hvalue : lanesWord (s.parkedVal k false e) = v) : (s.spilled k n e).Holds k n v d := by
  have hentry : ((s.spilled k n e).act k).spillOf false n = e := by
    rw [State.spilled, State.act_modAct]
    exact tget_tset_same _ _ _ _
  refine ⟨?_, ?_, ?_⟩
  · rw [hentry]
    exact hplace
  · rw [hentry]
    exact hdfr
  · rw [hentry, parkedVal_spilled]
    exact hvalue

/-- A free cell of a bank is no s0, which would hold nothing (R25, R117). -/
theorem freeCell_ne_zero {core i : Nat} (h : s.freeCell core false = some i) : i % 32 ≠ 0 := by
  intro hi
  have hfree := List.find?_some h
  simp [hi] at hfree

/-- A value stands in the column that it is written to. -/
theorem parkedVal_column {k i : Nat} {e : Spill} (v : Vec) (hplace : e.place = .acc) (hindex : e.index = i) :
    lanesWord ((s.colSet (coreOf k) (i / 16) (i % 16) v).parkedVal k false e) = lanesWord v := by
  simp only [State.parkedVal, hplace, hindex, lanesWord_colGet_colSet]

/-- A value stands in the bank register that it is written to. -/
theorem parkedVal_bank {k i : Nat} {e : Spill} (v : Word) (hcell : i % 32 ≠ 0) (hplace : e.place = .bank) (hindex : e.index = i) :
    lanesWord ((s.modAct (8 * coreOf k + i / 32) (fun b => b.sSet (i % 32) v)).parkedVal k false e) = v := by
  simp [State.parkedVal, hplace, hindex, hcell]

theorem toFall_loc (core fall : Nat) (v : Vec) (poison : BitVec 8) :
    (s.toFall core false fall v poison).loc = mwrite (32768 * core + 8 * fall) (leBytes 8 (lanesWord v).toNat) s.loc := by
  unfold State.toFall
  dsimp only
  split <;> rfl

/-- A value stands in LOC at its fallback address. -/
theorem parkedVal_loc {k fall : Nat} {e : Spill} (v : Vec) (poison : BitVec 8) (hplace : e.place = .loc) (hfall : e.fall = fall) :
    lanesWord ((s.toFall (coreOf k) false fall v poison).parkedVal k false e) = lanesWord v := by
  have hbytes := mread_mwrite (leBytes 8 (lanesWord v).toNat) (32768 * coreOf k + 8 * fall) s.loc
  rw [leBytes_length] at hbytes
  have hword : BitVec.ofNat 64 (leNat (leBytes 8 (lanesWord v).toNat)) = lanesWord v := by
    rw [leNat_leBytes, Nat.mod_eq_of_lt (lt_of_lt_of_eq (lanesWord v).isLt (by norm_num)), BitVec.ofNat_toNat, BitVec.setWidth_eq]
  simp only [State.parkedVal, hplace, hfall, toFall_loc, Bool.false_eq_true, if_false, hbytes, hword, lanesWord_wordLanes]

/-- PARK leaves an s register parked with its value and its deferral bit, in a column, a bank register or LOC (R117, R393). -/
theorem holds_parkAt (s : State) (k n fall : Nat) : (s.parkAt k false n fall).Holds k n ((s.act k).sGet n) ((s.act k).sDef n) := by
  unfold State.parkAt
  extract_lets core a v dfr gs bad u put
  have hv : lanesWord v = (s.act k).sGet n := lanesWord_wordLanes _
  have hd : dfr = (s.act k).sDef n := rfl
  rw [← hv, ← hd]
  subst core
  clear_value v dfr bad u
  split
  · next i _ => exact holds_spilled (s := u.colSet (coreOf k) (i / 16) (i % 16) v) (by simp) rfl (parkedVal_column v rfl rfl)
  · split
    · next i hcell =>
      extract_lets cell x
      exact holds_spilled (s := x.modAct (8 * coreOf k + i / 32) fun b => b.sSet (i % 32) (lanesWord v)) (by simp) rfl
        (parkedVal_bank _ (freeCell_ne_zero hcell) rfl rfl)
    · exact holds_spilled (s := u.toFall (coreOf k) false (fall / 8) v bad) (by simp) rfl (parkedVal_loc v bad rfl rfl)

/-! ## Unparking -/

/-- Poison stands beside the slots. -/
theorem act_cleanAll (s : State) (gs : List Granule) (k : Nat) : (s.cleanAll gs).act k = s.act k := by
  unfold State.cleanAll
  split <;> rfl

/-- UNPARK writes a parked register with the value and the deferral bit that it is parked with (R422). -/
theorem State.Holds.act_unparkAt {k n : Nat} {v : Word} {d : Bool} (h : t.Holds k n v d) :
    (t.unparkAt k false n).act k = (t.act k).sSet n v d := by
  obtain ⟨hparked, rfl, rfl⟩ := h
  unfold State.unparkAt
  extract_lets e v bad gs u
  rw [if_neg (by simpa using hparked)]
  have hu : u.act k = (t.act k).sSet n (lanesWord v) e.dfr := (act_cleanAll _ _ k).trans (State.act_modAct t k _)
  split
  · exact hu
  · exact hu

/-- Settles O26: the register is parked with what it holds, and is written with what it is parked with. -/
theorem parkedValueReturns : Obligations.ParkedValueReturns := by
  intro s k n fall hpos _
  have hn : n ≠ 0 := Nat.ne_of_gt hpos
  dsimp only
  rw [(holds_parkAt s k n fall).act_unparkAt]
  refine ⟨Act.sGet_sSet _ hn _ _, Act.sDef_sSet _ hn _ _, ?_⟩
  simp [Act.spillOf, Act.sSet, hn, spillKey]

end Sys2Proof.Machine
end

section
/-!
Tile and table words (R108 to R110, R231, R232, R247, R257 to R259, R398, R416 to R419): what TLDEF, TLQRY, TLSET, MMROW, RPT, RPTEND,
TBLLD and TBLX end in.
-/

namespace Sys2Proof.Machine

variable {w : Operands} {s r t : State} {opc : Nat}

/-! ## Words that serialise or not -/

section
variable {serial : Bool} {eff : State → Res} (h : Issues opc w serial s r)
include h

theorem issueWord_done (he : eff r = .done t) : issueWord opc w serial eff s = t.issued opc w := by
  obtain ⟨q, hq⟩ := issueWord_of_issues h eff
  rw [hq, he]
  rfl

theorem issueWord_halt (he : eff r = .halt t) : issueWord opc w serial eff s = t.turned opc w.head := by
  obtain ⟨q, hq⟩ := issueWord_of_issues h eff
  rw [hq, he]
  rfl

theorem issueWord_fault {f : FaultReq} (he : eff r = .fault f t) : issueWord opc w serial eff s = t.takeFault opc w f := by
  obtain ⟨q, hq⟩ := issueWord_of_issues h eff
  rw [hq, he]
  rfl

end

/-! ## TLDEF, TLQRY and MMROW -/

section
variable (hd : r.deferredIn 0x312 w [0, 2] = none)
include hd

theorem effTldef_busy (hstate : (r.tile r.myCore ((r.val w.c).toNat % 16)).state ≠ .empty) : effTldef w r =
    .fault (tileBusyFault ((r.val w.c).toNat % 16) (r.tile r.myCore ((r.val w.c).toNat % 16))) r := by
  unfold effTldef
  rw [hd]
  exact if_pos (bne_iff_ne.2 hstate)

/-- TLDEF of an empty tile undefines it, defines it, or faults. -/
theorem effTldef_empty (hstate : (r.tile r.myCore ((r.val w.c).toNat % 16)).state = .empty) : effTldef w r =
    if (bits (r.val w.a) 13 10).toNat = 0 then .done (r.setTile r.myCore ((r.val w.c).toNat % 16) {})
    else if 512 < (bits (r.val w.a) 23 9).toNat + (bits (r.val w.a) 13 10).toNat then
      .fault { code := 0x08, space := 1, addr := BitVec.ofNat 64 (64 * (bits (r.val w.a) 23 9).toNat) } r
    else if reservedRank (bits (r.val w.a) 32 32) then .fault { code := 0x22, addr := (bits (r.val w.a) 32 32).zeroExtend 64 } r
    else .done (r.setTile r.myCore ((r.val w.c).toNat % 16)
      { rank := bits (r.val w.a) 32 32, base := (bits (r.val w.a) 23 9).toNat, size := (bits (r.val w.a) 13 10).toNat }) := by
  unfold effTldef
  rw [hd]
  exact if_neg (by simp [hstate])

end

theorem effTlqry_eq (hd : r.deferredIn 0x313 w [2] = none) :
    effTlqry w r = .done (r.wroteS (opndNum w.a) (r.tile r.myCore ((r.val w.c).toNat % 16)).word) := by
  unfold effTlqry
  rw [hd]
  rfl

theorem effMmrow_eq (hd : r.deferredIn 0x302 w [2] = none) : effMmrow w r =
    if 7 < (r.val w.c).toNat then .fault { code := 0x0C, space := 3, addr := r.val w.c } r
    else .done (r.wroteS (opndNum w.a) (tget {} (r.val w.c).toNat (r.core r.myCore).rows).word) := by
  unfold effMmrow
  rw [hd]
  rfl

/-! ## TLSET -/

section
variable (hd : r.deferredIn 0x314 w [2] = none)
include hd

theorem effTlset_undefined (hsize : (r.tile r.myCore (r.tlArgs w).1).size = 0) :
    effTlset w r = .fault (tileUndefined (r.tlArgs w).1) r := by
  unfold effTlset
  rw [hd]
  exact if_pos hsize

variable (hsize : (r.tile r.myCore (r.tlArgs w).1).size ≠ 0)
include hsize

theorem effTlset_filling (hwant : (r.tlArgs w).2 = 1) : effTlset w r = r.tlFill (r.tlArgs w).1 := by
  have hst : (r.val w.c).toNat / 16 % 4 = 1 := hwant
  unfold effTlset
  rw [hd]
  refine (if_neg hsize).trans ?_
  rw [hst]
  rfl

theorem effTlset_ready (hwant : (r.tlArgs w).2 = 2) : effTlset w r = r.tlReady (r.tlArgs w).1 := by
  have hst : (r.val w.c).toNat / 16 % 4 = 2 := hwant
  unfold effTlset
  rw [hd]
  refine (if_neg hsize).trans ?_
  rw [hst]
  rfl

theorem effTlset_waits (hwant : (r.tlArgs w).2 = 0 ∨ (r.tlArgs w).2 = 3) :
    effTlset w r = r.tlWait (r.tlArgs w).1 (decide ((r.tlArgs w).2 = 0)) := by
  have hst : (r.val w.c).toNat / 16 % 4 = 0 ∨ (r.val w.c).toNat / 16 % 4 = 3 := hwant
  unfold effTlset
  rw [hd]
  refine (if_neg hsize).trans ?_
  rcases hst with h | h
  all_goals
    rw [State.tlArgs, h]
    rfl

end

section
variable {i : Nat}

theorem tlFill_state (h : (r.tile r.myCore i).state ≠ .empty) : r.tlFill i = .fault (tileStateFault i 1) r :=
  if_pos (bne_iff_ne.2 h)

/-- An empty tile fills, with a unit of it owed, where the obligation table has room for that (R419). -/
theorem tlFill_empty (h : (r.tile r.myCore i).state = .empty) : r.tlFill i =
    match r.me.oblAcquire .tile (tileHandle i) (r.tile r.myCore i).rank 1 with
    | none => .fault { code := 0x24, addr := tileHandle i } r
    | some a => .done ((r.modMe (fun _ => a)).setTile r.myCore i
        { r.tile r.myCore i with state := .filling, owed := true, by_ := .act r.me.uid }) := by
  unfold State.tlFill
  exact (if_neg (by simp [h])).trans (by cases r.me.oblAcquire .tile (tileHandle i) (r.tile r.myCore i).rank 1 <;> rfl)

theorem tlReady_eq : r.tlReady i =
    if (r.tile r.myCore i).state = .filling ∧ r.me.oblUnits .tile (tileHandle i) ≠ 0
    then .done ((r.modMe (fun a => a.oblDischarge .tile (tileHandle i))).tileReady r.myCore i false)
    else .fault (tileStateFault i 2) r := by
  unfold State.tlReady
  by_cases hstate : (r.tile r.myCore i).state = .filling
  · by_cases howed : r.me.oblUnits .tile (tileHandle i) = 0
    · simp [hstate, howed]
    · simp [hstate, howed]
  · simp [hstate]

variable {empty : Bool}

theorem tlWait_illegal (h : r.rankLegal r.myCore r.me none (r.tile r.myCore i).rank = false) :
    r.tlWait i empty = .fault (r.rankOrder (BitVec.ofNat 64 i) (r.tile r.myCore i).rank) r :=
  if_pos (by simp [h])

variable (hrank : r.rankLegal r.myCore r.me none (r.tile r.myCore i).rank = true)
include hrank

theorem tlWait_ready (h : (r.tile r.myCore i).state = .ready) : r.tlWait i empty =
    .done (r.setTile r.myCore i { r.tile r.myCore i with state := if empty then .empty else .draining }) := by
  simp [State.tlWait, hrank, h]

theorem tlWait_draining (h : (r.tile r.myCore i).state = .draining) :
    r.tlWait i true = .done (r.setTile r.myCore i { r.tile r.myCore i with state := .empty }) := by
  simp [State.tlWait, hrank, h]

theorem tlWait_filling (h : (r.tile r.myCore i).state = .filling) : r.tlWait i empty =
    .halt (r.enterWait (.tile r.myCore i (if empty then .empty else .draining)) (r.tile r.myCore i).rank) := by
  simp [State.tlWait, hrank, h]

/-- Nothing is to come that the word could wait for (R147). -/
theorem tlWait_orphan (h : (r.tile r.myCore i).state = .empty ∨ ((r.tile r.myCore i).state = .draining ∧ empty = false)) :
    r.tlWait i empty = .fault (orphanWait (BitVec.ofNat 64 i) (r.tile r.myCore i).rank) r := by
  rcases h with h | ⟨h, rfl⟩
  · simp [State.tlWait, hrank, h]
  · simp [State.tlWait, hrank, h]

end

/-- A word that is decided by a condition is done with, or faults. -/
theorem issue_ite {p : Prop} [Decidable p] {eff : State → Res} {f : FaultReq} (h : Issues opc w false s r)
    (he : eff r = if p then .fault f r else .done t) :
    issue opc w eff s = .next (if p then r.takeFault opc w f else t.issued opc w) := by
  split
  · next hp => exact issue_fault h (he.trans (if_pos hp))
  · next hp => exact issue_done h (he.trans (if_neg hp))

theorem tileWordsComplete : TileWordsComplete := by
  refine ⟨fun w s r hi hd => ⟨fun hstate => issue_fault hi (effTldef_busy hd hstate), fun hstate => ?_⟩,
    fun w s r hi hd => issue_done hi (effTlqry_eq hd), fun w s r hi hd => issue_ite hi (effMmrow_eq hd), fun w s r hi hd => ?_⟩
  · have heff := effTldef_empty hd hstate
    refine ⟨fun hsize => issue_done hi (heff.trans (if_pos hsize)), fun hsize hbounds => issue_fault hi ?_, fun hsize hbounds =>
      issue_ite hi ?_⟩
    · rw [heff, if_neg hsize, if_pos hbounds]
    · rw [heff, if_neg hsize, if_neg (Nat.not_lt.2 hbounds)]
  · have hdone {t} (he : effTlset w r = .done t) : exec (.tlset w) s = .next (t.issued 0x314 w) := congrArg _ (issueWord_done hi he)
    have hfault {f} (he : effTlset w r = .fault f r) : exec (.tlset w) s = .next (r.takeFault 0x314 w f) :=
      congrArg _ (issueWord_fault hi he)
    have hwait (hsize) (hwant : (r.tlArgs w).2 = 0 ∨ (r.tlArgs w).2 = 3) := effTlset_waits hd hsize hwant
    refine ⟨fun hsize => hfault (effTlset_undefined hd hsize), fun hsize hwant => ?_, fun hsize hwant => ?_,
      fun hsize hwant hrank => hfault ((hwait hsize hwant).trans (tlWait_illegal hrank)), fun hsize hwant hrank => ?_⟩
    · have heff := effTlset_filling hd hsize hwant
      refine ⟨fun hstate => hfault (heff.trans (tlFill_state hstate)), fun hstate => ?_⟩
      have hfill := heff.trans (tlFill_empty hstate)
      split
      · next hfull => exact hfault (by rw [hfill, hfull])
      · next a hroom => exact hdone (by rw [hfill, hroom])
    · have heff := (effTlset_ready hd hsize hwant).trans tlReady_eq
      split
      · next h => exact hdone (heff.trans (if_pos h))
      · next h => exact hfault (heff.trans (if_neg h))
    · have heff := hwait hsize hwant
      refine ⟨fun hstate => hdone ?_, fun hstate hempty => hdone ?_, fun hstate => congrArg _ (issueWord_halt hi ?_),
        fun hstate => hfault ?_⟩
      · rw [heff, tlWait_ready hrank hstate]
        simp
      · rw [heff, hempty]
        exact tlWait_draining hrank hstate
      · rw [heff, tlWait_filling hrank hstate]
        simp
      · exact heff.trans (tlWait_orphan hrank (hstate.imp_right fun ⟨hdrain, h3⟩ => ⟨hdrain, by simp [h3]⟩))

/-! ## RPT and RPTEND -/

/-- The word in execution comes from the same place, and its slot has the same guards. -/
def SameGuards (s t : State) : Prop := t.iss = s.iss ∧ t.me.g = s.me.g

theorem SameGuards.ite {u : State} {p : Prop} [Decidable p] (ht : SameGuards s t) (hu : SameGuards s u) :
    SameGuards s (if p then t else u) := by
  split
  · exact ht
  · exact hu

/-- To bring a register back touches no guard. -/
theorem SameGuards.unparkAt (h : SameGuards s t) (isV : Bool) (n : Nat) : SameGuards s (t.unparkAt t.cur isV n) := by
  have hreg (v : Vec) (d : Bool) :
      SameGuards s (t.modMe (fun a => if isV then a.vSet n v d else a.sSet n (lanesWord v) d)) := by
    refine ⟨h.1, ?_⟩
    rw [State.me_modMe]
    cases isV with
    | false => exact (Act.sSet_g ..).trans h.2
    | true => exact h.2
  have hclean (v : Vec) (d : Bool) (gs : List Granule) :
      SameGuards s ((t.modMe (fun a => if isV then a.vSet n v d else a.sSet n (lanesWord v) d)).cleanAll gs) := (hreg v d).ite (hreg v d)
  exact h.ite ((hclean _ _ _).ite (hclean _ _ _))

theorem guardOf_unparkSources (s : State) (opc : Nat) (w : Operands) (h : Head) : (s.unparkSources opc w).guardOf h = s.guardOf h := by
  obtain ⟨hiss, hg⟩ : SameGuards s (s.unparkSources opc w) :=
    unparkSources_keeps (P := SameGuards s) (fun _ isV n h => h.unparkAt isV n) ⟨rfl, rfl⟩ opc w
  unfold State.guardOf Act.gGet
  rw [hiss, hg]

/-- RPT opens a repetition, of count 0 where its guard is false (R398). -/
theorem effRpt_opens {on : Bool} (hguard : r.guardOf w.head = some on) (hd : on = true → r.deferredIn 0x308 w [2] = none) :
    effRpt w r = .done (r.modMe (fun a => { a with
      counted := none
      rpt := some { strm := w.head.stream, head := w.head, pc := a.pc, base := (r.val w.c).toNat / 8192 % 64,
                    stagger := (r.val w.c).toNat / 256 % 32, left := if on then (r.val w.c).toNat % 256 else 0 } })) := by
  unfold effRpt
  cases on with
  | false =>
    rw [hguard]
    rfl
  | true =>
    rw [hguard, hd rfl]
    rfl

/-- RPT at the front end, once its guard has resolved. -/
theorem execRpt_done {on : Bool} (hmay : s.mayIssue = true) (hfront : s.iss = .front) (hvl : s.vlgetPending 0x308 w = false)
    (hlate : s.lateBusy 0x308 w = false) (hroom : s.queueRoom 0x308 w = true) (hguard : s.guardOf w.head = some on)
    (hhome : s.unparkSources 0x308 w = r) (hclean : r.poisonedReg 0x308 w = none) (he : effRpt w r = .done t) :
    execRpt w s = .next (t.issued 0x308 w) := by
  have hrun : s.run 0x308 w (effRpt w) = .done t := by
    rw [State.run, hhome, hclean]
    exact he
  simp only [execRpt, hmay, hfront, State.rptWord, hvl, hlate, hroom, hguard, hrun, Bool.not_true, Bool.or_self, Bool.false_eq_true,
    if_false, Option.isNone_some]
  rfl

/-! ## TBLLD and TBLX -/

theorem effTblld_loads (hd : r.firstDeferredV (vOf w.a) = none)
    (hearlier : r.earlier.any (fun p => p.strm == .E && p.gv != some false) = false) (hacc : r.accepting = false) :
    effTblld w r = .done (r.modCore r.myCore (fun c =>
      { c with t4 := (upTo 16).map (fun i => bits ((r.vecOf w.a).lane (i / 4)) (8 * (i % 4)) 8) })) := by
  unfold effTblld
  rw [hd]
  exact if_neg (by simp [hearlier, hacc])

theorem effTblx_looksUp (hb : r.firstDeferredV (vOf w.b) = none) (hc : r.firstDeferred (sOf 0x311 2 w.c) = none) :
    effTblx w r = .done (r.putLanes w.a (r.active w.msk) (fun i => nth 0 (PageFmt.t4.lanes w.ty (r.core r.myCore).t4
      (leBytes 4 ((r.vecOf w.b).lane (2 * ((r.val w.c).toNat % 8))).toNat ++
        leBytes 4 ((r.vecOf w.b).lane (2 * ((r.val w.c).toNat % 8) + 1)).toNat)) i)) := by
  unfold effTblx
  rw [hb, hc]

theorem repetitionAndTableWords : RepetitionAndTableWords := by
  refine ⟨fun w s r on hmay hfront hvl hlate hroom hguard hhome hclean hd => ?_, fun w s hmay => congrArg _ (if_pos hmay),
    fun w s r hi hd hearlier hacc => issue_done hi (effTblld_loads hd hearlier hacc),
    fun w s r hi hb hc => issue_done hi (effTblx_looksUp hb hc)⟩
  have hguard' : r.guardOf w.head = some on := by rw [← hhome, guardOf_unparkSources, hguard]
  exact execRpt_done hmay hfront hvl hlate hroom hguard hhome hclean (effRpt_opens hguard' hd)

end Sys2Proof.Machine
end

section
/-!
Passes of a repetition (R46, R259, R260): a closed body goes on word by word and pass by pass, and each pass rotates the fields of its
words.
-/

namespace Sys2Proof.Machine

/-! ## Rotated fields (R260) -/

section
variable (b : Nat) (f : BitVec 21)

/-- The size of the file that a register field names: s, v or z (R46). -/
def rotateSize (file : Nat) : Nat := match file with | 0 => 64 | 1 => 32 | _ => 8

/-- The number that a rotating field goes on to. -/
def rotatedNum : Nat := ((numOf f).toNat + b) % rotateSize (fileCode f)

theorem rotateSize_of_two_le {file : Nat} (h : 2 ≤ file) : rotateSize file = 8 := by
  obtain ⟨n, rfl⟩ := Nat.exists_eq_add_of_le' h
  rfl

theorem rotatedNum_lt : rotatedNum b f < 64 := by
  have hsize : 0 < rotateSize (fileCode f) ∧ rotateSize (fileCode f) ≤ 64 := by
    unfold rotateSize
    split <;> decide
  exact (Nat.mod_lt _ hsize.1).trans_le hsize.2

/-- A number in its place in the field. -/
theorem ofNat_mul_512 {m : Nat} (h : m < 64) : BitVec.ofNat 21 (m * 512) = 0#5 ++ 0#1 ++ BitVec.ofNat 6 m ++ 0#9 := by
  apply BitVec.eq_of_toNat_eq
  rw [BitVec.toNat_append, BitVec.toNat_append]
  simp [Nat.shiftLeft_eq]
  omega

/-- ROT and NUM of a field masked out, and a number put in. -/
theorem replaceNum (x : BitVec 5) (y : BitVec 1) (n m : BitVec 6) (z : BitVec 9) :
    ((x ++ y ++ n ++ z) &&& (BitVec.allOnes 5 ++ 0#1 ++ 0#6 ++ BitVec.allOnes 9)) ||| (0#5 ++ 0#1 ++ m ++ 0#9) =
      x ++ 0#1 ++ m ++ z := by
  simp only [BitVec.and_append, BitVec.or_append, BitVec.and_allOnes, BitVec.and_zero, BitVec.or_zero, BitVec.zero_or]

theorem rotateField_fixed (h : kindOf f ≠ 0 ∨ rotOf f = false) : rotateField b f = f := by
  refine if_neg ?_
  rcases h with h | h
  all_goals simp [h]

/-- A field that rotates keeps FILE, KIND and MOD, with ROT 0. -/
theorem rotateField_rotates (hkind : kindOf f = 0) (hrot : rotOf f = true) :
    rotateField b f = bits f 16 5 ++ 0#1 ++ BitVec.ofNat 6 (rotatedNum b f) ++ bits f 0 9 := by
  have hf : f = bits f 16 5 ++ bits f 15 1 ++ bits f 9 6 ++ bits f 0 9 := by
    simp (disch := decide) only [bits_append_bits]
    exact (bits_all f).symm
  have heq : rotateField b f = (f &&& ~~~ 0xFE00#21) ||| BitVec.ofNat 21 (rotatedNum b f * 512) := by
    simp only [rotateField, hkind, hrot, Bool.and_self, decide_true, if_true]
    rfl
  have hmask : ~~~ 0xFE00#21 = BitVec.allOnes 5 ++ 0#1 ++ 0#6 ++ BitVec.allOnes 9 := by decide
  have hparts := replaceNum (bits f 16 5) (bits f 15 1) (bits f 9 6) (BitVec.ofNat 6 (rotatedNum b f)) (bits f 0 9)
  rw [heq, ofNat_mul_512 (rotatedNum_lt b f), hmask, ← hparts, ← hf]

end

theorem rotatedFields : RotatedFields := by
  refine fun b f => ⟨rotateField_fixed b f, fun hkind hrot => ?_⟩
  have hnum : (numOf (rotateField b f)).toNat = rotatedNum b f := by
    rw [numOf, rotateField_rotates b f hkind hrot]
    simp (disch := decide) only [bits_append_high, bits_append_low, Nat.sub_self, bits_all]
    exact Nat.mod_eq_of_lt (rotatedNum_lt b f)
  refine ⟨?_, ?_, ?_, ?_, fun hfile => ?_, fun hfile => ?_, fun hfile => ?_⟩
  · rw [rotOf, rotateField_rotates b f hkind hrot]
    simp (disch := decide) only [getLsbD_append_high, getLsbD_append_low, Nat.reduceSub]
    rfl
  · rw [kindOf, rotateField_rotates b f hkind hrot]
    simp (disch := decide) only [bits_append_high, Nat.reduceSub, bits_bits]
    exact hkind
  · rw [fileCode, rotateField_rotates b f hkind hrot]
    simp (disch := decide) only [bits_append_high, Nat.reduceSub, bits_bits]
    rfl
  · rw [rotateField_rotates b f hkind hrot]
    simp (disch := decide) only [bits_append_low, bits_all]
  · rw [hnum, rotatedNum, hfile]
    rfl
  · rw [hnum, rotatedNum, hfile]
    rfl
  · rw [hnum, rotatedNum, rotateSize_of_two_le hfile]

/-! ## Passes (R260) -/

/-- What is left of a closed repetition before word k of pass p + 1. -/
def Rpt.pass (r : Rpt) (p k : Nat) : Rpt :=
  { r with closed := true, left := r.left - 1 - p, base := (r.base + (p + 1) * r.stagger) % 64, at_ := k }

/-- One more word of a closed repetition has been taken. -/
def Rpt.took (x : Option Rpt) : Option Rpt := x.bind Rpt.next

section
variable {r : Rpt} {p k : Nat}

theorem close_eq_none (h : r.left ≤ 1 ∨ r.body = []) : r.close = none := by
  refine if_pos ?_
  rcases h with h | h
  all_goals simp [h]

theorem close_eq_pass (hbody : r.body ≠ []) (hleft : 1 < r.left) : r.close = some (r.pass 0 0) := by
  have hopen : ¬ (r.left ≤ 1 || r.body.isEmpty) = true := by simp [hbody, hleft]
  rw [Rpt.close, if_neg hopen, Rpt.pass, Nat.zero_add, Nat.one_mul, Nat.sub_zero]

theorem next_pass_word (h : k + 1 < r.body.length) : (r.pass p k).next = some (r.pass p (k + 1)) := if_pos h

/-- After the last word of a pass the next pass begins. -/
theorem next_pass_last (hk : k + 1 = r.body.length) (hp : p + 2 < r.left) : (r.pass p k).next = some (r.pass (p + 1) 0) := by
  have hword : ¬ (r.pass p k).at_ + 1 < (r.pass p k).body.length := by simp [Rpt.pass, hk]
  have hpass : ¬ (r.pass p k).left ≤ 1 := by simp only [Rpt.pass]; omega
  have hleft : r.left - 1 - p - 1 = r.left - 1 - (p + 1) := by omega
  have hbase : ((r.base + (p + 1) * r.stagger) % 64 + r.stagger) % 64 = (r.base + (p + 1 + 1) * r.stagger) % 64 := by
    rw [Nat.mod_add_mod, Nat.add_assoc, Nat.succ_mul (p + 1)]
  rw [Rpt.next, if_neg hword, if_neg hpass]
  simp only [Rpt.pass, hleft, hbase]

/-- After the last word of the last pass the repetition is over. -/
theorem next_pass_end (hk : k + 1 = r.body.length) (hp : r.left ≤ p + 2) : (r.pass p k).next = none := by
  have hword : ¬ (r.pass p k).at_ + 1 < (r.pass p k).body.length := by simp [Rpt.pass, hk]
  have hpass : (r.pass p k).left ≤ 1 := by simp only [Rpt.pass]; omega
  rw [Rpt.next, if_neg hword, if_pos hpass]

theorem took_iterate_none (n : Nat) : Rpt.took^[n] none = none := Function.iterate_fixed rfl n

/-- The words of a pass are taken one after the other. -/
theorem took_iterate_word (h : k < r.body.length) : Rpt.took^[k] (some (r.pass p 0)) = some (r.pass p k) := by
  induction k with
  | zero => rfl
  | succ k ih =>
    rw [Function.iterate_succ_apply', ih (by omega)]
    exact next_pass_word h

/-- The word after the words of a pass is the first of the next. -/
theorem took_iterate_pass (hbody : r.body ≠ []) (hp : p + 2 < r.left) :
    Rpt.took^[r.body.length] (some (r.pass p 0)) = some (r.pass (p + 1) 0) := by
  obtain ⟨m, hm⟩ := Nat.exists_eq_add_one_of_ne_zero (mt List.length_eq_zero_iff.1 hbody)
  rw [hm, Function.iterate_succ_apply', took_iterate_word (by omega)]
  exact next_pass_last hm.symm hp

theorem took_iterate_end (hbody : r.body ≠ []) (hp : p + 2 = r.left) :
    Rpt.took^[r.body.length] (some (r.pass p 0)) = none := by
  obtain ⟨m, hm⟩ := Nat.exists_eq_add_one_of_ne_zero (mt List.length_eq_zero_iff.1 hbody)
  rw [hm, Function.iterate_succ_apply', took_iterate_word (by omega)]
  exact next_pass_end hm.symm hp.ge

/-- The passes are taken one after the other. -/
theorem took_iterate_passes (hbody : r.body ≠ []) (hp : p + 1 < r.left) :
    Rpt.took^[p * r.body.length] r.close = some (r.pass p 0) := by
  induction p with
  | zero => rw [Nat.zero_mul, Function.iterate_zero_apply, close_eq_pass hbody (by omega)]
  | succ p ih =>
    rw [Nat.succ_mul, Nat.add_comm, Function.iterate_add_apply, ih (by omega)]
    exact took_iterate_pass hbody hp

/-- After COUNT passes nothing is left. -/
theorem took_iterate_all {n : Nat} (hn : (r.left - 1) * r.body.length ≤ n) : Rpt.took^[n] r.close = none := by
  by_cases h : r.left ≤ 1 ∨ r.body = []
  · rw [close_eq_none h, took_iterate_none]
  · obtain ⟨hleft, hbody⟩ := not_or.1 h
    obtain ⟨p, hp⟩ := Nat.exists_eq_add_of_le' (Nat.not_le.1 hleft : 2 ≤ r.left)
    obtain ⟨m, rfl⟩ := Nat.exists_eq_add_of_le' hn
    have hcount : (r.left - 1) * r.body.length = r.body.length + p * r.body.length := by
      rw [hp, show p + 2 - 1 = p + 1 by omega, Nat.succ_mul, Nat.add_comm]
    rw [hcount, Function.iterate_add_apply, Function.iterate_add_apply, took_iterate_passes hbody (by omega),
      took_iterate_end hbody hp.symm, took_iterate_none]

end

/-- A closed body whose stream is wanted has its next word placed. -/
theorem front_closed {s : State} {want : Option Stream} {r : Rpt} (hst : s.me.st = .running) (hrpt : s.me.rpt = some r)
    (hscan : r.scan = none) (hclosed : r.closed = true) (hwant : wantedBy want r.strm.code.toNat = true) :
    s.front want = s.placeWord r := by
  simp [State.front, hst, hrpt, hscan, hclosed, hwant]

/-- The word is taken once the front end has gone past it; the front end stands where it stood. -/
theorem placeWord_takes {s t : State} {r : Rpt} {pc : Word} {w : IWord} {j : Instr} (hword : r.body[r.at_]? = some (pc, w))
    (hdec : decodeWord false (rotateWord r.base w) = .ok j) (hexec : exec j (s.modMe (fun a => { a with pc := pc })) = .next t) :
    s.placeWord r = .next (t.modAct s.cur (fun a => { a with pc := s.me.pc, rpt := if a.pc = pc + 12 then r.next else some r })) := by
  have hexec' : exec j (s.modAct s.cur (fun a => { a with pc := pc })) = .next t := hexec
  simp only [State.placeWord, hword, hdec, hexec', beq_iff_eq]
  exact congrArg _ (t.modAct_congr rfl)

theorem repetitionPasses : RepetitionPasses := by
  refine ⟨fun s want r pc w j t hst hrpt hscan hclosed hwant hword hdec hexec => ?_, fun r => ⟨close_eq_none,
    fun p k hbody hp hk => ?_, fun n => took_iterate_all⟩⟩
  · rw [front_closed hst hrpt hscan hclosed hwant, placeWord_takes hword hdec hexec]
  · change Rpt.took^[p * r.body.length + k] r.close = some (r.pass p k)
    rw [Nat.add_comm, Function.iterate_add_apply, took_iterate_passes hbody hp, took_iterate_word hk]

end Sys2Proof.Machine
end

section
/-!
The body of an open repetition (R259 to R261): which words join it, and which close it.
-/

namespace Sys2Proof.Machine

variable {s t : State} {opc : Nat}

/-! ## A slot that is changed twice -/

/-- An entry that is written twice holds what was written last, where the first value was listed. -/
theorem tset_tset {α : Type} [DecidableEq α] {d u : α} (hu : u ≠ d) (k : Nat) (v : α) (m : Tab α) :
    tset d k v (tset d k u m) = tset d k v m := by
  induction m with
  | nil => simp [tset, tdel, hu]
  | cons x m ih =>
    obtain ⟨k', v'⟩ := x
    rcases lt_trichotomy k k' with h | rfl | h
    · simp [tset, tdel, h, hu, Nat.ne_of_gt h]
    · simp [tset, hu]
    · simp [tset, h.not_gt, Nat.ne_of_lt h, ih]

/-- The same of a slot that the first change leaves in no idle state. -/
theorem modAct_modAct {k : Nat} {f g : Act → Act} (h : f (s.act k) ≠ {}) :
    (s.modAct k f).modAct k g = s.modAct k (fun a => g (f a)) := by
  unfold State.modAct
  rw [State.act_setAct]
  unfold State.setAct
  rw [tset_tset h]

/-! ## The opcode of a decoded word -/

section
variable {body : Bool} {x : IWord} {i : Instr} (hdec : decodeWord body x = .ok i)
include hdec

/-- What a word decodes to has the opcode of the word. -/
theorem toOpcode_of_decodeWord : ∃ v, toOpcode i = some (opcField x, v) := by
  obtain ⟨-, e, he, hof⟩ := decodeWord_eq_ok.1 hdec
  exact ⟨_, toOpcode_of_ofOpcode he hof⟩

theorem opcField_eq {v : Operands} (hop : toOpcode i = some (opc, v)) : opcField x = opc := by
  obtain ⟨v', hop'⟩ := toOpcode_of_decodeWord hdec
  exact congrArg Prod.fst (Option.some.inj (hop'.symm.trans hop))

theorem ofOpcode_of_decodeWord (h : opcField x = opc) : ∃ v, ofOpcode opc v = some i := by
  obtain ⟨v, hop⟩ := toOpcode_of_decodeWord hdec
  exact ⟨v, ofOpcode_of_toOpcode (h ▸ hop)⟩

end

/-! ## Words at the front end -/

section
variable {want : Option Stream} {q : Rpt} {x : IWord} {i : Instr} (hrpt : s.me.rpt = some q)
  (hwant : wantedBy want (streamField x) = true)
include hrpt hwant

/-- An END whose guard is true closes the body; any other has its effect. -/
theorem decoded_end {v : Operands} (hdec : decodeWord (q.takes x) x = .ok (.endOp v)) : s.decoded want x =
    if s.guardOf v.head = some true then .next (s.modMe (fun a => { a with rpt := q.close })) else exec (.endOp v) s := by
  simp only [State.decoded, hrpt, hwant, hdec, beq_iff_eq, Bool.not_true, Bool.false_eq_true, if_false]
  rfl

/-- An RPT closes the body, and is decoded again. -/
theorem decoded_rpt {v : Operands} (hdec : decodeWord (q.takes x) x = .ok (.rpt v)) :
    s.decoded want x = .next (s.modMe (fun a => { a with rpt := q.close })) := by
  simp only [State.decoded, hrpt, hwant, hdec, Bool.not_true, Bool.false_eq_true, if_false]
  rfl

/-- RPTEND of the body's stream closes it; one of another stream has its effect. -/
theorem decoded_rptend {v : Operands} (hdec : decodeWord (q.takes x) x = .ok (.rptend v)) : s.decoded want x =
    if q.takes x then .next (s.modMe (fun a => { a with rpt := q.close, pc := s.me.pc + 12 })) else exec (.rptend v) s := by
  simp only [State.decoded, hrpt, hwant, hdec, Bool.not_true, Bool.false_eq_true, if_false]
  rfl

/-- Any other word of the body's stream joins the body, which a 33rd closes; one of another stream has its effect. -/
theorem decoded_other (hdec : decodeWord (q.takes x) x = .ok i) (hend : opcField x ≠ 0x093) (hopen : opcField x ≠ 0x308)
    (hclose : opcField x ≠ 0x309) : s.decoded want x =
      if q.takes x = false then exec i s
      else if 32 ≤ q.body.length then .next (s.modMe (fun a => { a with rpt := q.close }))
      else s.bodyWord q x := by
  simp only [State.decoded, hrpt, hwant, hdec, Bool.not_true, Bool.false_eq_true, if_false]
  split
  · next h => cases h
  · next v h _ => exact absurd (opcField_eq hdec rfl) hend
  · exact absurd (opcField_eq hdec rfl) hopen
  · exact absurd (opcField_eq hdec rfl) hclose
  · next h _ _ _ =>
    cases h
    simp only [Bool.not_eq_true']
    rfl

end

/-- A word with no pass to come only joins the body (R260). -/
theorem bodyWord_joins {q : Rpt} {x : IWord} (hleft : q.left = 0) : s.bodyWord q x =
    .next (s.modMe (fun a => { a with rpt := some { q with body := q.body ++ [(s.me.pc, x)] }, pc := s.me.pc + 12 })) := by
  unfold State.bodyWord
  rw [if_pos hleft]
  exact congrArg _ (modAct_modAct fun h => Option.some_ne_none _ (congrArg Act.rpt h))

/-- Pass 0 issues a word, which joins the body once the front end has gone past it (R260). -/
theorem bodyWord_issues {q : Rpt} {x : IWord} {j : Instr} (hleft : q.left ≠ 0) (hdec : decodeWord false (rotateWord q.base x) = .ok j)
    (hexec : exec j s = .next t) : s.bodyWord q x = .next (if (t.act s.cur).pc = s.me.pc + 12
      then t.modAct s.cur (fun a => { a with rpt := some { q with body := q.body ++ [(s.me.pc, x)] } }) else t) := by
  simp only [State.bodyWord, if_neg hleft, hdec, hexec, beq_iff_eq]

theorem repetitionCapture : RepetitionCapture := by
  intro s want q x i hrpt hwant hdec
  dsimp only
  have hother hend hopen hclose := decoded_other hrpt hwant hdec hend hopen hclose
  refine ⟨fun htakes hend hopen hclose hroom => ?_, fun htakes hclose => ?_, fun htakes hend hopen hclose hfull => ?_, fun hopen => ?_,
    fun v hv => ?_, fun htakes hopen hend => ?_⟩
  · have hjoins : s.decoded want x = s.bodyWord q x := by
      rw [hother hend hopen hclose, if_neg (by simp [htakes]), if_neg (Nat.not_le.2 hroom)]
    exact ⟨fun hleft => hjoins.trans (bodyWord_joins hleft), fun j t hleft hj ht => hjoins.trans (bodyWord_issues hleft hj ht)⟩
  · obtain ⟨v, hv⟩ := ofOpcode_of_decodeWord hdec hclose
    obtain rfl : Instr.rptend v = i := Option.some.inj hv
    exact (decoded_rptend hrpt hwant hdec).trans (if_pos htakes)
  · rw [hother hend hopen hclose, if_neg (by simp [htakes]), if_pos hfull]
    exact congrArg _ (s.modAct_congr rfl)
  · obtain ⟨v, hv⟩ := ofOpcode_of_decodeWord hdec hopen
    obtain rfl : Instr.rpt v = i := Option.some.inj hv
    rw [decoded_rpt hrpt hwant hdec]
    exact congrArg _ (s.modAct_congr rfl)
  · subst hv
    rw [decoded_end hrpt hwant hdec]
    split
    · exact congrArg _ (s.modAct_congr rfl)
    · rfl
  · by_cases hclose : opcField x = 0x309
    · obtain ⟨v, hv⟩ := ofOpcode_of_decodeWord hdec hclose
      obtain rfl : Instr.rptend v = i := Option.some.inj hv
      exact (decoded_rptend hrpt hwant hdec).trans (if_neg (by simp [htakes]))
    · rw [hother hend hopen hclose, if_pos htakes]

/-- Settles O23: each word ends in the one case of its effect that its conditions lead to, and a closed body counts its words and its
passes. -/
theorem tilesAndRepetition : Obligations.TilesAndRepetition :=
  ⟨tileWordsComplete, repetitionAndTableWords, repetitionCapture, repetitionPasses, rotatedFields⟩

end Sys2Proof.Machine
end

section
/-!
Signal words (R134 to R138, R143, R144, R391, R392, R403 to R408, R443, R444): what each ends in once its reference has reached a block,
by the block's state, and what OBLGIVE and OBLQRY do with the table.
-/

namespace Sys2Proof.Machine

variable {opc : Nat} {w : Operands} {fields : List Nat} {ref : Word} {rel : Bool} {r u : State} {p : Piece} {home : Nat}

/-! ## The step at the home -/

/-- A signal operation that reaches its block is its step there. -/
theorem ReachesBlock.signalOp_eq (h : ReachesBlock opc w fields ref rel r u p home) {before : Option FaultReq} (hb : before = none)
    (at_ : State → Piece → Nat → Res) : r.signalOp opc w fields ref rel before at_ = at_ u p home := by
  obtain ⟨hd, t, v, hr, hrel, ho, hp, rfl⟩ := h
  subst hb
  exact signalOp_reached hd hr hrel ho hp

theorem liveFault_of_dead {b : Block} (h : b.live = false) : liveFault ref b = some (sigState ref b) := by simp [liveFault, h]

/-- A live block passes the check of its state (R136). -/
theorem State.liveAt.liveFault_eq (h : u.liveAt home) : liveFault ref (u.block home) = none := liveFault_none h.1 h.2

/-! ## SIGADD and SIGSET -/

/-- The state in which a SIGADD or SIGSET is made at its block: its write has an identity, a unit that the activation holds is
discharged, and its acquire stands (R136, R156, R160). -/
def State.sigReady (u : State) (w : Operands) (ref : Word) (p : Piece) : State :=
  let v := (u.sigWid p).2.modMe (fun a => if u.me.oblUnits .signal ref ≠ 0 then a.oblDischarge .signal ref else a)
  if Ord_acq w.ord then v.sigAcquire p (u.sigWid p).1 w.scope else v

theorem effSigUpdate_dead {set : Bool} (h : ReachesBlock opc w [0, 2] (r.val w.a) true r u p home) (hdead : (u.block home).live = false) :
    effSigUpdate opc set w r = .fault (sigState (r.val w.a) (u.block home)) u := by
  rw [effSigUpdate, h.signalOp_eq rfl]
  simp only [liveFault_of_dead hdead]

theorem effSigUpdate_live {set : Bool} (h : ReachesBlock opc w [0, 2] (r.val w.a) true r u p home) (hlive : u.liveAt home) :
    effSigUpdate opc set w r = .done ((u.sigReady w (r.val w.a) p).sigUpdate (u.sigReady w (r.val w.a) p).myDie (u.sigWid p).1 home
      p.page.dup set ((u.sigReady w (r.val w.a) p).val w.c) (if u.me.oblUnits .signal (r.val w.a) ≠ 0 then 1 else 0)) := by
  rw [effSigUpdate, h.signalOp_eq rfl]
  simp only [hlive.liveFault_eq]
  by_cases hheld : u.me.oblUnits .signal (r.val w.a) = 0
  · simp [hheld, State.sigReady]
  · simp [hheld, State.sigReady]

/-- The acquire of a SIGADD or SIGSET stands only on a GLB block (R156). -/
theorem sigReady_eq (u : State) (w : Operands) (ref : Word) (p : Piece) : u.sigReady w ref p =
    let v := (u.sigWid p).2.modMe (fun a => if u.me.oblUnits .signal ref ≠ 0 then a.oblDischarge .signal ref else a)
    if Ord_acq w.ord ∧ p.at_ ≠ .shm then v.modMe (fun a => { a with acq := a.acq ++ [(w.scope, (u.sigWid p).1)] }) else v := by
  unfold State.sigReady State.sigAcquire
  by_cases hacq : Ord_acq w.ord
  · by_cases hshm : p.at_ = .shm
    · simp [hacq, hshm]
    · simp [hacq, hshm]
  · simp [hacq]

theorem signalUpdatesComplete : SignalUpdatesComplete := by
  intro opc set mk hk w s r u p home hi hreach
  refine ⟨fun hdead => ?_, fun hlive => ?_⟩
  · have heff := effSigUpdate_dead (set := set) hreach hdead
    rcases hk with ⟨rfl, rfl, rfl⟩ | ⟨rfl, rfl, rfl⟩
    · exact issue_fault hi heff
    · exact issue_fault hi heff
  · have heff := effSigUpdate_live (set := set) hreach hlive
    rw [sigReady_eq] at heff
    rcases hk with ⟨rfl, rfl, rfl⟩ | ⟨rfl, rfl, rfl⟩
    · exact issue_done hi heff
    · exact issue_done hi heff

/-! ## SIGNEW and SIGFREE -/

/-- .owe does not fault where the table has room for its unit (R406). -/
theorem owe_fits {a : Option Act} {f : FaultReq} {owe : Bool} (h : owe = true → a.isSome = true) :
    (if owe && a.isNone then some f else none) = none := by
  cases owe with
  | false => rfl
  | true => exact if_neg (by simpa [Option.isSome_iff_ne_none] using h rfl)

theorem effSignew_dead {rank : Rank} {part : Part} (h : ReachesBlock 0x215 w [1, 2] (r.val w.b) (Ord_rel w.ord) r u p home)
    (howe : w.flg.getLsbD 2 = true → (r.me.oblAcquire .signal (r.val w.b) 0 1).isSome = true)
    (hdead : (u.block home).live = false) (hgood : (u.block home).bad = false)
    (hdraw : u.myPart.draw (bits w.flg 0 2).toNat (u.val w.c) = .ok (rank, part)) :
    let x := (u.sigWid p).2.modPart (u.sigWid p).2.me.part (fun _ => part)
    effSignew w r = .done ((x.closeBlock x.myDie (u.sigWid p).1 home p.page.dup
        { u.block home with value := 0, rank := rank, holders := if w.flg.getLsbD 2 then 1 else 0, poison := false, live := true }
        [] false).modMe
      (fun a => (if w.flg.getLsbD 2 then (a.oblAcquire .signal (r.val w.b) rank 1).getD a else a).sSet (opndNum w.a)
        (rank.zeroExtend 64))) := by
  rw [effSignew, h.signalOp_eq (owe_fits howe)]
  simp only [hdead, hgood, hdraw, Bool.or_self, Bool.false_eq_true, if_false]

theorem effSignew_live (h : ReachesBlock 0x215 w [1, 2] (r.val w.b) (Ord_rel w.ord) r u p home)
    (howe : w.flg.getLsbD 2 = true → (r.me.oblAcquire .signal (r.val w.b) 0 1).isSome = true)
    (hlive : (u.block home).live = true) : effSignew w r = .fault (sigState (r.val w.b) (u.block home)) u := by
  rw [effSignew, h.signalOp_eq (owe_fits howe)]
  simp only [hlive, Bool.true_or, if_true]

theorem effSigfree_eq (h : ReachesBlock 0x214 w [0] (r.val w.a) (Ord_rel w.ord) r u p home) : effSigfree w r =
    if (u.block home).live = true ∧ (u.block home).bad = false ∧ (u.block home).holders = 0 ∧ u.waiters home = [] then
      .done ((u.sigWid p).2.putBlock (u.sigWid p).2.myDie (u.sigWid p).1 home p.page.dup { u.block home with live := false })
    else .fault (sigState (r.val w.a) (u.block home)) u := by
  rw [effSigfree, h.signalOp_eq rfl]
  have hkept : (!(u.block home).live || (u.block home).bad || (u.block home).holders != 0 || !(u.waiters home).isEmpty) = true ↔
      ¬ ((u.block home).live = true ∧ (u.block home).bad = false ∧ (u.block home).holders = 0 ∧ u.waiters home = []) := by
    simp
    grind
  simp only [hkept, ite_not]

theorem signalLifetimes : SignalLifetimes := by
  refine ⟨fun w s r u p home rank part hi hreach howe hdead hgood hdraw => issue_done hi (effSignew_dead hreach howe hdead hgood hdraw),
    fun w s r u p home hi hreach howe hlive => issue_fault hi (effSignew_live hreach howe hlive),
    fun w s r u p home hi hreach => ⟨fun hlive hfree hempty => issue_done hi ?_, fun hkept => issue_fault hi ?_⟩⟩
  · rw [effSigfree_eq hreach, if_pos ⟨hlive.1, hlive.2, hfree, hempty⟩]
  · rw [effSigfree_eq hreach, if_neg]
    rintro ⟨hlive, -, hfree, hempty⟩
    rcases hkept with h | h | h
    · simp [hlive] at h
    · exact h hfree
    · exact h hempty

/-- Settles O14: each word ends in the one case of its effect that the block's state leads to. -/
theorem signalChanges : Obligations.SignalChanges := ⟨signalUpdatesComplete, signalLifetimes⟩

/-! ## SIGWAIT, WAITA and WAKEA -/

/-- Whether a wait's target is reached; WAITA has none (R143). -/
def waitMet (target : Option Word) (b : Block) : Bool := match target with | some t => decide (t.toNat ≤ b.value.toNat) | none => false

theorem waitMet_some {t : Word} {b : Block} (h : t.toNat ≤ b.value.toNat) : waitMet (some t) b = true := decide_eq_true h

theorem waitMet_eq_false {target : Option Word} {b : Block} (h : ∀ t, target = some t → b.value.toNat < t.toNat) :
    waitMet target b = false := by
  cases target with
  | none => rfl
  | some t => exact decide_eq_false (Nat.not_le.2 (h t rfl))

/-- A wait whose target is reached: the block is written back, and later accesses wait for that write (R135, R156). -/
def State.waitDone (u : State) (p : Piece) (home : Nat) (sc : Scope) : State :=
  ((u.sigWid p).2.sigAcquire p (u.sigWid p).1 sc).closeBlock (u.sigWid p).2.myDie (u.sigWid p).1 home p.page.dup (u.block home) [] false

/-- A wait that joins the block's queue: its slot goes to WAITING (R143 step 6). -/
def State.waitQueued (u : State) (p : Piece) (home : Nat) (sc : Scope) (ref : Word) (target : Option Word) : State :=
  let v := (u.sigWid p).2
  let q := v.waiters home ++ [{ slot := some v.cur, part := v.me.part, core := v.myCore, target := target }]
  let x : State := { v with sigs := tset [] home q v.sigs }
  (x.putBlock x.myDie (u.sigWid p).1 home p.page.dup (u.block home)).enterWait (.signal home ref target) (u.block home).rank sc

/-- Steps 2 to 6 of R143 at a live block. -/
theorem waitAt_eq (hlive : u.liveAt home) (sc : Scope) (target : Option Word) : u.waitAt p home sc ref target =
    if u.rankLegal u.myCore u.me none (u.block home).rank = false then .fault (u.rankOrder ref (u.block home).rank) u
    else if (u.block home).poison = true then .fault (sigPoisoned ref) u
    else if waitMet target (u.block home) = true then .done (u.waitDone p home sc)
    else if (u.block home).holders = 0 then .fault (orphanWait ref (u.block home).rank) u
    else .halt (u.waitQueued p home sc ref target) := by
  unfold State.waitAt
  simp only [hlive.liveFault_eq, Bool.not_eq_true', beq_iff_eq]
  rfl

/-- SIGWAIT and WAITA: the wait that each makes once its reference has reached a live block. -/
theorem signalWaits_of_eff {opc : Nat} {s : State} {eff : State → Res} {target : Option Word} {sc : Scope} (hi : Issues opc w true s r)
    (hlive : u.liveAt home) (heff : eff r = u.waitAt p home sc ref target) :
    (u.rankLegal u.myCore u.me none (u.block home).rank = false →
      issueSerial opc w eff s = .next (u.takeFault opc w (u.rankOrder ref (u.block home).rank))) ∧
    (u.rankLegal u.myCore u.me none (u.block home).rank = true → (u.block home).poison = true →
      issueSerial opc w eff s = .next (u.takeFault opc w (sigPoisoned ref))) ∧
    (u.rankLegal u.myCore u.me none (u.block home).rank = true → (u.block home).poison = false →
      (∀ t, target = some t → t.toNat ≤ (u.block home).value.toNat →
        issueSerial opc w eff s = .next ((u.waitDone p home sc).issued opc w)) ∧
      ((∀ t, target = some t → (u.block home).value.toNat < t.toNat) → (u.block home).holders = 0 →
        issueSerial opc w eff s = .next (u.takeFault opc w (orphanWait ref (u.block home).rank))) ∧
      ((∀ t, target = some t → (u.block home).value.toNat < t.toNat) → (u.block home).holders ≠ 0 →
        issueSerial opc w eff s = .next ((u.waitQueued p home sc ref target).turned opc w.head))) := by
  rw [waitAt_eq hlive] at heff
  refine ⟨fun hrank => issueSerial_fault hi (heff.trans (if_pos hrank)), fun hrank hpois => issueSerial_fault hi ?_,
    fun hrank hclean => ?_⟩
  · rw [heff, if_neg (by simp [hrank]), if_pos hpois]
  · rw [if_neg (by simp [hrank]), if_neg (by simp [hclean])] at heff
    refine ⟨fun t ht hmet => issueSerial_done hi ?_, fun hbelow hnone => issueSerial_fault hi ?_,
      fun hbelow hheld => issueSerial_halt hi ?_⟩
    · rw [heff, ht, if_pos (waitMet_some hmet)]
    · rw [heff, waitMet_eq_false hbelow, if_neg Bool.false_ne_true, if_pos hnone]
    · rw [heff, waitMet_eq_false hbelow, if_neg Bool.false_ne_true, if_neg hheld]

theorem effSigwait_eq (h : ReachesBlock 0x217 w [0, 2] (r.val w.a) false r u p home) :
    effSigwait w r = u.waitAt p home w.scope (r.val w.a) (some (u.val w.c)) := by
  rw [effSigwait, h.signalOp_eq rfl]

theorem effWaita_eq (h : ReachesBlock 0x20A w [0] (r.val w.a) false r u p home) :
    effWaita w r = u.waitAt p home w.scope (r.val w.a) none := by
  rw [effWaita, h.signalOp_eq rfl]

theorem effWakea_eq (h : ReachesBlock 0x20B w [0, 2] (r.val w.a) true r u p home) (hlive : u.liveAt home) : effWakea w r =
    .done ((u.sigWid p).2.closeBlock (u.sigWid p).2.myDie (u.sigWid p).1 home p.page.dup (u.block home)
      (firstN (fun x : Waiter => x.target.isNone) (min ((u.sigWid p).2.val w.c).toNat ((u.sigWid p).2.waiters home).length)
        ((u.sigWid p).2.waiters home)) false) := by
  rw [effWakea, h.signalOp_eq rfl]
  simp only [hlive.liveFault_eq]

/-- Settles O15: SIGWAIT and WAITA are one wait, with a target and without, and it ends in the one case of R143 that the block leads to. -/
theorem signalWaits : Obligations.SignalWaits := by
  refine ⟨fun opc tgt mk fields hk w s r u p home hi hreach hlive => ?_,
    fun w s r u p home hi hreach hlive => issue_done hi (effWakea_eq hreach hlive)⟩
  rcases hk with ⟨rfl, rfl, rfl, rfl⟩ | ⟨rfl, rfl, rfl, rfl⟩
  · exact signalWaits_of_eff hi hlive (effSigwait_eq hreach)
  · exact signalWaits_of_eff hi hlive (effWaita_eq hreach)

/-! ## OBLGIVE, OBLQRY and OBLTAKE -/

theorem effOblgive_gives {a : Act} (hd : r.deferredIn 0x210 w [0, 2] = none) (hn : r.oblCountOf w ≠ 0) (hfree : r.cmdAhead = false)
    (hgive : r.me.oblGive (r.val w.a) (r.oblCountOf w) = .ok a) : effOblgive w r = .done (r.modMe (fun _ => a)) := by
  unfold effOblgive
  simp only [hd, hn, hfree, hgive, if_false, Bool.false_eq_true]

theorem effOblqry_eq (hd : r.deferredIn 0x211 w [2] = none) : effOblqry w r = .done (r.wroteS (opndNum w.a)
    ((r.me.obl ((r.val w.c).toNat % 32 % 16)).word ((r.val w.c).toNat % 32 / 16 = 1))) := by
  unfold effOblqry
  simp only [hd, State.wroteS, State.modMe, State.modAct, State.me]

/-- The block and the table after an OBLTAKE of `n` units (R137): HOLDERS past its largest value goes on from 0 (log entry 116). -/
def State.taken (u : State) (ref : Word) (p : Piece) (home n : Nat) : State :=
  let v := (u.sigWid p).2
  let b : Block := { u.block home with holders := (u.block home).holders + BitVec.ofNat 32 n }
  (if b.holders = 0 then v.closeBlock v.myDie (u.sigWid p).1 home p.page.dup b [] false
    else v.putBlock v.myDie (u.sigWid p).1 home p.page.dup b).modMe
    (fun a => (a.oblAcquire .signal ref (u.block home).rank n).getD a)

theorem effObltake_takes (h : ReachesBlock 0x212 w [0, 2] (r.val w.a) false r u p home) (hn : r.oblCountOf w ≠ 0)
    (hroom : (r.me.oblAcquire .signal (r.val w.a) 0 (r.oblCountOf w)).isSome = true) (hlive : u.liveAt home)
    (hclean : (u.block home).poison = false) : effObltake w r = .done (u.taken (r.val w.a) p home (r.oblCountOf w)) := by
  have hfits : (r.me.oblAcquire .signal (r.val w.a) 0 (r.oblCountOf w)).isNone = false := by rw [← Option.not_isSome, hroom]; rfl
  rw [effObltake, h.signalOp_eq (by rw [if_neg hn, hfits]; rfl)]
  simp only [hlive.liveFault_eq]
  rw [if_neg (by simp [hclean])]
  simp only [beq_iff_eq]
  rfl

/-- Settles O16: each word ends in the case of its effect in which it completes. -/
theorem obligationWordsComplete : Obligations.ObligationWordsComplete :=
  ⟨fun _ _ _ _ hi hd hn hfree hgive => issue_done hi (effOblgive_gives hd hn hfree hgive),
    fun _ _ _ hi hd => issue_done hi (effOblqry_eq hd),
    fun _ _ _ _ _ _ hi hreach hn hroom hlive hclean => issue_done hi (effObltake_takes hreach hn hroom hlive hclean)⟩

end Sys2Proof.Machine
end

section
/-!
The tumbler table (R128, R130): which entry is found after one has been replaced, and the units that an acquire adds and a discharge takes.
-/

namespace Sys2Proof.Machine

variable {a b : Act} {k : OblKind} {h : Word} {i n : Nat} {o : Obl}

@[simp] theorem Act.obl_setObl (a : Act) (i : Nat) (o : Obl) : (a.setObl i o).obl i = o := tget_tset_same _ _ _ _
@[simp] theorem Act.obl_setObl_other (a : Act) {i j : Nat} (h : j ≠ i) (o : Obl) : (a.setObl i o).obl j = a.obl j :=
  tget_tset_other _ h _ _

/-- An entry that holds units of a kind and handle unstaged (R130). -/
def Obl.holds (o : Obl) (k : OblKind) (h : Word) : Prop := o.kind = k ∧ o.handle = h ∧ o.staged = false

theorem oblFind_some (e : a.oblFind k h = some i) : i < 16 ∧ (a.obl i).holds k h := by
  have hp := List.find?_some e
  simp only [Bool.and_eq_true, beq_iff_eq, Bool.not_eq_true'] at hp
  exact ⟨mem_upTo.1 (List.mem_of_find?_eq_some e), hp.1.1, hp.1.2, hp.2⟩

theorem oblFind_eq_none : a.oblFind k h = none ↔ ∀ n, n < 16 → ¬ (a.obl n).holds k h := by
  simp only [Act.oblFind, List.find?_eq_none, mem_upTo, Obl.holds, Bool.and_eq_true, beq_iff_eq, Bool.not_eq_true', and_assoc]

/-- The one entry that holds units of a kind and handle is the one that is found. -/
theorem oblFind_of_only (hi : i < 16) (ho : (a.obl i).holds k h) (honly : ∀ n, n < 16 → (a.obl n).holds k h → n = i) :
    a.oblFind k h = some i := by
  cases e : a.oblFind k h with
  | none => exact absurd ho (oblFind_eq_none.1 e i hi)
  | some j =>
    obtain ⟨hj, hh⟩ := oblFind_some e
    rw [honly j hj hh]

/-- A replaced entry of the same kind, handle and STAGED is found as before. -/
theorem oblFind_setObl (o : Obl) (hk : o.kind = (a.obl i).kind) (hh : o.handle = (a.obl i).handle) (hs : o.staged = (a.obl i).staged) :
    (a.setObl i o).oblFind k h = a.oblFind k h := by
  refine List.find?_congr fun n _ => ?_
  by_cases hn : n = i
  · rw [hn, Act.obl_setObl, hk, hh, hs]
  · rw [Act.obl_setObl_other a hn]

theorem oblUnits_of_find (e : a.oblFind k h = some i) : a.oblUnits k h = (a.obl i).count := by rw [Act.oblUnits, e]

theorem oblUnits_of_none (e : a.oblFind k h = none) : a.oblUnits k h = 0 := by rw [Act.oblUnits, e]

/-- The count of the entry found is what the activation holds, whatever it is replaced by. -/
theorem oblUnits_setObl (e : a.oblFind k h = some i) (hk : o.kind = (a.obl i).kind) (hh : o.handle = (a.obl i).handle)
    (hs : o.staged = (a.obl i).staged) : (a.setObl i o).oblUnits k h = o.count := by
  rw [oblUnits_of_find ((oblFind_setObl o hk hh hs).trans e), Act.obl_setObl]

theorem oblFree_some (e : a.oblFree = some i) : i < 16 ∧ (a.obl i).kind = .free :=
  ⟨mem_upTo.1 (List.mem_of_find?_eq_some e), by simpa using List.find?_some e⟩

/-- Units acquired join the entry of their kind and handle, or take a free one (R130). -/
theorem oblUnits_oblAcquire {r : Rank} (e : a.oblAcquire k h r n = some b) : b.oblUnits k h = a.oblUnits k h + n := by
  unfold Act.oblAcquire at e
  split at e
  · next i hi =>
    split at e
    · cases e
      rw [oblUnits_of_find hi]
      exact oblUnits_setObl hi rfl rfl rfl
    · cases e
  · next hnone =>
    split at e
    · next i hfree =>
      obtain ⟨hi, -⟩ := oblFree_some hfree
      split at e
      · cases e
        rw [oblUnits_of_none hnone, Nat.zero_add, oblUnits_of_find (oblFind_of_only hi _ _), Act.obl_setObl]
        · rw [Act.obl_setObl]
          exact ⟨rfl, rfl, rfl⟩
        · intro j hj hh
          by_contra hne
          rw [Act.obl_setObl_other a hne] at hh
          exact oblFind_eq_none.1 hnone j hj hh
      · cases e
    · cases e

/-- A discharge takes one unit from the one entry of its kind and handle (R130). -/
theorem oblUnits_oblDischarge (hk : k ≠ .free)
    (honly : ∀ i j, i < 16 → j < 16 → (a.obl i).holds k h → (a.obl j).holds k h → i = j) :
    (a.oblDischarge k h).oblUnits k h = a.oblUnits k h - 1 := by
  unfold Act.oblDischarge
  split
  · next hnone => rw [oblUnits_of_none hnone]
  · next i hi =>
    rw [oblUnits_of_find hi]
    split
    · next hone =>
      rw [oblUnits_of_none, Nat.sub_eq_zero_of_le hone]
      refine oblFind_eq_none.2 fun j hj hh => ?_
      by_cases hne : j = i
      · rw [hne, Act.obl_setObl] at hh
        exact hk hh.1.symm
      · rw [Act.obl_setObl_other a hne] at hh
        exact hne (honly j i hj (oblFind_some hi).1 hh (oblFind_some hi).2)
    · exact oblUnits_setObl hi rfl rfl rfl

/-- Settles O17: what is acquired and discharged changes the count of the entry that is found. -/
theorem tumblerUnits : Obligations.TumblerUnits := by
  refine ⟨fun a b k h r n _ e => oblUnits_oblAcquire e, fun a k h hk honly => oblUnits_oblDischarge hk ?_⟩
  rintro i j hi hj ⟨hki, hhi, hsi⟩ ⟨hkj, hhj, hsj⟩
  exact honly i j hi hj hki hkj hhi hhj hsi hsj

end Sys2Proof.Machine
end

section
/-!
Faults of words (R137, R151, R190, R194, R203): what dropping an earlier fault and writing records leave alone, END with an obligation
left, and the order in which OBLTAKE's checks are made.
-/

namespace Sys2Proof.Machine

variable {s t u : State} {a b c : Act}

/-! ## What records and the coalescing tables leave alone -/

/-- A slot as before, but for what it is being saved for and what it has asked owners and the host for. -/
def Saving (a b : Act) : Prop :=
  b = { a with save := b.save, chain := b.chain, hostRead := b.hostRead, hostFail := b.hostFail }

theorem Saving.refl (a : Act) : Saving a a := rfl

theorem Saving.trans (h : Saving a b) (h' : Saving b c) : Saving a c := by
  unfold Saving at *
  rw [h', h]

/-- What a fault that is dropped and the records that are written leave alone: everything that a partition holds, and of a slot all but
its save. -/
structure Kept (s t : State) : Prop where
  cur     : t.cur = s.cur
  iss     : t.iss = s.iss
  cores   : t.cores = s.cores
  parts   : t.parts = s.parts
  msgs    : t.msgs = s.msgs
  homeOps : t.homeOps = s.homeOps
  framed  : t.framed = s.framed
  banks   : t.loc = s.loc ∧ t.shm = s.shm
  slots   : ∀ k, Saving (s.act k) (t.act k)

theorem Kept.refl (s : State) : Kept s s := ⟨rfl, rfl, rfl, rfl, rfl, rfl, rfl, ⟨rfl, rfl⟩, fun _ => rfl⟩

theorem Kept.trans (h : Kept s t) (h' : Kept t u) : Kept s u where
  cur := h'.cur.trans h.cur
  iss := h'.iss.trans h.iss
  cores := h'.cores.trans h.cores
  parts := h'.parts.trans h.parts
  msgs := h'.msgs.trans h.msgs
  homeOps := h'.homeOps.trans h.homeOps
  framed := h'.framed.trans h.framed
  banks := ⟨h'.banks.1.trans h.banks.1, h'.banks.2.trans h.banks.2⟩
  slots k := (h.slots k).trans (h'.slots k)

/-- An operation on the state beside all of that. -/
theorem Kept.beside (h : Kept s t) (acts : u.acts = t.acts := by rfl) (cur : u.cur = t.cur := by rfl) (iss : u.iss = t.iss := by rfl)
    (cores : u.cores = t.cores := by rfl) (parts : u.parts = t.parts := by rfl) (msgs : u.msgs = t.msgs := by rfl)
    (homeOps : u.homeOps = t.homeOps := by rfl) (framed : u.framed = t.framed := by rfl) (loc : u.loc = t.loc := by rfl)
    (shm : u.shm = t.shm := by rfl) : Kept s u :=
  have act k : u.act k = t.act k := congrArg (tget ({} : Act) k) acts
  h.trans ⟨cur, iss, cores, parts, msgs, homeOps, framed, ⟨loc, shm⟩, fun k => act k ▸ Saving.refl (t.act k)⟩

theorem Kept.ite {p : Prop} [Decidable p] (h : Kept s t) (h' : Kept s u) : Kept s (if p then t else u) := by
  split
  · exact h
  · exact h'

/-- A state that is left as it is under a condition. -/
theorem Kept.unless {p : Prop} [Decidable p] (h : Kept s t) (k : Kept s t → Kept s u) : Kept s (if p then t else u) := h.ite (k h)

theorem Kept.modAct (h : Kept s t) (k : Nat) {f : Act → Act} (hf : Saving (t.act k) (f (t.act k))) : Kept s (t.modAct k f) := by
  refine h.trans ⟨rfl, rfl, rfl, rfl, rfl, rfl, rfl, ⟨rfl, rfl⟩, fun j => ?_⟩
  by_cases hj : j = k
  · rw [hj, State.act_modAct]
    exact hf
  · rw [State.act_modAct_other _ hj]
    exact .refl _

theorem Kept.modDie (h : Kept s t) (d : Nat) (f : Die → Die) : Kept s (t.modDie d f) := h.beside

theorem Kept.coalSet (h : Kept s t) (d n : Nat) (c : Option Coal) : Kept s (t.coalSet d n c) := h.modDie _ _

theorem Kept.closeExact (h : Kept s t) (x n : Nat) (keep : Option Nat) : Kept s (t.closeExact x n keep) := h.unless (·.beside)

theorem Kept.unpoison (h : Kept s t) (g : Nat → Granule) (x n : Nat) : Kept s (t.unpoison g x n) := h.unless (·.beside)

theorem Kept.poke (h : Kept s t) (x : Nat) (bs : List Byte) : Kept s (t.poke x bs) := ((h.closeExact _ _ _).unpoison _ _ _).beside

theorem Kept.post (h : Kept s t) (asid : Nat) (ws : List Word) : Kept s (t.post asid ws) := by
  unfold State.post
  dsimp only
  split
  · exact (h.poke _ _).beside
  split
  · exact h.beside
  · exact h.beside

theorem Kept.coalRecord (h : Kept s t) (d n asid code : Nat) (ws : List Word) : Kept s (t.coalRecord d n asid code ws) := by
  unfold State.coalRecord
  refine Kept.post ?_ _ _
  split
  · exact h.coalSet _ _ _
  · exact h

theorem Kept.fromOverflow (h : Kept s t) (d n fuel : Nat) : Kept s (t.fromOverflow d n fuel) := by
  induction fuel generalizing t with
  | zero => exact h
  | succ fuel ih =>
    unfold State.fromOverflow
    split
    · exact h
    dsimp only
    split
    · refine ih ?_
      split
      · exact ((h.modDie _ _).coalSet _ _ _).modAct _ (by rfl)
      · exact (h.modDie _ _).coalSet _ _ _
    split
    · exact ((h.modDie _ _).coalSet _ _ _).modAct _ (by rfl)
    · exact ((h.modDie _ _).coalSet _ _ _).coalRecord _ _ _ _ _

theorem Kept.leadBy (h : Kept s t) (d n asid : Nat) (item : Parked) : Kept s (t.leadBy d n asid item) := by
  unfold State.leadBy
  dsimp only
  split
  · exact h.modAct _ (by rfl)
  · split
    · exact h.coalRecord _ _ _ _ _
    · exact h
  · split
    · exact h.coalRecord _ _ _ _ _
    · exact h

theorem Kept.dropFault (h : Kept s t) (k : Nat) : Kept s (t.dropFault k) := by
  unfold State.dropFault
  dsimp only
  split
  · split
    · exact h.modDie _ _
    split
    · exact ((h.modDie _ _).coalSet _ _ _).fromOverflow _ _ _
    split
    · exact ((h.modDie _ _).coalSet _ _ _).leadBy _ _ _ _
    · exact (h.modDie _ _).coalSet _ _ _
  · exact h

theorem Kept.withdraw (h : Kept s t) (p : Asker → Bool) : Kept s (t.withdraw p) := h.unless (·.beside)

theorem Kept.forgetKey (h : Kept s t) (k : Nat) : Kept s (t.forgetKey k) := by
  unfold State.forgetKey
  extract_lets t1 t2 t3 a
  have h1 : Kept s t1 := h.withdraw _
  have h2 : Kept s t2 := h1.unless (·.beside)
  have h3 : Kept s t3 := h2.unless (·.beside)
  exact h3.unless fun h => h.modAct _ (by rfl)

/-- Whatever a fault at a slot ends in, it first finds everything but the slot's save as it was. -/
theorem kept_faulting (s : State) (k : Nat) : Kept s ((s.dropFault k).forgetKey k) := ((Kept.refl s).dropFault k).forgetKey k

/-! ## END with an obligation left -/

theorem takeFaultAt_end {k : Nat} {f : FaultReq} {pc : Word} (hf : delivOf f.code = .end_) : s.takeFaultAt k f pc =
    (((s.dropFault k).forgetKey k).modAct k (fun a => { a with st := .parked, faultInfo := faultInfoOf f .end_ })).post
      (s.part (s.act k).part).asid
      (recordWords f (s.part (s.act k).part).asid false pc none (coreOf k) (slotOf k) (s.act k).stamp) := by
  have hkept := kept_faulting s k
  have hslot := hkept.slots k
  have hpart : (((s.dropFault k).forgetKey k).act k).part = (s.act k).part := by rw [hslot]
  have hstamp : (((s.dropFault k).forgetKey k).act k).stamp = (s.act k).stamp := by rw [hslot]
  have hparts p : ((s.dropFault k).forgetKey k).part p = s.part p := congrArg (tget ({} : Part) p) hkept.parts
  unfold State.takeFaultAt
  simp only [hf, hpart, hstamp, hparts]

/-- A fault of an S word at the front end is taken at its own address (R193). -/
theorem takeFault_front {opc : Nat} {w : Operands} {f : FaultReq} (hfront : s.iss = .front) (hS : w.head.stream = .S) :
    s.takeFault opc w f = s.takeFaultAt s.cur { f with strm := 0 } s.me.pc := by
  unfold State.takeFault
  simp only [hfront, hS, beq_self_eq_true, if_true, streamNum]

/-- Settles O51: the fault is that of END's delivery class, which leaves its slot PARKED and writes the record at once. -/
theorem endWithObligations : Obligations.EndWithObligations := by
  intro w s r o l hi hfront hS hused
  have heff : effEnd w r = .fault { code := 0x27, addr := o.handle, info := o.word false } r := by rw [effEnd, hused]
  have hexec : exec (.endOp w) s = .next (r.takeFault 0x093 w { code := 0x27, addr := o.handle, info := o.word false }) :=
    issueSerial_fault hi heff
  rw [hexec, takeFault_front hfront hS, takeFaultAt_end rfl]
  simp only [State.myPart, State.myCore, State.me]

/-! ## OBLTAKE with a reference that fails its check -/

/-- The code of the fault that the slot of the word in execution is being saved for. -/
def State.faultCode (s : State) : Option Nat := (s.me.save.bind (·.fault)).map (·.code)

/-- A fault that is Held saves its slot for it (R202). -/
theorem faultCode_takeFaultAt {f : FaultReq} {pc : Word} {at_ : Option Nat} (hf : delivOf f.code = .held) :
    (s.takeFaultAt s.cur f pc at_).faultCode = some f.code := by
  have hcur := (kept_faulting s s.cur).cur
  unfold State.takeFaultAt
  simp only [hf, State.faultCode, State.me, State.modAct_cur, hcur, State.act_modAct]
  rfl

theorem faultCode_takeFault {opc : Nat} {w : Operands} {f : FaultReq} (hf : delivOf f.code = .held) :
    (s.takeFault opc w f).faultCode = some f.code := by
  unfold State.takeFault State.lateFault
  dsimp only
  split
  · split
    · split
      · exact faultCode_takeFaultAt hf
      · exact faultCode_takeFaultAt hf
    · exact faultCode_takeFaultAt hf
  · split
    · exact faultCode_takeFaultAt hf
    · exact faultCode_takeFaultAt hf

/-- A slot whose tumbler table is full, s8 holding a reference to an SHM block that is not aligned (R135). -/
def fullTable : State :=
  (State.reset.withFetchWord 96 0).modAct 0 (fun a =>
    { a with s := [(8, 0x8000000000000101)], tumbler := (upTo 16).map (fun i => (i, { kind := .reply, count := 1 })) })

/-- OBLTAKE of one unit of the block that s8 names. -/
def takeOne : Operands := { a := .reg .s false 8, c := .imm 1, scope := .die }

theorem takeOne_issues : Issues 0x212 takeOne false fullTable fullTable :=
  ⟨by decide +kernel, by decide +kernel, by decide +kernel, by decide +kernel, by decide +kernel, by decide +kernel, rfl⟩

/-- The reference is checked before anything leaves the core (R404), and so before the table's room. -/
theorem takeOne_misaligned : effObltake takeOne fullTable =
    .fault { code := 0x0B, space := 2, addr := 0x8000000000000101 } fullTable := by decide +kernel

/-- Refutes O55: with the table full and a reference that is not aligned, OBLTAKE faults with MISALIGNED_ACCESS by the reference, and
not with OBL_FULL. -/
theorem not_obltakeIsWhole : ¬ Obligations.ObltakeIsWhole := by
  intro h
  obtain ⟨t, ht, -⟩ := (h takeOne fullTable fullTable takeOne_issues).2 (by decide +kernel) (by decide +kernel) (by decide +kernel) rfl rfl
  have hmis : exec (.obltake takeOne) fullTable =
      .next (fullTable.takeFault 0x212 takeOne { code := 0x0B, space := 2, addr := 0x8000000000000101 }) :=
    issue_fault takeOne_issues takeOne_misaligned
  have hcodes := congrArg State.faultCode (Host.Outcome.next.inj (hmis.symm.trans ht))
  rw [faultCode_takeFault rfl, faultCode_takeFault rfl] at hcodes
  cases hcodes

end Sys2Proof.Machine
end

section
/-!
SEND and SPAWN (R81, R138, R141, R268, R269, R296, R410): the message that each enters into the send queue, and what an answer to a SPAWN
does with its slot.
-/

namespace Sys2Proof.Machine

variable {s r t : State} {w : Operands} {d : SendTo}

/-! ## Messages that an issue leaves alone -/

theorem endTurn_msgs (s : State) (core : Nat) (st : Stream) : (s.endTurn core st).msgs = s.msgs := by
  unfold State.endTurn
  split
  · rfl
  · rfl

theorem beginTurn_msgs (s : State) (core slot : Nat) (st : Stream) : (s.beginTurn core slot st).msgs = s.msgs := by
  unfold State.beginTurn
  split
  · rfl
  · exact endTurn_msgs s core st

theorem yieldSlot_msgs (s : State) (core slot : Nat) : (s.yieldSlot core slot).msgs = s.msgs := by
  refine List.foldlRecOn (motive := fun t : State => t.msgs = s.msgs) _ _ rfl fun t ht st _ => ?_
  dsimp only
  split
  · exact (endTurn_msgs t core st).trans ht
  · exact ht

/-- The turn of a port touches no message. -/
theorem turned_msgs (s : State) (opc : Nat) (h : Head) : (s.turned opc h).msgs = s.msgs := by
  have htaken : (s.turnTaken opc h).msgs = s.msgs := beginTurn_msgs s _ _ _
  have hended : ((s.turnTaken opc h).turnEnded opc h).msgs = s.msgs := by
    unfold State.turnEnded
    split
    · exact (endTurn_msgs _ _ _).trans htaken
    · exact htaken
  unfold State.turned
  split
  · rfl
  dsimp only
  split
  · exact (yieldSlot_msgs _ _ _).trans hended
  · exact hended

/-! ## Staged entries -/

/-- No staged entry is left once they have all gone (R138). -/
theorem oblStaged_dropStaged (a : Act) : a.dropStaged.oblStaged = [] := by
  have hobl n : (a.dropStaged.obl n).staged = false := by
    unfold Act.obl Act.dropStaged
    dsimp only
    induction a.tumbler with
    | nil => rfl
    | cons e t ih =>
      obtain ⟨i, o⟩ := e
      cases hs : o.staged with
      | true => simpa [hs] using ih
      | false =>
        by_cases hi : i = n
        · simp [hs, tget, hi]
        · simpa [hs, tget, hi] using ih
  simp only [Act.oblStaged, Act.oblUsed, List.filter_filter, List.filter_eq_nil_iff, List.mem_map]
  rintro o ⟨n, -, rfl⟩
  simp [hobl n]

theorem sGet_dropStaged (a : Act) : a.dropStaged.sGet = a.sGet := rfl

theorem stamp_dropStaged (a : Act) : a.dropStaged.stamp = a.stamp := rfl

theorem cls_dropStaged (a : Act) : a.dropStaged.cls = a.cls := rfl

theorem part_dropStaged (a : Act) : a.dropStaged.part = a.part := rfl

/-- The registers as a word reads them do not change with the tumbler table. -/
theorem val_dropStaged (s : State) (o : Opnd) : (s.modMe Act.dropStaged).val o = s.val o := by
  have hval n : (s.modMe Act.dropStaged).sVal n = s.sVal n := by
    simp only [State.sVal, State.modMe_iss, State.me_modMe]
    rfl
  unfold State.val
  simp only [hval]

/-! ## SEND -/

/-- SEND's message, before it enters its queue (R265, R269). -/
def State.sendMsg (s : State) (w : Operands) (t : SendTo) : Msg :=
  let tgt := s.val w.b
  let h := t.reply.getD 0
  { dest := t.dest, src := coreAddr s.myCore, sslot := slotOf s.cur, vn := if t.reply.isSome then .reply else .request,
    byType := tgt.getLsbD 63, mcast := t.mcast, type := if tgt.getLsbD 63 then (bits tgt 0 12).toNat else 0,
    rseq := (bits h 0 16).toNat, rslot := (bits h 41 3).toNat, stamp := s.me.stamp,
    entry := if tgt.getLsbD 63 then 0 else (bits tgt 0 56).zeroExtend 64, args := s.sendArgs w,
    given := if w.flg.getLsbD 1 then s.me.oblStaged else [], part := s.me.part, queued := true }

/-- The state with SENT raised on the link of a local-time partition that the message takes (R296). -/
def State.sendCounted (s : State) (t : SendTo) : State :=
  if s.myPart.lt then (match s.sendLink t with | some (j, _) => s.countSent s.myCore j | none => s) else s

/-- To count a message changes links of the sender's core and no more. -/
theorem sendCounted_cases (s : State) (t : SendTo) : s.sendCounted t = s ∨ ∃ j, s.sendCounted t = s.countSent s.myCore j := by
  unfold State.sendCounted
  split
  · split
    · exact .inr ⟨_, rfl⟩
    · exact .inl rfl
  · exact .inl rfl

/-- The table after a SEND: the REPLY that it discharges and the staged entries that it gives have left (R138, R269). -/
def Act.sent (a : Act) (w : Operands) (t : SendTo) : Act :=
  let b := match t.reply with | some h => a.oblDischarge .reply h | none => a
  if w.flg.getLsbD 1 then b.dropStaged else b

/-- A SEND that its link's bounds allow enters its message (R269, R296). -/
theorem sendEnter_eq (hlink : r.myPart.lt = true → ∀ l, r.sendLink d = some l →
    r.lowestStamp r.myCore l.2 ≤ r.me.stamp.toNat ∧ r.me.stamp.toNat ≠ never) :
    r.sendEnter w d = .done (((r.sendCounted d).postMsg r.myCore (r.sendMsg w d)).modMe (fun a => a.sent w d)) := by
  have hbad : (if !r.myPart.lt then none
      else (r.sendLink d).bind (fun l => if r.me.stamp.toNat < r.lowestStamp r.myCore l.2 || r.me.stamp.toNat = never then
        some (lookaheadViolation r.me.stamp (BitVec.ofNat 64 (r.lowestStamp r.myCore l.2))) else none)) = none := by
    cases hlt : r.myPart.lt with
    | false => rfl
    | true =>
      cases hl : r.sendLink d with
      | none => rfl
      | some l =>
        obtain ⟨hlow, hnever⟩ := hlink hlt l hl
        simp [Nat.not_lt.2 hlow, hnever]
  unfold State.sendEnter
  dsimp only
  rw [hbad]
  dsimp only
  change Res.done (((r.sendCounted d).postMsg r.myCore { (r.sendCounted d).sendMsg w d with src := coreAddr r.myCore }).modMe
    (fun a => a.sent w d)) = _
  rcases sendCounted_cases r d with h | ⟨j, h⟩
  · rw [h]
    rfl
  · rw [h]
    rfl

theorem effSend_enters (hd : r.deferredIn 0x282 w [0, 1, 2] = none) (hto : r.sendTo w = .ok d) (hentry : badEntry (r.val w.b) = none)
    (hgive : r.giveCheck d (w.flg.getLsbD 1) = none) (hcheck : r.sendCheck d (w.flg.getLsbD 1) = none)
    (hfree : w.flg.getLsbD 1 = true → r.cmdAhead = false) (hrel : Ord_rel w.ord = true → r.releaseReady w.scope = true)
    (hroom : (if w.flg.getLsbD 1 && !r.me.oblStaged.isEmpty then 2 else 1) ≤
      r.sendRoom r.myCore (if d.reply.isSome then .reply else .request)) : effSend w r = r.sendEnter w d := by
  have hahead : (w.flg.getLsbD 1 && r.cmdAhead) = false := by
    cases hf : w.flg.getLsbD 1 with
    | false => rfl
    | true => exact hfree hf
  unfold effSend
  simp only [hd, hto, hahead, hentry, hgive, hcheck, orFault, release_ok hrel, Bool.false_eq_true, if_false]
  exact if_pos hroom

/-- The link that a SEND takes stands at its place among the core's output links. -/
theorem outs_of_sendLink {j : Nat} {l : OutLink} (h : r.sendLink d = some (j, l)) : (r.core r.myCore).outs[j]? = some l := by
  obtain ⟨c, -, hc⟩ := Option.bind_eq_some_iff.1 h
  obtain ⟨x, hx, hjl⟩ := Option.map_eq_some_iff.1 hc
  cases hjl
  exact List.mem_zipIdx_iff_getElem?.1 (List.mem_of_find?_eq_some hx)

theorem sendCompletes : SendCompletes := by
  intro w s r d hi hd hto hentry hgive hcheck hfree hrel hroom hlink
  have heff := (effSend_enters hd hto hentry hgive hcheck hfree hrel hroom).trans (sendEnter_eq hlink)
  have hmsgs : (r.sendCounted d).msgs = r.msgs ∧ (r.sendCounted d).cur = r.cur := by
    rcases sendCounted_cases r d with h | ⟨j, h⟩
    · rw [h]
      exact ⟨rfl, rfl⟩
    · rw [h]
      exact ⟨rfl, rfl⟩
  refine ⟨_, { r.sendMsg w d with src := coreAddr r.myCore, sent := (r.sendCounted d).cycle, here := dieOf r.myCore },
    issue_done hi heff, congrArg (· ++ _) hmsgs.1, rfl, rfl, rfl, rfl, rfl, rfl, rfl, rfl, rfl, fun h => if_pos h,
    fun h => if_neg (Bool.eq_false_iff.1 h), rfl, fun hflag => ?_, fun hlt j l hl => ?_⟩
  · rw [← hmsgs.2]
    refine (congrArg Act.oblStaged (State.act_modAct _ _ _)).trans ?_
    simp only [Act.sent, hflag, if_true, oblStaged_dropStaged]
  · have hcount : r.sendCounted d = r.countSent r.myCore j := by
      unfold State.sendCounted
      rw [if_pos hlt, hl]
    rw [hcount]
    change (((r.countSent r.myCore j).core r.myCore).outs[j]?).map OutLink.sent = _
    simp [State.countSent, outs_of_sendLink hl]

/-! ## SPAWN -/

/-- What an activation may inherit from its parent: the lowest rank that counts in the parent's floor (R141). -/
def State.childFloor (s : State) : Option Rank := (lowest (s.floorRanks s.myCore s.me none)).map (BitVec.ofNat 32)

/-- SPAWN's message, before it enters its queue (R81, R265). -/
def State.spawnMsg (s : State) (w : Operands) : Msg :=
  { dest := (bits (s.val w.b) 0 25).toNat, src := coreAddr s.myCore, sslot := slotOf s.cur, stamp := s.me.stamp, entry := s.val w.c,
    args := (from_ 1 4).map s.me.sGet, given := s.me.oblStaged, part := s.me.part, queued := true
    kind := .spawnReq s.cur (s.modMe Act.dropStaged).childFloor s.me.cls s.me.uid }

/-- The state after a SPAWN's request has entered its queue: the table's staged entries are gone and S waits for the answer (R81). -/
def State.spawned (s : State) (w : Operands) : State :=
  ((s.modMe Act.dropStaged).postMsg s.myCore (s.spawnMsg w)).modMe
    (fun a => { a with asked := some (.spawn w s.me.oblStaged (s.modMe Act.dropStaged).childFloor) })

theorem spawnEnter_eq : r.spawnEnter w = .halt (r.spawned w) := by
  unfold State.spawnEnter State.spawned State.spawnMsg
  simp only [val_dropStaged, State.me_modMe, State.childFloor, State.myCore, State.modMe_cur, sGet_dropStaged, stamp_dropStaged,
    cls_dropStaged, part_dropStaged]

theorem act_spawned : (r.spawned w).act r.cur =
    { r.me.dropStaged with asked := some (.spawn w r.me.oblStaged (r.modMe Act.dropStaged).childFloor) } := by
  have hact : ((r.modMe Act.dropStaged).postMsg r.myCore (r.spawnMsg w)).act r.cur = r.me.dropStaged :=
    State.me_modMe r Act.dropStaged
  refine (State.act_modAct _ _ _).trans ?_
  rw [hact]

theorem effSpawn_enters (hd : r.firstDeferred (sSources 0x283 w) = none) (halign : (r.val w.c).toNat % 4 = 0)
    (hhigh : bits (r.val w.c) 56 8 = 0) (hstaged : r.me.badStaged OblKind.toChild = none) (hfree : r.cmdAhead = false)
    (hrel : Ord_rel w.ord = true → r.releaseReady w.scope = true)
    (hroom : (if r.me.oblStaged.isEmpty then 1 else 2) ≤ r.sendRoom r.myCore .request) : effSpawn w r = r.spawnEnter w := by
  have hentry : ((r.val w.c).toNat % 4 != 0 || bits (r.val w.c) 56 8 != 0) = false := by simp [halign, hhigh]
  unfold effSpawn
  simp only [hd, hentry, hfree, hstaged, release_ok hrel, Bool.false_eq_true, if_false]
  exact if_pos hroom

/-- A SPAWN that enters its request waits for the answer, with its staged entries gone (R81, R138). -/
theorem spawnEnters (hi : Issues 0x283 w false s r) (heff : effSpawn w r = r.spawnEnter w) : ∃ (t : State) (m : Msg) (inh : Option Rank),
    exec (.spawn w) s = .next t ∧ t.msgs = r.msgs ++ [m] ∧ m.entry = r.val w.c ∧ m.given = r.me.oblStaged ∧
      m.args = (from_ 1 4).map r.me.sGet ∧ m.dest = (bits (r.val w.b) 0 25).toNat ∧
      m.kind = .spawnReq r.cur inh r.me.cls r.me.uid ∧ (t.act r.cur).asked = some (.spawn w r.me.oblStaged inh) ∧
      (t.act r.cur).oblStaged = [] := by
  have hturn : Advanced ((r.spawned w).act r.cur) (((r.spawned w).turned 0x283 w.head).act r.cur) :=
    ((GoesOn.refl (r.spawned w)).turned 0x283 w.head).mine
  rw [act_spawned] at hturn
  refine ⟨_, { r.spawnMsg w with src := coreAddr r.myCore, sent := (r.modMe Act.dropStaged).cycle, here := dieOf r.myCore },
    (r.modMe Act.dropStaged).childFloor, issue_halt hi (heff.trans spawnEnter_eq), turned_msgs _ _ _, rfl, rfl, rfl, rfl, rfl, ?_, ?_⟩
  · rw [hturn]
  · rw [hturn]
    exact oblStaged_dropStaged r.me

/-- The answer that has come for a slot leaves the input buffer, and is taken for the activation that asked (R267). -/
theorem execSpawnAnswer_found {core slot i k id : Nat} {acc : Bool}
    (h : ((s.core core).inQ.zipIdx.filterMap (fun x => x.1.spawnAnswer.map (fun y => (x.2, y)))).find?
      (fun x => x.2.1 == 8 * core + slot) = some (i, k, id, acc)) :
    execSpawnAnswer core slot s =
      .next (if (s.act (8 * core + slot)).uid == id
        then (s.modCore core (fun c => { c with inQ := dropNth c.inQ i })).spawnAnswered (8 * core + slot) acc
        else s.modCore core (fun c => { c with inQ := dropNth c.inQ i })) := by
  unfold execSpawnAnswer
  simp only [h]
  rfl

/-! What the answer does with the slot, by what it says and where the slot stands (R81, R410). -/

section Answered
variable {k : Nat} {given : List Obl} {inh : Option Rank}

theorem spawnAnswered_accepted (h : (s.act k).asked = some (.spawn w given inh)) :
    s.spawnAnswered k true = (s.modAct k (fun a => (a.sSet (opndNum w.a) 0).answer)).cleanS k [opndNum w.a] := by
  unfold State.spawnAnswered
  simp only [h, if_true]

theorem spawnAnswered_saving (h : (s.act k).asked = some (.spawn w given inh)) (hst : (s.act k).st = .saving) :
    s.spawnAnswered k false = s.modAct k (fun a => { a.restage given with asked := none }) := by
  unfold State.spawnAnswered
  simp only [h, hst, beq_self_eq_true, if_true, Bool.false_eq_true, if_false]

theorem spawnAnswered_inline (h : (s.act k).asked = some (.spawn w given inh)) (hst : (s.act k).st ≠ .saving)
    (hdepth : (s.act k).inline ≠ 7) :
    s.spawnAnswered k false = s.modAct k (fun a => { a with st := .saving, save := some { why := .host, pc := (s.act k).pc } }) := by
  unfold State.spawnAnswered
  simp only [h, beq_eq_false_iff_ne.2 hst, if_neg hdepth, Bool.false_eq_true, if_false]
  rfl

theorem spawnAnswered_tooDeep (h : (s.act k).asked = some (.spawn w given inh)) (hst : (s.act k).st ≠ .saving)
    (hdepth : (s.act k).inline = 7) {rot : Bool} {n : BitVec 6} (hb : w.b = .reg .s rot n) :
    s.spawnAnswered k false = (s.modAct k (fun a => { a.restage given with asked := none })).takeFaultAt k
      { code := 0x2B, addr := (bits ((s.act k).sGet n.toNat) 0 25).zeroExtend 64 } (s.act k).pc := by
  unfold State.spawnAnswered
  simp only [h, beq_eq_false_iff_ne.2 hst, if_pos hdepth, hb, Bool.false_eq_true, if_false]

end Answered

theorem spawnCompletes : SpawnCompletes := by
  refine ⟨fun w s r hi hd halign hhigh hstaged hfree hrel hroom =>
    spawnEnters hi (effSpawn_enters hd halign hhigh hstaged hfree hrel hroom), ?_⟩
  intro s core slot i id w given inh acc k hfound t
  have hexec : exec (.spawnAnswer core slot) s = _ := execSpawnAnswer_found hfound
  refine ⟨fun hid => ?_, fun hid hasked => ?_⟩
  · rw [hexec, if_neg (by simpa using hid)]
  have hasked' : (t.act k).asked = some (.spawn w given inh) := hasked
  rw [hexec, if_pos (by simpa using hid)]
  refine ⟨fun hacc => ?_, fun hacc hst => ?_, fun hacc hst hdepth => ?_, fun rot n hacc hst hdepth hb => ?_⟩
  · subst hacc
    exact congrArg Host.Outcome.next (spawnAnswered_accepted hasked')
  · subst hacc
    exact congrArg Host.Outcome.next (spawnAnswered_saving hasked' hst)
  · subst hacc
    exact congrArg Host.Outcome.next (spawnAnswered_inline hasked' hst hdepth)
  · subst hacc
    exact congrArg Host.Outcome.next (spawnAnswered_tooDeep hasked' hst hdepth hb)

/-- Settles O20: each of SEND and SPAWN passes all its checks and enters its message, and an answer is taken by the slot's state. -/
theorem sendAndSpawn : Obligations.SendAndSpawn := ⟨sendCompletes, spawnCompletes⟩

end Sys2Proof.Machine
end

section
/-!
Engine commands (R138, R139, R232, R240, R249, R250, R254, R263, R302, R360): what the acceptance of a word does, said once, and the seven
words by it.
-/

namespace Sys2Proof.Machine

variable {s r t : State} {opc : Nat} {w : Operands} {e : Eng} {op : CmdOp} {z : Option Nat} {check : Option FaultReq}
  {fill : Cmd → Cmd} {after : State → Cmd → State} {serial : Bool} {eff : State → Res}

/-! ## Acceptance -/

theorem Accepts.notStalled (h : Accepts opc w e z r) :
    ¬ (decide (e.room ≤ ((r.core r.myCore).queue e).length) || r.acceptHeld w z) = true := by
  simp [h.free, h.room]

/-- A word that its queue can accept, and whose own check finds nothing or does not count, enters its command (R263). -/
theorem accept_enters (h : Accepts opc w e z r) (hcheck : r.guardOf w.head = some false ∨ check = none) :
    r.accept opc w e op z check fill after =
      .done (after (r.entered e (fill (r.commandOf opc w op (z.getD 0)))) (fill (r.commandOf opc w op (z.getD 0)))) := by
  have hfault : (if r.guardOf w.head == some false then none
      else orFault (orFault (r.firstDeferred (sSources opc w)) check) (r.me.badStaged OblKind.toEngine)) = none := by
    by_cases hg : r.guardOf w.head = some false
    · simp [hg]
    · simp [h.defined hg, h.given hg, hcheck.resolve_left hg, orFault]
  unfold State.accept
  rw [if_neg h.notStalled]
  dsimp only
  rw [hfault]
  rfl

theorem myCore_entered (r : State) (e : Eng) (c : Cmd) : (r.entered e c).myCore = r.myCore := by
  unfold State.entered
  split
  · rfl
  · rfl

/-- A word whose guard is true and whose own check finds a fault takes it at acceptance (R263). -/
theorem accept_faults {f : FaultReq} (h : Accepts opc w e z r) (hguard : r.guardOf w.head = some true) (hcheck : check = some f) :
    r.accept opc w e op z check fill after = .fault f r := by
  have hne : r.guardOf w.head ≠ some false := by simp [hguard]
  have hfault : (if r.guardOf w.head == some false then none
      else orFault (orFault (r.firstDeferred (sSources opc w)) check) (r.me.badStaged OblKind.toEngine)) = some f := by
    simp [hguard, h.defined hne, hcheck, orFault]
  unfold State.accept
  rw [if_neg h.notStalled]
  dsimp only
  rw [hfault]

/-! ## Words that enter an engine's queue -/

theorem Enters.guard (h : Enters opc w serial s r) : r.guardOf w.head = s.guardOf w.head :=
  h.home ▸ guardOf_unparkSources s opc w w.head

theorem enters_done (h : Enters opc w serial s r) (he : eff r = .done t) : issueWord opc w serial eff s = t.issued opc w := by
  obtain ⟨q, hq⟩ := issueWord_of_enters h eff (fun _ f u hf => nomatch he.symm.trans hf)
  rw [hq, he]
  rfl

/-- Only a word whose guard is known faults at acceptance. -/
theorem enters_fault {f : FaultReq} (h : Enters opc w serial s r) (hguard : s.guardOf w.head = some true) (he : eff r = .fault f r) :
    issueWord opc w serial eff s = r.takeFault opc w f := by
  obtain ⟨q, hq⟩ := issueWord_of_enters h eff (fun hn => nomatch hguard.symm.trans hn)
  rw [hq, he]
  rfl

theorem enters_wait (h : Enters opc w serial s r) (he : eff r = .wait t) : issueWord opc w serial eff s = t := by
  obtain ⟨q, hq⟩ := issueWord_of_enters h eff (fun _ f u hf => nomatch he.symm.trans hf)
  rw [hq, he]
  rfl

/-! ## The matrix unit -/

theorem matrixCommandsAccepted : MatrixCommandsAccepted := by
  refine ⟨fun w s r hent hacc => ?_, fun w s r hent hacc => ?_, fun w s r hent hacc => ⟨fun hcheck => ?_, fun f hguard hbad => ?_⟩⟩
  · exact congrArg Host.Outcome.next (enters_done (eff := effMma w) hent (accept_enters hacc (.inr rfl)))
  · exact congrArg Host.Outcome.next (enters_done (eff := effMmz w) hent (accept_enters hacc (.inr rfl)))
  · have heff : effMmdrain w r = _ :=
      accept_enters (op := .mmdrain) (fill := fun c => c) (after := fun s c => s.drainLink s.myCore c) hacc hcheck
    rw [myCore_entered] at heff
    exact congrArg Host.Outcome.next (enters_done hent heff)
  · exact congrArg Host.Outcome.next
      (enters_fault (eff := effMmdrain w) hent (hent.guard.symm.trans hguard) (accept_faults hacc hguard hbad))

/-! ## The copy engine -/

/-- A copy without a true guard, or whose source is no tile of its core, is accepted as it is (R360). -/
theorem effCopy_accepts (hacc : Accepts opc w .copy none r) (h : r.guardOf w.head ≠ some true ∨ r.sourceTile w = none) :
    effCopy opc op w r = .done (r.entered .copy (r.commandOf opc w op 0)) := by
  have hgo := accept_enters (op := op) (check := none) (fill := fun c => { c with drains := false }) (after := fun s _ => s) hacc (.inr rfl)
  unfold effCopy
  by_cases hg : r.guardOf w.head = some true
  · have hd : r.firstDeferred (sSources opc w) = none := hacc.defined (by simp [hg])
    simp only [hg, hd, h.resolve_left (not_not_intro hg), bne_self_eq_false, Bool.false_eq_true, if_false]
    exact hgo
  · simp only [bne_iff_ne.2 hg, if_true]
    exact hgo

section SourceTile
variable {i : Nat} (hacc : Accepts opc w .copy none r) (hguard : r.guardOf w.head = some true) (hsrc : r.sourceTile w = some i)
include hacc hguard hsrc

/-- A copy from a tile of its core waits for it at its rank (R110, R143). -/
theorem effCopy_tile :
    effCopy opc op w r =
      if !r.rankLegal r.myCore r.me none (r.tile r.myCore i).rank then .fault (r.rankOrder (BitVec.ofNat 64 i) (r.tile r.myCore i).rank) r
      else
        match (r.tile r.myCore i).state with
        | .ready => r.accept opc w .copy op none none (fun c => { c with drains := true })
            (fun s _ => s.setTile s.myCore i { s.tile s.myCore i with state := .draining })
        | .filling => .wait (r.enterWait (.tile r.myCore i .source) (r.tile r.myCore i).rank)
        | _ => .fault (orphanWait (BitVec.ofNat 64 i) (r.tile r.myCore i).rank) r := by
  have hd : r.firstDeferred (sSources opc w) = none := hacc.defined (by simp [hguard])
  unfold effCopy
  simp only [hguard, hd, hsrc, bne_self_eq_false, Bool.false_eq_true, if_false]
  rfl

theorem effCopy_rankOrder (hrank : r.rankLegal r.myCore r.me none (r.tile r.myCore i).rank = false) :
    effCopy opc op w r = .fault (r.rankOrder (BitVec.ofNat 64 i) (r.tile r.myCore i).rank) r := by
  rw [effCopy_tile hacc hguard hsrc, hrank]
  rfl

theorem effCopy_waits (hrank : r.rankLegal r.myCore r.me none (r.tile r.myCore i).rank = true) (hst : (r.tile r.myCore i).state = .filling) :
    effCopy opc op w r = .wait (r.enterWait (.tile r.myCore i .source) (r.tile r.myCore i).rank) := by
  rw [effCopy_tile hacc hguard hsrc, hrank, hst]
  rfl

theorem effCopy_orphan (hrank : r.rankLegal r.myCore r.me none (r.tile r.myCore i).rank = true)
    (hready : (r.tile r.myCore i).state ≠ .ready) (hfilling : (r.tile r.myCore i).state ≠ .filling) :
    effCopy opc op w r = .fault (orphanWait (BitVec.ofNat 64 i) (r.tile r.myCore i).rank) r := by
  rw [effCopy_tile hacc hguard hsrc, hrank]
  cases hst : (r.tile r.myCore i).state with
  | ready => exact absurd hst hready
  | filling => exact absurd hst hfilling
  | empty => rfl
  | draining => rfl

/-- A copy from a ready tile drains it (R110). -/
theorem effCopy_drains (hrank : r.rankLegal r.myCore r.me none (r.tile r.myCore i).rank = true) (hst : (r.tile r.myCore i).state = .ready) :
    effCopy opc op w r = .done ((r.entered .copy { r.commandOf opc w op 0 with drains := true }).setTile r.myCore i
      { (r.entered .copy { r.commandOf opc w op 0 with drains := true }).tile r.myCore i with state := .draining }) := by
  rw [effCopy_tile hacc hguard hsrc, hrank, hst]
  refine (accept_enters (op := op) (fill := fun c => { c with drains := true })
    (after := fun s _ => s.setTile s.myCore i { s.tile s.myCore i with state := .draining }) hacc (.inr rfl)).trans ?_
  rw [myCore_entered]
  rfl

end SourceTile

/-- What an entered command changes at its core is the queue that it enters. -/
theorem core_entered (r : State) (e : Eng) (c : Cmd) :
    (r.entered e c).core r.myCore = (r.core r.myCore).setQueue e ((r.core r.myCore).queue e ++ [c]) := by
  unfold State.entered
  split
  · exact State.core_modCore _ _ _
  · exact State.core_modCore _ _ _

theorem tile_entered_copy (r : State) (c : Cmd) (i : Nat) : (r.entered .copy c).tile r.myCore i = r.tile r.myCore i := by
  unfold State.tile
  rw [core_entered]
  rfl

theorem tile_setTile (r : State) (core i : Nat) (x : Tile) : (r.setTile core i x).tile core i = x := by
  unfold State.tile State.setTile
  rw [State.core_modCore]
  exact tget_tset_same _ _ _ _

theorem copyAccepted (hent : Enters opc w (s.copyWaits w) s r) (hacc : Accepts opc w .copy none r) {mk : Operands → Instr}
    (hexec : exec (mk w) s = .next (issueWord opc w (s.copyWaits w) (effCopy opc op w) s)) :
    (s.guardOf w.head ≠ some true ∨ r.sourceTile w = none →
      exec (mk w) s = .next ((r.entered .copy (r.commandOf opc w op 0)).issued opc w)) ∧
    (∀ i, s.guardOf w.head = some true → r.sourceTile w = some i →
      let x := r.tile r.myCore i
      (r.rankLegal r.myCore r.me none x.rank = false →
        exec (mk w) s = .next (r.takeFault opc w (r.rankOrder (BitVec.ofNat 64 i) x.rank))) ∧
      (r.rankLegal r.myCore r.me none x.rank = true →
        (x.state = .ready → ∃ u : State, exec (mk w) s = .next (u.issued opc w) ∧
          (u.core r.myCore).copyQ = (r.core r.myCore).copyQ ++ [{ r.commandOf opc w op 0 with drains := true }] ∧
          u.tile r.myCore i = { x with state := .draining }) ∧
        (x.state = .filling → exec (mk w) s = .next (r.enterWait (.tile r.myCore i .source) x.rank)) ∧
        (x.state ≠ .ready → x.state ≠ .filling →
          exec (mk w) s = .next (r.takeFault opc w (orphanWait (BitVec.ofNat 64 i) x.rank))))) := by
  rw [hexec]
  refine ⟨fun h => ?_, fun i hguard hsrc => ⟨fun hrank => ?_, fun hrank => ⟨fun hst => ?_, fun hst => ?_, fun hready hfilling => ?_⟩⟩⟩
  · exact congrArg _ (enters_done hent (effCopy_accepts hacc (hent.guard ▸ h)))
  all_goals have hguard' : r.guardOf w.head = some true := hent.guard.trans hguard
  · exact congrArg _ (enters_fault hent hguard (effCopy_rankOrder hacc hguard' hsrc hrank))
  · refine ⟨_, congrArg _ (enters_done hent (effCopy_drains hacc hguard' hsrc hrank hst)), ?_, ?_⟩
    · refine (congrArg Core.copyQ (State.core_modCore _ _ _)).trans ?_
      exact congrArg Core.copyQ (core_entered _ _ _)
    · rw [tile_entered_copy]
      exact tile_setTile _ _ _ _
  · exact congrArg _ (enters_wait hent (effCopy_waits hacc hguard' hsrc hrank hst))
  · exact congrArg _ (enters_fault hent hguard (effCopy_orphan hacc hguard' hsrc hrank hready hfilling))

/-! ## Collectives -/

/-- What acceptance does with a collective: it begins to add its shard units where the command names signal blocks (R254). -/
def State.colAccepted (t : State) (c : Cmd) : State :=
  if c.sigBase = 0 ∨ t.colActs c = false then t
  else t.acceptMore t.myCore ((t.core t.myCore).colQ.length - 1) { c with phase := .accepting 0 }

theorem effCol_accepts (hacc : Accepts opc w .col none r) :
    effCol opc op w r = .done ((r.entered .col (r.commandOf opc w op 0)).colAccepted (r.commandOf opc w op 0)) := by
  refine (accept_enters (op := op) (fill := fun c => c) (after := fun s c => if c.sigBase == 0 || !s.colActs c then s
    else s.acceptMore s.myCore ((s.core s.myCore).colQ.length - 1) { c with phase := .accepting 0 }) hacc (.inr rfl)).trans ?_
  simp [State.colAccepted]

theorem copyCommandsAccepted : CopyCommandsAccepted := by
  refine ⟨fun opc op mk hop w s r hent hacc => ?_, fun opc op mk hop w s r hent hacc => ?_⟩
  · rcases hop with ⟨rfl, rfl, rfl⟩ | ⟨rfl, rfl, rfl⟩
    · exact copyAccepted hent hacc rfl
    · exact copyAccepted hent hacc rfl
  · rcases hop with ⟨rfl, rfl, rfl⟩ | ⟨rfl, rfl, rfl⟩
    · exact congrArg Host.Outcome.next (enters_done (eff := effCol 0x306 .colag w) hent (effCol_accepts hacc))
    · exact congrArg Host.Outcome.next (enters_done (eff := effCol 0x307 .colrs w) hent (effCol_accepts hacc))

/-- Settles O22: all seven words go through `State.accept`, whose outcome `accept_enters` and `accept_faults` say. -/
theorem engineCommands : Obligations.EngineCommands := ⟨matrixCommandsAccepted, copyCommandsAccepted⟩

end Sys2Proof.Machine
end

section
/-!
Saves, pre-emption, restoration and the OS's service (R148, R161, R198, R202, R207 to R209, R213, R216, R309): one equation for each case
of a save, of PREEMPT and of a resume operation.
-/

namespace Sys2Proof.Machine

variable {s t : State} {k n core slot part : Nat} {v : SaveReq} {how : ResumeHow}

/-! ## Saves -/

theorem trySave_saves {r : List Nat} (h : MaySave s k n r v) :
    s.trySave k = (s.modDie (dieOf (coreOf k)) (fun x => { x with frames := r })).saveNow k n v := by
  obtain ⟨hst, hwhy, hready, hframe⟩ := h
  unfold State.trySave
  simp only [hst, hwhy, hready, hframe, Bool.not_true, Bool.false_eq_true, if_false]

section NoFrame
variable (hst : (s.act k).st = .saving) (hsave : (s.act k).save = some v) (hready : s.saveReady k = true)
  (hempty : (s.die (dieOf (coreOf k))).frames = [])
include hst hsave hready hempty

theorem trySave_givenUp (hwhy : v.why = .forMessage) : s.trySave k = s.unsave k := by
  unfold State.trySave
  simp only [hst, hsave, hready, hempty, hwhy, beq_self_eq_true, Bool.not_true, Bool.false_eq_true, if_false, if_true]

theorem trySave_reported (hwhy : v.why ≠ .forMessage) :
    s.trySave k = if v.noted then s else
      (s.modAct k (fun a => { a with save := some { v with noted := true } })).note 0x84 (s.part (s.act k).part).asid (coreOf k) 0 0 := by
  unfold State.trySave
  simp only [hst, hsave, hready, hempty, beq_eq_false_iff_ne.2 hwhy, Bool.not_true, Bool.false_eq_true, if_false]

end NoFrame

/-! ## PREEMPT -/

/-- A mask of one slot lets PREEMPT act on that slot alone. -/
theorem execPreempt_one (hslot : slot < 8) : execPreempt core (1#8 <<< slot) s = .next (s.preemptSlot (8 * core + slot)) := by
  unfold execPreempt
  interval_cases slot <;> rfl

theorem preemptSlot_active (hfree : (s.act k).st ≠ .free) (hsaving : (s.act k).st ≠ .saving) :
    s.preemptSlot k =
      (s.modAct k (fun a => { a with st := .saving, save := some { why := .preempt, pc := a.pc } })).annotate k 5 (s.act k).pc := by
  unfold State.preemptSlot
  dsimp only
  split
  · next hst => exact absurd hst hfree
  · next hst => exact absurd hst hsaving
  · rfl

theorem preemptSlot_forMessage (hst : (s.act k).st = .saving) (hsave : (s.act k).save = some v) (hwhy : v.why = .forMessage) :
    s.preemptSlot k = s.modAct k (fun a => { a with save := a.save.map (fun x => { x with why := .preempt }) }) := by
  obtain ⟨_, _⟩ := v
  subst hwhy
  unfold State.preemptSlot
  simp only [hst, hsave]

theorem preemptSlot_free (hst : (s.act k).st = .free) : s.preemptSlot k = s := by
  unfold State.preemptSlot
  simp only [hst]

/-! ## Restoration -/

section Restore
variable {key : Nat} {r : List (Nat × ResumeHow)} (hq : (s.core core).restores = (key, how) :: r)
  (hmay : s.mayRestore core (s.frameCls (key / 2 ^ 28) (key % 2 ^ 28)) = true)
  (hslot : s.freeSlotFor core (s.frameCls (key / 2 ^ 28) (key % 2 ^ 28)) = some k)
include hq hmay hslot

theorem execFrameRestore_ok
    (h : (s.modCore core (fun c => { c with restores := r })).restoreInto k (key / 2 ^ 28) (key % 2 ^ 28) how = .ok t) :
    execFrameRestore core s = .next ((t.trace 0x04 k (t.act k) 0 (BitVec.ofNat 64 (key % 2 ^ 28))).completeTimers core) := by
  unfold execFrameRestore
  simp only [hq, hmay, hslot, if_true, h]

theorem execFrameRestore_refused
    (h : (s.modCore core (fun c => { c with restores := r })).restoreInto k (key / 2 ^ 28) (key % 2 ^ 28) how = .refused t) :
    execFrameRestore core s = .next t := by
  unfold execFrameRestore
  simp only [hq, hmay, hslot, if_true, h]

end Restore

/-- Whether a slot waits for a free frame: its save has been reported (R198). -/
def State.waitsFrame (s : State) (k : Nat) : Bool :=
  (s.act k).st == .saving && (match (s.act k).save with | some v => v.noted | none => false)

theorem execPushFreeFrame_room {die f : Nat} (hroom : (s.die die).frames.length < 1024) :
    execPushFreeFrame die f s =
      .next (match (slotsOfDie s.acts die).find? s.waitsFrame with
        | some k => (s.modDie die (fun x => { x with frames := f :: x.frames })).trySave k
        | none => s.modDie die (fun x => { x with frames := f :: x.frames })) := by
  unfold execPushFreeFrame
  rw [if_neg (Nat.not_le.2 hroom)]
  change (match (slotsOfDie s.acts die).find? s.waitsFrame with
    | some k => Host.Outcome.next ((s.modDie die (fun x => { x with frames := f :: x.frames })).trySave k)
    | none => Host.Outcome.next (s.modDie die (fun x => { x with frames := f :: x.frames }))) = _
  cases (slotsOfDie s.acts die).find? s.waitsFrame with
  | some k => rfl
  | none => rfl

theorem saveEvents : SaveEvents := by
  refine ⟨fun s core slot n r v h => congrArg Host.Outcome.next (trySave_saves h), ?_, ?_, ?_, ?_⟩
  · intro s core slot v k hst hsave hready hempty
    exact ⟨fun hwhy => congrArg Host.Outcome.next (trySave_givenUp hst hsave hready hempty hwhy),
      fun hwhy => congrArg Host.Outcome.next (trySave_reported hst hsave hready hempty hwhy)⟩
  · intro s core slot hslot k
    exact ⟨fun hfree hsaving => (execPreempt_one hslot).trans (congrArg _ (preemptSlot_active hfree hsaving)),
      fun v hst hsave hwhy => (execPreempt_one hslot).trans (congrArg _ (preemptSlot_forMessage hst hsave hwhy)),
      fun hst => (execPreempt_one hslot).trans (congrArg _ (preemptSlot_free hst))⟩
  · intro s core key k how r hq hmay hslot x
    exact ⟨fun t hx => execFrameRestore_ok hq hmay hslot hx, fun t hx => execFrameRestore_refused hq hmay hslot hx⟩
  · intro s t die f ht waits
    refine ⟨fun hfull => if_pos hfull, fun hroom hnone => ?_, fun k hroom hfind => ?_⟩
    · have hfind : (slotsOfDie s.acts die).find? s.waitsFrame = none :=
        List.find?_eq_none.2 fun k hk => Bool.eq_false_iff.1 (hnone k hk)
      refine (execPushFreeFrame_room hroom).trans ?_
      rw [hfind, ht]
    · have hfind' : (slotsOfDie s.acts die).find? s.waitsFrame = some k := hfind
      refine (execPushFreeFrame_room hroom).trans ?_
      rw [hfind', ht]

/-! ## The OS's service -/

section Resume
variable (h : s.resumable part n = true) (hrec : how = .recovery → (s.recovery part).isSome = true)
include h hrec

theorem resume_allowed : (!s.resumable part n || (how == .recovery && (s.recovery part).isNone)) = false := by
  by_cases hhow : how = .recovery
  · simpa [h, hhow] using hrec hhow
  · simp [h, hhow]

theorem resumeFrame_queued {u : State} (hu : s.leaveEntries (fun i => i == .frame (s.frameCore part n) n) = u)
    (hpart : (u.core (s.frameCore part n)).part = some part) : s.resumeFrame part n how = u.queueRestore part n how := by
  unfold State.resumeFrame
  simp [resume_allowed h hrec, hu, hpart]

theorem resumeFrame_reported {u : State} (hu : s.leaveEntries (fun i => i == .frame (s.frameCore part n) n) = u)
    (hpart : (u.core (s.frameCore part n)).part ≠ some part) :
    s.resumeFrame part n how = u.noteFrame 0x88 (u.part part).asid (s.frameCore part n) n := by
  unfold State.resumeFrame
  simp [resume_allowed h hrec, hu, hpart]

end Resume

theorem exec_resume {mk : ResumeTarget → Instr} (hmk : (how = .atWord ∧ mk = .resumeAtWord) ∨
    (how = .afterWord ∧ mk = .resumeAfterWord) ∨ (how = .recovery ∧ mk = .resumeWithRecovery)) (x : ResumeTarget) :
    exec (mk x) s = .next (s.resume x how) := by
  rcases hmk with ⟨rfl, rfl⟩ | ⟨rfl, rfl⟩ | ⟨rfl, rfl⟩
  · rfl
  · rfl
  · rfl

section Parked
variable (hst : (s.act k).st = .parked)
include hst

theorem resumeParked_atWord : s.resumeParked k .atWord = s.modAct k (fun a => { a with st := .running }) := by
  unfold State.resumeParked
  simp only [hst, bne_self_eq_false, Bool.false_eq_true, if_false]

theorem resumeParked_afterWord : s.resumeParked k .afterWord = s := by
  unfold State.resumeParked
  simp only [hst, bne_self_eq_false, Bool.false_eq_true, if_false]

theorem resumeParked_recovery {e : Word} {o : Obl} {l : List Obl} {ws : List Word} (he : s.recovery (s.act k).part = some e)
    (hobl : (s.act k).oblUsed = o :: l)
    (hws : recordWords { code := 0x27, addr := o.handle, info := o.word false } (s.part (s.act k).part).asid false (s.act k).pc none
      (coreOf k) (slotOf k) (s.act k).stamp = ws) :
    s.resumeParked k .recovery =
      (s.modAct k (fun a => a.recover e 0x27 (nth 0 ws 1) (nth 0 ws 2) (nth 0 ws 3))).cleanS k [1, 2, 3, 4] := by
  subst hws
  unfold State.resumeParked
  simp only [hst, he, hobl, bne_self_eq_false, Bool.false_eq_true, if_false]

end Parked

theorem execPageReady_eq {die asid page : Nat} : execPageReady die asid page s =
    .next (match s.coalFind die asid page with | some n => s.serveEntry die n | none => s) := by
  unfold execPageReady
  cases s.coalFind die asid page with
  | some n => rfl
  | none => rfl

theorem serviceEvents : ServiceEvents := by
  refine ⟨fun s die asid page => execPageReady_eq, fun s die n => rfl, ?_, ?_, fun s ring tail => rfl⟩
  · intro how mk hmk s part c n hres hrec core t
    exact ⟨fun hpart => (exec_resume hmk _).trans (congrArg _ (resumeFrame_queued hres hrec rfl hpart)),
      fun hpart => (exec_resume hmk _).trans (congrArg _ (resumeFrame_reported hres hrec rfl hpart))⟩
  · intro s core slot k hst
    refine ⟨congrArg Host.Outcome.next (resumeParked_atWord hst), congrArg Host.Outcome.next (resumeParked_afterWord hst), ?_⟩
    intro e o l he hobl ws
    exact congrArg Host.Outcome.next (resumeParked_recovery hst he hobl rfl)

/-- Settles O38: each event is one case of a save, of PREEMPT, of a restoration or of a resume operation, whose equation stands above. -/
theorem saveAndService : Obligations.SaveAndService := ⟨saveEvents, serviceEvents⟩

end Sys2Proof.Machine
end

section
/-!
Obligations discharged as poisoned and ECC events (R153, R214, R215, R276, R321, R323).
-/

namespace Sys2Proof.Machine

variable {s t : State} {core part : Nat} {stamp : Word} {o : Obl} {g : Granule}

/-! ## Poisoned discharge -/

/-- Messages that a core posts, each the same but for its place in the queue (R276). -/
theorem foldl_postMsg (s : State) (core : Nat) (m : Msg) (l : List Nat) :
    ∃ k : List Msg, (l.foldl (fun t _ => t.postMsg core m) s).msgs = s.msgs ++ k ∧ k.length = l.length ∧
      ∀ x ∈ k, x = { m with src := coreAddr core, sent := x.sent, here := x.here } := by
  induction l generalizing s with
  | nil => exact ⟨[], (List.append_nil _).symm, rfl, fun x hx => nomatch hx⟩
  | cons _ l ih =>
    obtain ⟨k, hmsgs, hlen, hk⟩ := ih (s.postMsg core m)
    refine ⟨{ m with src := coreAddr core, sent := s.cycle, here := dieOf core } :: k, ?_, by simp [hlen], ?_⟩
    · refine hmsgs.trans ?_
      simp [State.postMsg]
    · rintro x (_ | ⟨_, hx⟩)
      · rfl
      · exact hk x hx

theorem length_upTo (n : Nat) : (upTo n).length = n := by
  induction n with
  | zero => rfl
  | succ n ih => simp [upTo, ih]

/-- The poison replies that a REPLY's units give (R276; log entry 127). -/
theorem poisonObl_reply (h : o.kind = .reply) : ∃ l : List Msg, (s.poisonObl core part stamp o).msgs = s.msgs ++ l ∧ l.length = o.count ∧
    ∀ m ∈ l, m.poison = true ∧ m.dest = (bits o.handle 16 25).toNat ∧ m.rseq = (bits o.handle 0 16).toNat ∧ m.vn = .reply ∧
      m.type = 0xFFE ∧ m.src = coreAddr core := by
  unfold State.poisonObl
  simp only [h]
  obtain ⟨l, hmsgs, hlen, hl⟩ := foldl_postMsg s core
    { dest := (bits o.handle 16 25).toNat, src := coreAddr core, vn := .reply, poison := true, byType := true, type := 0xFFE
      rseq := (bits o.handle 0 16).toNat, rslot := (bits o.handle 41 3).toNat, stamp := stamp
      args := [BitVec.ofNat 64 (bits o.handle 0 16).toNat, BitVec.ofNat 64 (coreAddr core), 0, 0], part := part } (upTo o.count)
  refine ⟨l, hmsgs, hlen.trans (length_upTo _), fun m hm => ?_⟩
  rw [hl m hm]
  exact ⟨rfl, rfl, rfl, rfl, rfl, rfl⟩

theorem poisonedDischarges : PoisonedDischarges := by
  intro s core part stamp o
  refine ⟨fun hk hshm => ?_, fun g hk hglb hwalk => ?_, poisonObl_reply, fun c hk hcore hfill => ?_, fun hk hfill => ?_, fun hk => ?_⟩
  · unfold State.poisonObl
    simp only [hk, hshm, if_true]
  · unfold State.poisonObl
    simp only [hk, hglb, hwalk, Bool.false_eq_true, if_false]
  · unfold State.poisonObl
    simp only [hk, hcore, hfill, beq_self_eq_true, if_true]
  · unfold State.poisonObl
    simp only [hk, hfill, beq_self_eq_true, if_true]
  · unfold State.poisonObl
    rcases hk with hk | hk | hk
    · simp only [hk]
    · simp only [hk]
    · simp only [hk]

/-! ## ECC events -/

/-- From one state to the other the cores and the memories stay. -/
def BanksStay (s t : State) : Prop := t.cores = s.cores ∧ t.glb = s.glb ∧ t.loc = s.loc ∧ t.shm = s.shm

/-- Poison that parked values take with them lies in the slots (R118, R214). -/
theorem poisonParked_stays (s : State) (g : Granule) : BanksStay s (s.poisonParked g) := by
  unfold State.poisonParked
  dsimp only
  split
  · exact ⟨rfl, rfl, rfl, rfl⟩
  · split
    · exact ⟨rfl, rfl, rfl, rfl⟩
    · exact ⟨rfl, rfl, rfl, rfl⟩
  · split
    · exact ⟨rfl, rfl, rfl, rfl⟩
    · exact ⟨rfl, rfl, rfl, rfl⟩
  · exact ⟨rfl, rfl, rfl, rfl⟩

/-- Where no core replays, none stops (R323). -/
theorem eccReplay_none (h : (t.cores.all (fun e => e.2.rmode != .replay)) = true) : t.eccReplay g = t := by
  unfold State.eccReplay
  dsimp only
  rw [if_pos]
  rw [List.isEmpty_iff, List.filter_eq_nil_iff]
  intro e he
  have hmode : e.2.rmode ≠ .replay := bne_iff_ne.1 (List.all_eq_true.1 h e he)
  simp [hmode]

/-- A granule that is poisoned, whether it was so before or not. -/
def State.withPoison (s : State) (g : Granule) : State :=
  if s.poisoned.contains g then s else { s with poisoned := g :: s.poisoned }

theorem mem_withPoison (s : State) (g : Granule) : g ∈ (s.withPoison g).poisoned := by
  unfold State.withPoison
  split
  · next h => simpa using h
  · exact List.mem_cons_self

theorem withPoison_stays (s : State) (g : Granule) : BanksStay s (s.withPoison g) := by
  unfold State.withPoison
  split
  · exact ⟨rfl, rfl, rfl, rfl⟩
  · exact ⟨rfl, rfl, rfl, rfl⟩

theorem eccUncorrected_poisons (h : (s.cores.all (fun e => e.2.rmode != .replay)) = true) : ∃ u : State,
    exec (.eccUncorrected g) s = .next u ∧ alignGranule g ∈ u.poisoned ∧ u.glb = (s.eccNote 0x81 (alignGranule g)).glb ∧
      u.loc = s.loc ∧ u.shm = s.shm := by
  have hnote : Kept s (s.eccNote 0x81 (alignGranule g)) := (Kept.refl s).post _ _
  obtain ⟨hcores, hglb, hloc, hshm⟩ := poisonParked_stays (s.eccNote 0x81 (alignGranule g)) (alignGranule g)
  obtain ⟨hcores', hglb', hloc', hshm'⟩ :=
    withPoison_stays ((s.eccNote 0x81 (alignGranule g)).poisonParked (alignGranule g)) (alignGranule g)
  have hmodes : ((((s.eccNote 0x81 (alignGranule g)).poisonParked (alignGranule g)).withPoison (alignGranule g)).cores.all
      (fun e => e.2.rmode != .replay)) = true := by rw [hcores', hcores, hnote.cores, h]
  exact ⟨_, congrArg Host.Outcome.next (eccReplay_none hmodes), mem_withPoison _ _, hglb'.trans hglb,
    hloc'.trans (hloc.trans hnote.banks.1), hshm'.trans (hshm.trans hnote.banks.2)⟩

/-- An ECC record names the granule's place (R204, R214). -/
theorem eccCorrected_register {g : Granule} {core slot : Nat} {addr : Word}
    (h : (s.eccNote 0x80 g).granuleOf g = { addr := addr, space := 6, core := core, slot := slot }) :
    exec (.eccCorrected g) s = .next (if ((s.eccNote 0x80 g).act (8 * core + slot)).st = .free then s.eccNote 0x80 g
      else (s.eccNote 0x80 g).annotate (8 * core + slot) 4 addr) := by
  change execEccCorrected g s = _
  unfold execEccCorrected
  simp [h]

theorem eccEvents : EccEvents := by
  refine ⟨fun s g h => eccUncorrected_poisons h, ?_⟩
  intro s g u addr strike local_
  cases g with
  | sreg c sl n => exact eccCorrected_register rfl
  | vreg c sl n j => exact eccCorrected_register rfl
  | qreg c sl n j => exact eccCorrected_register rfl
  | mreg c sl n => exact eccCorrected_register rfl
  | loc c a => rfl
  | acc c i => rfl
  | shm d a => rfl
  | glb a => rfl
  | other x i => rfl

end Sys2Proof.Machine
end
section
/-!
What the poisoned discharges and releases of a terminated process leave standing (R88, R139, R153): operations on their way to a block stay
on it, and no group but the one released changes.
-/

namespace Sys2Proof.Machine

variable {s t u : State} {k core : Nat}

/-- Operations on their way to their blocks stay there, and the groups of every partition are as they were. -/
structure Steady (s t : State) : Prop where
  ops    : ∀ p ∈ s.homeOps, p ∈ t.homeOps
  groups : ∀ p, (t.part p).groups = (s.part p).groups

theorem Steady.refl (s : State) : Steady s s := ⟨fun _ h => h, fun _ => rfl⟩

theorem Steady.trans (h : Steady s t) (h' : Steady t u) : Steady s u :=
  ⟨fun p hp => h'.ops p (h.ops p hp), fun p => (h'.groups p).trans (h.groups p)⟩

/-- An operation on the state beside both. -/
theorem Steady.beside (h : Steady s t) (parts : u.parts = t.parts := by rfl) (homeOps : u.homeOps = t.homeOps := by rfl) : Steady s u :=
  h.trans ⟨fun _ hp => homeOps ▸ hp, fun p => congrArg (fun x => (tget ({} : Part) p x).groups) parts⟩

theorem Steady.ite {p : Prop} [Decidable p] (h : Steady s t) (h' : Steady s u) : Steady s (if p then t else u) := by
  split
  · exact h
  · exact h'

theorem Kept.steady (h : Kept s t) : Steady s t := (Steady.refl s).beside h.parts h.homeOps

theorem Steady.kept (h : Steady s t) (h' : Kept t u) : Steady s u := h.trans h'.steady

theorem Steady.foldl {α : Type} {f : State → α → State} (h : Steady s t) (hf : ∀ t x, Steady t (f t x)) (l : List α) :
    Steady s (l.foldl f t) :=
  List.foldlRecOn l f h fun _ ht x _ => ht.trans (hf _ x)

/-- A change of a partition that leaves its groups alone. -/
theorem Steady.modPart (h : Steady s t) (p : Nat) {f : Part → Part} (hf : (f (t.part p)).groups = (t.part p).groups) :
    Steady s (t.modPart p f) := by
  refine h.trans ⟨fun _ hp => hp, fun q => ?_⟩
  by_cases hq : q = p
  · rw [hq, State.part_modPart]
    exact hf
  · rw [State.part_modPart_other _ hq]

/-! ## Memory, records and the logs of dispatches -/

theorem Steady.sealRun (h : Steady s t) (pa va n : Nat) : Steady s (t.sealRun pa va n) := by
  unfold State.sealRun
  split
  · exact h
  · refine h.foldl (fun t j => ?_) _
    unfold State.sealByte
    split
    · exact .refl t
    · exact (Steady.refl t).beside

theorem Steady.pokePage (h : Steady s t) (asid va : Nat) (bs : List Byte) : Steady s (t.pokePage asid va bs) := by
  unfold State.pokePage
  split
  · exact (h.sealRun _ _ _).kept ((Kept.refl _).poke _ _)
  · exact h

theorem Steady.pokeVirt (h : Steady s t) (asid va : Nat) (bs : List Byte) : Steady s (t.pokeVirt asid va bs) := by
  unfold State.pokeVirt
  dsimp only
  split
  · exact h.pokePage _ _ _
  · exact (h.pokePage _ _ _).pokePage _ _ _

theorem Steady.traceWrite (h : Steady s t) (d : Nat) (ws : List Word) : Steady s (t.traceWrite d ws) :=
  (h.kept ((Kept.refl _).poke _ _)).beside

theorem Steady.trace (h : Steady s t) (kind key : Nat) (a : Act) (d0 d1 : Word) : Steady s (t.trace kind key a d0 d1) := by
  unfold State.trace
  dsimp only
  split
  · exact h.traceWrite _ _
  · exact h

theorem Steady.logAppend (h : Steady s t) {w0 w1 : Word} (hu : t.logAppend core w0 w1 = some u) : Steady s u := by
  unfold State.logAppend at hu
  dsimp only at hu
  split at hu
  · cases hu
    exact h
  split at hu
  · cases hu
    exact (h.pokeVirt _ _ _).modPart _ rfl
  · cases hu

/-- A log that takes an entry, or a state that is used where it has no room. -/
theorem Steady.logAppend_getD (h : Steady s t) (h' : Steady s u) (core : Nat) (w0 w1 : Word) :
    Steady s ((t.logAppend core w0 w1).getD u) := by
  cases hx : t.logAppend core w0 w1 with
  | none => exact h'
  | some x => exact h.logAppend hx

theorem Steady.annotate (h : Steady s t) (key ekind : Nat) (ident : Word) : Steady s (t.annotate key ekind ident) := by
  unfold State.annotate State.annotateCore
  split
  · exact h.logAppend_getD h.beside _ _ _
  · split
    · split
      · exact h.beside
      · exact h
    · exact h
  · split
    · exact h.beside
    · exact Steady.trace (Steady.beside (h.logAppend_getD h _ _ _)) _ _ _ _ _

/-! ## Faults -/

theorem Steady.coalJoin (h : Steady s t) (d asid : Nat) (f : FaultReq) (item : Parked) (ws : List Word) :
    Steady s (t.coalJoin d asid f item ws).1 := by
  unfold State.coalJoin
  dsimp only
  split
  · exact h.beside
  split
  · exact h.beside
  · exact h.beside

theorem Steady.cleanS (h : Steady s t) (k : Nat) (ns : List Nat) : Steady s (t.cleanS k ns) := by
  unfold State.cleanS State.cleanAll
  split
  · exact h
  · exact h.beside

theorem Steady.takeFaultAt (h : Steady s t) (k : Nat) (f : FaultReq) (pc : Word) : Steady s (t.takeFaultAt k f pc) := by
  have hdrop : Steady s ((t.dropFault k).forgetKey k) := h.kept (kept_faulting t k)
  unfold State.takeFaultAt
  dsimp only
  split
  · exact Steady.kept hdrop.beside ((Kept.refl _).post _ _)
  · split
    · exact (Steady.cleanS hdrop.beside _ _).annotate _ _ _
    · exact hdrop.beside
  · exact hdrop.beside
  · exact ((hdrop.annotate _ _ _).coalJoin _ _ _ _ _).beside

/-! ## Waiters -/

theorem Steady.failAt (h : Steady s t) (k : Nat) (r : WRel) (f : FaultReq) : Steady s (t.failAt k r f) := by
  unfold State.failAt
  dsimp only
  split
  · exact Steady.takeFaultAt h.beside _ _ _
  · exact h.beside

theorem Steady.releaseFrame (h : Steady s t) (part n core : Nat) (r : WRel) : Steady s (t.releaseFrame part n core r) := by
  unfold State.releaseFrame
  dsimp only
  have hpoke := h.pokeVirt (t.part part).asid ((t.part part).frameVa n + 1)
    [((t.peekVirt (t.part part).asid ((t.part part).frameVa n + 1) 1).headD 0 &&& 0xF8) ||| BitVec.ofNat 8 r.code]
  exact Steady.ite hpoke.beside hpoke.beside

theorem Steady.wakeWaiter (h : Steady s t) (w : Waiter) (r : WRel) : Steady s (t.wakeWaiter w r) := by
  unfold State.wakeWaiter
  split
  · exact h.releaseFrame _ _ _ _
  split
  · exact h.beside
  · exact h
  split
  · exact h.failAt _ _ _
  · exact h

theorem Steady.wakeAll (h : Steady s t) (p : WaitOn → Bool) (r : WRel) : Steady s (t.wakeAll p r) :=
  h.foldl (fun t w => (Steady.refl t).wakeWaiter w r) _

/-! ## Poisoned discharges -/

theorem Steady.tileReady (h : Steady s t) (core i : Nat) : Steady s (t.tileReady core i true) :=
  Steady.wakeAll (t := t.setTile core i { t.tile core i with state := .ready, owed := false }) h.beside _ _

/-- An operation that goes on its way to its block. -/
theorem Steady.addOp (h : Steady s t) (p : HomeOp) : Steady s { t with homeOps := t.homeOps ++ [p] } :=
  h.trans ⟨fun _ hp => List.mem_append_left _ hp, fun _ => rfl⟩

theorem Steady.poisonObl (h : Steady s t) (core part : Nat) (stamp : Word) (o : Obl) : Steady s (t.poisonObl core part stamp o) := by
  unfold State.poisonObl
  dsimp only
  split
  · split
    · exact h.addOp _
    split
    · exact h
    · exact h.addOp _
  · exact h.foldl (fun t _ => (Steady.refl t).beside) _
  · split
    · split
      · exact h.tileReady _ _
      · exact h
    · exact h
  · split
    · exact h.tileReady _ _
    · exact h
  · exact h

theorem Steady.poisonObls (h : Steady s t) (core part : Nat) (stamp : Word) (l : List Obl) : Steady s (t.poisonObls core part stamp l) :=
  h.foldl (fun t o => (Steady.refl t).poisonObl _ _ _ o) _

/-! ## Releases of phases -/

variable {part g n : Nat}

/-- A group once the phase that it stands in has been released as poisoned (R88, R153). -/
def Group.poisonPhase (x : Group) : Group :=
  { x with phase := x.phase + 1, here := [], teams := [], poisoned := x.poisoned ++ [x.phase] }

/-- The release of a phase as poisoned changes its group, and no other. -/
theorem releasePhase_poisoned (s : State) (part g : Nat) :
    Steady (s.modPart part (fun p => { p with groups := tset {} g (tget {} g p.groups : Group).poisonPhase p.groups }))
      (s.releasePhase part g true) :=
  (Steady.refl _).wakeAll _ _

theorem ops_releasePhase (s : State) (part g : Nat) : ∀ p ∈ s.homeOps, p ∈ (s.releasePhase part g true).homeOps :=
  (releasePhase_poisoned s part g).ops

theorem group_releasePhase (s : State) (part g : Nat) :
    (tget {} g ((s.releasePhase part g true).part part).groups : Group) = (tget {} g (s.part part).groups : Group).poisonPhase := by
  rw [(releasePhase_poisoned s part g).groups, State.part_modPart]
  exact tget_tset_same _ _ _ _

theorem group_releasePhase_other (s : State) (part : Nat) {g j : Nat} (hj : j ≠ g) :
    (tget {} j ((s.releasePhase part g true).part part).groups : Group) = tget {} j (s.part part).groups := by
  rw [(releasePhase_poisoned s part g).groups, State.part_modPart]
  exact tget_tset_other _ hj _ _

/-- A phase that was released as poisoned stays so. -/
theorem poisoned_releasePhase (h : n ∈ (tget {} g (s.part part).groups : Group).poisoned) (j : Nat) :
    n ∈ (tget {} g ((s.releasePhase part j true).part part).groups : Group).poisoned := by
  by_cases hj : g = j
  · subst hj
    rw [group_releasePhase]
    exact List.mem_append_left _ h
  · rwa [group_releasePhase_other s part hj]

theorem poisoned_foldl_stays (h : n ∈ (tget {} g (s.part part).groups : Group).poisoned) (l : List Nat) :
    n ∈ (tget {} g ((l.foldl (fun t j => t.releasePhase part j true) s).part part).groups : Group).poisoned :=
  List.foldlRecOn (motive := fun t : State => n ∈ (tget {} g (t.part part).groups : Group).poisoned) l _ h
    fun _ ht j _ => poisoned_releasePhase ht j

/-- Of several groups whose phases are released as poisoned, each has the phase released in which it stood. -/
theorem poisoned_foldl_releasePhase (s : State) (part : Nat) {l : List Nat} (hg : g ∈ l) :
    (tget {} g (s.part part).groups : Group).phase ∈
      (tget {} g ((l.foldl (fun t j => t.releasePhase part j true) s).part part).groups : Group).poisoned := by
  induction l generalizing s with
  | nil => nomatch hg
  | cons j l ih =>
    by_cases hj : g = j
    · subst hj
      refine poisoned_foldl_stays ?_ l
      rw [group_releasePhase]
      exact List.mem_append_right _ (List.mem_singleton_self _)
    · have hrest := ih (s.releasePhase part j true) (List.mem_of_ne_of_mem hj hg)
      rwa [group_releasePhase_other s part hj] at hrest

theorem ops_foldl_releasePhase (s : State) (part : Nat) (l : List Nat) :
    ∀ p ∈ s.homeOps, p ∈ (l.foldl (fun t g => t.releasePhase part g true) s).homeOps :=
  fun p hp => List.foldlRecOn (motive := fun t : State => p ∈ t.homeOps) l _ hp fun t ht g _ => ops_releasePhase t part g p ht

/-! ## Units of SHM blocks -/

/-- The operation that discharges a SIGNAL unit of an SHM block as poisoned is on its way to the block (R136, R153). -/
def State.DischargesShm (s : State) (core : Nat) (o : Obl) : Prop :=
  ∃ p ∈ s.homeOps, p.home = shmHome (2 ^ 27 * dieOf core + (bits o.handle 0 27).toNat) ∧ p.add = 0 ∧ p.units = o.count ∧ p.poison = true

theorem State.DischargesShm.mono {o : Obl} (h : s.DischargesShm core o) (hops : ∀ p ∈ s.homeOps, p ∈ t.homeOps) :
    t.DischargesShm core o := by
  obtain ⟨p, hp, hrest⟩ := h
  exact ⟨p, hops p hp, hrest⟩

theorem poisonObl_dischargesShm (s : State) (core part : Nat) (stamp : Word) {o : Obl} (hk : o.kind = .signal)
    (hshm : o.handle.getLsbD 63 = true) : (s.poisonObl core part stamp o).DischargesShm core o := by
  unfold State.poisonObl
  simp only [hk, hshm, if_true]
  exact ⟨_, List.mem_append_right _ (List.mem_singleton_self _), rfl, rfl, rfl, rfl⟩

theorem poisonObls_dischargesShm (s : State) (core part : Nat) (stamp : Word) {l : List Obl} {o : Obl} (ho : o ∈ l)
    (hk : o.kind = .signal) (hshm : o.handle.getLsbD 63 = true) : (s.poisonObls core part stamp l).DischargesShm core o := by
  unfold State.poisonObls
  induction l generalizing s with
  | nil => nomatch ho
  | cons x l ih =>
    rcases List.mem_cons.1 ho with rfl | ho
    · exact (poisonObl_dischargesShm s core part stamp hk hshm).mono ((Steady.refl _).poisonObls core part stamp l).ops
    · exact ih _ ho

/-- Every obligation of holders discharged as poisoned, in order (R153). -/
def State.poisonHeld (s : State) (part : Nat) (l : List (Nat × Word × List Obl)) : State :=
  l.foldl (fun t h => t.poisonObls h.1 part h.2.1 h.2.2) s

theorem Steady.poisonHeld (h : Steady s t) (part : Nat) (l : List (Nat × Word × List Obl)) : Steady s (t.poisonHeld part l) :=
  h.foldl (fun t (x : Nat × Word × List Obl) => (Steady.refl t).poisonObls x.1 part x.2.1 x.2.2) l

theorem poisonHeld_dischargesShm (s : State) (part : Nat) {l : List (Nat × Word × List Obl)} {x : Nat × Word × List Obl} {o : Obl}
    (hx : x ∈ l) (ho : o ∈ x.2.2) (hk : o.kind = .signal) (hshm : o.handle.getLsbD 63 = true) :
    (s.poisonHeld part l).DischargesShm x.1 o := by
  unfold State.poisonHeld
  induction l generalizing s with
  | nil => nomatch hx
  | cons y l ih =>
    rcases List.mem_cons.1 hx with rfl | hx
    · exact (poisonObls_dischargesShm s x.1 part x.2.1 ho hk hshm).mono ((Steady.refl _).poisonHeld part l).ops
    · exact ih _ hx

end Sys2Proof.Machine
end
section
/-!
What is freed of a terminated partition (R153, R216): its slots, its saved activations, its commands and what its faults had parked.
-/

namespace Sys2Proof.Machine

variable {s t u : State} {mine : Parked → Bool} {d n k : Nat}

/-! ## Tables -/

theorem mem_of_mem_tdel {α : Type} {k : Nat} {e : Nat × α} {t : Tab α} (h : e ∈ tdel k t) : e ∈ t := by
  induction t with
  | nil => exact h
  | cons x t ih =>
    unfold tdel at h
    split at h
    · exact List.mem_cons_of_mem _ (ih h)
    · exact (List.mem_cons.1 h).elim (fun h => h ▸ List.mem_cons_self) fun h => List.mem_cons_of_mem _ (ih h)

/-- An entry of a table after a write is the one written, or was there. -/
theorem mem_tset {α : Type} [DecidableEq α] {d : α} {k : Nat} {v : α} {e : Nat × α} {t : Tab α} (h : e ∈ tset d k v t) :
    e = (k, v) ∨ e ∈ t := by
  induction t with
  | nil =>
    unfold tset at h
    split at h
    · exact .inr h
    · exact .inl (List.mem_singleton.1 h)
  | cons x t ih =>
    unfold tset at h
    split at h
    · split at h
      · exact .inr (mem_of_mem_tdel h)
      · exact List.mem_cons.1 h
    split at h
    · split at h
      · exact .inr (List.mem_cons_of_mem _ (mem_of_mem_tdel h))
      · exact (List.mem_cons.1 h).imp_right (List.mem_cons_of_mem _)
    · rcases List.mem_cons.1 h with h | h
      · exact .inr (h ▸ List.mem_cons_self)
      · exact (ih h).imp_right (List.mem_cons_of_mem _)

/-- What a table gives for a key is the default or stands in it. -/
theorem tget_mem {α : Type} (d : α) (k : Nat) (t : Tab α) : tget d k t = d ∨ (k, tget d k t) ∈ t := by
  induction t with
  | nil => exact .inl rfl
  | cons x t ih =>
    unfold tget
    split
    · next h => exact .inr (h ▸ List.mem_cons_self)
    · exact ih.imp_right (List.mem_cons_of_mem _)

/-- A table each of whose values is changed in the same way. -/
theorem tget_map {α : Type} {d : α} {f : α → α} (hf : f d = d) (k : Nat) (t : Tab α) :
    tget d k (t.map (fun e => (e.1, f e.2))) = f (tget d k t) := by
  induction t with
  | nil => exact hf.symm
  | cons x t ih =>
    simp only [List.map_cons, tget]
    split
    · rfl
    · exact ih

/-! ## Coalescing tables without some items -/

/-- A die whose coalescing table and overflow hold no item of some. -/
structure Die.Rid (mine : Parked → Bool) (x : Die) : Prop where
  coal     : ∀ e ∈ x.coal, ∀ c, e.2 = some c → ∀ i ∈ c.items, mine i = false
  overflow : ∀ o ∈ x.overflow, mine o.1 = false

/-- So on every die. -/
def State.Rid (mine : Parked → Bool) (s : State) : Prop := ∀ d, (s.die d).Rid mine

theorem State.Rid.beside (h : s.Rid mine) (dies : t.dies = s.dies := by rfl) : t.Rid mine :=
  have die d : t.die d = s.die d := congrArg (tget ({} : Die) d) dies
  fun d => die d ▸ h d

theorem State.Rid.ite {p : Prop} [Decidable p] (h : s.Rid mine) (h' : t.Rid mine) : State.Rid mine (if p then s else t) := by
  split
  · exact h
  · exact h'

theorem State.Rid.unless {p : Prop} [Decidable p] (h : s.Rid mine) (k : s.Rid mine → t.Rid mine) : State.Rid mine (if p then s else t) :=
  h.ite (k h)

theorem State.Rid.modDie (h : s.Rid mine) (d : Nat) {f : Die → Die} (hf : (f (s.die d)).Rid mine) : (s.modDie d f).Rid mine := by
  intro e
  by_cases he : e = d
  · rw [he, State.die_modDie]
    exact hf
  · rw [State.die_modDie_other _ he]
    exact h e

/-- A change of every die that keeps the default one. -/
theorem rid_mapDies {f : Die → Die} (h0 : f {} = {}) (hf : ∀ d, (f (s.die d)).Rid mine) :
    ({ s with dies := s.dies.map (fun e => (e.1, f e.2)) } : State).Rid mine := by
  intro d
  have hd : ({ s with dies := s.dies.map (fun e => (e.1, f e.2)) } : State).die d = f (s.die d) := tget_map h0 d s.dies
  rw [hd]
  exact hf d

/-- An entry written in a die's coalescing table. -/
theorem State.Rid.coalSet (h : s.Rid mine) (d n : Nat) {c : Option Coal} (hc : ∀ x, c = some x → ∀ i ∈ x.items, mine i = false) :
    (s.coalSet d n c).Rid mine := by
  refine h.modDie d ⟨fun e he x hx => ?_, (h d).overflow⟩
  rcases mem_tset he with rfl | he
  · exact hc x hx
  · exact (h d).coal e he x hx

/-- The entry that a coalescing table holds at a place, or a new one without items. -/
theorem State.Rid.entry (h : s.Rid mine) (d n : Nat) {c : Coal} (hc : c.items = []) :
    ∀ i ∈ ((tget none n (s.die d).coal).getD c).items, mine i = false := by
  rcases tget_mem none n (s.die d).coal with hn | hmem
  · rw [hn]
    simp [hc]
  · cases hx : (tget none n (s.die d).coal : Option Coal) with
    | none => simp [hc]
    | some x => exact (h d).coal _ (hx ▸ hmem) x rfl

/-- The items of an entry after one has joined it are those it had, and that one. -/
theorem mem_items_coalAdd {c : Coal} {item i : Parked} (h : i ∈ (s.coalAdd c item).items) : i = item ∨ i ∈ c.items := by
  unfold State.coalAdd at h
  dsimp only at h
  rcases List.mem_append.1 h with h | h
  · rcases List.mem_append.1 h with h | h
    · exact .inr (List.mem_of_mem_take h)
    · exact .inr (List.mem_of_mem_drop ((List.takeWhile_sublist _).mem h))
  · exact (List.mem_cons.1 h).imp_right fun h => List.mem_of_mem_drop ((List.dropWhile_sublist _).mem h)

/-- An item that joins an entry. -/
theorem State.Rid.coalSet_coalAdd (h : s.Rid mine) (d n : Nat) {c : Coal} {item : Parked} (hc : ∀ i ∈ c.items, mine i = false)
    (hitem : mine item = false) : (s.coalSet d n (some (s.coalAdd c item))).Rid mine := by
  refine h.coalSet d n fun x hx i hi => ?_
  cases hx
  exact (mem_items_coalAdd hi).elim (fun he => he ▸ hitem) (hc i)

theorem State.Rid.poke (h : s.Rid mine) (a : Nat) (bs : List Byte) : (s.poke a bs).Rid mine := by
  have hclose : (s.closeExact a bs.length).Rid mine := h.unless (·.beside)
  exact State.Rid.beside (hclose.unless (·.beside) : ((s.closeExact a bs.length).unpoison glbGranule a bs.length).Rid mine)

theorem State.Rid.post (h : s.Rid mine) (asid : Nat) (ws : List Word) : (s.post asid ws).Rid mine := by
  unfold State.post
  dsimp only
  split
  · exact (h.poke _ _).beside
  split
  · exact h.beside
  · exact h.beside

theorem State.Rid.coalRecord (h : s.Rid mine) (d n asid code : Nat) (ws : List Word) : (s.coalRecord d n asid code ws).Rid mine := by
  unfold State.coalRecord
  refine State.Rid.post ?_ _ _
  split
  · next c hc =>
    refine h.coalSet d n fun x hx => ?_
    cases hx
    have hitems := h.entry d n (c := { asid := asid, page := none }) rfl
    rwa [hc] at hitems
  · exact h

/-- Items that move from the overflow into the entry that has become free are none of those. -/
theorem State.Rid.fromOverflow (h : s.Rid mine) (d n fuel : Nat) : (s.fromOverflow d n fuel).Rid mine := by
  induction fuel generalizing s with
  | zero => exact h
  | succ fuel ih =>
    unfold State.fromOverflow
    split
    · exact h
    next item f asid ws r hover =>
    have hitem : mine item = false := (h d).overflow (item, f, asid, ws) (hover ▸ List.mem_cons_self)
    have hrest : (s.modDie d (fun x => { x with overflow := r })).Rid mine :=
      h.modDie d ⟨(h d).coal, fun o ho => (h d).overflow o (hover ▸ List.mem_cons_of_mem _ ho)⟩
    dsimp only
    split
    · next i _ =>
      have hjoin := hrest.coalSet_coalAdd d i (hrest.entry d i (c := { asid := asid, page := f.page.map (·.2) }) rfl) hitem
      refine ih ?_
      split
      · exact hjoin.beside
      · exact hjoin
    · have hjoin := hrest.coalSet_coalAdd d n (c := { asid := asid, page := f.page.map (·.2) }) (fun i hi => nomatch hi) hitem
      split
      · exact hjoin.beside
      · exact hjoin.coalRecord _ _ _ _ _

theorem State.Rid.forgetKey (h : s.Rid mine) (k : Nat) : (s.forgetKey k).Rid mine := by
  unfold State.forgetKey
  extract_lets t1 t2 t3 a
  have h1 : t1.Rid mine := h.unless (·.beside)
  have h2 : t2.Rid mine := h1.unless (·.beside)
  have h3 : t3.Rid mine := h2.unless (·.beside)
  exact h3.unless (·.beside)

/-! ## Operations that free -/

/-- From one state to the other no slot comes into use, no message and no operation of a block goes away, the partitions stay, and the
coalescing tables get no item of those that they are rid of. -/
structure Frees (mine : Parked → Bool) (s t : State) : Prop where
  ops   : t.homeOps = s.homeOps
  msgs  : t.msgs = s.msgs
  parts : t.parts = s.parts
  slots : ∀ k, (t.act k).st = .free ∨ ((t.act k).st = (s.act k).st ∧ (t.act k).part = (s.act k).part)
  rid   : s.Rid mine → t.Rid mine

theorem Frees.refl (mine : Parked → Bool) (s : State) : Frees mine s s := ⟨rfl, rfl, rfl, fun _ => .inr ⟨rfl, rfl⟩, fun h => h⟩

theorem Frees.trans (h : Frees mine s t) (h' : Frees mine t u) : Frees mine s u where
  ops := h'.ops.trans h.ops
  msgs := h'.msgs.trans h.msgs
  parts := h'.parts.trans h.parts
  slots k := by
    rcases h'.slots k with hfree | ⟨hst, hpart⟩
    · exact .inl hfree
    · exact (h.slots k).imp hst.trans fun ⟨hst', hpart'⟩ => ⟨hst.trans hst', hpart.trans hpart'⟩
  rid hs := h'.rid (h.rid hs)

/-- A slot that is free stays free. -/
theorem Frees.free (h : Frees mine s t) (hk : (s.act k).st = .free) : (t.act k).st = .free :=
  (h.slots k).elim id fun ⟨hst, _⟩ => hst.trans hk

/-- What faults and records leave alone, where the coalescing tables are known. -/
theorem Kept.frees (h : Kept s t) (rid : s.Rid mine → t.Rid mine) : Frees mine s t where
  ops := h.homeOps
  msgs := h.msgs
  parts := h.parts
  slots k := by
    have hslot := h.slots k
    unfold Saving at hslot
    exact .inr ⟨by rw [hslot], by rw [hslot]⟩
  rid := rid

/-- An operation on the state beside all of that. -/
theorem Frees.beside (h : Frees mine s t) (acts : u.acts = t.acts := by rfl) (dies : u.dies = t.dies := by rfl)
    (parts : u.parts = t.parts := by rfl) (msgs : u.msgs = t.msgs := by rfl) (homeOps : u.homeOps = t.homeOps := by rfl) :
    Frees mine s u :=
  have act k : u.act k = t.act k := congrArg (tget ({} : Act) k) acts
  h.trans ⟨homeOps, msgs, parts, fun k => .inr ⟨by rw [act], by rw [act]⟩, fun h => h.beside dies⟩

theorem Frees.foldl {α : Type} {f : State → α → State} (h : Frees mine s t) (hf : ∀ t x, Frees mine t (f t x)) (l : List α) :
    Frees mine s (l.foldl f t) :=
  List.foldlRecOn l f h fun _ ht x _ => ht.trans (hf _ x)

theorem frees_fromOverflow (s : State) (d n fuel : Nat) : Frees mine s (s.fromOverflow d n fuel) :=
  ((Kept.refl s).fromOverflow d n fuel).frees fun h => h.fromOverflow d n fuel

theorem frees_forgetKey (s : State) (k : Nat) : Frees mine s (s.forgetKey k) := ((Kept.refl s).forgetKey k).frees fun h => h.forgetKey k

/-- A change of a die that leaves its coalescing table and overflow alone. -/
theorem Frees.modDie (h : Frees mine s t) (d : Nat) {f : Die → Die} (hf : ∀ x : Die, (f x).coal = x.coal ∧ (f x).overflow = x.overflow) :
    Frees mine s (t.modDie d f) :=
  h.trans ⟨rfl, rfl, rfl, fun _ => .inr ⟨rfl, rfl⟩, fun h =>
    h.modDie d ⟨by rw [(hf _).1]; exact (h d).coal, by rw [(hf _).2]; exact (h d).overflow⟩⟩

theorem frees_writeGlb (s : State) (d wid pa : Nat) (dup : Bool) (bs : List Byte) : Frees mine s (s.writeGlb d wid pa dup bs) := by
  have hpoison : Frees mine s (s.unpoison glbGranule pa bs.length) :=
    ((Kept.refl s).unpoison _ _ _).frees fun h => h.unless (·.beside)
  exact Frees.beside (hpoison.modDie d (f := fun x => { x with drained := ((s.unpoison glbGranule pa bs.length).die d).drained + 1 })
    fun _ => ⟨rfl, rfl⟩)

theorem frees_putBlock (s : State) (d wid home : Nat) (dup : Bool) (b : Block) : Frees mine s (s.putBlock d wid home dup b) := by
  unfold State.putBlock
  dsimp only
  split
  · exact (Frees.refl mine s).beside
  · have hclose : Frees mine s (s.closeExact home 32) := ((Kept.refl s).closeExact _ _ _).frees fun h => h.unless (·.beside)
    exact hclose.trans (frees_writeGlb _ _ _ _ _ _)

theorem frees_dropWaiters (s : State) (part : Nat) : Frees mine s (s.dropWaiters part) :=
  (Frees.refl mine s).foldl (fun t h => ((Frees.refl mine t).beside).trans (frees_putBlock _ _ _ _ _ _)) _

theorem cleanSlot_kept (s : State) (k : Nat) : Kept s (s.cleanSlot k) := (Kept.refl s).unless (·.beside)

theorem act_freeSlot (s : State) (k : Nat) : ((s.freeSlot k).act k).st = .free := by
  unfold State.freeSlot
  dsimp only
  split
  · rw [State.act_setAct]
  · exact congrArg Act.st (State.act_setAct _ _ _)

theorem frees_freeSlot (s : State) (k : Nat) : Frees mine s (s.freeSlot k) := by
  have hclean : Frees mine s (s.cleanSlot k) := (cleanSlot_kept s k).frees fun h => h.unless (·.beside)
  have hset (a : Act) (ha : a.st = .free) : Frees mine s ((s.cleanSlot k).setAct k a) := by
    refine hclean.trans ⟨rfl, rfl, rfl, fun j => ?_, fun h => h.beside⟩
    by_cases hj : j = k
    · rw [hj, State.act_setAct]
      exact .inl ha
    · rw [State.act_setAct_other _ hj]
      exact .inr ⟨rfl, rfl⟩
  unfold State.freeSlot
  dsimp only
  split
  · exact hset _ rfl
  · exact (hset _ rfl).beside

/-- Slots that are freed one after the other are free in the end. -/
theorem act_foldl_freeSlot (s : State) {l : List Nat} (hk : k ∈ l) : ((l.foldl (fun t j => t.freeSlot j) s).act k).st = .free := by
  induction l generalizing s with
  | nil => nomatch hk
  | cons j l ih =>
    rcases List.mem_cons.1 hk with rfl | hk
    · exact ((Frees.refl (fun _ => false) (s.freeSlot k)).foldl (fun t j => frees_freeSlot t j) l).free (act_freeSlot s k)
    · exact ih _ hk

/-! ## The partition's slots, items, frames and commands -/

/-- The slots that hold activations of a partition. -/
def State.partSlots (s : State) (part : Nat) : List Nat :=
  (s.acts.filter (fun e => e.1 < 8 * numCores && e.2.st != .free && e.2.part == part)).map (·.1)

theorem mem_partSlots {part : Nat} (hk : k < 8 * numCores) (hst : (s.act k).st ≠ .free) (hpart : (s.act k).part = part) :
    k ∈ s.partSlots part := by
  rcases tget_mem ({} : Act) k s.acts with hfree | hmem
  · exact absurd (congrArg Act.st hfree) hst
  · exact List.mem_map.2 ⟨_, List.mem_filter.2 ⟨hmem, by simpa [hk, hpart] using ⟨hst, hpart⟩⟩, rfl⟩

/-- Whether a parked item is a slot, a command or a frame of a partition (R216). -/
def State.partItem (s : State) (part : Nat) : Parked → Bool
  | .slot k => (s.partSlots part).contains k
  | .cmd core id =>
    ((((s.core core).matrixQ ++ (s.core core).copyQ ++ (s.core core).colQ).filter (fun c => c.part == part)).map (·.id)).contains id
  | .frame core n => (s.part part).framesOut.contains n && s.partOfFrame (s.part part).asid core n == some part

theorem rid_leaveEntries (s : State) (mine : Parked → Bool) : (s.leaveEntries mine).Rid mine := by
  refine rid_mapDies (f := fun x => { x with
    coal := (x.coal.map (fun x => (x.1, x.2.map (fun c => { c with items := c.items.filter (fun i => !mine i) }))))
    overflow := x.overflow.filter (fun o => !mine o.1) }) rfl fun d => ⟨?_, ?_⟩
  · intro e he c hc i hi
    obtain ⟨x, -, rfl⟩ := List.mem_map.1 he
    obtain ⟨c', -, rfl⟩ := Option.map_eq_some_iff.1 hc
    simpa using (List.mem_filter.1 hi).2
  · intro o ho
    simpa using (List.mem_filter.1 ho).2

/-- Entries that leave the coalescing tables bring no item into them. -/
theorem State.Rid.filterCoal (h : s.Rid mine) (keep : Nat × Option Coal → Bool) :
    ({ s with dies := s.dies.map (fun (e : Nat × Die) => (e.1, { e.2 with coal := e.2.coal.filter keep })) } : State).Rid mine :=
  rid_mapDies (f := fun x => { x with coal := x.coal.filter keep }) rfl fun d =>
    ⟨fun e he => (h d).coal e (List.mem_of_mem_filter he), (h d).overflow⟩

/-- The state without saved activations and work of a partition. -/
def State.emptied (s : State) (part : Nat) : State :=
  { s with
    framed := s.framed.filter (fun (e : Nat × Act) => e.1 / 2 ^ 28 != part)
    cores := s.cores.map (fun (e : Nat × Core) => (e.1, e.2.terminated part)) }

/-- Clearing a partition frees its slots, drops its parked items, and leaves it nothing else (R153, R216). -/
theorem clearPart_frees (s : State) (part : Nat) : ∃ t : State, s.clearPart part = t.emptied part ∧ Frees (s.partItem part) s t ∧
    t.Rid (s.partItem part) ∧ ∀ k ∈ s.partSlots part, (t.act k).st = .free := by
  unfold State.clearPart
  extract_lets slots ids frames asid mine s1 keep freed s2 s3 s4 s5 s6 s7
  have hmine : mine = s.partItem part := by
    funext i
    cases i with
    | slot k => rfl
    | cmd core id => rfl
    | frame core n => rfl
  have h1 : Frees mine s s1 := ⟨rfl, rfl, rfl, fun _ => .inr ⟨rfl, rfl⟩, fun _ => rid_leaveEntries s mine⟩
  have h2 : Frees mine s1 s2 := ⟨rfl, rfl, rfl, fun _ => .inr ⟨rfl, rfl⟩, fun h => h.filterCoal keep⟩
  have h3 : Frees mine s2 s3 := (Frees.refl mine s2).foldl (fun t x => frees_fromOverflow t x.1 x.2 _) freed
  have h4 : Frees mine s3 s4 := (Frees.refl mine s3).foldl (fun t k => frees_forgetKey t k) slots
  have h5 : Frees mine s4 s5 := (Frees.refl mine s4).beside
  have h6 : Frees mine s5 s6 := frees_dropWaiters s5 part
  have h7 : Frees mine s6 s7 := (Frees.refl mine s6).foldl (fun t k => frees_freeSlot t k) slots
  have hrest : Frees mine s1 s7 := ((((h2.trans h3).trans h4).trans h5).trans h6).trans h7
  rw [← hmine]
  exact ⟨s7, rfl, h1.trans hrest, hrest.rid (rid_leaveEntries s mine), fun k hk => act_foldl_freeSlot s6 hk⟩

/-! ## Cores that leave -/

/-- A core with no command of a partition in a queue. -/
def Core.NoCmd (part : Nat) (c : Core) : Prop := ∀ x ∈ c.matrixQ ++ c.copyQ ++ c.colQ, x.part ≠ part

/-- What stays of a partition that has ended as its cores leave it: everything but the tables of its cores and links. -/
structure Ended (part : Nat) (s t : State) : Prop where
  acts    : t.acts = s.acts
  framed  : t.framed = s.framed
  msgs    : t.msgs = s.msgs
  homeOps : t.homeOps = s.homeOps
  dies    : t.dies = s.dies
  parts   : ∀ p, (t.part p).live = (s.part p).live ∧ (t.part p).ended = (s.part p).ended ∧ (t.part p).dispatch = (s.part p).dispatch ∧
    (t.part p).framesOut = (s.part p).framesOut ∧ (t.part p).deadRecs = (s.part p).deadRecs ∧ (t.part p).groups = (s.part p).groups
  queues  : (∀ e ∈ s.cores, e.2.NoCmd part) → ∀ e ∈ t.cores, e.2.NoCmd part

variable {part : Nat}

theorem Ended.refl (part : Nat) (s : State) : Ended part s s :=
  ⟨rfl, rfl, rfl, rfl, rfl, fun _ => ⟨rfl, rfl, rfl, rfl, rfl, rfl⟩, fun h => h⟩

theorem Ended.trans (h : Ended part s t) (h' : Ended part t u) : Ended part s u where
  acts := h'.acts.trans h.acts
  framed := h'.framed.trans h.framed
  msgs := h'.msgs.trans h.msgs
  homeOps := h'.homeOps.trans h.homeOps
  dies := h'.dies.trans h.dies
  parts p := by
    obtain ⟨h1, h2, h3, h4, h5, h6⟩ := h.parts p
    obtain ⟨k1, k2, k3, k4, k5, k6⟩ := h'.parts p
    exact ⟨k1.trans h1, k2.trans h2, k3.trans h3, k4.trans h4, k5.trans h5, k6.trans h6⟩
  queues hs := h'.queues (h.queues hs)

theorem Ended.foldl {α : Type} {f : State → α → State} (h : Ended part s t) (hf : ∀ t x, Ended part t (f t x)) (l : List α) :
    Ended part s (l.foldl f t) :=
  List.foldlRecOn l f h fun _ ht x _ => ht.trans (hf _ x)

/-- A change of a core that leaves its engines' queues alone. -/
theorem Ended.modCore (h : Ended part s t) (core : Nat) {f : Core → Core}
    (hf : ∀ c : Core, (f c).matrixQ = c.matrixQ ∧ (f c).copyQ = c.copyQ ∧ (f c).colQ = c.colQ) : Ended part s (t.modCore core f) := by
  refine h.trans ⟨rfl, rfl, rfl, rfl, rfl, fun _ => ⟨rfl, rfl, rfl, rfl, rfl, rfl⟩, fun ht e he => ?_⟩
  rcases mem_tset he with rfl | he
  · obtain ⟨hm, hcopy, hcol⟩ := hf (t.core core)
    unfold Core.NoCmd
    rw [hm, hcopy, hcol]
    rcases tget_mem ({} : Core) core t.cores with hnew | hmem
    · intro x hx
      have hcore : t.core core = {} := hnew
      rw [hcore] at hx
      nomatch hx
    · exact ht _ hmem
  · exact ht e he

theorem ended_lastPromise (s : State) (core : Nat) : Ended part s (s.lastPromise core) := by
  unfold State.lastPromise
  refine Ended.modCore ((Ended.refl part s).foldl (fun t l => ?_) _) core fun _ => ⟨rfl, rfl, rfl⟩
  unfold State.modPeer
  split
  · exact (Ended.refl part t).modCore _ fun _ => ⟨rfl, rfl, rfl⟩
  · exact .refl part t

theorem ended_leaveIfFree (s : State) (core : Nat) : Ended part s (s.leaveIfFree core) := by
  unfold State.leaveIfFree
  dsimp only
  split
  · exact .refl part s
  · have hleft : Ended part s ((s.lastPromise core).modCore core (fun c => { c with left := true, stage := none, moving := none })) :=
      (ended_lastPromise s core).modCore core fun _ => ⟨rfl, rfl, rfl⟩
    split
    · exact hleft
    · next p _ =>
      refine hleft.trans ⟨rfl, rfl, rfl, rfl, rfl, fun q => ?_, fun h => h⟩
      by_cases hq : q = p
      · rw [hq, State.part_modPart]
        exact ⟨rfl, rfl, rfl, rfl, rfl, rfl⟩
      · rw [State.part_modPart_other _ hq]
        exact ⟨rfl, rfl, rfl, rfl, rfl, rfl⟩

theorem noCmd_terminated (part : Nat) (c : Core) : (c.terminated part).NoCmd part := by
  intro x hx
  simp only [Core.terminated, List.mem_append, List.mem_filter, bne_iff_ne] at hx
  rcases hx with (⟨-, h⟩ | ⟨-, h⟩) | ⟨-, h⟩
  · exact h
  · exact h
  · exact h

end Sys2Proof.Machine
end
section
/-!
PROCESS_TERMINATE, assembled (R139, R153, R154, R216).
-/

namespace Sys2Proof.Machine

variable {s t u : State} {part k : Nat} {mine : Parked → Bool}

/-- Messages of a partition on their way are discharged where they arrive (R139). -/
def State.doomed (s : State) (part : Nat) : State :=
  { s with msgs := s.msgs.map (fun (m : Msg) => if m.part == part && !m.poison then { m with doomed := true } else m) }

theorem mem_doomed {m : Msg} (h : m ∈ (s.doomed part).msgs) (hpart : m.part = part) : m.poison = true ∨ m.doomed = true := by
  obtain ⟨x, -, rfl⟩ := List.mem_map.1 h
  by_cases hx : (x.part == part && !x.poison) = true
  · rw [if_pos hx]
    exact .inr rfl
  · rw [if_neg hx] at hpart ⊢
    simp only [hpart, beq_self_eq_true, Bool.true_and, Bool.not_eq_true, Bool.not_eq_false'] at hx
    exact .inl hx

/-- The partition's process has ended, and nothing of it is dispatched, saved or recorded any more. -/
def State.partEnded (s : State) (part : Nat) : State :=
  s.modPart part (fun p => { p with live := false, dispatch := false, ended := true, framesOut := [], deadRecs := [] })

/-- The state once the held obligations have been discharged and the groups' phases released (R153). -/
def State.discharged (s : State) (part : Nat) : State :=
  (((s.part part).groups.filter (fun g => g.2.valid)).map (·.1)).foldl (fun t g => t.releasePhase part g true)
    (s.poisonHeld part (s.heldBy part))

/-- The state before the cores of the partition leave it where they may (R99, R153). -/
def State.terminated (s : State) (part : Nat) : State := (((s.discharged part).doomed part).clearPart part).partEnded part

/-- The discharges leave the groups alone, so that the phases released are those of the state before. -/
theorem exec_processTerminate (s : State) (part : Nat) : exec (.processTerminate part) s =
    .next (((s.terminated part).coresOf part).foldl (fun t c => t.leaveIfFree c) (s.terminated part)) := by
  have hgroups := ((Steady.refl s).poisonHeld part (s.heldBy part)).groups part
  change execProcessTerminate part s = _
  unfold execProcessTerminate State.terminated State.discharged
  rw [← hgroups]
  rfl

/-- A unit of an SHM block that the partition held is on its way to the block (R153). -/
theorem discharged_dischargesShm {x : Nat × Word × List Obl} {o : Obl} (hx : x ∈ s.heldBy part) (ho : o ∈ x.2.2)
    (hk : o.kind = .signal) (hshm : o.handle.getLsbD 63 = true) : (s.discharged part).DischargesShm x.1 o :=
  (poisonHeld_dischargesShm s part hx ho hk hshm).mono (ops_foldl_releasePhase _ part _)

theorem discharged_poisoned {g : Nat} (hvalid : (tget {} g (s.part part).groups : Group).valid = true) :
    (tget {} g (s.part part).groups : Group).phase ∈ (tget {} g ((s.discharged part).part part).groups : Group).poisoned := by
  have hg : g ∈ ((s.part part).groups.filter (fun g => g.2.valid)).map (·.1) := by
    rcases tget_mem ({} : Group) g (s.part part).groups with hnone | hmem
    · rw [hnone] at hvalid
      cases hvalid
    · exact List.mem_map.2 ⟨_, List.mem_filter.2 ⟨hmem, hvalid⟩, rfl⟩
  have hphase := poisoned_foldl_releasePhase (s.poisonHeld part (s.heldBy part)) part hg
  rwa [((Steady.refl s).poisonHeld part (s.heldBy part)).groups part] at hphase

/-! An item that is none of the partition's (R216). -/

theorem partItem_slot (h : s.partItem part (.slot k) = false) : 8 * numCores ≤ k ∨ (s.act k).st = .free ∨ (s.act k).part ≠ part := by
  by_contra hno
  obtain ⟨hk, hst, hpart⟩ : k < 8 * numCores ∧ (s.act k).st ≠ .free ∧ (s.act k).part = part := by
    simpa only [not_or, Nat.not_le, ne_eq, not_not] using hno
  exact Bool.eq_false_iff.1 h (List.contains_iff_mem.2 (mem_partSlots hk hst hpart))

theorem partItem_cmd {core i : Nat} {x : Cmd} (h : s.partItem part (.cmd core i) = false)
    (hx : x ∈ (s.core core).matrixQ ++ (s.core core).copyQ ++ (s.core core).colQ) (hid : x.id = i) : x.part ≠ part := by
  intro hpart
  exact Bool.eq_false_iff.1 h (List.contains_iff_mem.2 (List.mem_map.2 ⟨x, List.mem_filter.2 ⟨hx, beq_iff_eq.2 hpart⟩, hid⟩))

theorem partItem_frame {core i : Nat} (h : s.partItem part (.frame core i) = false) (hout : i ∈ (s.part part).framesOut) :
    s.partOfFrame (s.part part).asid core i ≠ some part := by
  intro hpart
  exact Bool.eq_false_iff.1 h (Bool.and_eq_true_iff.2 ⟨List.contains_iff_mem.2 hout, beq_iff_eq.2 hpart⟩)

/-- The items of an entry of a coalescing table that is rid of some are none of those. -/
theorem State.Rid.items (h : s.Rid mine) {d n : Nat} {c : Coal} (hc : tget none n (s.die d).coal = some c) :
    ∀ i ∈ c.items, mine i = false := by
  rcases tget_mem none n (s.die d).coal with hnone | hmem
  · cases hnone.symm.trans hc
  · exact (h d).coal _ hmem c hc

theorem part_partEnded (s : State) (part : Nat) : (s.partEnded part).part part =
    { s.part part with live := false, dispatch := false, ended := true, framesOut := [], deadRecs := [] } := State.part_modPart _ _ _

theorem terminationFrees : TerminationFrees := by
  intro s part v r
  obtain ⟨t, hclear, hfrees, hrid, hfreed⟩ := clearPart_frees ((s.discharged part).doomed part) part
  have hterm : s.terminated part = (t.emptied part).partEnded part := congrArg (·.partEnded part) hclear
  obtain ⟨u, hu⟩ : ∃ u, ((s.terminated part).coresOf part).foldl (fun t c => t.leaveIfFree c) (s.terminated part) = u := ⟨_, rfl⟩
  have hend : Ended part ((t.emptied part).partEnded part) u :=
    hterm ▸ hu ▸ (Ended.refl part (s.terminated part)).foldl (fun t c => ended_leaveIfFree t c) _
  obtain ⟨hlive, hended, hdispatch, hframes, hrecs, hgroups⟩ := hend.parts part
  rw [part_partEnded] at hlive hended hdispatch hframes hrecs hgroups
  refine ⟨u, hu ▸ exec_processTerminate s part, hlive, hended, hdispatch, hframes, hrecs, ?_, ?_, ?_, ?_, ?_, ?_, ?_⟩
  · intro e he
    rw [hend.framed] at he
    exact bne_iff_ne.1 (List.mem_filter.1 he).2
  · refine hend.queues fun e he => ?_
    obtain ⟨x, -, rfl⟩ := List.mem_map.1 he
    exact noCmd_terminated part x.2
  · intro k hk hst hpart
    rw [State.act, hend.acts] at hst hpart
    obtain ⟨hst', hpart'⟩ := (hfrees.slots k).resolve_left hst
    exact hst (hfreed k (mem_partSlots hk (hst' ▸ hst) (hpart'.symm.trans hpart)))
  · intro m hm
    rw [hend.msgs] at hm
    exact mem_doomed (hfrees.msgs ▸ hm)
  · intro x hx o ho hk hshm
    exact (discharged_dischargesShm hx ho hk hshm).mono fun p hp => hend.homeOps ▸ hfrees.ops ▸ hp
  · intro g hvalid
    have hparts : (t.part part).groups = ((s.discharged part).part part).groups :=
      congrArg (fun x => (tget ({} : Part) part x).groups) hfrees.parts
    rw [hgroups]
    exact hparts ▸ discharged_poisoned hvalid
  · intro d n c hc
    have hitems := hrid.items (d := d) (n := n) (c := c)
      ((congrArg (fun x => tget none n (tget ({} : Die) d x).coal) hend.dies).symm.trans hc)
    exact ⟨fun k hk => partItem_slot (hitems _ hk), fun core i x hi hx hid => partItem_cmd (hitems _ hi) hx hid,
      fun core i hi hout => partItem_frame (hitems _ hi) hout⟩

/-- Settles O39: the three parts have lemmas of their own; PROCESS_TERMINATE's discharges keep what is on its way (`Steady`), its clearing
brings nothing into use (`Frees`), and cores that leave keep the partition ended (`Ended`). -/
theorem terminationAndEcc : Obligations.TerminationAndEcc := ⟨poisonedDischarges, terminationFrees, eccEvents⟩

end Sys2Proof.Machine
end

section
/-!
An atomic or reduction that has drained, at its owner or bank (R157, R165, R346, R347, R356): the case of the definition that its entry
leads to, and for an atomic at an SHM bank what it writes and what its word binds.
-/

namespace Sys2Proof.Machine

variable {s u : State} {core slot k i : Nat} {e : OutEntry} {a : Nat} {t : Ty} {op : Option Nat} {v x : Word} {seq : Nat} {acq : Bool}

/-! ## The step of the owner or bank -/

/-- A reduction that may be executed is. -/
theorem execAtomicAtOwner_red {exact : Bool} (he : (s.act (8 * core + slot)).outbox[i]? = some e) (hdrained : e.drained = true)
    (hready : s.redReady (dieOf core) e = (true, u)) (hkind : e.kind = .red a t v exact) :
    execAtomicAtOwner core slot i s = .next (u.redExecute (8 * core + slot) i e a t v exact).settleOwners := by
  unfold execAtomicAtOwner
  simp only [he, hdrained, hready, hkind, Bool.not_true, Bool.false_eq_true, if_false]

/-- An atomic that may be executed is, or meets poison. -/
theorem execAtomicAtOwner_amo (he : (s.act (8 * core + slot)).outbox[i]? = some e) (hdrained : e.drained = true)
    (hready : s.redReady (dieOf core) e = (true, u)) (hkind : e.kind = .amo a t op v x seq acq) :
    execAtomicAtOwner core slot i s = .next (State.settleOwners
      (if u.poisonAt (if e.shm then shmGranule else glbGranule) a t.bytes = true then u.amoPoisoned (8 * core + slot) i e a seq
        else u.amoExecute (8 * core + slot) i e a t op v x seq acq)) := by
  unfold execAtomicAtOwner
  simp only [he, hdrained, hready, hkind, Bool.not_true, Bool.false_eq_true, if_false]
  exact (apply_ite (fun r : State => Host.Outcome.next r.settleOwners) _ _ _).symm

/-- At an SHM bank nothing is waited for. -/
theorem redReady_shm (hshm : e.shm = true) (d : Nat) : s.redReady d e = (true, s) := if_pos hshm

/-! ## What the owners' stubs leave alone -/

theorem settle_acts (s : State) (d k : Nat) : (s.settle d k).acts = s.acts := by
  unfold State.settle
  dsimp only
  split
  · rfl
  · split
    · split
      · rfl
      · rfl
    · split
      · rfl
      · rfl

/-- A fold of an operation that leaves the slots as they are. -/
theorem foldl_acts {α : Type} {f : State → α → State} (hf : ∀ s x, (f s x).acts = s.acts) (l : List α) (s : State) :
    (l.foldl f s).acts = s.acts :=
  List.foldlRecOn (motive := fun r : State => r.acts = s.acts) l f rfl fun r hr x _ => (hf r x).trans hr

theorem settleOwners_acts (s : State) : s.settleOwners.acts = s.acts :=
  foldl_acts (fun s _ => foldl_acts (fun s k => settle_acts s _ k) _ s) _ s

@[simp] theorem settleOwners_act (s : State) (k : Nat) : s.settleOwners.act k = s.act k :=
  congrArg (tget ({} : Act) k) (settleOwners_acts s)

@[simp] theorem settleOwners_mems (s : State) : s.settleOwners.mems = s.mems := (OnMems.settleOwners (P := (· = s.mems)) ⟨rfl⟩).holds

/-! ## The old value reaches its word -/

@[simp] theorem bindAtomic_mems (s : State) (k seq : Nat) (t : Ty) (old : Word) (acq : List (Scope × Nat)) :
    (s.bindAtomic k seq t old acq).mems = s.mems := (OnMems.bindAtomic (P := (· = s.mems)) ⟨rfl⟩).holds

/-- The word of an atomic: its register holds the old value, extended by TYPE, and it waits no more. -/
theorem act_bindAtomic {old : Word} {l : List (Scope × Nat)} {p : Pending} {opc : Nat} {w : Operands}
    (hlate : (s.act k).late.find? (fun p => p.seq == seq) = some p) (hfields : p.fields = some (opc, w)) :
    (s.bindAtomic k seq t old l).act k = { (s.act k).sSet (opndNum w.a) (loadExt t (leBytes t.bytes old.toNat)) with
      late := dropSeq seq (s.act k).late, acq := (s.act k).acq ++ l } := by
  unfold State.bindAtomic
  simp only [hlate, hfields, Option.bind_some, State.act_modAct]
  split
  · rfl
  · rfl

@[simp] theorem bindAtomic_outbox (s : State) (k seq : Nat) (t : Ty) (old : Word) (l : List (Scope × Nat)) :
    ((s.bindAtomic k seq t old l).act k).outbox = (s.act k).outbox := by
  unfold State.bindAtomic
  dsimp only
  split
  · rfl
  · rw [State.act_modAct]
    split
    · exact Act.sSet_outbox _ _ _ _
    · exact Act.sSet_outbox _ _ _ _

theorem seq_ne_of_mem_dropSeq {q : Pending} {l : List Pending} (h : q ∈ dropSeq seq l) : q.seq ≠ seq :=
  bne_iff_ne.1 (List.mem_filter.1 h).2

/-! ## An atomic at an SHM bank -/

/-- The old value that an atomic at an SHM bank finds. -/
def State.shmOld (s : State) (a : Nat) (t : Ty) : Word := BitVec.ofNat 64 (leNat (mread a t.bytes s.shm))

/-- SHM after an atomic: its new value stored, if it has one. -/
def State.shmAfter (s : State) (a : Nat) (t : Ty) (op : Option Nat) (v x : Word) : Mem :=
  match atomicNew t op v x (s.shmOld a t) with
  | none => s.shm
  | some z => mwrite a (leBytes t.bytes z.toNat) s.shm

theorem shmAfter_none (h : atomicNew t op v x (s.shmOld a t) = none) : s.shmAfter a t op v x = s.shm := by
  rw [State.shmAfter, h]

theorem shmAfter_some {z : Word} (h : atomicNew t op v x (s.shmOld a t) = some z) :
    s.shmAfter a t op v x = mwrite a (leBytes t.bytes z.toNat) s.shm := by
  rw [State.shmAfter, h]

theorem mget_shmAfter_outside {y : Nat} (h : y < a ∨ a + t.bytes ≤ y) : mget y (s.shmAfter a t op v x) = mget y s.shm := by
  unfold State.shmAfter
  split
  · rfl
  · exact mget_mwrite_other _ _ (by rwa [leBytes_length])

theorem mget_shmAfter_element {z : Word} {j : Nat} (h : atomicNew t op v x (s.shmOld a t) = some z) (hj : j < t.bytes) :
    mget (a + j) (s.shmAfter a t op v x) = BitVec.ofNat 8 (z.toNat / 256 ^ j) := by
  rw [shmAfter_some h, mget_mwrite_same _ _ (by rwa [leBytes_length]), leBytes_getD _ hj]

/-- Granules written whole: poison is cleared there, and nothing else changes. -/
theorem unpoison_eq (s : State) (g : Nat → Granule) (a n : Nat) : ∃ l, s.unpoison g a n = { s with poisoned := l } := by
  unfold State.unpoison
  split
  · exact ⟨s.poisoned, rfl⟩
  · exact ⟨_, rfl⟩

/-- An atomic at an SHM bank binds the old value in a state that differs from the one before it in the entry, SHM and poison alone. -/
theorem amoExecute_shm (s : State) (k i a : Nat) (t : Ty) (op : Option Nat) (v x : Word) (seq : Nat) (acq : Bool)
    (hshm : e.shm = true) : ∃ (r : State) (l : List (Scope × Nat)),
    s.amoExecute k i e a t op v x seq acq = r.bindAtomic k seq t (s.shmOld a t) l ∧ r.acts = (s.dropEntry k i).acts ∧
      r.mems = { s.mems with shm := s.shmAfter a t op v x } := by
  obtain ⟨p, hclear⟩ := unpoison_eq (s.dropEntry k i) shmGranule a t.bytes
  unfold State.amoExecute
  simp only [hshm, if_true]
  split
  · next hnew => exact ⟨_, _, rfl, rfl, congrArg (fun m => { s.mems with shm := m }) (shmAfter_none hnew).symm⟩
  · next z hnew =>
    refine ⟨_, _, rfl, ?_, ?_⟩
    · rw [hclear]
    · rw [hclear]
      exact congrArg (fun m => { s.mems with shm := m }) (shmAfter_some hnew).symm

/-- Settles O12: the owners' stubs and the word's binding leave the memories that the atomic leaves (`amoExecute_shm`), and the first leave
the slot that the second writes. -/
theorem atomicFrame : Obligations.AtomicFrame := by
  unfold Obligations.AtomicFrame
  intro s core slot i e a t op v x seq acq he hkind hshm hdrained hclean old
  obtain ⟨r, l, hexec, hacts, hmems⟩ := amoExecute_shm s (8 * core + slot) i a t op v x seq acq hshm
  obtain ⟨u, hu⟩ : ∃ u, (r.bindAtomic (8 * core + slot) seq t old l).settleOwners = u := ⟨_, rfl⟩
  have hstep : exec (.atomicAtOwner core slot i) s = .next u := by
    refine (execAtomicAtOwner_amo he hdrained (redReady_shm hshm _) hkind).trans ?_
    rw [hshm, if_pos rfl, hclean, if_neg Bool.false_ne_true, hexec]
    exact congrArg _ hu
  have hmem : u.mems = { s.mems with shm := s.shmAfter a t op v x } := by
    rw [← hu, settleOwners_mems, bindAtomic_mems, hmems]
  have hread y : u.shmByte y = mget y (s.shmAfter a t op v x) := congrArg (mget y) (congrArg Mems.shm hmem)
  have hslot : r.act (8 * core + slot) = { s.act (8 * core + slot) with outbox := dropNth (s.act (8 * core + slot)).outbox i } :=
    (congrArg (tget ({} : Act) _) hacts).trans (State.act_modAct _ _ _)
  refine ⟨u, hstep, congrArg Mems.loc hmem, congrArg Mems.glb hmem, congrArg Mems.host hmem, fun y hy => ?_, fun y hold => ?_,
    fun z j hnew hj => ?_, ?_, fun p opc w hlate hfields => ?_⟩
  · exact (hread y).trans (mget_shmAfter_outside hy)
  · exact (hread y).trans (congrArg (mget y) (shmAfter_none hold))
  · exact (hread (a + j)).trans (mget_shmAfter_element hnew hj)
  · rw [← hu, settleOwners_act, bindAtomic_outbox, hslot]
  · have hlate' : (r.act (8 * core + slot)).late.find? (fun p => p.seq == seq) = some p := by
      rw [hslot]
      exact hlate
    rw [← hu, settleOwners_act, act_bindAtomic hlate' hfields]
    exact ⟨fun q => seq_ne_of_mem_dropSeq, fun hn => ⟨Act.sGet_sSet _ hn _ _, Act.sDef_sSet _ hn _ _⟩⟩

end Sys2Proof.Machine
end

section
/-!
The ordering machine (R157, R158, R165 to R167, R185, R187, R347): DRAIN, APPLY, home operations, the weir table and page entries, and what
a die view reads once a write has been applied there.
-/

namespace Sys2Proof.Machine

variable {s u v : State} {core slot die i a : Nat} {e : OutEntry}

/-! ## DRAIN -/

@[simp] theorem dropEntry_outbox (s : State) (k i : Nat) : ((s.dropEntry k i).act k).outbox = dropNth (s.act k).outbox i :=
  congrArg Act.outbox (State.act_modAct s k _)

/-- An entry whose turn it is at an SHM bank: a write is stored there, anything else is marked. -/
theorem execDrain_shm_write {cells : List (Nat × Byte)} (he : (s.act (8 * core + slot)).outbox[i]? = some e) (hnew : e.drained = false)
    (hwait : e.dupWait = false) (hturn : outBlocked (s.act (8 * core + slot)).outbox i = false) (hshm : e.shm = true)
    (hkind : e.kind = .write cells) : ∃ u : State, execDrain core slot i s = .next u ∧
      u.mems = { s.mems with shm := mput cells s.shm } ∧ u.acts = (s.dropEntry (8 * core + slot) i).acts := by
  unfold execDrain
  simp only [he, hnew, hwait, hturn, hshm, hkind, Bool.or_self, Bool.false_eq_true, if_false, if_true]
  refine ⟨_, rfl, ?_, ?_⟩
  · split
    · rfl
    · rfl
  · split
    · rfl
    · rfl

theorem execDrain_shm_mark (he : (s.act (8 * core + slot)).outbox[i]? = some e) (hnew : e.drained = false)
    (hwait : e.dupWait = false) (hturn : outBlocked (s.act (8 * core + slot)).outbox i = false) (hshm : e.shm = true)
    (hkind : ∀ cells, e.kind ≠ .write cells) : execDrain core slot i s =
      .next (s.markEntry (8 * core + slot) i (fun e => { e with drained := true })) := by
  unfold execDrain
  simp only [he, hnew, hwait, hturn, hshm, Bool.or_self, Bool.false_eq_true, if_false, if_true]

/-- An entry that reaches its page's owner is the owner's to take. -/
theorem AtOwner.execDrain (h : AtOwner s core (8 * core + slot) i e v) :
    execDrain core slot i s = .next (v.drainAtOwner (8 * core + slot) i e) := by
  obtain ⟨he, ⟨hnew, hwait, hshm⟩, hturn, hroute, -, -⟩ := h
  unfold Machine.execDrain
  simp only [he, hnew, hwait, hturn, hshm, Bool.or_self, Bool.false_eq_true, if_false]
  rcases hroute with hready | ⟨hunmapped, rfl⟩
  · rw [hready]
  · rw [hunmapped]

/-- Whether a message recalls the lease of a line (R187). -/
def OMsg.recalls (line : Nat) : OMsg → Bool
  | .leaseRecall l _ => l == line
  | _ => false

/-- Nothing at the owner goes before such an entry: no earlier write waits for the page's copies (R185), and its line is not recalled
where it needs the lease (R187). -/
theorem AtOwner.first {k : Nat} (h : AtOwner s core k i e v) : ¬ ((e.dup && v.dupTaken (v.homeOf e.page) (drainKey e.wid)) ||
    (e.near && v.omsgs.any (fun m => m.recalls (e.first / 64)))) = true := by
  simp only [Bool.or_eq_true, Bool.and_eq_true, List.any_eq_true]
  rintro (⟨hdup, htaken⟩ | ⟨hnear, m, hm, hrecall⟩)
  · exact Bool.false_ne_true ((h.alone hdup).symm.trans htaken)
  · unfold OMsg.recalls at hrecall
    split at hrecall
    · exact h.held hnear _ (eq_of_beq hrecall ▸ hm)
    · exact Bool.false_ne_true hrecall

theorem AtOwner.drainAtOwner_write {k : Nat} {cells : List (Nat × Byte)} {go : Bool} (h : AtOwner s core k i e v)
    (hkind : e.kind = .write cells) (hline : v.lineReady (dieOf (coreOf k)) (drainKey e.wid) e.first false = (go, u)) :
    v.drainAtOwner k i e = if go = false then u
      else if e.dup = true ∧ u.copiesOut (v.homeOf e.page) = true then
        (u.markEntry k i (fun e => { e with dupWait := true })).dupRecall (v.homeOf e.page)
      else u.drainWrite k i e cells := by
  refine (if_neg h.first).trans ?_
  simp only [hkind, hline, Bool.not_eq_true', Bool.and_eq_true]

theorem AtOwner.drainAtOwner_mark {k : Nat} (h : AtOwner s core k i e v) (hkind : ∀ cells, e.kind ≠ .write cells) :
    v.drainAtOwner k i e = if e.dup = true ∧ v.copiesOut (v.homeOf e.page) = true then
        (v.markEntry k i (fun e => { e with dupWait := true })).dupRecall (v.homeOf e.page)
      else v.markEntry k i (fun e => { e with drained := true }) := by
  refine (if_neg h.first).trans ?_
  cases hk : e.kind with
  | write cells => exact absurd hk (hkind cells)
  | red => simp only [Bool.not_true, Bool.false_eq_true, if_false, Bool.and_eq_true]
  | amo => simp only [Bool.not_true, Bool.false_eq_true, if_false, Bool.and_eq_true]

/-! ## Home operations -/

theorem execSignalHomeOp_dropped {o : HomeOp} (ho : s.homeOps[i]? = some o) (hready : s.homeOpReady o = (true, u))
    (hdead : (u.block o.home).live = false ∨ (u.block o.home).bad = true) :
    execSignalHomeOp i s = .next { u with homeOps := dropNth u.homeOps i } := by
  have hstop : (!(u.block o.home).live || (u.block o.home).bad) = true := by
    rcases hdead with h | h
    · simp [h]
    · simp [h]
  unfold execSignalHomeOp
  simp only [ho, hready, Bool.not_true, Bool.false_eq_true, if_false]
  exact if_pos hstop

theorem execSignalHomeOp_performed {o : HomeOp} (ho : s.homeOps[i]? = some o) (hready : s.homeOpReady o = (true, u))
    (hlive : (u.block o.home).live = true) (hgood : (u.block o.home).bad = false)
    (hv : v = { u with homeOps := dropNth u.homeOps i, nextWid := u.nextWid + 1 }) :
    execSignalHomeOp i s = .next (if o.poison then v.sigPoison o.die u.nextWid o.home o.dup o.units
      else v.sigUpdate o.die u.nextWid o.home o.dup false o.add o.units) := by
  have hgo : ¬ (!(u.block o.home).live || (u.block o.home).bad) = true := by simp [hlive, hgood]
  subst hv
  unfold execSignalHomeOp
  simp only [ho, hready, Bool.not_true, Bool.false_eq_true, if_false]
  exact if_neg hgo

/-! ## The weir table -/

/-- A key that a test rejects has no entry left. -/
theorem tget_filter_of_not {α : Type} (d : α) {k : Nat} {p : Nat × α → Bool} (h : ∀ x, p (k, x) = false) (t : Tab α) :
    tget d k (t.filter p) = d := by
  rcases tget_mem d k (t.filter p) with hnone | hmem
  · exact hnone
  · exact absurd (List.mem_filter.1 hmem).2 (by simp [h])

theorem execWeirTableWrite_refused {e : WeirEntry} (h : 16 ≤ i ∨ (e.valid = true ∧ s.weirLegal i e = false)) :
    execWeirTableWrite i e s = .next s := by
  refine if_pos ?_
  simpa using h

theorem execWeirTableWrite_written {e : WeirEntry} (hi : i < 16) (hlegal : e.valid = true → s.weirLegal i e = true) : ∃ u : State,
    execWeirTableWrite i e s = .next u ∧ tget {} i u.weirs = e ∧ (∀ j, j ≠ i → tget {} j u.weirs = tget {} j s.weirs) ∧
      (∀ pa, tget none (16 * pa + i) u.weirTot = none) ∧ (e.valid = true → tget 0 i u.weirStat = 0) ∧ u.glb = s.glb := by
  have hgo : ¬ (decide (16 ≤ i) || (e.valid && !s.weirLegal i e)) = true := by
    simpa [Nat.not_le.2 hi] using hlegal
  have htot pa : tget none (16 * pa + i) (s.weirTot.filter (fun e => e.1 % 16 != i)) = none :=
    tget_filter_of_not _ (fun _ => by simp [Nat.mod_eq_of_lt hi]) _
  have hsame : tget {} i (tset {} i e s.weirs) = e := tget_tset_same _ _ _ _
  have hothers j (hj : j ≠ i) : tget {} j (tset {} i e s.weirs) = tget {} j s.weirs := tget_tset_other _ hj _ _
  refine ⟨_, if_neg hgo, ?_⟩
  split
  · exact ⟨hsame, hothers, htot, fun _ => tget_tset_same _ _ _ _, rfl⟩
  · next hvalid => exact ⟨hsame, hothers, htot, fun h => absurd h hvalid, rfl⟩

/-- Each event is the one case of its definition that its conditions lead to. -/
theorem orderingEvents : OrderingEvents := by
  refine ⟨fun s core slot i e he hnew hwait hturn hshm => ⟨fun cells hkind => ?_, execDrain_shm_mark he hnew hwait hturn hshm⟩,
    fun s u v core slot i e h => ⟨fun cells go hkind hline => ?_, fun hkind => ?_⟩,
    fun s die i hmay => congrArg _ (if_pos hmay),
    fun s u core slot i e he hdrained hready =>
      ⟨fun a t x exact => execAtomicAtOwner_red he hdrained hready, fun a t op x y n acq => execAtomicAtOwner_amo he hdrained hready⟩,
    fun s u i o ho hready => ⟨execSignalHomeOp_dropped ho hready, fun hlive hgood => execSignalHomeOp_performed ho hready hlive hgood rfl⟩,
    fun s i e => ⟨execWeirTableWrite_written, execWeirTableWrite_refused⟩, fun s a w => rfl⟩
  · obtain ⟨u, hexec, hmem, hacts⟩ := execDrain_shm_write he hnew hwait hturn hshm hkind
    refine ⟨u, hexec, congrArg Mems.shm hmem, congrArg Mems.glb hmem, congrArg Mems.loc hmem, congrArg Mems.host hmem,
      congrArg Mems.flight hmem, ?_⟩
    exact (congrArg (fun l => (tget ({} : Act) _ l).outbox) hacts).trans (dropEntry_outbox _ _ _)
  · exact h.execDrain.trans (congrArg _ (h.drainAtOwner_write hkind hline))
  · exact h.execDrain.trans (congrArg _ (h.drainAtOwner_mark hkind))

/-! ## What a die view reads -/

/-- A write whose bytes are elsewhere keeps no old value of a byte. -/
theorem cellOld_none {l : List (Nat × Byte × Byte)} (h : ∀ c ∈ l, c.1 ≠ a) : cellOld a l = none := by
  induction l with
  | nil => rfl
  | cons c l ih => exact (if_neg (h c (.head _))).trans (ih fun d hd => h d (.tail _ hd))

/-- A view whose apply queue holds no write to a byte shows none of its old values. -/
theorem flightOld_none {l : List Flight} (h : ∀ f ∈ l, die ∈ f.dies → ∀ c ∈ f.cells, c.1 ≠ a) : flightOld die a l = none := by
  induction l with
  | nil => rfl
  | cons f l ih =>
    have hrest : flightOld die a l = none := ih fun g hg => h g (.tail _ hg)
    unfold flightOld
    split
    · next hdie => rw [cellOld_none (h f (.head _) (List.contains_iff_mem.1 hdie)), hrest]
    · exact hrest

/-- It then reads the byte from memory. -/
theorem viewByte_of_clear (h : ∀ f ∈ s.flight, die ∈ f.dies → ∀ c ∈ f.cells, c.1 ≠ a) : s.viewByte die a = s.glbByte a := by
  rw [State.viewByte, flightOld_none h]
  rfl

theorem mem_dropNth {α : Type} {x : α} {l : List α} (h : x ∈ dropNth l i) : ∃ j, j ≠ i ∧ l[j]? = some x := by
  induction l generalizing i with
  | nil => cases h
  | cons y l ih =>
    cases i with
    | zero =>
      obtain ⟨j, hj⟩ := List.mem_iff_getElem?.1 h
      exact ⟨j + 1, Nat.succ_ne_zero j, hj⟩
    | succ i =>
      rcases List.mem_cons.1 h with rfl | h
      · exact ⟨0, (Nat.succ_ne_zero i).symm, rfl⟩
      · obtain ⟨j, hj, hx⟩ := ih h
        exact ⟨j + 1, fun e => hj (Nat.succ.inj e), hx⟩

theorem mem_setNth {α : Type} {x y : α} {l : List α} (h : x ∈ setNth l i y) : x = y ∨ ∃ j, j ≠ i ∧ l[j]? = some x := by
  induction l generalizing i with
  | nil => cases h
  | cons z l ih =>
    cases i with
    | zero =>
      rcases List.mem_cons.1 h with rfl | h
      · exact .inl rfl
      · obtain ⟨j, hj⟩ := List.mem_iff_getElem?.1 h
        exact .inr ⟨j + 1, Nat.succ_ne_zero j, hj⟩
    | succ i =>
      rcases List.mem_cons.1 h with rfl | h
      · exact .inr ⟨0, (Nat.succ_ne_zero i).symm, rfl⟩
      · exact (ih h).imp_right fun ⟨j, hj, hx⟩ => ⟨j + 1, fun e => hj (Nat.succ.inj e), hx⟩

/-- A view that applies a write is one of those that do so in the same step. -/
theorem mem_views {w : Flight} (h : die ∈ w.dies) : die ∈ w.views die := by
  unfold Flight.views
  split
  · exact h
  · exact List.mem_singleton_self die

theorem mem_dies_of_mayApply {w : Flight} (h : s.mayApply die i = true) (hw : s.flight[i]? = some w) : die ∈ w.dies := by
  simp only [State.mayApply, hw, Bool.and_eq_true] at h
  exact List.contains_iff_mem.1 h.1

/-- A write that a view has applied: it is on its way to the other views. -/
def Flight.applied (w : Flight) (die : Nat) : Flight := { w with dies := w.dies.filter (fun d => !(w.views die).contains d) }

theorem not_mem_applied {w : Flight} (h : die ∈ w.dies) : die ∉ (w.applied die).dies := fun hmem =>
  absurd (List.contains_iff_mem.2 (mem_views h)) (by simpa using (List.mem_filter.1 hmem).2)

/-- The writes on their way after APPLY: the one at a place is there no more, or for fewer views. -/
def flightAfter (w : Flight) (die i : Nat) (l : List Flight) : List Flight :=
  if (w.applied die).dies.isEmpty then dropNth l i else setNth l i (w.applied die)

/-- APPLY changes no memory, and of the writes on their way the one that it takes. -/
theorem applyAt_mems {w : Flight} (hw : s.flight[i]? = some w) :
    (s.applyAt die i).mems = { s.mems with flight := flightAfter w die i s.flight } := by
  have hset (r : State) (hr : r.mems = s.mems) : ({ r with flight := flightAfter w die i r.flight } : State).mems =
      { s.mems with flight := flightAfter w die i s.flight } :=
    congrArg (fun m : Mems => { m with flight := flightAfter w die i m.flight }) hr
  simp only [State.applyAt, hw]
  exact hset _ (OnMems.foldl (P := (· = s.mems)) (fun _ _ h => h.modDie _ _) _ ⟨rfl⟩).holds

/-- Once a view has applied a write, its apply queue holds other writes alone. -/
theorem mem_flightAfter {w f : Flight} {l : List Flight} (hw : die ∈ w.dies) (hf : f ∈ flightAfter w die i l) (hdie : die ∈ f.dies) :
    ∃ j, j ≠ i ∧ l[j]? = some f := by
  unfold flightAfter at hf
  split at hf
  · exact mem_dropNth hf
  · rcases mem_setNth hf with rfl | hother
    · exact absurd hdie (not_mem_applied hw)
    · exact hother

theorem appliedBytesRead : AppliedBytesRead := by
  intro s die i a w hmay hw hothers
  have hmem := applyAt_mems (die := die) hw
  have hclear f (hf : f ∈ (s.applyAt die i).flight) (hdie : die ∈ f.dies) : ∀ c ∈ f.cells, c.1 ≠ a := by
    rw [show (s.applyAt die i).flight = _ from congrArg Mems.flight hmem] at hf
    obtain ⟨j, hj, hsome⟩ := mem_flightAfter (mem_dies_of_mayApply hmay hw) hf hdie
    exact hothers j f hsome hj hdie
  exact (viewByte_of_clear hclear).trans (congrArg (mget a) (congrArg Mems.glb hmem))

/-- Settles O31: the events are cases of their definitions (`orderingEvents`), and after APPLY no write in flight to the view holds the
byte any more (`mem_flightAfter`). -/
theorem ownerOrder : Obligations.OwnerOrder := ⟨orderingEvents, appliedBytesRead⟩

end Sys2Proof.Machine
end

section
/-!
The fabric (R168, R169, R265, R267, R279 to R285): where a message that nothing holds back goes, queued SENDs and SPAWNs, credits and their
audit, and routers.
-/

namespace Sys2Proof.Machine

variable {s u : State} {i core c d p r : Nat} {m : Msg} {vn : VN}

/-! ## Where a message goes -/

section Delivery
variable (hm : s.msgs[i]? = some m) (hahead : ∀ x ∈ s.msgs.take i, s.blocks x m = false) (hway : s.heldUp i m = false)
include hm hahead hway

theorem execMessageDelivery_free : execMessageDelivery i s =
    if !m.numbered then .next (s.leave i m)
    else if m.credit then .next (s.passOn i m)
    else if m.here != m.goal then .next ((s.cross i m).getD s)
    else .next (((if m.spread then none else m.at_).map (s.replicate i m)).getD (s.deliver i m)) := by
  have hblocks : (s.msgs.take i).any (fun x => s.blocks x m) = false := List.any_eq_false.2 fun x hx => by simp [hahead x hx]
  unfold execMessageDelivery
  simp only [hm, hblocks, hway, Bool.or_self, Bool.false_eq_true, if_false]
  cases (if m.spread then none else m.at_) with
  | none => rfl
  | some x => rfl

theorem execMessageDelivery_leaves (hnum : m.numbered = false) : execMessageDelivery i s = .next (s.leave i m) := by
  rw [execMessageDelivery_free hm hahead hway, hnum]
  rfl

theorem execMessageDelivery_passesOn (hnum : m.numbered = true) (hcredit : m.credit = true) :
    execMessageDelivery i s = .next (s.passOn i m) := by
  rw [execMessageDelivery_free hm hahead hway, hnum, hcredit]
  rfl

theorem execMessageDelivery_crosses (hnum : m.numbered = true) (hcredit : m.credit = false) (hgoal : m.here ≠ m.goal) :
    execMessageDelivery i s = .next ((s.cross i m).getD s) := by
  rw [execMessageDelivery_free hm hahead hway, hnum, hcredit]
  exact if_pos (bne_iff_ne.2 hgoal)

theorem execMessageDelivery_replicates {x : Nat × Nat} (hnum : m.numbered = true) (hcredit : m.credit = false) (hgoal : m.here = m.goal)
    (hspread : m.spread = false) (hat : m.at_ = some x) : execMessageDelivery i s = .next (s.replicate i m x) := by
  rw [execMessageDelivery_free hm hahead hway]
  simp only [hnum, hcredit, hgoal, hspread, hat, Bool.not_true, Bool.false_eq_true, bne_self_eq_false, if_false, Option.map_some,
    Option.getD_some]

theorem execMessageDelivery_delivers (hnum : m.numbered = true) (hcredit : m.credit = false) (hgoal : m.here = m.goal)
    (hlast : m.spread = true ∨ m.at_ = none) : execMessageDelivery i s = .next (s.deliver i m) := by
  have hnone : (if m.spread then none else m.at_) = none := by
    rcases hlast with h | h
    · exact if_pos h
    · rw [h, ite_self]
  rw [execMessageDelivery_free hm hahead hway]
  simp only [hnum, hcredit, hgoal, hnone, Bool.not_true, Bool.false_eq_true, bne_self_eq_false, if_false, Option.map_none, Option.getD_none]

end Delivery

/-! ## Crossing -/

theorem cross_waits (hgoal : m.here ≠ m.goal) (h : 32 ≤ s.inUse m.here m.goal m.vn ∨ s.auditing m.here m.goal = true) :
    s.cross i m = none := by
  unfold State.cross
  simp only [beq_eq_false_iff_ne.2 hgoal, Bool.false_eq_true, if_false]
  exact if_pos (by simpa using h)

/-- A message with a credit for its crossing keeps its place. -/
theorem cross_takesCredit (hgoal : m.here ≠ m.goal) (hroom : s.inUse m.here m.goal m.vn < 32) (haudit : s.auditing m.here m.goal = false) :
    ∃ t : State, s.cross i m = some t ∧ t.msgs = setNth s.msgs i { m with queued := false, credit := true, crossed := s.cycle } := by
  have hgo : ¬ (decide (32 ≤ s.inUse m.here m.goal m.vn) || s.auditing m.here m.goal) = true := by simp [hroom, haudit]
  have hplace (t : State) (ht : t.msgs = s.msgs ∧ t.cycle = s.cycle) : setNth t.msgs i
      { m with queued := false, credit := true, crossed := t.cycle } =
      setNth s.msgs i { m with queued := false, credit := true, crossed := s.cycle } := by rw [ht.1, ht.2]
  unfold State.cross
  simp only [beq_eq_false_iff_ne.2 hgoal, Bool.false_eq_true, if_false]
  rw [if_neg hgo]
  refine ⟨_, rfl, hplace _ ?_⟩
  split
  · exact List.foldlRecOn (motive := fun t : State => t.msgs = s.msgs ∧ t.cycle = s.cycle) _ _ ⟨rfl, rfl⟩ fun _ ht _ _ => ht
  · exact ⟨rfl, rfl⟩

/-! ## Delivery -/

/-- The routers of a message's way carry it. -/
def State.carryAlong (s : State) (m : Msg) (core : Nat) : State :=
  m.links.foldl (fun s l => s.carry m.here l.2) (s.carry m.here (routerOf core))

theorem carryAlong_keeps (s : State) (m : Msg) (core : Nat) : (s.carryAlong m core).msgs = s.msgs ∧ (s.carryAlong m core).cores = s.cores :=
  List.foldlRecOn (motive := fun r : State => r.msgs = s.msgs ∧ r.cores = s.cores) _ _ ⟨rfl, rfl⟩ fun _ hr _ _ => hr

theorem deliver_arrives (hdoom : m.doomed = false) (hdest : s.destCore m = some c)
    (hroom : ((s.core c).inQ.filter (fun x => x.vn == m.vn)).length < 32) :
    s.deliver i m = ({ s with msgs := dropNth s.msgs i }.arrive c m).carryAlong m c := by
  unfold State.deliver
  simp only [hdoom, hdest, Bool.false_eq_true, if_false]
  exact if_neg (Nat.not_le.2 hroom)

theorem deliver_sticks (hdoom : m.doomed = false) (hdest : s.destCore m = some c)
    (hfull : 32 ≤ ((s.core c).inQ.filter (fun x => x.vn == m.vn)).length) :
    s.deliver i m = ({ s with msgs := setNth s.msgs i { m with stuck := true } } : State).carryAlong m c := by
  unfold State.deliver
  simp only [hdoom, hdest, Bool.false_eq_true, if_false]
  exact if_pos hfull

theorem deliver_undeliverable (hdoom : m.doomed = false) (hdest : s.destCore m = none) :
    s.deliver i m = { s with msgs := dropNth s.msgs i }.undeliverable m := by
  unfold State.deliver
  simp only [hdoom, hdest, Bool.false_eq_true, if_false]

theorem deliver_doomed (hdoom : m.doomed = true) : s.deliver i m = { s with msgs := dropNth s.msgs i }.poisonObls
    (((coreOfAddr m.dest).orElse (fun _ => coreOfAddr m.src)).getD 0) m.part m.stamp m.given :=
  if_pos hdoom

theorem arrive_msgs (s : State) (c : Nat) (m : Msg) : (s.arrive c m).msgs = s.msgs := by
  unfold State.arrive
  dsimp only
  split
  · rfl
  · rfl

/-- A message that arrives is the last of its core's input buffer. -/
theorem arrive_inQ (s : State) (c : Nat) (m : Msg) : ((s.arrive c m).core c).inQ = (s.core c).inQ ++
    [{ m with arrived := s.cycle, stuck := false, counted := m.counted || (s.ltCore c && m.isEvent) }] := by
  unfold State.arrive
  dsimp only
  split
  · rw [State.core_modCore]
  · rw [State.core_modCore, State.core_modCore]

/-! ## Queued words, audits and routers -/

theorem execSendEnqueue_goesOn {core slot opc : Nat} {w : Operands} (hst : (s.act (8 * core + slot)).st = .waiting)
    (hasked : (s.act (8 * core + slot)).asked = some (.room opc w)) (hroom : 2 ≤ s.sendRoom core .request) :
    execSendEnqueue core slot s = .next (s.as (8 * core + slot) (fun t =>
      let t := t.modMe (fun a => { a with st := .running, wait := none, asked := none })
      conclude opc w false (if opc = 0x282 then effSend w t else effSpawn w t))) := by
  unfold execSendEnqueue
  simp only [hst, hasked]
  refine if_neg (Nat.not_lt.2 (le_trans ?_ hroom))
  split
  · exact one_le_two
  · exact le_rfl

/-- An audit of a partner and network begins where none goes on and the last was 65,536 cycles ago (R284). -/
def State.auditDue (s : State) (d p : Nat) (vn : VN) : State :=
  if (s.die d).audit = none ∧ tget 0 (creditKey p vn) (s.die d).audited + 65536 ≤ s.cycle
  then s.modDie d (fun x => { x with audit := some (creditKey p vn), audited := tset 0 (creditKey p vn) s.cycle x.audited }) else s

/-- An audit over: the die's count is the slots that the partner reports free. -/
def State.auditOver (s : State) (d p : Nat) (vn : VN) : State :=
  s.modDie d (fun x => { x with audit := none, credits := tset 0 (creditKey p vn) 0 x.credits })

theorem execCreditAudit_eq (hu : s.auditDue d p vn = u) : execCreditAudit d p vn s =
    if (u.die d).audit != some (creditKey p vn) || u.onTheWay d p vn != 0 || u.owedTo p d vn != 0 then .next u
    else .next (if 32 - u.inUse d p vn = 32 then u.auditOver d p vn
      else (u.auditOver d p vn).note 0x86 0 (coresPerDie * d) (BitVec.ofNat 64 (32 * Config.moduleNumber + p))
        (wordOf [(16, 32 - u.inUse d p vn), (0, 32)])) := by
  have hdue : (if (s.die d).audit.isNone && decide (65536 ≤ s.cycle - tget 0 (creditKey p vn) (s.die d).audited) then
      s.modDie d (fun x => { x with audit := some (creditKey p vn), audited := tset 0 (creditKey p vn) s.cycle x.audited }) else s) = u := by
    refine Eq.trans (if_congr ?_ rfl rfl) hu
    simp only [Bool.and_eq_true, Option.isNone_iff_eq_none, decide_eq_true_eq]
    exact and_congr_right fun _ => by omega
  unfold execCreditAudit
  simp only [hdue]
  rfl

theorem execCreditAudit_waits (hu : s.auditDue d p vn = u)
    (h : (u.die d).audit ≠ some (creditKey p vn) ∨ u.onTheWay d p vn ≠ 0 ∨ u.owedTo p d vn ≠ 0) :
    execCreditAudit d p vn s = .next u := by
  rw [execCreditAudit_eq hu]
  exact if_pos (by simpa [or_assoc] using h)

section Audited
variable (hu : s.auditDue d p vn = u) (haudit : (u.die d).audit = some (creditKey p vn)) (hway : u.onTheWay d p vn = 0)
  (howed : u.owedTo p d vn = 0)
include hu haudit hway howed

theorem execCreditAudit_agrees (hnone : u.inUse d p vn = 0) : execCreditAudit d p vn s = .next (u.auditOver d p vn) := by
  rw [execCreditAudit_eq hu]
  simp [haudit, hway, howed, hnone]

theorem execCreditAudit_differs (hsome : u.inUse d p vn ≠ 0) : execCreditAudit d p vn s =
    .next ((u.auditOver d p vn).note 0x86 0 (coresPerDie * d) (BitVec.ofNat 64 (32 * Config.moduleNumber + p))
      (wordOf [(16, 32 - u.inUse d p vn), (0, 32)])) := by
  have hlost : ¬ 32 - u.inUse d p vn = 32 := by omega
  rw [execCreditAudit_eq hu]
  simp [haudit, hway, howed, hlost]

end Audited

theorem execRouterGate_gates (hidle : tget 0 r (s.die d).lastFlit + 64 ≤ s.cycle) (hmsgs : ∀ m ∈ s.msgs, m.atRouter d r = false)
    (hsluice : s.sluiceAt d r = false) :
    execRouterGate d r s = .next (s.modDie d (fun x => { x with gated := tset false r true x.gated })) := by
  have hlong : ¬ s.cycle - tget 0 r (s.die d).lastFlit < 64 := by omega
  have hnone : s.msgs.any (fun m => m.atRouter d r) = false := List.any_eq_false.2 fun m hm => by simp [hmsgs m hm]
  exact if_neg (by simp [hlong, hnone, hsluice])

theorem execRouterGate_stays (h : s.cycle < tget 0 r (s.die d).lastFlit + 64 ∨ (∃ m ∈ s.msgs, m.atRouter d r = true) ∨
    s.sluiceAt d r = true) : execRouterGate d r s = .next s := by
  have hbusy : s.cycle - tget 0 r (s.die d).lastFlit < 64 ∨ (∃ m ∈ s.msgs, m.atRouter d r = true) ∨ s.sluiceAt d r = true :=
    h.imp_left fun hc => by omega
  exact if_pos (by simpa [or_assoc] using hbusy)

/-- Settles O30: each event is the one case of its definition that its conditions lead to. -/
theorem fabricEvents : Obligations.FabricEvents := by
  refine ⟨fun s i m hm hahead hway => ⟨execMessageDelivery_leaves hm hahead hway, execMessageDelivery_passesOn hm hahead hway,
      fun hnum hcredit hgoal => ?_, fun hnum hcredit hgoal => ⟨fun x => execMessageDelivery_replicates hm hahead hway hnum hcredit hgoal,
        fun hlast => ?_⟩⟩,
    fun s core slot opc w => execSendEnqueue_goesOn, fun s d p vn => rfl,
    fun s u d p vn hu => ⟨execCreditAudit_waits hu.symm, fun haudit hway howed =>
      ⟨execCreditAudit_agrees hu.symm haudit hway howed, execCreditAudit_differs hu.symm haudit hway howed⟩⟩,
    fun s d r => ⟨execRouterGate_gates, execRouterGate_stays⟩, fun s d r => rfl, fun s i => rfl⟩
  · have hexec : exec (.messageDelivery i) s = .next ((s.cross i m).getD s) :=
      execMessageDelivery_crosses hm hahead hway hnum hcredit hgoal
    refine ⟨fun hfull => ?_, fun hroom haudit => ?_⟩
    · rw [hexec, cross_waits hgoal hfull, Option.getD_none]
    · obtain ⟨t, hcross, hmsgs⟩ := cross_takesCredit (i := i) hgoal hroom haudit
      exact ⟨t, by rw [hexec, hcross, Option.getD_some], hmsgs⟩
  · have hexec : exec (.messageDelivery i) s = .next (s.deliver i m) :=
      execMessageDelivery_delivers hm hahead hway hnum hcredit hgoal hlast
    refine ⟨fun c hdoom hdest hroom => ?_, fun c hdoom hdest hfull => ?_, fun hdoom hdest => ?_, fun hdoom => ?_⟩
    · obtain ⟨hmsgs, hcores⟩ := carryAlong_keeps ({ s with msgs := dropNth s.msgs i }.arrive c m) m c
      refine ⟨_, hexec.trans (congrArg _ (deliver_arrives hdoom hdest hroom)), hmsgs.trans (arrive_msgs _ c m), ?_⟩
      exact (congrArg (fun l => (tget ({} : Core) c l).inQ) hcores).trans (arrive_inQ _ c m)
    · obtain ⟨hmsgs, hcores⟩ := carryAlong_keeps { s with msgs := setNth s.msgs i { m with stuck := true } } m c
      exact ⟨_, hexec.trans (congrArg _ (deliver_sticks hdoom hdest hfull)), hmsgs, hcores⟩
    · exact hexec.trans (congrArg _ (deliver_undeliverable hdoom hdest))
    · exact hexec.trans (congrArg _ (deliver_doomed hdoom))

end Sys2Proof.Machine
end

section
/-!
Finding a page's owner (R173, R174, R178 to R182, R297): queries, replies and redirects, requests that a die returns, a stub's relays and
the limit of their chain, and messages of a reserved kind.
-/

namespace Sys2Proof.Machine

variable {s : State} {i : Nat} {m : OMsg} {r : OReq} {st : Stub}

/-! ## Messages on their way -/

/-- A message that arrives is on its way no longer. -/
theorem takeOMsg_of_getElem? (hm : s.omsgs[i]? = some m) : s.takeOMsg i = some (m, { s with omsgs := dropNth s.omsgs i }) :=
  congrArg (Option.map _) hm

@[simp] theorem die_with_omsgs (s : State) (l : List OMsg) (d : Nat) : State.die { s with omsgs := l } d = s.die d := rfl

/-- Whether a message is a request for a page that has come to a die. -/
def OMsg.asksAt (d k : Nat) : OMsg → Bool
  | .request q => q.at_ == d && q.who.page == k
  | _ => false

theorem OMsg.asksAt_iff {d k : Nat} : m.asksAt d k = true ↔ ∃ q, m = .request q ∧ q.at_ = d ∧ q.who.page = k := by
  cases m <;> simp [OMsg.asksAt]

/-! ## Requests -/

/-- A die that does not own the page, is not its stub and is not about to own it returns the request. -/
theorem execNotOwner_returns (hm : s.omsgs[i]? = some (.request r)) (howns : s.owns r.at_ r.who.page = false)
    (hstub : tget none r.who.page (s.die r.at_).stubs = none) (hbegin : s.beginning r.at_ r.who.page = false) :
    execNotOwner i s = .next { s with omsgs := setNth s.omsgs i (.notOwner r) } := by
  unfold execNotOwner
  simp only [hm, howns, hstub, hbegin, Option.isSome_none, Bool.or_self, Bool.false_eq_true, if_false]

/-- The oldest request at a stub: returned where three stubs have relayed it, else relayed. -/
theorem execStubRelay_first (hm : s.omsgs[i]? = some (.request r)) (hst : tget none r.who.page (s.die r.at_).stubs = some st)
    (hfirst : ∀ q, OMsg.request q ∈ s.omsgs.take i → q.at_ = r.at_ → q.who.page ≠ r.who.page) :
    execStubRelay i s = if 3 ≤ r.count then .next { s with omsgs := setNth s.omsgs i (.chainLimit r) }
      else .next
        (let t := { s with omsgs := dropNth s.omsgs i ++ [OMsg.request { r with at_ := st.target, count := r.count + 1 }] }.modDie r.at_
            (fun x => { x with stubs := tset none r.who.page (some { st with since := s.cycle }) x.stubs })
          if r.count = 0 then t.sendOMsg (.redirect r.who.die r.who.page st.target) else t) := by
  have hearlier : ¬ (s.omsgs.take i).any (OMsg.asksAt r.at_ r.who.page) = true := by
    simp only [List.any_eq_true, OMsg.asksAt_iff]
    rintro ⟨_, hmem, q, rfl, hat, hpage⟩
    exact hfirst q hmem hat hpage
  unfold execStubRelay
  simp only [hm, hst]
  exact if_neg hearlier

/-! ## Reserved kinds -/

theorem execReservedKind_noted {kind : FabricKind} {src dst : Nat} (hkind : reservedFabric kind = true) :
    execReservedKind kind src dst s =
      .next (s.note 0x85 0 (coresPerDie * (dst % numDies)) (BitVec.ofNat 64 (fabricCode kind)) (BitVec.ofNat 64 src)) := if_pos hkind

/-- Settles O32: each message is the one case of its event's definition that its conditions lead to, and a request at a stub is the
oldest there (`execStubRelay_first`). -/
theorem ownerSearchEvents : Obligations.OwnerSearchEvents := by
  refine ⟨fun s i d k hm => ?_, fun s i d k o z hm => ?_, fun s i d k t hm => ?_, fun s i r => execNotOwner_returns, fun s i r hm => ?_,
    fun s i r st hm hst hfirst => ?_, fun s i r hm => ?_,
    fun s c src dst => ⟨fun hlo hhi => execReservedKind_noted ?_, fun hlo hhi => execReservedKind_noted ?_⟩⟩
  · change execOwnerQuery i s = _
    simp only [execOwnerQuery, takeOMsg_of_getElem? hm]
    rfl
  · change execOwnerReply i s = _
    simp only [execOwnerReply, takeOMsg_of_getElem? hm]
  · change execRedirect i s = _
    simp only [execRedirect, takeOMsg_of_getElem? hm]
    rfl
  · change execNotOwner i s = _
    simp only [execNotOwner, hm]
  · have hx : exec (.stubRelay i) s = _ := execStubRelay_first hm hst hfirst
    exact ⟨fun hfull => hx.trans (if_pos hfull), fun hroom => hx.trans (if_neg (Nat.not_le.2 hroom))⟩
  · change execChainLimit i s = _
    simp only [execChainLimit, takeOMsg_of_getElem? hm]
  · simp [reservedFabric, hlo, hhi]
  · simp [reservedFabric, hlo, hhi]

end Sys2Proof.Machine
end

section
/-!
Moving a page (R175 to R177, R183, R186, R188, R189): its lines on their way, the messages of a move, and the operations that pin pages,
move them or write HINT.
-/

namespace Sys2Proof.Machine

variable {s : State} {i die k part page : Nat} {g : Outgoing} {c : Incoming}

/-! ## Lines -/

/-- The old owner of a page that is quiet sends the line that the new owner awaits. -/
theorem execPageLineSend_awaited {n : Nat} (hg : tget none k (s.die die).outgoing = some g) (hquiet : g.quiet = true)
    (hn : (s.awaitedAt g.new k).find? (fun n => !s.lineSent k g.new g.next n) = some n) :
    execPageLineSend die k s = .next (s.sendOMsg (.line k g.new n (s.pageLine die k n))) := by
  unfold execPageLineSend
  simp only [hg, hquiet, hn, Bool.not_true, Bool.false_eq_true, if_false]

/-- With no line awaited it sends the next one, and after the last MIGRATE_DONE. -/
theorem execPageLineSend_next {n : Nat} (hg : tget none k (s.die die).outgoing = some g) (hquiet : g.quiet = true)
    (hnone : (s.awaitedAt g.new k).find? (fun n => !s.lineSent k g.new g.next n) = none)
    (hn : n = s.firstUnsent k g.new (pageLines g.size - g.next) g.next) :
    execPageLineSend die k s = if n < pageLines g.size
      then .next ((s.sendOMsg (.line k g.new n (s.pageLine die k n))).modDie die
        (fun x => { x with outgoing := tset none k (some { g with next := n + 1 }) x.outgoing }))
      else .next ((s.sendOMsg (.done k die g.new)).modDie die (fun x => { x with outgoing := tset none k none x.outgoing })) := by
  subst hn
  unfold execPageLineSend
  simp only [hg, hquiet, hnone, Bool.not_true, Bool.false_eq_true, if_false]

/-! ## The end of a move -/

/-- Whether a message carries a line of a page to a die. -/
def OMsg.lineTo (k d : Nat) : OMsg → Bool
  | .line p e _ _ => p == k && e == d
  | _ => false

theorem OMsg.lineTo_iff {m : OMsg} {d : Nat} : m.lineTo k d = true ↔ ∃ n bs, m = .line k d n bs := by
  cases m <;> simp [OMsg.lineTo]

/-- Whether a message tells the home of a page's owner. -/
def OMsg.updates (k : Nat) : OMsg → Bool
  | .update p _ _ => p == k
  | _ => false

theorem OMsg.updates_iff {m : OMsg} : m.updates k = true ↔ ∃ o moving, m = .update k o moving := by
  cases m <;> simp [OMsg.updates]

theorem execMigrateDone_settles {old new : Nat} (hm : s.omsgs[i]? = some (.done k old new)) (hc : tget none k (s.die new).incoming = some c)
    (hlines : ∀ n bs, .line k new n bs ∉ s.omsgs) : execMigrateDone i s =
      .next ((((({ s with omsgs := dropNth s.omsgs i }.moveFrame c.frame c.newFrame (pageSpan c.size)).reframe k c.newFrame c.size).modDie
        new (fun x => { x with incoming := tset none k (some { c with whole := true, awaited := [] }) x.incoming })).touchStub old k).sendOMsg
          (.update k new false)) := by
  have hnone : ¬ s.omsgs.any (OMsg.lineTo k new) = true := by
    simp only [List.any_eq_true, OMsg.lineTo_iff]
    rintro ⟨_, hmem, n, bs, rfl⟩
    exact hlines n bs hmem
  unfold execMigrateDone
  simp only [hm, hc]
  exact if_neg hnone

theorem execOwnerUpdate_records {o : Nat} {moving : Bool} (hm : s.omsgs[i]? = some (.update k o moving))
    (hfirst : ∀ p m, .update k p m ∉ s.omsgs.take i) : execOwnerUpdate i s =
      .next (let t := { s with omsgs := dropNth s.omsgs i, homes := tset {} k { s.home k with owner := o, moving := moving } s.homes }
        if moving then t else t.modDie o (fun x => { x with incoming := tset none k none x.incoming })) := by
  have hearlier : ¬ (s.omsgs.take i).any (OMsg.updates k) = true := by
    simp only [List.any_eq_true, OMsg.updates_iff]
    rintro ⟨_, hmem, p, m, rfl⟩
    exact hfirst p m hmem
  unfold execOwnerUpdate
  simp only [hm]
  exact if_neg hearlier

/-! ## MIGCTL and HINT -/

theorem pinPage_eq (s : State) (part page : Nat) : s.pinPage part page =
    if (s.home (s.partHome part page)).valid = false then s.migRefuse part
    else if (s.home (s.partHome part page)).pinned = false ∧ 256 ≤ s.pinnedPages (s.part part).asid
      then s.modPart part (fun p => { p with refused := true, pinFull := true })
    else { s with homes := tset {} (s.partHome part page) { s.home (s.partHome part page) with pinned := true } s.homes } := by
  simp only [State.pinPage, Bool.not_eq_true', Bool.and_eq_true, decide_eq_true_eq]

theorem unpinPage_eq (s : State) (part page : Nat) : s.unpinPage part page =
    if (s.home (s.partHome part page)).valid
      then { s with homes := tset {} (s.partHome part page) { s.home (s.partHome part page) with pinned := false } s.homes }
    else s.migRefuse part := by
  cases hvalid : (s.home (s.partHome part page)).valid with
  | false => simp only [State.unpinPage, hvalid, Bool.not_false, Bool.false_eq_true, if_true, if_false]
  | true => simp only [State.unpinPage, hvalid, Bool.not_true, Bool.false_eq_true, if_true, if_false]

theorem movePage_eq (s : State) (part page dest m : Nat) : s.movePage part page dest m =
    if (s.home (s.partHome part page)).valid = false ∨ m ≠ Config.moduleNumber ∨ 32 ≤ dest then s.migRefuse part
    else (s.startMigration (s.partHome part page) dest).getD (s.migRefuse part) := by
  refine if_congr ?_ rfl rfl
  simp only [Bool.or_eq_true, Bool.not_eq_true', bne_iff_ne, decide_eq_true_eq, or_assoc]
  rfl

theorem movePage_refused {dest m : Nat} (h : (s.home (s.partHome part page)).valid = false ∨ m ≠ Config.moduleNumber ∨ 32 ≤ dest ∨
    s.startMigration (s.partHome part page) dest = none) : s.movePage part page dest m = s.migRefuse part := by
  rw [movePage_eq]
  by_cases hstart : s.startMigration (s.partHome part page) dest = none
  · rw [hstart, Option.getD_none, ite_self]
  · exact if_pos (by simpa only [hstart, or_false] using h)

theorem movePage_starts {dest : Nat} {t : State} (hvalid : (s.home (s.partHome part page)).valid = true) (hdest : dest < 32)
    (hstart : s.startMigration (s.partHome part page) dest = some t) : s.movePage part page dest Config.moduleNumber = t := by
  rw [movePage_eq, if_neg (by simp [hvalid, hdest]), hstart, Option.getD_some]

/-- Only a partition that leaves hint mode has leases to recall. -/
theorem setHint_of_stays {hint : Bool} (h : (s.part part).hint = false ∨ hint = true) :
    s.setHint part hint = s.modPart part (fun p => { p with hint := hint }) := by
  refine if_neg ?_
  rcases h with h | h
  · simp [h]
  · simp [h]

theorem execCounterHalving_due (hdue : (s.die die).halved + 2 ^ 20 ≤ s.cycle) : execCounterHalving die s =
    .next (((s.halveCounters die).die die).counters.foldl (fun s e => s.moveCounted die e.1 e.2) (s.halveCounters die)) :=
  if_neg (by omega)

/-- Settles O33: each event is the one case of its definition that its conditions lead to; the messages that would hold it back are none
on their way (`OMsg.lineTo`, `OMsg.updates`). -/
theorem migrationEvents : Obligations.MigrationEvents := by
  refine ⟨fun s i k old new frame newFrame z e hm => ?_, fun s die k g hg hquiet => ?_,
    fun s die k n g hg hquiet => ⟨fun j => execPageLineSend_awaited hg hquiet, fun hnone hn => ?_⟩, fun s i k new n bs c hm hc => ?_,
    fun s i k old new c => execMigrateDone_settles, fun s i k o moving => execOwnerUpdate_records,
    fun s part page => ⟨congrArg _ (pinPage_eq s part page), congrArg _ (unpinPage_eq s part page),
      fun dest m h => congrArg _ (movePage_refused h), fun dest t hvalid hdest hstart => congrArg _ (movePage_starts hvalid hdest hstart)⟩,
    fun s part hint => ⟨rfl, setHint_of_stays⟩, fun s die => execCounterHalving_due⟩
  · change execMigrateBegin i s = _
    simp only [execMigrateBegin, takeOMsg_of_getElem? hm]
  · change execPageLineSend die k s = _
    simp only [execPageLineSend, hg, hquiet, Bool.not_false, if_true]
  · have hx : exec (.pageLineSend die k) s = _ := execPageLineSend_next hg hquiet hnone hn
    exact ⟨fun hmore => hx.trans (if_pos hmore), fun hlast => hx.trans (if_neg (Nat.not_lt.2 hlast))⟩
  · change execPageLines i s = _
    simp only [execPageLines, hm, hc]

end Sys2Proof.Machine
end

section
/-!
Stubs that are reclaimed (R181), copies of read-duplicable pages (R184, R185) and line leases (R187).
-/

namespace Sys2Proof.Machine

variable {s t : State} {i die k d : Nat} {st : Stub} {m : OMsg}

/-! ## Stubs -/

/-- Whether a message ends the move of a page from a die. -/
def OMsg.doneFrom (k d : Nat) : OMsg → Bool
  | .done p o _ => p == k && o == d
  | _ => false

theorem OMsg.doneFrom_iff : m.doneFrom k d = true ↔ ∃ n, m = .done k d n := by
  cases m <;> simp [OMsg.doneFrom]

/-- Whether a message tells a reader of a stub, or acknowledges that. -/
def OMsg.invalOf (k d : Nat) : OMsg → Bool
  | .inval p _ x => p == k && x == d
  | .invalAck p _ x => p == k && x == d
  | _ => false

theorem OMsg.invalOf_iff : m.invalOf k d = true ↔ ∃ q, m = .inval k q d ∨ m = .invalAck k q d := by
  cases m <;> simp [OMsg.invalOf]

/-- A test that names two kinds of message is met in a list where it holds one of either kind. -/
theorem any_iff_of_two_kinds {ι : Type} {p : OMsg → Bool} {f g : ι → OMsg} (hp : ∀ m, p m = true ↔ ∃ x, m = f x ∨ m = g x)
    (l : List OMsg) : l.any p = true ↔ ∃ x, f x ∈ l ∨ g x ∈ l := by
  simp only [List.any_eq_true, hp]
  constructor
  · rintro ⟨_, hmem, x, rfl | rfl⟩
    · exact ⟨x, .inl hmem⟩
    · exact ⟨x, .inr hmem⟩
  · rintro ⟨x, hmem | hmem⟩
    · exact ⟨_, hmem, x, .inl rfl⟩
    · exact ⟨_, hmem, x, .inr rfl⟩

theorem any_invalOf_iff {l : List OMsg} : l.any (OMsg.invalOf k d) = true ↔ ∃ q, .inval k q d ∈ l ∨ .invalAck k q d ∈ l :=
  any_iff_of_two_kinds (fun _ => OMsg.invalOf_iff) l

theorem execStubExpiry_asks (hst : tget none k (s.die die).stubs = some st) (hnew : st.retiring = false)
    (hsent : tget none k (s.die die).outgoing = none) (hdone : ∀ n, .done k die n ∉ s.omsgs) (hidle : st.since + 2 ^ 22 ≤ s.cycle) :
    execStubExpiry die k s = .next ((s.modDie die (fun x =>
      { x with stubs := tset none k (some { st with retiring := true }) x.stubs })).sendOMsg (.retire k die)) := by
  have hnone : ¬ s.omsgs.any (OMsg.doneFrom k die) = true := by
    simp only [List.any_eq_true, OMsg.doneFrom_iff]
    rintro ⟨_, hmem, n, rfl⟩
    exact hdone n hmem
  have hlong : ¬ s.cycle - st.since < 2 ^ 22 := by omega
  unfold execStubExpiry
  simp only [hst, hnew, hsent, Option.isSome_none, Bool.false_or, Bool.or_eq_true, decide_eq_true_eq]
  exact if_neg (not_or_intro hnone hlong)

/-- A set of dies is empty where it lists none. -/
theorem filter_getLsbD_isEmpty (v : BitVec 32) : ((upTo 32).filter (fun r => v.getLsbD r)).isEmpty = true ↔ v = 0 := by
  rw [List.isEmpty_iff, List.filter_eq_nil_iff]
  refine ⟨fun h => BitVec.eq_of_getLsbD_eq fun r hr => ?_, fun h r _ => ?_⟩
  · simpa using h r (mem_upTo.2 hr)
  · simp [h]

theorem execStubRetire_tells (hm : s.omsgs[i]? = some (.retire k d)) : execStubRetire i s =
    .next { s with omsgs := dropNth s.omsgs i ++ (if (s.home k).readers = 0 then [.retireOk k d]
      else ((upTo 32).filter (fun r => (s.home k).readers.getLsbD r)).map (fun r => .inval k r d)) } := by
  unfold execStubRetire
  simp only [takeOMsg_of_getElem? hm]
  by_cases hnone : (s.home k).readers = 0
  · rw [if_pos hnone]
    exact congrArg _ (if_pos ((filter_getLsbD_isEmpty _).2 hnone))
  · rw [if_neg hnone]
    exact congrArg _ (if_neg (mt (filter_getLsbD_isEmpty _).1 hnone))

theorem execOwnerInvalAck_eq {r : Nat} (hm : s.omsgs[i]? = some (.invalAck k r d)) : execOwnerInvalAck i s =
    .next (if (dropNth s.omsgs i).any (OMsg.invalOf k d) then { s with omsgs := dropNth s.omsgs i }
      else { s with omsgs := dropNth s.omsgs i ++ [.retireOk k d] }) := by
  unfold execOwnerInvalAck
  simp only [takeOMsg_of_getElem? hm]
  rfl

/-! ## Copies -/

/-- Whether a message recalls a copy of a page, or acknowledges that. -/
def OMsg.dupOf (k : Nat) : OMsg → Bool
  | .dupInval p _ => p == k
  | .dupAck p _ => p == k
  | _ => false

theorem OMsg.dupOf_iff : m.dupOf k = true ↔ ∃ h, m = .dupInval k h ∨ m = .dupAck k h := by
  cases m <;> simp [OMsg.dupOf]

theorem any_dupOf_iff {l : List OMsg} : l.any (OMsg.dupOf k) = true ↔ ∃ h, .dupInval k h ∈ l ∨ .dupAck k h ∈ l :=
  any_iff_of_two_kinds (fun _ => OMsg.dupOf_iff) l

/-- An acknowledgement performs what waits once no copy of the page is left and none is still to be acknowledged. -/
theorem execDupInvalAck_eq (hm : s.omsgs[i]? = some (.dupAck k d))
    (ht : t = { s with omsgs := dropNth s.omsgs i, copies := tset 0 k (tget 0 k s.copies &&& ~~~(1#32 <<< d)) s.copies }) :
    execDupInvalAck i s = if t.omsgs.any (OMsg.dupOf k) || t.copiesOut k then .next t
      else .next (match t.dupWaiter k with | some (key, j) => (t.dupPerform key j).settleOwners | none => t.settleOwners) := by
  subst ht
  unfold execDupInvalAck
  simp only [takeOMsg_of_getElem? hm]
  refine if_congr Iff.rfl rfl ?_
  cases State.dupWaiter _ k with
  | none => rfl
  | some x => rfl

/-- Settles O34: each event is the one case of its definition that its conditions lead to, and an acknowledgement is the last where none of
its kind is on its way (`any_invalOf_iff`, `any_dupOf_iff`). -/
theorem stubCopyAndLeaseEvents : Obligations.StubCopyAndLeaseEvents := by
  refine ⟨fun s die k st => execStubExpiry_asks, fun s i k d => execStubRetire_tells, fun s i k r d hm => ?_, fun s i k r d hm => ?_,
    fun s i k d st hm hst hretiring => ?_, fun s i k d hm => ⟨fun hf => ?_, fun f hf => ?_⟩, fun s t i k d hm ht => ?_, ?_,
    fun s i line d hm => ?_, fun s i line d bs hm => ?_⟩
  · change execOwnerInval i s = _
    simp only [execOwnerInval, hm]
  · have hx : exec (.ownerInvalAck i) s = _ := execOwnerInvalAck_eq hm
    refine ⟨fun hlast => hx.trans (congrArg _ (if_neg ?_)), fun hmore => hx.trans (congrArg _ (if_pos (any_invalOf_iff.2 hmore)))⟩
    exact fun h => by simpa [hlast] using any_invalOf_iff.1 h
  · change execRetireOk i s = _
    simp only [execRetireOk, takeOMsg_of_getElem? hm, die_with_omsgs, hst, hretiring, if_true]
  · change execDupInval i s = _
    simp only [execDupInval, hm, die_with_omsgs, hf]
  · change execDupInval i s = _
    simp only [execDupInval, hm, die_with_omsgs, hf]
  · have hx : exec (.dupInvalAck i) s = _ := execDupInvalAck_eq hm ht
    refine ⟨fun hmore => hx.trans (if_pos ?_), fun hnone hlast => hx.trans (if_neg ?_)⟩
    · rw [Bool.or_eq_true, any_dupOf_iff]
      exact hmore.symm
    · rw [Bool.or_eq_true, any_dupOf_iff]
      simp [hnone, hlast]
  · rintro s _ i line d bs hm rfl
    change execLeaseGrant i s = _
    simp only [execLeaseGrant, takeOMsg_of_getElem? hm]
  · change execLeaseRecall i s = _
    simp only [execLeaseRecall, hm]
  · change execLeaseReturn i s = _
    simp only [execLeaseReturn, takeOMsg_of_getElem? hm]

end Sys2Proof.Machine
end

section
/-!
Deferral of scalar words (R196, R448): what the body of layout AR ends in where a source is deferred.
-/

namespace Sys2Proof.Machine

variable {w : Operands} {tied : Bool} {r s1 s2 : State} {x y : Word} {dx dy : Bool}

/-- The register that DEFERRED_USE names: a tied A before B, and B before C. -/
def State.deferredSource (r : State) (w : Operands) (tied dx : Bool) : Nat :=
  if tied && r.dfr w.a then opndNum w.a else if dx then opndNum (opndB w) else opndNum w.c

/-- A deferred source decides what the body ends in, whatever the word computes. -/
theorem arith_deferred (hx : r.src (if tied then w.b else opndB w) = some (x, dx, s1)) (hy : s1.srcC w = some (y, dy, s2))
    (hd : (dx || dy || (tied && r.dfr w.a)) = true) (f : (d x y : Word) → Val) :
    arith w tied f r = s2.putDeferred r w.a (deferredUse false (r.deferredSource w tied dx)) := by
  simp only [arith, hx, hy, hd, if_true, State.deferredSource]

theorem putDeferred_reg (s s0 : State) (rot : Bool) (n : BitVec 6) (f : FaultReq) :
    s.putDeferred s0 (.reg .s rot n) f = .done (s.deferredS n.toNat) := rfl

theorem putDeferred_queue (s s0 : State) (pk : Bool) (n : BitVec 3) (f : FaultReq) :
    s.putDeferred s0 (.queue pk n) f = .fault f s0 := rfl

theorem deferredSource_untied (r : State) (w : Operands) (dx : Bool) :
    r.deferredSource w false dx = if dx then opndNum (opndB w) else opndNum w.c := rfl

/-- A word whose effect is the body of layout AR defers, whatever it computes. -/
theorem scalarDefers_of_exec {mk : Operands → Instr} {opc : Nat}
    (h : ∀ w s, ∃ f, exec (mk w) s = issue opc w (arith w tied f) s) : ScalarDefers mk opc tied := by
  intro w s r s1 s2 x y dx dy hi hx hy hd
  obtain ⟨f, hexec⟩ := h w s
  have heff := arith_deferred hx hy hd f
  refine ⟨fun rot n ha => ?_, fun pk n ha htied => ?_⟩
  · rw [ha, putDeferred_reg] at heff
    rw [hexec, issue_done hi heff]
  · subst htied
    rw [ha, putDeferred_queue, deferredSource_untied] at heff
    rw [hexec, issue_fault hi heff]

/-- Settles O2: each of these words issues with the body of layout AR as its effect. -/
theorem scalarDeferral : Obligations.ScalarDeferral := by
  refine ⟨fun p hp => ?_, fun p hp => ?_⟩
  · fin_cases hp
    all_goals exact scalarDefers_of_exec fun _ _ => ⟨_, rfl⟩
  · fin_cases hp
    all_goals exact scalarDefers_of_exec fun _ _ => ⟨_, rfl⟩

end Sys2Proof.Machine
end

section
/-!
Scalar accesses (R104, R107, R112, R195, R376, R413): a load by the checks that it passes, one after the other, and the answers of
LOC and SHM.
-/

namespace Sys2Proof.Machine

variable {opc sp : Nat} {w : Operands} {s r t : State} {ps : List Piece} {f : FaultReq}

/-! ## Checks of a load before the space's own -/

/-- The faults of an address's range are among those on which a `.spec` load defers. -/
theorem specFault_of_rangeFault {a : Word} (h : rangeFault sp a = some f) : specFault f.code = true := by
  unfold rangeFault glbRange at h
  split at h
  · split at h <;> cases h
    rfl
  · split at h <;> cases h
    rfl
  · split at h
    · cases h
      rfl
    · split at h <;> cases h
      rfl

/-- So is the fault of its alignment. -/
theorem specFault_of_aligned {a : Word} {n : Nat} (h : aligned sp a n = some f) : specFault f.code = true := by
  unfold aligned at h
  split at h <;> cases h
  rfl

theorem placement_fault {a : Word} {n : Nat} (h : rangeFault sp a ≠ none ∨ aligned sp a n ≠ none) :
    ∃ f, orFault (rangeFault sp a) (aligned sp a n) = some f ∧ specFault f.code = true := by
  cases hr : rangeFault sp a with
  | some f => exact ⟨f, rfl, specFault_of_rangeFault hr⟩
  | none =>
    obtain ⟨f, hf⟩ := Option.ne_none_iff_exists'.1 (h.resolve_left (· hr))
    exact ⟨f, hf, specFault_of_aligned hf⟩

/-- A `.spec` load that needs a deferred or poisoned register. -/
theorem effLoad_unclear (hspec : isSpec w = true) (h : ¬ (r.deferredIn opc w [1, 2] = none ∧ r.poisonHit opc w = none)) :
    effLoad opc sp w r = r.deferS w := by
  unfold effLoad
  cases hd : r.deferredIn opc w [1, 2] with
  | some f => simp only [hspec, if_true]
  | none =>
    have hp : (r.poisonHit opc w).isSome = true := Option.isSome_iff_ne_none.2 fun hp => h ⟨hd, hp⟩
    simp only [hspec, hp, Bool.and_true, if_true]

/-- A `.spec` load whose address is out of range or misaligned. -/
theorem effLoad_misplaced (hspec : isSpec w = true) (hdefined : r.deferredIn opc w [1, 2] = none)
    (h : rangeFault sp (r.eaOf opc w) ≠ none ∨ aligned sp (r.eaOf opc w) w.ty.bytes ≠ none) :
    effLoad opc sp w r = r.deferS w := by
  obtain ⟨f, hf, hcode⟩ := placement_fault h
  unfold effLoad
  simp only [hdefined, hf, hcode, hspec, Bool.and_self, if_true, ite_self]

/-! ## Loads -/

/-- What a load makes of the answer of its space (R157, R160, R195, R376). -/
def loadAnswer (w : Operands) : ARes → Res
  | .stall s => .stall s
  | .fault f s => if isSpec w && specFault f.code then s.deferS w else .fault f s
  | .ok s ps =>
    if s.releaseHeld w then .stall s
    else if !ps.all s.bindable then .stall s
    else match s.startHostRead ps, s.poisonFault ps with
      | some s, _ => .stall s
      | none, some (f, s) => if isSpec w && specFault f.code then s.deferS w else .fault f s
      | none, none => .done ((s.loadPieces ps).2.wroteS (opndNum w.a) (loadExt w.ty (s.loadPieces ps).1))

/-- The access of a scalar load (R104). -/
def State.loadAccess (r : State) (opc sp : Nat) (w : Operands) : ARes :=
  r.access sp .load (r.eaOf opc w).toNat w.ty.bytes (fun va p => if isRaw w then none else packedFault va p)

/-- What stops a `.spec` load alone stops no load where it stops no such load. -/
theorem clean_of_spec (h : isSpec w = true → r.poisonHit opc w = none) : (isSpec w && (r.poisonHit opc w).isSome) = false :=
  Bool.and_eq_false_imp.2 fun hspec => by rw [h hspec, Option.isSome_none]

/-- A load at an address that is there, and is no push address, goes by its space's answer, unless a `.spec` load's page is one on
which it defers (R195). -/
theorem effLoad_placed (hdefined : r.deferredIn opc w [1, 2] = none) (hclean : isSpec w = true → r.poisonHit opc w = none)
    (hrange : rangeFault sp (r.eaOf opc w) = none) (halign : aligned sp (r.eaOf opc w) w.ty.bytes = none)
    (hpush : sp = 4 → r.myPart.pushEdge (r.eaOf opc w).toNat = none) : effLoad opc sp w r =
      if isSpec w && sp = 4 && r.specPath (r.eaOf opc w).toNat w.ty.bytes then r.deferS w
      else loadAnswer w (r.loadAccess opc sp w) := by
  have hnone : (if sp = 4 then r.myPart.pushEdge (r.eaOf opc w).toNat else none) = none := by
    split
    · next h4 => exact hpush h4
    · rfl
  unfold effLoad State.loadAccess
  simp only [hdefined, clean_of_spec hclean, hrange, halign, orFault, hnone, Bool.false_eq_true, if_false]
  rfl

/-- A load that binds its bytes now. -/
theorem loadAnswer_binds (hrel : Ord_rel w.ord = true → t.releaseReady w.scope = true) (hbind : ps.all t.bindable = true)
    (hhost : t.startHostRead ps = none) (hpoison : t.poisonFault ps = none) :
    loadAnswer w (.ok t ps) = .done ((t.loadPieces ps).2.wroteS (opndNum w.a) (loadExt w.ty (t.loadPieces ps).1)) := by
  simp only [loadAnswer, releaseHeld_of_ready hrel, hbind, hhost, hpoison, Bool.not_true, Bool.false_eq_true, if_false]

/-- A `.spec` load on whose fault it defers. -/
theorem loadAnswer_defers (hspec : isSpec w = true) (hf : specFault f.code = true) : loadAnswer w (.fault f t) = t.deferS w := by
  simp only [loadAnswer, hspec, hf, Bool.and_self, if_true]

/-- A load whose effect is that of a space completes. -/
theorem loadWord_of_exec {mk : Operands → Instr} (h : ∀ w s, exec (mk w) s = issue opc w (effLoad opc sp w) s) :
    LoadWord mk opc sp := by
  intro w s r t ps hi hr hspec hbind hhost hpoison
  have hslow : ¬ (isSpec w && sp = 4 && r.specPath (r.eaOf opc w).toNat w.ty.bytes) = true := by
    simp only [Bool.and_eq_true, decide_eq_true_eq]
    rintro ⟨⟨hw, h4⟩, hp⟩
    exact absurd ((hspec hw).2 h4) (by simp [hp])
  have heff := effLoad_placed hr.defined (fun hw => (hspec hw).1) hr.range hr.aligned hr.noPush
  rw [if_neg hslow, show r.loadAccess opc sp w = _ from hr.access, loadAnswer_binds hr.release hbind hhost hpoison] at heff
  rw [h, issue_done hi heff]

/-- It defers where it is `.spec` and a check fails on which such a load defers. -/
theorem loadDefers_of_exec {mk : Operands → Instr} (h : ∀ w s, exec (mk w) s = issue opc w (effLoad opc sp w) s) :
    LoadDefers mk opc sp := by
  intro w s r hi hspec a clear placed slow
  have hdefer {t : State} (heff : effLoad opc sp w r = t.deferS w) :
      exec (mk w) s = .next ((t.unasked.deferredS (opndNum w.a)).issued opc w) := (h w s).trans (issue_done hi heff)
  have hplaced (hc : clear) (hp : placed) := effLoad_placed hc.1 (fun _ => hc.2) hp.1 hp.2.1 hp.2.2
  have hpath : (isSpec w && sp = 4 && r.specPath (r.eaOf opc w).toNat w.ty.bytes) = true ↔ slow := by
    simp [hspec, slow, a]
  refine ⟨fun hcase => hdefer ?_, fun f t hc hp hs hf hcode => hdefer ?_⟩
  · by_cases hc : clear
    · rcases hcase with hn | hrange | halign | ⟨hp, hs⟩
      · exact absurd hc hn
      · exact effLoad_misplaced hspec hc.1 (.inl hrange)
      · exact effLoad_misplaced hspec hc.1 (.inr halign)
      · exact (hplaced hc hp).trans (if_pos (hpath.2 hs))
    · exact effLoad_unclear hspec hc
  · rw [hplaced hc hp, if_neg (mt hpath.1 hs), show r.loadAccess opc sp w = _ from hf, loadAnswer_defers hspec hcode]

theorem loadsComplete : LoadsComplete :=
  ⟨⟨loadWord_of_exec fun _ _ => rfl, loadWord_of_exec fun _ _ => rfl, loadWord_of_exec fun _ _ => rfl⟩,
    loadDefers_of_exec fun _ _ => rfl, loadDefers_of_exec fun _ _ => rfl, loadDefers_of_exec fun _ _ => rfl⟩

/-! ## Stores -/

theorem storeWord_of_exec {mk : Operands → Instr} (h : ∀ w s, exec (mk w) s = issue opc w (effStore opc sp w) s) :
    StoreWord mk opc sp :=
  fun w s _ _ _ hi hr => (h w s).trans (issue_done hi (effStore_of_reaches hr))

theorem storesComplete : StoresComplete :=
  ⟨storeWord_of_exec fun _ _ => rfl, storeWord_of_exec fun _ _ => rfl, storeWord_of_exec fun _ _ => rfl⟩

/-! ## Answers of LOC and SHM -/

/-- A byte that no region lets the activation write stops a store to LOC (R107). -/
theorem access_loc_fault {va n o : Nat} {extra : Nat → Page → Option FaultReq} (ho : o ∈ from_ va n) (hw : s.me.locWrite o = false) :
    s.access 1 .store va n extra = .fault { code := 0x08, space := 1, addr := BitVec.ofNat 64 va } s := by
  have hall : ¬ (from_ va n).all (fun o => if Use.store == .load then s.me.locRead o else s.me.locWrite o) = true :=
    fun h => absurd (List.all_eq_true.1 h o ho) (by simp [hw])
  exact if_neg hall

theorem localSpacesAnswer : LocalSpacesAnswer :=
  ⟨fun _ _ _ _ h => access_loc h, fun _ _ _ _ h => access_loc h, fun _ _ _ _ _ => access_shm, fun _ _ _ _ _ => access_loc_fault⟩

/-- Settles O8: each word issues with the effect of its space, and the effect goes by the checks that it passes. -/
theorem scalarAccesses : Obligations.ScalarAccesses := ⟨loadsComplete, storesComplete, localSpacesAnswer⟩

end Sys2Proof.Machine
end

section
/-!
BRK and TRAP (R355, R420): a fault that is Held, and the word that takes it.
-/

namespace Sys2Proof.Machine

/-- A fault that is Held: what gives way to it is dropped, and the slot stops until its context is saved (R190, R202, R205). -/
theorem takeFaultAt_held {s : State} {k : Nat} {f : FaultReq} {pc : Word} {at_ : Option Nat} (hf : delivOf f.code = .held) :
    s.takeFaultAt k f pc at_ = ((s.dropFault k).forgetKey k).modAct k (fun a =>
      { a with st := .saving, faultInfo := faultInfoOf f .held
               save := some { why := .fault, fault := some f, pc := pc, at_ := at_ } }) := by
  unfold State.takeFaultAt
  simp only [hf]

/-- Settles O24: each of the two faults at the word by its effect, and its code is one that is Held. -/
theorem breakAndTrap : Obligations.BreakAndTrap := by
  intro opc code mk hk w s r hi hfront hS f
  obtain ⟨hexec, hheld⟩ : exec (mk w) s = .next (r.takeFault opc w f) ∧ delivOf f.code = .held := by
    rcases hk with ⟨rfl, rfl, rfl⟩ | ⟨rfl, rfl, rfl⟩
    · exact ⟨issue_fault hi rfl, rfl⟩
    · exact ⟨issue_fault hi rfl, rfl⟩
  rw [hexec, takeFault_front hfront hS, takeFaultAt_held hheld]

end Sys2Proof.Machine
end

section
/-!
Scalar words (R217 to R222, R344, R367 to R370, R401, R402): what a word whose effect is the body of layout AR completes to.
-/

namespace Sys2Proof.Machine

/-- A word whose effect is the body of layout AR completes with what it computes. -/
theorem scalarWord_of_exec {mk : Operands → Instr} {opc : Nat} {tied : Bool} {f : State → Operands → (d x y : Word) → Val}
    (h : ∀ w s, exec (mk w) s = issue opc w (arith w tied (f s w)) s) : ScalarWord mk opc tied f := by
  intro w s r s1 s2 x y hi hx hy hd
  have hd' : (tied && r.dfr w.a) = false := by
    cases tied with
    | false => rfl
    | true => exact hd rfl
  have heff := arith_done (f := f s w) hx hy hd'
  refine ⟨fun rot n ha => ?_, fun pk n ha hroom => ?_⟩
  · rw [ha, put_reg] at heff
    rw [h, issue_done hi heff, ha]
    rfl
  · rw [ha, put_queue hroom] at heff
    rw [h, issue_done hi heff, ha]

theorem scalarIntegerResults : ScalarIntegerResults := by
  refine ⟨?_, ?_, ?_, ?_, ?_, ?_, ?_, ?_, ?_, ?_, ?_⟩ <;> exact scalarWord_of_exec fun _ _ => rfl

theorem scalarBitResults : ScalarBitResults := by
  refine ⟨?_, ?_, ?_, ?_, ?_, ?_, ?_, ?_, ?_, ?_, ?_, ?_, ?_, ?_, ?_, ?_⟩ <;> exact scalarWord_of_exec fun _ _ => rfl

theorem scalarFloatResults : ScalarFloatResults := by
  refine ⟨?_, ?_, ?_, ?_, ?_, ?_, ?_, ?_, ?_, ?_, ?_⟩ <;> exact scalarWord_of_exec fun _ _ => rfl

/-- Settles O1: each of these words issues with the body of layout AR as its effect. -/
theorem scalarResults : Obligations.ScalarResults := ⟨scalarIntegerResults, scalarBitResults, scalarFloatResults⟩

end Sys2Proof.Machine
end

section
/-!
Integers of a type (R217 to R220): the range that contents stand for, results fitted under SAT, and shift counts.
-/

namespace Sys2Proof

variable {t : Ty}

theorem width_pos (t : Ty) : 0 < t.width := by cases t <;> decide

theorem width_le_of_int (h : t ∈ intTys) : t.width ≤ 64 := by
  unfold intTys at h
  fin_cases h <;> decide

/-- Twice the weight of the sign bit is 2^w. -/
theorem two_mul_signWeight (t : Ty) : 2 * 2 ^ (t.width - 1) = 2 ^ t.width := by
  rw [← pow_succ', Nat.sub_add_cancel (width_pos t)]

/-! ## Contents read by type -/

theorem value_of_sign {n : Nat} (h : t.isSigned = true ∧ 2 ^ (t.width - 1) ≤ n % 2 ^ t.width) :
    t.value n = ((n % 2 ^ t.width : Nat) : Int) - 2 ^ t.width := by
  simp [Ty.value, h]

theorem value_of_noSign {n : Nat} (h : ¬ (t.isSigned = true ∧ 2 ^ (t.width - 1) ≤ n % 2 ^ t.width)) :
    t.value n = ((n % 2 ^ t.width : Nat) : Int) := by
  unfold Ty.value
  exact if_neg (by simpa using h)

/-- Contents are the low w bits, mod 2^w (R217). -/
theorem value_modEq (t : Ty) (n : Nat) : t.value n ≡ n [ZMOD 2 ^ t.width] := by
  have hmod : ((n % 2 ^ t.width : Nat) : Int) ≡ n [ZMOD 2 ^ t.width] := by
    push_cast
    exact Int.mod_modEq _ _
  by_cases h : t.isSigned = true ∧ 2 ^ (t.width - 1) ≤ n % 2 ^ t.width
  · rw [value_of_sign h]
    exact (Int.sub_modulus_modEq_iff).2 hmod
  · rw [value_of_noSign h]
    exact hmod

/-- Contents stand for an integer in the range of their type. -/
theorem value_mem (t : Ty) (n : Nat) : t.minVal ≤ t.value n ∧ t.value n ≤ t.maxVal := by
  have hlt : ((n % 2 ^ t.width : Nat) : Int) < ((2 ^ t.width : Nat) : Int) := Int.ofNat_lt.2 (Nat.mod_lt _ (by positivity))
  have htwo : (2 : Int) * 2 ^ (t.width - 1) = 2 ^ t.width := by exact_mod_cast two_mul_signWeight t
  rw [Nat.cast_pow, Nat.cast_ofNat] at hlt
  by_cases h : t.isSigned = true ∧ 2 ^ (t.width - 1) ≤ n % 2 ^ t.width
  · have hle : ((2 ^ (t.width - 1) : Nat) : Int) ≤ ((n % 2 ^ t.width : Nat) : Int) := Int.ofNat_le.2 h.2
    rw [Nat.cast_pow, Nat.cast_ofNat] at hle
    rw [value_of_sign h, Ty.minVal, Ty.maxVal, if_pos h.1, if_pos h.1]
    omega
  · rw [value_of_noSign h, Ty.minVal, Ty.maxVal]
    split
    · next hs =>
      have hle : ((n % 2 ^ t.width : Nat) : Int) < ((2 ^ (t.width - 1) : Nat) : Int) :=
        Int.ofNat_lt.2 (not_le.1 fun hle => h ⟨hs, hle⟩)
      rw [Nat.cast_pow, Nat.cast_ofNat] at hle
      omega
    · omega

/-! ## Results fitted under SAT (R218, R219) -/

theorem fit_sat (t : Ty) (r : Int) :
    t.fit true r = (max t.minVal (min t.maxVal r), flagIf (max t.minVal (min t.maxVal r) != r) flagISAT) := rfl

/-- A wrapped result is the exact one mod 2^w. -/
theorem dvd_fit_wrap_sub (t : Ty) (r : Int) : (2 ^ t.width : Int) ∣ (t.fit false r).1 - r := by
  refine Int.ModEq.dvd (Int.ModEq.symm ?_)
  calc t.value (r % 2 ^ t.width).toNat
      ≡ ((r % 2 ^ t.width).toNat : Int) [ZMOD 2 ^ t.width] := value_modEq _ _
    _ = r % 2 ^ t.width := Int.toNat_of_nonneg (Int.emod_nonneg _ (by positivity))
    _ ≡ r [ZMOD 2 ^ t.width] := Int.mod_modEq _ _

theorem flagIf_eq_self {b : Bool} {f : Word} (hf : f ≠ 0) : flagIf b f = f ↔ b = true := by
  cases b with
  | false => simpa [flagIf] using hf.symm
  | true => simp [flagIf]

theorem flagIf_eq_zero {b : Bool} {f : Word} (hf : f ≠ 0) : flagIf b f = 0 ↔ b = false := by
  cases b with
  | false => simp [flagIf]
  | true => simpa [flagIf] using hf

/-- Settles O53: wrapping reads the low w bits by type, and the clamp's flag compares its result with the exact one. -/
theorem fittedResults : Obligations.FittedResults := by
  intro t _ r
  have hflag : flagISAT ≠ 0 := by decide
  refine ⟨rfl, (value_mem t _).1, (value_mem t _).2, dvd_fit_wrap_sub t r, rfl, ?_, ?_⟩
  · rw [fit_sat, flagIf_eq_self hflag, bne_iff_ne]
  · rw [fit_sat, flagIf_eq_zero hflag, bne_eq_false_iff_eq]

end Sys2Proof

namespace Sys2Proof.Machine

variable {t : Ty}

/-! ## Shift counts (R220, R402) -/

theorem pat_lt (t : Ty) (x : Word) : pat t x < 2 ^ t.width := Nat.mod_lt _ (by positivity)

theorem pat_testBit {j : Nat} (x : Word) (hj : j < t.width) : (pat t x).testBit j = x.getLsbD j := by
  rw [pat, Nat.testBit_mod_two_pow, decide_eq_true hj, Bool.true_and, BitVec.testBit_toNat]

/-- The low w bits of an extended pattern are the pattern's. -/
theorem ext_mod (hw : t.width ≤ 64) (n : Nat) : (ext t n).toNat % 2 ^ t.width = n % 2 ^ t.width := by
  have hdvd : (2 : Int) ^ t.width ∣ 2 ^ 64 := pow_dvd_pow 2 hw
  have hnat : ((ext t n).toNat : Int) = t.value n % 2 ^ 64 := by
    rw [ext, BitVec.toNat_ofInt]
    exact Int.toNat_of_nonneg (Int.emod_nonneg _ (by positivity))
  zify
  rw [hnat, Int.emod_emod_of_dvd _ hdvd]
  exact value_modEq t n

theorem ext_getLsbD {n i : Nat} (hw : t.width ≤ 64) (hi : i < t.width) : (ext t n).getLsbD i = n.testBit i := by
  have h := congrArg (·.testBit i) (ext_mod hw n)
  rw [← BitVec.testBit_toNat]
  simpa [Nat.testBit_mod_two_pow, hi] using h

/-- A rotated pattern is two parts of the pattern that do not overlap: bit j goes to j + k where that is below w, and else wraps round. -/
theorem rotated_testBit {p w k j : Nat} (hp : p < 2 ^ w) (hk : k < w) (hj : j < w) :
    (p * 2 ^ k + p / 2 ^ (w - k)).testBit ((j + k) % w) = p.testBit j := by
  have hlow : p / 2 ^ (w - k) < 2 ^ k := by
    rw [Nat.div_lt_iff_lt_mul (by positivity), ← pow_add]
    rwa [Nat.add_sub_cancel' hk.le]
  rw [mul_comm, Nat.testBit_two_pow_mul_add _ hlow]
  by_cases hjk : j + k < w
  · rw [Nat.mod_eq_of_lt hjk, if_neg (by omega), Nat.add_sub_cancel]
  · have hmod : (j + k) % w = j + k - w := by
      rw [Nat.mod_eq_sub_mod (by omega), Nat.mod_eq_of_lt (by omega)]
    rw [hmod, if_pos (by omega), Nat.testBit_div_two_pow]
    congr 1
    omega

/-- ROL takes bit j to bit j + n, mod w (R220). -/
theorem rolVal_getLsbD (hw : t.width ≤ 64) (x n : Word) {j : Nat} (hj : j < t.width) :
    (rolVal t x n).1.getLsbD ((j + n.toNat) % t.width) = x.getLsbD j := by
  have hk : n.toNat % t.width < t.width := Nat.mod_lt _ (width_pos t)
  rw [rolVal, ext_getLsbD hw (Nat.mod_lt _ (width_pos t)), ← pat_testBit x hj, ← rotated_testBit (pat_lt t x) hk hj, Nat.add_mod_mod]

theorem sarVal_of_le {n : Word} (x : Word) (h : t.width ≤ n.toNat) :
    (sarVal t x n).1 = if ival t x < 0 then BitVec.allOnes 64 else 0 := by
  rw [sarVal, if_pos h, show BitVec.ofInt 64 (-1) = BitVec.allOnes 64 by decide]

/-- Settles O52: a count of w or more is a case of its own in SHL, SHR and SAR, and ROL joins two parts of the pattern. -/
theorem shiftCounts : Obligations.ShiftCounts := fun _ ht x n =>
  ⟨fun h => ⟨if_pos h, if_pos h⟩, sarVal_of_le x, fun _ => rolVal_getLsbD (width_le_of_int ht) x n, rfl, rfl, rfl, rfl⟩

end Sys2Proof.Machine
end

section
/-!
Floating-point values as real numbers (R224): what the comparisons, sums and bounds of the model's exact arithmetic say of them.
-/

namespace Sys2Proof.Machine

/-! ## Powers of two -/

theorem two_zpow_pos (e : ℤ) : (0 : ℝ) < 2 ^ e := zpow_pos two_pos e

/-- A difference of exponents that is no negative number, as a natural power. -/
theorem pow_toNat_mul_zpow {a b : ℤ} (h : a ≤ b) : (2 : ℝ) ^ (b - a).toNat * 2 ^ a = 2 ^ b := by
  rw [← zpow_natCast, Int.toNat_of_nonneg (sub_nonneg.2 h), ← zpow_add₀ two_ne_zero, sub_add_cancel]

/-- The exponent of a real number's highest bit. -/
theorem intLog_eq {x : ℝ} {k : ℤ} (hle : 2 ^ k ≤ x) (hlt : x < 2 ^ (k + 1)) : Int.log 2 x = k := by
  have hx : 0 < x := (two_zpow_pos k).trans_le hle
  refine le_antisymm (Int.lt_add_one_iff.1 ?_) ?_
  · exact (Int.lt_zpow_iff_log_lt one_lt_two hx).1 (by exact_mod_cast hlt)
  · exact (Int.zpow_le_iff_le_log one_lt_two hx).1 (by exact_mod_cast hle)

theorem zpow_intLog_le {x : ℝ} (hx : 0 < x) : 2 ^ Int.log 2 x ≤ x := by
  exact_mod_cast Int.zpow_log_le_self one_lt_two hx

theorem bitLen_of_ne_zero {n : Nat} (h : n ≠ 0) : bitLen n = Nat.log2 n + 1 := if_neg h

theorem two_pow_bitLen_pred_le {n : Nat} (h : n ≠ 0) : 2 ^ (bitLen n - 1) ≤ n := by
  rw [bitLen_of_ne_zero h, Nat.add_sub_cancel]
  exact Nat.log2_self_le h

theorem lt_two_pow_bitLen (n : Nat) : n < 2 ^ bitLen n := by
  by_cases h : n = 0
  · subst h
    decide
  · rw [bitLen_of_ne_zero h]
    exact Nat.lt_log2_self

theorem bitLen_pos {n : Nat} (h : n ≠ 0) : 0 < bitLen n := by
  rw [bitLen_of_ne_zero h]
  exact Nat.succ_pos _

theorem bitLen_le {n k : Nat} (h : n < 2 ^ k) : bitLen n ≤ k := by
  by_cases hn : n = 0
  · simp [bitLen, hn]
  · rw [bitLen_of_ne_zero hn]
    exact (Nat.log2_lt hn).2 h

theorem lt_bitLen {n k : Nat} (h : 2 ^ k ≤ n) : k < bitLen n :=
  (Nat.pow_lt_pow_iff_right one_lt_two).1 (h.trans_lt (lt_two_pow_bitLen n))

/-- The highest bit of a scaled natural number. -/
theorem intLog_mul_zpow {n : Nat} (h : n ≠ 0) (e : ℤ) : Int.log 2 ((n : ℝ) * 2 ^ e) = e + bitLen n - 1 := by
  have hpos := bitLen_pos h
  have hle : ((2 ^ (bitLen n - 1) : Nat) : ℝ) ≤ n := Nat.cast_le.2 (two_pow_bitLen_pred_le h)
  have hlt : (n : ℝ) < ((2 ^ bitLen n : Nat) : ℝ) := Nat.cast_lt.2 (lt_two_pow_bitLen n)
  rw [Nat.cast_pow, Nat.cast_ofNat, ← zpow_natCast] at hle hlt
  refine intLog_eq ?_ ?_
  · calc (2 : ℝ) ^ (e + bitLen n - 1) = 2 ^ ((bitLen n - 1 : Nat) : ℤ) * 2 ^ e := by
          rw [← zpow_add₀ two_ne_zero]
          congr 1
          omega
      _ ≤ n * 2 ^ e := by gcongr
  · calc (n : ℝ) * 2 ^ e < 2 ^ (bitLen n : ℤ) * 2 ^ e := by gcongr
      _ = 2 ^ (e + bitLen n - 1 + 1) := by
          rw [← zpow_add₀ two_ne_zero]
          congr 1
          omega

/-- A quotient of natural numbers, rounded down. -/
theorem natCast_div_mem (a b : Nat) : ((a / b : Nat) : ℝ) ≤ (a : ℝ) / b ∧ (a : ℝ) / b < ((a / b : Nat) : ℝ) + 1 := by
  refine ⟨Nat.cast_div_le, ?_⟩
  have h := Nat.lt_floor_add_one ((a : ℝ) / b)
  rwa [Nat.floor_div_eq_div] at h

/-! ## Finite values -/

/-- The real number (−1)^n × m × 2^e. -/
noncomputable def realOf (n : Bool) (m : Nat) (e : ℤ) : ℝ := (signed n m : ℝ) * 2 ^ e

theorem isReal_fin {n : Bool} {m : Nat} {e : ℤ} {x : ℝ} : IsReal (.fin n m e) x ↔ x = realOf n m e := by
  constructor
  · rintro ⟨n', m', e', h, rfl⟩
    cases h
    rfl
  · rintro rfl
    exact ⟨n, m, e, rfl, rfl⟩

/-- A sign applied to a real number. -/
def signedReal (n : Bool) (x : ℝ) : ℝ := if n then -x else x

theorem abs_signedReal_sub (n : Bool) (x y : ℝ) : |signedReal n x - signedReal n y| = |x - y| := by
  cases n with
  | false => rfl
  | true => exact (congrArg _ (by simp only [signedReal, if_true]; ring)).trans (abs_neg (x - y))

theorem abs_signedReal (n : Bool) (x : ℝ) : |signedReal n x| = |x| := by
  simpa [signedReal] using abs_signedReal_sub n x 0

theorem signed_cast (n : Bool) (m : Nat) : (signed n m : ℝ) = signedReal n m := by
  cases n <;> simp [signed, signedReal]

theorem realOf_eq (n : Bool) (m : Nat) (e : ℤ) : realOf n m e = signedReal n (m * 2 ^ e) := by
  rw [realOf, signed_cast]
  cases n <;> simp [signedReal]

theorem abs_realOf (n : Bool) (m : Nat) (e : ℤ) : |realOf n m e| = m * 2 ^ e := by
  rw [realOf_eq, abs_signedReal, abs_of_nonneg (by positivity)]

theorem realOf_zero (n : Bool) (e : ℤ) : realOf n 0 e = 0 := by cases n <;> simp [realOf, signed]

theorem realOf_pos_iff {n : Bool} {m : Nat} {e : ℤ} : 0 < realOf n m e ↔ n = false ∧ m ≠ 0 := by
  have h2 := two_zpow_pos e
  rw [realOf_eq]
  cases n with
  | false => simp [signedReal, h2, Nat.pos_iff_ne_zero]
  | true => simpa [signedReal] using (by positivity : (0 : ℝ) ≤ m * 2 ^ e)

theorem realOf_neg_iff {n : Bool} {m : Nat} {e : ℤ} : realOf n m e < 0 ↔ n = true ∧ m ≠ 0 := by
  have h2 := two_zpow_pos e
  rw [realOf_eq]
  cases n with
  | false => simpa [signedReal] using (by positivity : (0 : ℝ) ≤ m * 2 ^ e)
  | true => simp [signedReal, h2, Nat.pos_iff_ne_zero]

theorem realOf_ne_zero_iff {n : Bool} {m : Nat} {e : ℤ} : realOf n m e ≠ 0 ↔ m ≠ 0 := by
  rw [← abs_ne_zero, abs_realOf, mul_ne_zero_iff_right (two_zpow_pos e).ne', Nat.cast_ne_zero]

/-- The same number in smaller units. -/
theorem realOf_scale (n : Bool) (m : Nat) {u e : ℤ} (h : u ≤ e) :
    ((signed n m * 2 ^ (e - u).toNat : ℤ) : ℝ) * 2 ^ u = realOf n m e := by
  rw [Int.cast_mul, Int.cast_pow, Int.cast_ofNat, mul_assoc, pow_toNat_mul_zpow h, realOf]

/-- The model's comparison of exact numbers is that of real numbers. -/
theorem lt_fin_iff {n n' : Bool} {m m' : Nat} {e e' : ℤ} :
    FVal.lt (.fin n m e) (.fin n' m' e') = true ↔ realOf n m e < realOf n' m' e' := by
  rw [← realOf_scale n m (min_le_left e e'), ← realOf_scale n' m' (min_le_right e e'),
    mul_lt_mul_iff_left₀ (two_zpow_pos _), Int.cast_lt]
  exact decide_eq_true_iff

theorem realOf_natCast_mul (n : Bool) (a k : Nat) (e : ℤ) : realOf n (a * 2 ^ k) e = realOf n a (e + k) := by
  rw [realOf_eq, realOf_eq, zpow_add₀ two_ne_zero, zpow_natCast, Nat.cast_mul, Nat.cast_pow, Nat.cast_ofNat]
  congr 1
  ring

/-- A number without a fraction. -/
theorem realOf_exp_zero (n : Bool) (a : Nat) : realOf n a 0 = (signed n a : ℤ) := by simp [realOf]

theorem fvalInt_of_nonneg {n : Bool} {m : Nat} {e : ℤ} (he : 0 ≤ e) : fvalInt? (.fin n m e) = some (signed n (m * 2 ^ e.toNat)) :=
  if_pos he

theorem fvalInt_of_neg {n : Bool} {m : Nat} {e : ℤ} (he : ¬ 0 ≤ e) :
    fvalInt? (.fin n m e) = if m % 2 ^ (-e).toNat = 0 then some (signed n (m / 2 ^ (-e).toNat)) else none :=
  if_neg he

/-- A finite value is an integer where `fvalInt?` finds one. -/
theorem fvalInt_eq_some_iff {n : Bool} {m : Nat} {e i : ℤ} : fvalInt? (.fin n m e) = some i ↔ realOf n m e = i := by
  by_cases he : 0 ≤ e
  · have hreal : realOf n m e = (signed n (m * 2 ^ e.toNat) : ℤ) := by
      rw [← realOf_exp_zero, realOf_natCast_mul, zero_add, Int.toNat_of_nonneg he]
    rw [fvalInt_of_nonneg he, hreal, Option.some_inj, Int.cast_inj]
  · obtain ⟨k, rfl⟩ : ∃ k : Nat, e = -k := ⟨(-e).toNat, by omega⟩
    rw [fvalInt_of_neg he, neg_neg, Int.toNat_natCast]
    by_cases hm : m % 2 ^ k = 0
    · have hreal : realOf n m (-k) = (signed n (m / 2 ^ k) : ℤ) := by
        rw [← realOf_exp_zero, ← neg_add_cancel (k : ℤ), ← realOf_natCast_mul, Nat.div_mul_cancel (Nat.dvd_of_mod_eq_zero hm)]
      rw [if_pos hm, hreal, Option.some_inj, Int.cast_inj]
    · rw [if_neg hm]
      refine ⟨nofun, fun h => absurd ?_ hm⟩
      have habs : (m : ℝ) * 2 ^ (-k : ℤ) = i.natAbs := by
        rw [← abs_realOf n m, h, Nat.cast_natAbs, Int.cast_abs]
      have hmul : (m : ℝ) = ((i.natAbs * 2 ^ k : Nat) : ℝ) := by
        rw [Nat.cast_mul, ← habs, Nat.cast_pow, Nat.cast_ofNat, mul_assoc, ← zpow_natCast, ← zpow_add₀ two_ne_zero, neg_add_cancel,
          zpow_zero, mul_one]
      rw [Nat.cast_inj.1 hmul]
      exact Nat.mul_mod_left _ _

/-! ## Exact dyadic numbers -/

/-- The real number i × 2^e. -/
noncomputable def dyReal (d : Dy) : ℝ := (d.1 : ℝ) * 2 ^ d.2

theorem dyReal_add (a b : Dy) : dyReal (a.add b) = dyReal a + dyReal b := by
  have ha := pow_toNat_mul_zpow (min_le_left a.2 b.2)
  have hb := pow_toNat_mul_zpow (min_le_right a.2 b.2)
  simp only [dyReal, Dy.add, Int.cast_add, Int.cast_mul, Int.cast_pow, Int.cast_ofNat, add_mul, mul_assoc, ha, hb]

theorem dyReal_neg (a : Dy) : dyReal (-a.1, a.2) = -dyReal a := by simp [dyReal]

theorem dyReal_neg_natAbs (a : Dy) : dyReal (-(a.1.natAbs : ℤ), a.2) = -|dyReal a| := by
  simp [dyReal, abs_mul, abs_of_pos (two_zpow_pos a.2)]

theorem dyReal_nonneg_iff {a : Dy} : 0 ≤ dyReal a ↔ 0 ≤ a.1 := by
  rw [dyReal, mul_nonneg_iff_of_pos_right (two_zpow_pos _), Int.cast_nonneg_iff]

theorem dyReal_ne_zero_iff {a : Dy} : dyReal a ≠ 0 ↔ a.1 ≠ 0 := by
  rw [dyReal, mul_ne_zero_iff_right (two_zpow_pos _).ne', Int.cast_ne_zero]

theorem dyReal_one (e : ℤ) : dyReal (1, e) = 2 ^ e := by simp [dyReal]

/-- A number that is found near another is a real number within the bound of it. -/
theorem near_of_nearBy {y bound : Dy} {c : Lane} (h : nearBy y bound c = true) :
    ∃ r, IsReal (Ty.f32.fmt.decode false c.toNat) r ∧ |r - dyReal y| ≤ dyReal bound := by
  unfold nearBy at h
  split at h
  · next n m e hd =>
    refine ⟨realOf n m e, hd ▸ isReal_fin.2 rfl, ?_⟩
    have hle := dyReal_nonneg_iff.2 (of_decide_eq_true h)
    rw [dyReal_add, dyReal_neg_natAbs, dyReal_add, dyReal_neg] at hle
    have hr : dyReal (signed n m, e) = realOf n m e := rfl
    rw [hr] at hle
    simpa [sub_eq_add_neg] using hle
  · cases h

/-- The model's exponent of an ulp is that of the real number. -/
theorem ulpExp_eq {y : Dy} (hy : y.1 ≠ 0) : ulpExp y = max (Int.log 2 |dyReal y|) (-126) - 23 := by
  have habs : |dyReal y| = (y.1.natAbs : ℝ) * 2 ^ y.2 := by
    have h := dyReal_neg_natAbs y
    rw [← neg_inj, ← h]
    simp [dyReal]
  rw [habs, intLog_mul_zpow (Int.natAbs_ne_zero.2 hy), ulpExp]

end Sys2Proof.Machine
end

section
/-!
Binary32 (R224, R225): what is read back from the bits of a number, and how near one rounding comes to an exact result.
-/

namespace Sys2Proof.Machine

variable {n z : Bool} {m : Nat} {e u : ℤ} {r : Rnd} {x y bound : ℝ} {res : FRes}

/-! ## The bits of a number -/

/-- The fields of a number's bits. -/
theorem pack_fields {x frac : Nat} (hx : x < 256) (hf : frac < 2 ^ 23) :
    Ty.f32.fmt.pack n x frac % 2 ^ 23 = frac ∧ Ty.f32.fmt.pack n x frac / 2 ^ 23 % 2 ^ 8 = x ∧
      (Ty.f32.fmt.pack n x frac / 2 ^ 31 % 2 == 1) = n := by
  simp only [FFmt.pack, Ty.fmt]
  cases n with
  | false =>
    refine ⟨?_, ?_, beq_eq_false_iff_ne.2 ?_⟩ <;> simp <;> omega
  | true =>
    refine ⟨?_, ?_, beq_iff_eq.2 ?_⟩ <;> simp <;> omega

theorem decode_eq (z : Bool) (x : Nat) : Ty.f32.fmt.decode z x =
    if x / 2 ^ 23 % 2 ^ 8 = 255 then
      (if x % 2 ^ 23 = 0 then .inf (x / 2 ^ 31 % 2 == 1) else .nan (x % 2 ^ 23 < 2 ^ 22))
    else if x / 2 ^ 23 % 2 ^ 8 = 0 then
      (if z = true then .fin (x / 2 ^ 31 % 2 == 1) 0 0 else .fin (x / 2 ^ 31 % 2 == 1) (x % 2 ^ 23) (-149))
    else .fin (x / 2 ^ 31 % 2 == 1) (2 ^ 23 + x % 2 ^ 23) (((x / 2 ^ 23 % 2 ^ 8 : Nat) : ℤ) - 127 - 23) := by
  simp only [FFmt.decode, beq_iff_eq]
  rfl

theorem decode_pack_normal {x frac : Nat} (hx : x ≠ 0) (hx' : x < 255) (hf : frac < 2 ^ 23) :
    Ty.f32.fmt.decode false (Ty.f32.fmt.pack n x frac) = .fin n (2 ^ 23 + frac) ((x : ℤ) - 127 - 23) := by
  obtain ⟨h1, h2, h3⟩ := pack_fields (n := n) (by omega : x < 256) hf
  rw [decode_eq, h1, h2, h3, if_neg (by omega), if_neg hx]

theorem decode_pack_denormal {frac : Nat} (hf : frac < 2 ^ 23) :
    Ty.f32.fmt.decode false (Ty.f32.fmt.pack n 0 frac) = .fin n frac (-149) := by
  obtain ⟨h1, h2, h3⟩ := pack_fields (n := n) (by omega : 0 < 256) hf
  rw [decode_eq, h1, h2, h3, if_neg (by omega), if_pos rfl, if_neg (by simp)]

/-- A finite number that is no zero has 24 bits at most, and its lowest bit weighs 2^−149 or more. -/
theorem decode_bounds {x : Nat} (h : Ty.f32.fmt.decode z x = .fin n m e) (hm : m ≠ 0) : m < 2 ^ 24 ∧ -149 ≤ e ∧ e ≤ 104 := by
  have hf : x % 2 ^ 23 < 2 ^ 23 := Nat.mod_lt _ (by positivity)
  have hx : x / 2 ^ 23 % 2 ^ 8 < 2 ^ 8 := Nat.mod_lt _ (by positivity)
  rw [decode_eq] at h
  split at h
  · split at h <;> cases h
  · split at h
    · split at h
      · cases h
        exact absurd rfl hm
      · cases h
        omega
    · cases h
      omega

/-! ## Rounding to an integer -/

/-- A number is rounded down, or up where it has a remainder. -/
theorem roundShift_cases (r : Rnd) (n : Bool) (m k : Nat) :
    (roundShift r n m k).1 = m / 2 ^ k ∨ (roundShift r n m k).1 = m / 2 ^ k + 1 ∧ m % 2 ^ k ≠ 0 := by
  unfold roundShift
  dsimp only
  by_cases hr : m % 2 ^ k = 0
  · exact .inl (if_neg (by simp [hr]))
  · exact (ite_eq_or_eq _ _ _).symm.imp id (⟨·, hr⟩)

/-- Rounding to nearest goes down from the half or less, and up from the half or more. -/
theorem roundShift_rne_cases (n : Bool) (m k : Nat) :
    (roundShift .rne n m k).1 = m / 2 ^ k ∧ 2 * (m % 2 ^ k) ≤ 2 ^ k ∨
      (roundShift .rne n m k).1 = m / 2 ^ k + 1 ∧ 2 ^ k ≤ 2 * (m % 2 ^ k) := by
  unfold roundShift
  dsimp only
  split
  · next h =>
    simp only [Bool.and_eq_true, Bool.or_eq_true, decide_eq_true_eq, beq_iff_eq] at h
    omega
  · next h =>
    simp only [Bool.and_eq_true, Bool.or_eq_true, decide_eq_true_eq, beq_iff_eq, bne_iff_ne, ne_eq, not_and, not_or] at h
    have hpos : 0 < 2 ^ k := by positivity
    refine .inl ⟨rfl, ?_⟩
    by_cases hr : m % 2 ^ k = 0
    · omega
    · have := (h hr).1
      omega

/-- A whole number stands for a real number: it is the number, or it is odd and the number lies between its neighbours, which
a sticky bit says of a number cut off below its lowest bit (R225). -/
def StandsFor (m : Nat) (y : ℝ) : Prop := (m : ℝ) = y ∨ m % 2 = 1 ∧ (m : ℝ) - 1 < y ∧ y < m + 1

/-- Where bits are dropped, what stands for a number lies with it between the same two multiples. -/
theorem StandsFor.cell {y : ℝ} {k : Nat} (h : StandsFor m y) (hk : (m : ℝ) = y ∨ k ≠ 0) :
    y = ((m / 2 ^ k : Nat) : ℝ) * 2 ^ k ∧ m % 2 ^ k = 0 ∨
      ((m / 2 ^ k : Nat) : ℝ) * 2 ^ k < y ∧ y < (((m / 2 ^ k : Nat) : ℝ) + 1) * 2 ^ k := by
  have hdiv := Nat.div_add_mod' m (2 ^ k)
  have hmod : m % 2 ^ k < 2 ^ k := Nat.mod_lt _ (by positivity)
  have hlow : ((m / 2 ^ k : Nat) : ℝ) * 2 ^ k + ((m % 2 ^ k : Nat) : ℝ) = m := by exact_mod_cast hdiv
  have hhigh : (m : ℝ) + 1 ≤ (((m / 2 ^ k : Nat) : ℝ) + 1) * 2 ^ k := by
    have : m + 1 ≤ (m / 2 ^ k + 1) * 2 ^ k := by rw [add_mul]; omega
    exact_mod_cast this
  by_cases hr : m % 2 ^ k = 0
  · rw [hr, Nat.cast_zero, add_zero] at hlow
    rcases h with h | ⟨hodd, -, -⟩
    · exact .inl ⟨h ▸ hlow.symm, hr⟩
    · rcases hk with hy | hk
      · exact .inl ⟨hy ▸ hlow.symm, hr⟩
      · have h2 : 2 ∣ m := (dvd_pow_self 2 hk).trans (Nat.dvd_of_mod_eq_zero hr)
        omega
  · have hr1 : (1 : ℝ) ≤ ((m % 2 ^ k : Nat) : ℝ) := by exact_mod_cast Nat.pos_of_ne_zero hr
    refine .inr ?_
    rcases h with h | ⟨-, hl, hu⟩
    · constructor <;> linarith
    · constructor <;> linarith

theorem abs_roundShift_sub_lt {y : ℝ} {k : Nat} (h : StandsFor m y) (hk : (m : ℝ) = y ∨ k ≠ 0) (r : Rnd) (n : Bool) :
    |((roundShift r n m k).1 : ℝ) * 2 ^ k - y| < 2 ^ k := by
  have hpos : (0 : ℝ) < 2 ^ k := by positivity
  rcases h.cell hk with ⟨hy, hr⟩ | ⟨hl, hu⟩
  · rcases roundShift_cases r n m k with hq | ⟨-, hne⟩
    · rw [hq, ← hy, sub_self, abs_zero]
      exact hpos
    · exact absurd hr hne
  · rw [add_mul, one_mul] at hu
    rw [abs_lt]
    rcases roundShift_cases r n m k with hq | ⟨hq, -⟩
    · rw [hq]
      constructor <;> linarith
    · rw [hq, Nat.cast_add, Nat.cast_one, add_mul, one_mul]
      constructor <;> linarith

/-- The nearest integer to a scaled number lies within half a unit. -/
theorem abs_roundShift_rne_sub_le (n : Bool) (m k : Nat) :
    |((roundShift .rne n m k).1 : ℝ) * 2 ^ k - m| ≤ 2 ^ k / 2 := by
  have hlow : ((m / 2 ^ k : Nat) : ℝ) * 2 ^ k + ((m % 2 ^ k : Nat) : ℝ) = m := by exact_mod_cast Nat.div_add_mod' m (2 ^ k)
  have hr0 : (0 : ℝ) ≤ ((m % 2 ^ k : Nat) : ℝ) := Nat.cast_nonneg _
  have hr1 : ((m % 2 ^ k : Nat) : ℝ) < 2 ^ k := by exact_mod_cast Nat.mod_lt m (by positivity : 0 < 2 ^ k)
  rw [abs_le]
  rcases roundShift_rne_cases n m k with ⟨hq, hr⟩ | ⟨hq, hr⟩
  · have hr : 2 * ((m % 2 ^ k : Nat) : ℝ) ≤ 2 ^ k := by exact_mod_cast hr
    rw [hq]
    constructor <;> linarith
  · have hr : (2 : ℝ) ^ k ≤ 2 * ((m % 2 ^ k : Nat) : ℝ) := by exact_mod_cast hr
    rw [hq, Nat.cast_add, Nat.cast_one, add_mul, one_mul]
    constructor <;> linarith

/-! ## Rounding to a unit -/

theorem roundTo_of_le (r : Rnd) (n : Bool) (m : Nat) (h : u ≤ e) : roundTo r n m e u = (m * 2 ^ (e - u).toNat, false) := if_pos h

theorem roundTo_of_lt (r : Rnd) (n : Bool) (m : Nat) (h : e < u) : roundTo r n m e u = roundShift r n m (u - e).toNat :=
  if_neg (not_le.2 h)

/-- What is no finer than the unit is kept. -/
theorem roundTo_exact (r : Rnd) (n : Bool) (m : Nat) (h : u ≤ e) : ((roundTo r n m e u).1 : ℝ) * 2 ^ u = m * 2 ^ e := by
  rw [roundTo_of_le r n m h, Nat.cast_mul, Nat.cast_pow, Nat.cast_ofNat, mul_assoc, pow_toNat_mul_zpow h]

theorem abs_roundTo_sub_lt (h : StandsFor m y) (hk : (m : ℝ) = y ∨ e < u) (r : Rnd) (n : Bool) :
    |((roundTo r n m e u).1 : ℝ) * 2 ^ u - y * 2 ^ e| < 2 ^ u := by
  by_cases he : u ≤ e
  · rw [roundTo_exact r n m he, hk.resolve_right (not_lt.2 he), sub_self, abs_zero]
    exact two_zpow_pos u
  · have hlt := not_le.1 he
    have hs := abs_roundShift_sub_lt (k := (u - e).toNat) h (hk.imp_right fun _ => by omega) r n
    rw [roundTo_of_lt r n m hlt, ← pow_toNat_mul_zpow hlt.le, ← mul_assoc, ← sub_mul, abs_mul, abs_of_pos (two_zpow_pos e)]
    exact mul_lt_mul_of_pos_right hs (two_zpow_pos e)

theorem abs_roundTo_rne_sub_le (n : Bool) (m : Nat) (e u : ℤ) :
    |((roundTo .rne n m e u).1 : ℝ) * 2 ^ u - m * 2 ^ e| ≤ 2 ^ u / 2 := by
  by_cases he : u ≤ e
  · rw [roundTo_exact .rne n m he, sub_self, abs_zero]
    exact (half_pos (two_zpow_pos u)).le
  · have hlt := not_le.1 he
    rw [roundTo_of_lt .rne n m hlt, ← pow_toNat_mul_zpow hlt.le, ← mul_assoc, ← sub_mul, abs_mul, abs_of_pos (two_zpow_pos e),
      ← div_mul_eq_mul_div]
    exact mul_le_mul_of_nonneg_right (abs_roundShift_rne_sub_le n m _) (two_zpow_pos e).le

/-! ## One rounding -/

/-- The exponent of an ulp at m × 2^e. -/
theorem ulpExp_natCast (m : Nat) (e : ℤ) : ulpExp ((m : ℤ), e) = max (e + bitLen m - 1) (-126) - 23 := rfl

/-- The magnitude of a rounded number in ulps of the exact one. -/
def roundedMag (r : Rnd) (n : Bool) (m : Nat) (e : ℤ) : Nat := (roundTo r n m e (ulpExp (m, e))).1

theorem abs_roundedMag_sub_lt (r : Rnd) (n : Bool) (m : Nat) (e : ℤ) :
    |(roundedMag r n m e : ℝ) * 2 ^ ulpExp (m, e) - m * 2 ^ e| < 2 ^ ulpExp (m, e) :=
  abs_roundTo_sub_lt (.inl rfl) (.inl rfl) r n

/-- A rounded number has 24 bits, or is the next power of two. -/
theorem roundedMag_le (r : Rnd) (n : Bool) (m : Nat) (e : ℤ) : roundedMag r n m e ≤ 2 ^ 24 := by
  have habs := (abs_lt.1 (abs_roundedMag_sub_lt r n m e)).2
  have hm : (m : ℝ) * 2 ^ e < 2 ^ (24 : Nat) * 2 ^ ulpExp (m, e) := by
    have hlt : (m : ℝ) < 2 ^ bitLen m := by exact_mod_cast lt_two_pow_bitLen m
    calc (m : ℝ) * 2 ^ e < 2 ^ (bitLen m : ℤ) * 2 ^ e := by gcongr; rwa [zpow_natCast]
      _ ≤ 2 ^ ((24 : Nat) : ℤ) * 2 ^ ulpExp (m, e) := by
          rw [← zpow_add₀ two_ne_zero, ← zpow_add₀ two_ne_zero, ulpExp_natCast]
          exact zpow_le_zpow_right₀ one_le_two (by omega)
      _ = _ := by rw [zpow_natCast]
  have hlt : (roundedMag r n m e : ℝ) * 2 ^ ulpExp (m, e) < (2 ^ 24 + 1) * 2 ^ ulpExp (m, e) := by linarith
  have hlt := lt_of_mul_lt_mul_right hlt (two_zpow_pos _).le
  exact Nat.lt_succ_iff.1 (by exact_mod_cast hlt)

/-- A rounded number of fewer than 24 bits stands in units of 2^−149. -/
theorem ulpExp_of_roundedMag_lt (hm : m ≠ 0) (h : roundedMag r n m e < 2 ^ 23) : ulpExp (m, e) = -149 := by
  by_contra hne
  have htop : ulpExp (m, e) + 23 = e + bitLen m - 1 := by
    rw [ulpExp_natCast] at hne ⊢
    omega
  have habs := (abs_lt.1 (abs_roundedMag_sub_lt r n m e)).1
  have hle : (2 : ℝ) ^ (23 : Nat) * 2 ^ ulpExp (m, e) ≤ m * 2 ^ e := by
    have hpos : (0 : ℝ) < m * 2 ^ e := mul_pos (by exact_mod_cast Nat.pos_of_ne_zero hm) (two_zpow_pos e)
    have hlog := zpow_intLog_le hpos
    rwa [intLog_mul_zpow hm, ← htop, add_comm, zpow_add₀ two_ne_zero, ← Nat.cast_ofNat (n := 23), zpow_natCast] at hlog
  have hlt : ((2 : ℝ) ^ 23 - 1) * 2 ^ ulpExp (m, e) < roundedMag r n m e * 2 ^ ulpExp (m, e) := by linarith
  have hlt := lt_of_mul_lt_mul_right hlt (two_zpow_pos _).le
  have hle : (roundedMag r n m e : ℝ) + 1 ≤ 2 ^ 23 := by exact_mod_cast h
  linarith

/-- The flags of a rounding that does not overflow, in a form that only its remainder decides. -/
theorem flags_of_fits (nx tiny : Bool) :
    (flagIf nx flagNX ||| flagIf (tiny && nx) flagUF) &&& flagOF = 0 ∧
      (nx = false → flagIf nx flagNX ||| flagIf (tiny && nx) flagUF = 0) := by
  cases nx <;> cases tiny <;> decide

theorem round_zero (r : Rnd) (z n : Bool) (e : ℤ) : Ty.f32.fmt.round r z n 0 e = (Ty.f32.fmt.zeroBits n, 0) := rfl

/-- Whether m × 2^e is tiny after rounding (R225). -/
def tinyAt (r : Rnd) (n : Bool) (m : Nat) (e : ℤ) : Bool :=
  let top : ℤ := e + bitLen m - 1
  top < -126 && (top + 1 < -126 || (roundTo r n m e (top - 23)).1 < 2 ^ 24)

/-- The flags of a rounding that neither overflows nor is flushed. -/
def roundFlags (r : Rnd) (n : Bool) (m : Nat) (e : ℤ) : Word :=
  let nx := (roundTo r n m e (ulpExp (m, e))).2
  flagIf nx flagNX ||| flagIf (tinyAt r n m e && nx) flagUF

/-- The magnitude and unit after a carry to the next power of two. -/
def carried (mag : Nat) (u : ℤ) : Nat × ℤ := (if mag = 2 ^ 24 then 2 ^ 23 else mag, if mag = 2 ^ 24 then u + 1 else u)

/-- The result of one rounding whose magnitude and unit are known. -/
def rounded (r : Rnd) (z n : Bool) (fl : Word) (p : Nat × ℤ) : FRes :=
  if p.1 ≥ 2 ^ 23 && p.2 + 23 > 127 then
    (if overflowToInf r n then Ty.f32.fmt.infBits n else Ty.f32.fmt.maxBits n, flagOF ||| flagNX)
  else if p.1 < 2 ^ 23 then
    if z && p.1 != 0 then (Ty.f32.fmt.zeroBits n, flagUF ||| flagNX) else (Ty.f32.fmt.pack n 0 p.1, fl)
  else (Ty.f32.fmt.pack n (p.2 + 23 + 127).toNat (p.1 - 2 ^ 23), fl)

theorem round_eq (r : Rnd) (z n : Bool) (hm : m ≠ 0) (e : ℤ) : Ty.f32.fmt.round r z n m e =
    rounded r z n (roundFlags r n m e) (carried (roundedMag r n m e) (ulpExp (m, e))) := if_neg hm

/-- What rounding has carried is the same number, of 24 bits or in units of 2^−149. -/
theorem realOf_carried (n : Bool) (mag : Nat) (u : ℤ) : realOf n (carried mag u).1 (carried mag u).2 = realOf n mag u := by
  unfold carried
  by_cases h : mag = 2 ^ 24
  · have hmul := realOf_natCast_mul n (2 ^ 23) 1 u
    rw [if_pos h, if_pos h, h]
    exact hmul.symm
  · rw [if_neg h, if_neg h]

theorem carried_lt {mag : Nat} {u : ℤ} (h : mag ≤ 2 ^ 24) : (carried mag u).1 < 2 ^ 24 := by
  unfold carried
  dsimp only
  split <;> omega

theorem carried_of_lt {mag : Nat} {u : ℤ} (h : (carried mag u).1 < 2 ^ 23) : mag < 2 ^ 23 ∧ carried mag u = (mag, u) := by
  unfold carried at *
  dsimp only at *
  split at h
  · omega
  · next hne => exact ⟨h, by rw [if_neg hne, if_neg hne]⟩

theorem le_carried (mag : Nat) (u : ℤ) : u ≤ (carried mag u).2 := by
  unfold carried
  dsimp only
  split <;> omega

/-- The three ends of one rounding. -/
theorem rounded_overflow {fl : Word} {p : Nat × ℤ} (hp : 2 ^ 23 ≤ p.1) (hu : 104 < p.2) : rounded r z n fl p =
    (if overflowToInf r n then Ty.f32.fmt.infBits n else Ty.f32.fmt.maxBits n, flagOF ||| flagNX) :=
  if_pos (by simp; omega)

theorem rounded_denormal {fl : Word} {p : Nat × ℤ} (hp : p.1 < 2 ^ 23) : rounded r z n fl p =
    if z && p.1 != 0 then (Ty.f32.fmt.zeroBits n, flagUF ||| flagNX) else (Ty.f32.fmt.pack n 0 p.1, fl) := by
  rw [rounded, if_neg (by simp; omega), if_pos hp]

theorem rounded_normal {fl : Word} {p : Nat × ℤ} (hp : 2 ^ 23 ≤ p.1) (hu : p.2 ≤ 104) : rounded r z n fl p =
    (Ty.f32.fmt.pack n (p.2 + 23 + 127).toNat (p.1 - 2 ^ 23), fl) := by
  rw [rounded, if_neg (by simp; omega), if_neg (by omega)]

/-- A result that is read back as the real number `x`, or as a zero that FTZ has put in its place. -/
def Delivers (z : Bool) (res : FRes) (x : ℝ) : Prop :=
  ∃ y, IsReal (Ty.f32.fmt.decode false res.1) y ∧ (z = false ∨ y ≠ 0 → y = x)

theorem rounded_delivers {fl : Word} {p : Nat × ℤ} (hlt : p.1 < 2 ^ 24) (hu : p.1 < 2 ^ 23 → p.2 = -149) (hle : -149 ≤ p.2)
    (hfit : p.2 ≤ 104) : Delivers z (rounded r z n fl p) (realOf n p.1 p.2) := by
  by_cases hp : p.1 < 2 ^ 23
  · rw [rounded_denormal hp]
    split
    · next hz =>
      refine ⟨0, ?_, fun h => ?_⟩
      · have hdec : Ty.f32.fmt.decode false (Ty.f32.fmt.zeroBits n) = .fin n 0 (-149) := decode_pack_denormal (by positivity)
        rw [hdec, isReal_fin, realOf_zero]
      · simp_all
    · refine ⟨realOf n p.1 p.2, ?_, fun _ => rfl⟩
      rw [decode_pack_denormal hp, hu hp, isReal_fin]
  · rw [rounded_normal (not_lt.1 hp) hfit]
    refine ⟨realOf n p.1 p.2, ?_, fun _ => rfl⟩
    rw [decode_pack_normal (by omega) (by omega) (by omega), isReal_fin, Nat.add_sub_cancel' (not_lt.1 hp)]
    congr 1
    omega

theorem ulpExp_ge (m : Nat) (e : ℤ) : -149 ≤ ulpExp (m, e) := by
  rw [ulpExp_natCast]
  omega

theorem carried_small (hm : m ≠ 0) (h : (carried (roundedMag r n m e) (ulpExp (m, e))).1 < 2 ^ 23) :
    (carried (roundedMag r n m e) (ulpExp (m, e))).2 = -149 := by
  obtain ⟨hlt, heq⟩ := carried_of_lt h
  rw [heq]
  exact ulpExp_of_roundedMag_lt hm hlt

/-- A rounded number below 2^128 is in range. -/
theorem carried_unit_le (hm : m ≠ 0) (hfit : (roundedMag r n m e : ℝ) * 2 ^ ulpExp (m, e) < 2 ^ (128 : ℤ)) :
    (carried (roundedMag r n m e) (ulpExp (m, e))).2 ≤ 104 := by
  rw [← abs_realOf n, ← realOf_carried, abs_realOf] at hfit
  by_contra hu
  have hmag : 2 ^ 23 ≤ (carried (roundedMag r n m e) (ulpExp (m, e))).1 :=
    not_lt.1 fun h => by have := carried_small hm h; omega
  refine hfit.not_ge ?_
  calc (2 : ℝ) ^ (128 : ℤ) = ((2 ^ 23 : Nat) : ℝ) * 2 ^ (105 : ℤ) := by norm_num
    _ ≤ _ := mul_le_mul (Nat.cast_le.2 hmag) (zpow_le_zpow_right₀ one_le_two (by omega)) (two_zpow_pos _).le (Nat.cast_nonneg _)

theorem roundFlags_and_OF (r : Rnd) (n : Bool) (m : Nat) (e : ℤ) : roundFlags r n m e &&& flagOF = 0 := (flags_of_fits _ _).1

theorem rounded_flags_and_OF {fl : Word} {p : Nat × ℤ} (hfl : fl &&& flagOF = 0) (hu : p.2 ≤ 104) :
    (rounded r z n fl p).2 &&& flagOF = 0 := by
  by_cases hp : p.1 < 2 ^ 23
  · rw [rounded_denormal hp]
    split
    · exact (by decide : (flagUF ||| flagNX) &&& flagOF = 0)
    · exact hfl
  · rw [rounded_normal (not_lt.1 hp) hu]
    exact hfl

/-- A rounding in range delivers the rounded number, and no overflow. -/
theorem round_delivers (hm : m ≠ 0) (hfit : (roundedMag r n m e : ℝ) * 2 ^ ulpExp (m, e) < 2 ^ (128 : ℤ)) :
    Delivers z (Ty.f32.fmt.round r z n m e) (realOf n (roundedMag r n m e) (ulpExp (m, e))) ∧
      (Ty.f32.fmt.round r z n m e).2 &&& flagOF = 0 := by
  have hu := carried_unit_le hm hfit
  rw [round_eq r z n hm, ← realOf_carried]
  exact ⟨rounded_delivers (carried_lt (roundedMag_le r n m e)) (carried_small hm) ((ulpExp_ge m e).trans (le_carried _ _)) hu,
    rounded_flags_and_OF (roundFlags_and_OF r n m e) hu⟩

/-- A rounding whose exact number is no finer than the ulp delivers that number, and no flag where it is no denormal. -/
theorem round_exact (hm : m ≠ 0) (he : ulpExp (m, e) ≤ e) (hfit : (m : ℝ) * 2 ^ e < 2 ^ (128 : ℤ)) :
    Delivers z (Ty.f32.fmt.round r z n m e) (realOf n m e) ∧
      (ulpExp (m, e) ≠ -149 ∨ 2 ^ 23 ≤ roundedMag r n m e ∨ z = false → (Ty.f32.fmt.round r z n m e).2 = 0) := by
  have hmag : (roundedMag r n m e : ℝ) * 2 ^ ulpExp (m, e) = m * 2 ^ e := roundTo_exact r n m he
  have hreal : realOf n (roundedMag r n m e) (ulpExp (m, e)) = realOf n m e := by rw [realOf_eq, realOf_eq, hmag]
  have hfit' : (roundedMag r n m e : ℝ) * 2 ^ ulpExp (m, e) < 2 ^ (128 : ℤ) := hmag ▸ hfit
  refine ⟨hreal ▸ (round_delivers hm hfit').1, fun hz => ?_⟩
  have hfl : roundFlags r n m e = 0 := (flags_of_fits _ _).2 (by rw [roundTo_of_le r n m he])
  rw [round_eq r z n hm, hfl]
  by_cases hp : (carried (roundedMag r n m e) (ulpExp (m, e))).1 < 2 ^ 23
  · have hlt := (carried_of_lt hp).1
    have hz : z = false := by
      rcases hz with h | h | h
      · exact absurd (ulpExp_of_roundedMag_lt hm hlt) h
      · omega
      · exact h
    rw [rounded_denormal hp, hz]
    rfl
  · rw [rounded_normal (not_lt.1 hp) (carried_unit_le hm hfit')]

theorem round_overflow (hm : m ≠ 0) (htop : 128 ≤ e + bitLen m - 1) : Ty.f32.fmt.round r z n m e =
    (if overflowToInf r n then Ty.f32.fmt.infBits n else Ty.f32.fmt.maxBits n, flagOF ||| flagNX) := by
  have hu : 105 ≤ (carried (roundedMag r n m e) (ulpExp (m, e))).2 := by
    refine le_trans ?_ (le_carried _ _)
    rw [ulpExp_natCast]
    omega
  rw [round_eq r z n hm, rounded_overflow (not_lt.1 fun h => ?_) (by omega)]
  have := carried_small hm h
  omega

/-! ## Results near an exact number -/

theorem Delivers.near (h : Delivers z res x) (hb : |x - y| ≤ bound) : ResultNear z res y bound false := by
  obtain ⟨r, hr, hx⟩ := h
  exact ⟨r, hr, fun hz => by rw [hx hz]; exact hb⟩

theorem Delivers.near_strict (h : Delivers z res x) (hb : |x - y| < bound) : ResultNear z res y bound true := by
  obtain ⟨r, hr, hx⟩ := h
  exact ⟨r, hr, fun hz => by rw [hx hz]; exact hb⟩

/-- The result of an operation that has not overflowed sets NX. -/
theorem approx_of_fits (n : Bool) (h : res.2 &&& flagOF = 0) : approx n res = (res.1, res.2 ||| flagNX) := if_neg (by simp [h])

theorem approx_of_overflow (n : Bool) (h : res.2 = flagOF ||| flagNX) : approx n res = (Ty.f32.fmt.infBits n, flagOF ||| flagNX) :=
  if_pos (by rw [h]; decide)

theorem or_NX_and_NX (fl : Word) : (fl ||| flagNX) &&& flagNX = flagNX := by
  rw [BitVec.and_comm, BitVec.or_comm]
  exact BitVec.eq_of_getLsbD_eq fun i _ => by simp only [BitVec.getLsbD_and, BitVec.getLsbD_or]; grind

theorem approx_NX (n : Bool) (res : FRes) : (approx n res).2 &&& flagNX = flagNX := by
  unfold approx
  split
  · exact or_NX_and_NX flagOF
  · exact or_NX_and_NX _

/-- The highest bit of a number is that of what stands for it. -/
theorem StandsFor.intLog (h : StandsFor m y) (hm : 2 ≤ m) (e : ℤ) : Int.log 2 (y * 2 ^ e) = e + bitLen m - 1 := by
  have hm0 : m ≠ 0 := by omega
  rcases h with h | ⟨hodd, hl, hu⟩
  · rw [← h, intLog_mul_zpow hm0]
  · obtain ⟨k, hk⟩ : ∃ k, bitLen m = k + 2 := ⟨bitLen m - 2, by have := lt_bitLen (k := 1) hm; omega⟩
    have hle := two_pow_bitLen_pred_le hm0
    have hlt := lt_two_pow_bitLen m
    rw [hk, show k + 2 - 1 = k + 1 from rfl] at hle
    rw [hk] at hlt
    have hle' : 2 ^ (k + 1) + 1 ≤ m := by
      rw [pow_succ] at hle ⊢
      omega
    have hle' : (2 : ℝ) ^ (k + 1) + 1 ≤ m := by exact_mod_cast hle'
    have hlt' : (m : ℝ) + 1 ≤ 2 ^ (k + 2) := by exact_mod_cast hlt
    refine intLog_eq ?_ ?_
    · calc (2 : ℝ) ^ (e + bitLen m - 1) = 2 ^ (k + 1) * 2 ^ e := by
            rw [hk, ← zpow_natCast, ← zpow_add₀ two_ne_zero]
            congr 1
            omega
        _ ≤ y * 2 ^ e := mul_le_mul_of_nonneg_right (by linarith) (two_zpow_pos e).le
    · calc y * 2 ^ e < 2 ^ (k + 2) * 2 ^ e := mul_lt_mul_of_pos_right (by linarith) (two_zpow_pos e)
        _ = 2 ^ (e + bitLen m - 1 + 1) := by
            rw [hk, ← zpow_natCast, ← zpow_add₀ two_ne_zero]
            congr 1
            omega

/-- One rounding of what stands for a number errs by less than an ulp, under every mode. -/
theorem approx_round_near (h : StandsFor m y) (hm : 2 ^ 24 ≤ m) (hu : IsUlpExp (signedReal n (y * 2 ^ e)) u)
    (hfit : y * 2 ^ e + 2 ^ u ≤ 2 ^ (128 : ℤ)) (r : Rnd) (z : Bool) :
    ResultNear z (approx n (Ty.f32.fmt.round r z n m e)) (signedReal n (y * 2 ^ e)) (2 ^ u) true := by
  have hm0 : m ≠ 0 := by omega
  have hy : 0 < y := by
    have : (2 : ℝ) ^ 24 ≤ m := by exact_mod_cast hm
    rcases h with h | ⟨-, hl, -⟩ <;> linarith
  have hulp : u = ulpExp (m, e) := by
    rw [hu, abs_signedReal, abs_of_pos (mul_pos hy (two_zpow_pos e)), h.intLog (by omega), ulpExp_natCast]
  have hlt : e < ulpExp (m, e) := by
    have := lt_bitLen hm
    rw [ulpExp_natCast]
    omega
  have herr : |(roundedMag r n m e : ℝ) * 2 ^ ulpExp (m, e) - y * 2 ^ e| < 2 ^ ulpExp (m, e) := abs_roundTo_sub_lt h (.inr hlt) r n
  rw [hulp] at hfit ⊢
  obtain ⟨hd, hof⟩ := round_delivers (r := r) (n := n) (z := z) hm0 (by linarith [(abs_lt.1 herr).2])
  rw [approx_of_fits n hof]
  refine Delivers.near_strict hd ?_
  rw [realOf_eq, abs_signedReal_sub]
  exact herr

/-- Above the range the result is an infinity, under every mode. -/
theorem approx_round_overflow (h : StandsFor m y) (hm : 2 ≤ m) (hbig : 2 ^ (128 : ℤ) ≤ y * 2 ^ e) (r : Rnd) (z n : Bool) :
    approx n (Ty.f32.fmt.round r z n m e) = (Ty.f32.fmt.infBits n, flagOF ||| flagNX) := by
  have hlog : (128 : ℤ) ≤ e + bitLen m - 1 := by
    rw [← h.intLog hm, ← Int.zpow_le_iff_le_log one_lt_two ((two_zpow_pos 128).trans_le hbig)]
    exact_mod_cast hbig
  exact approx_of_overflow n (by rw [round_overflow (by omega) hlog])

end Sys2Proof.Machine
end

section
/-!
VRCP and VRSQ (R431): the neighbours of 1/x and of 1/√x.
-/

namespace Sys2Proof.Machine

variable {n z : Bool} {m q k : Nat} {e u : ℤ} {x : Lane} {v y : ℝ}

/-! ## The integer square root -/

theorem isqrtFrom_spec (k n acc : Nat) (hle : acc ^ 2 ≤ n) (hlt : n < (acc + 2 ^ k) ^ 2) :
    isqrtFrom k n acc ^ 2 ≤ n ∧ n < (isqrtFrom k n acc + 1) ^ 2 := by
  induction k generalizing acc with
  | zero => exact ⟨hle, hlt⟩
  | succ k ih =>
    rw [isqrtFrom]
    split
    · next h =>
      refine ih _ (sq (acc + 2 ^ k) ▸ h) ?_
      rwa [add_assoc, ← two_mul, ← pow_succ']
    · next h => exact ih _ hle (sq (acc + 2 ^ k) ▸ not_le.1 h)

theorem isqrt_spec (n : Nat) : isqrt n ^ 2 ≤ n ∧ n < (isqrt n + 1) ^ 2 := by
  refine isqrtFrom_spec _ n 0 (by simp) ?_
  calc n < 2 ^ bitLen n := lt_two_pow_bitLen n
    _ ≤ 2 ^ ((bitLen n / 2 + 1) * 2) := Nat.pow_le_pow_right two_pos (by omega)
    _ = (0 + 2 ^ (bitLen n / 2 + 1)) ^ 2 := by rw [zero_add, pow_mul]

theorem isqrt_le_sqrt (n : Nat) : (isqrt n : ℝ) ≤ √n := Real.le_sqrt_of_sq_le (by exact_mod_cast (isqrt_spec n).1)

theorem sqrt_lt_isqrt (n : Nat) : √n < isqrt n + 1 := (Real.sqrt_lt' (by positivity)).2 (by exact_mod_cast (isqrt_spec n).2)

/-! ## Sticky bits -/

/-- The integer part of a number, with a sticky bit for its fraction, stands for twice the number. -/
theorem standsFor_sticky (hle : (q : ℝ) ≤ y) (hlt : y < q + 1) {p : Prop} [Decidable p] (hp : p ↔ (q : ℝ) = y) :
    StandsFor (2 * q + if p then 0 else 1) (2 * y) := by
  by_cases h : p
  · exact .inl (by simp [h, hp.1 h])
  · have hne : (q : ℝ) < y := lt_of_le_of_ne hle fun hq => h (hp.2 hq)
    refine .inr ⟨by simp [h], ?_, ?_⟩ <;> simp [h] <;> linarith

/-- Every finite number is a multiple of 2^−149. -/
theorem abs_real_multiple (h : Ty.f32.fmt.decode z x.toNat = .fin n m e) (hm : m ≠ 0) :
    ∃ j : Nat, j ≠ 0 ∧ |realOf n m e| = j * 2 ^ (-149 : ℤ) := by
  obtain ⟨-, he, -⟩ := decode_bounds h hm
  refine ⟨m * 2 ^ (e - -149).toNat, mul_ne_zero hm (by positivity), ?_⟩
  rw [abs_realOf, Nat.cast_mul, Nat.cast_pow, Nat.cast_ofNat, mul_assoc, pow_toNat_mul_zpow he]

/-! ## VRCP -/

/-- The magnitude of 1/x, doubled and scaled to the 27 bits or more of the model's quotient. -/
noncomputable def rcpScaled (m : Nat) : ℝ := 2 * (2 ^ (27 + bitLen m) / m)

theorem rcpScaled_mul (hm : m ≠ 0) (n : Bool) (e : ℤ) :
    signedReal n (rcpScaled m * 2 ^ (0 - e - (27 + bitLen m : Nat) - 1)) = (realOf n m e)⁻¹ := by
  have hm' : (m : ℝ) ≠ 0 := Nat.cast_ne_zero.2 hm
  have h : rcpScaled m * 2 ^ (0 - e - (27 + bitLen m : Nat) - 1) = ((m : ℝ) * 2 ^ e)⁻¹ := by
    rw [zpow_sub₀ two_ne_zero, zpow_sub₀ two_ne_zero, zpow_sub₀ two_ne_zero, zpow_natCast, rcpScaled]
    field_simp
  rw [h, realOf_eq]
  cases n <;> simp [signedReal]

/-- The model's quotient with its sticky bit. -/
def rcpMant (m : Nat) : Nat := 2 * (2 ^ (27 + bitLen m) / m) + if 2 ^ (27 + bitLen m) % m == 0 then 0 else 1

theorem rcpMant_ge (hm : m ≠ 0) : 2 ^ 24 ≤ rcpMant m := by
  have h : 2 ^ 27 ≤ 2 ^ (27 + bitLen m) / m := by
    rw [Nat.le_div_iff_mul_le (Nat.pos_of_ne_zero hm), pow_add]
    exact Nat.mul_le_mul_left _ (lt_two_pow_bitLen m).le
  unfold rcpMant
  omega

theorem standsFor_rcp (hm : m ≠ 0) : StandsFor (rcpMant m) (rcpScaled m) := by
  have hpos : (0 : ℝ) < m := Nat.cast_pos.2 (Nat.pos_of_ne_zero hm)
  have hdiv : ((2 ^ (27 + bitLen m) : Nat) : ℝ) / m = 2 ^ (27 + bitLen m) / m := by push_cast; rfl
  refine standsFor_sticky (q := 2 ^ (27 + bitLen m) / m) ?_ ?_ ?_
  · exact hdiv ▸ (natCast_div_mem _ m).1
  · exact hdiv ▸ (natCast_div_mem _ m).2
  · rw [beq_iff_eq, ← hdiv]
    constructor
    · intro h
      exact Nat.cast_div (Nat.dvd_of_mod_eq_zero h) hpos.ne'
    · intro h
      rw [eq_div_iff hpos.ne'] at h
      exact Nat.mod_eq_zero_of_dvd (Dvd.intro_left _ (by exact_mod_cast h))

/-- The model's division of 1 rounds its quotient once. -/
theorem one_div_fin (r : Rnd) (z n : Bool) (hm : m ≠ 0) (e : ℤ) : Ty.f32.fmt.div r z (.fin false 1 0) (.fin n m e) =
    Ty.f32.fmt.round r z n (rcpMant m) (0 - e - (27 + bitLen m : Nat) - 1) := by
  have hk : Ty.f32.fmt.fbits + 4 + bitLen m = 27 + bitLen m := rfl
  simp [FFmt.div, FVal.sign, hm, rcpMant, hk]

/-- What VRCP gives for a number that is no zero. -/
theorem vrcpVal_of_fin (h : Ty.f32.fmt.decode z x.toNat = .fin n m e) (hm : m ≠ 0) :
    vrcpVal z x = approx n (Ty.f32.fmt.round (if Config.rcpUp x then .rup else .rdn) z n (rcpMant m)
      (0 - e - (27 + bitLen m : Nat) - 1)) := by
  simp only [vrcpVal, h, if_neg hm, one_div_fin _ z n hm]

/-- The exponent of an ulp of a number below a power of two. -/
theorem IsUlpExp.le (h : IsUlpExp y u) (hy : y ≠ 0) {k : ℤ} (hlt : |y| < 2 ^ k) (hk : -126 < k) : u ≤ k - 24 := by
  have hlog : Int.log 2 |y| < k := (Int.lt_zpow_iff_log_lt one_lt_two (abs_pos.2 hy)).1 (by exact_mod_cast hlt)
  rw [h]
  omega

/-- A reciprocal below 2^128 lies eight ulps below it, since 1/x of a multiple of 2^−149 does. -/
theorem inv_add_le {j : Nat} (h : ((j : ℝ) * 2 ^ (-149 : ℤ))⁻¹ < 2 ^ (128 : ℤ)) (hj : j ≠ 0) :
    ((j : ℝ) * 2 ^ (-149 : ℤ))⁻¹ + 2 ^ (104 : ℤ) ≤ 2 ^ (128 : ℤ) := by
  have hpos : (0 : ℝ) < j := Nat.cast_pos.2 (Nat.pos_of_ne_zero hj)
  have hinv : ((j : ℝ) * 2 ^ (-149 : ℤ))⁻¹ = 2 ^ 149 / j := by
    rw [zpow_neg, mul_inv, inv_inv, div_eq_inv_mul]
    norm_cast
  rw [hinv] at h ⊢
  have hlt : (2 : ℝ) ^ 21 < j := by
    have h149 : (2 : ℝ) ^ 149 = 2 ^ 21 * 2 ^ (128 : ℤ) := by norm_num
    rw [div_lt_iff₀ hpos, h149, mul_comm (2 ^ (128 : ℤ)) (j : ℝ)] at h
    exact lt_of_mul_lt_mul_right h (two_zpow_pos 128).le
  have hle : (2 : ℝ) ^ 21 + 1 ≤ j := by exact_mod_cast hlt
  have hdiv : (2 : ℝ) ^ 149 / j ≤ 2 ^ 149 / (2 ^ 21 + 1) := by gcongr
  refine (add_le_add_left hdiv _).trans ?_
  norm_num

theorem vrcpVal_near (h : Ty.f32.fmt.decode z x.toNat = .fin n m e) (hm : m ≠ 0) (hfit : |(realOf n m e)⁻¹| < 2 ^ (128 : ℤ))
    (hu : IsUlpExp (realOf n m e)⁻¹ u) : ResultNear z (vrcpVal z x) (realOf n m e)⁻¹ (2 ^ u) true := by
  have hs := rcpScaled_mul hm n e
  have habs : rcpScaled m * 2 ^ (0 - e - (27 + bitLen m : Nat) - 1) = |(realOf n m e)⁻¹| := by
    rw [← hs, abs_signedReal, abs_of_nonneg]
    unfold rcpScaled
    positivity
  have hne : (realOf n m e)⁻¹ ≠ 0 := inv_ne_zero (realOf_ne_zero_iff.2 hm)
  have hroom : |(realOf n m e)⁻¹| + 2 ^ u ≤ 2 ^ (128 : ℤ) := by
    obtain ⟨j, hj0, hj⟩ := abs_real_multiple h hm
    have hu104 : (2 : ℝ) ^ u ≤ 2 ^ (104 : ℤ) := zpow_le_zpow_right₀ one_le_two (hu.le hne hfit (by norm_num))
    rw [abs_inv, hj] at hfit ⊢
    linarith [inv_add_le hfit hj0]
  rw [vrcpVal_of_fin h hm, ← hs]
  exact approx_round_near (standsFor_rcp hm) (rcpMant_ge hm) (hs ▸ hu) (habs ▸ hroom) _ z

theorem vrcpVal_overflow (h : Ty.f32.fmt.decode z x.toNat = .fin n m e) (hm : m ≠ 0)
    (hbig : 2 ^ (128 : ℤ) ≤ |(realOf n m e)⁻¹|) : vrcpVal z x = (Ty.f32.fmt.infBits n, flagOF ||| flagNX) := by
  have habs : rcpScaled m * 2 ^ (0 - e - (27 + bitLen m : Nat) - 1) = |(realOf n m e)⁻¹| := by
    rw [← rcpScaled_mul hm, abs_signedReal, abs_of_nonneg]
    unfold rcpScaled
    positivity
  rw [vrcpVal_of_fin h hm]
  exact approx_round_overflow (standsFor_rcp hm) ((by norm_num : 2 ≤ 2 ^ 24).trans (rcpMant_ge hm)) (habs ▸ hbig) _ z n

/-! ## VRSQ -/

/-- The magnitude of 1/√m, doubled and scaled to the model's 64 bits. -/
noncomputable def rsqScaled (m : Nat) : ℝ := 2 * (2 ^ 64 / √m)

/-- The model's root with its sticky bit. -/
def rsqMant (m : Nat) : Nat := 2 * isqrt (2 ^ 128 / m) + if isqrt (2 ^ 128 / m) * isqrt (2 ^ 128 / m) * m = 2 ^ 128 then 0 else 1

theorem rsqScaled_mul (hm : m ≠ 0) (k : ℤ) : rsqScaled m * 2 ^ (-k - 64 - 1) = (√(m * 2 ^ (2 * k)))⁻¹ := by
  have hroot : √((2 : ℝ) ^ (2 * k)) = 2 ^ k := by
    rw [mul_comm, zpow_mul, zpow_ofNat, Real.sqrt_sq (two_zpow_pos k).le]
  have hpos : (0 : ℝ) < √m := Real.sqrt_pos.2 (Nat.cast_pos.2 (Nat.pos_of_ne_zero hm))
  rw [Real.sqrt_mul (Nat.cast_nonneg m), hroot, rsqScaled, zpow_sub₀ two_ne_zero, zpow_sub₀ two_ne_zero, zpow_neg]
  field_simp

theorem standsFor_rsq (hm : m ≠ 0) : StandsFor (rsqMant m) (rsqScaled m) := by
  have hm0 : 0 < m := Nat.pos_of_ne_zero hm
  have hpos : (0 : ℝ) < m := Nat.cast_pos.2 hm0
  have hroot : (0 : ℝ) < √m := Real.sqrt_pos.2 hpos
  have hsq (a : ℝ) : (a * √m) ^ 2 = a ^ 2 * m := by rw [mul_pow, Real.sq_sqrt hpos.le]
  have h64 : ((2 : ℝ) ^ 64) ^ 2 = 2 ^ 128 := by norm_num
  obtain ⟨hle, hlt⟩ := isqrt_spec (2 ^ 128 / m)
  have hle := (Nat.le_div_iff_mul_le hm0).1 hle
  have hlt := (Nat.div_lt_iff_lt_mul hm0).1 hlt
  unfold rsqMant rsqScaled
  generalize isqrt (2 ^ 128 / m) = q at hle hlt
  refine standsFor_sticky ?_ ?_ ?_
  · rw [le_div_iff₀ hroot, ← pow_le_pow_iff_left₀ (by positivity) (by positivity) two_ne_zero, hsq, h64]
    exact_mod_cast hle
  · rw [div_lt_iff₀ hroot, ← pow_lt_pow_iff_left₀ (by positivity) (by positivity) two_ne_zero, hsq, h64]
    exact_mod_cast hlt
  · rw [eq_div_iff hroot.ne', ← sq, ← pow_left_inj₀ (a := q * √m) (by positivity) (by positivity) two_ne_zero, hsq, h64]
    norm_cast

theorem rsqMant_ge (hm : m ≠ 0) (hlt : m < 2 ^ 25) : 2 ^ 24 ≤ rsqMant m := by
  have hle : 2 ^ 103 ≤ 2 ^ 128 / m := by
    rw [Nat.le_div_iff_mul_le (Nat.pos_of_ne_zero hm)]
    omega
  have hroot : 2 ^ 23 ≤ isqrt (2 ^ 128 / m) := by
    by_contra hq
    have h := (isqrt_spec (2 ^ 128 / m)).2
    have : (isqrt (2 ^ 128 / m) + 1) ^ 2 ≤ (2 ^ 23) ^ 2 := Nat.pow_le_pow_left (by omega) 2
    omega
  unfold rsqMant
  omega

/-- The mantissa that makes the exponent even. -/
def evenMant (m : Nat) (e : ℤ) : Nat := if e % 2 = 0 then m else 2 * m

/-- Half the even exponent. -/
def halfExp (e : ℤ) : ℤ := (if e % 2 = 0 then e else e - 1) / 2

theorem evenMant_ne_zero (hm : m ≠ 0) : evenMant m e ≠ 0 := by
  unfold evenMant
  split <;> omega

theorem evenMant_mul (m : Nat) (e : ℤ) : (evenMant m e : ℝ) * 2 ^ (2 * halfExp e) = realOf false m e := by
  unfold evenMant halfExp
  split
  · next h => rw [Int.mul_ediv_cancel' (Int.dvd_of_emod_eq_zero h), realOf_eq]; rfl
  · next h =>
    have he : 2 * ((e - 1) / 2) = e - 1 := by omega
    rw [he, zpow_sub_one₀ two_ne_zero, realOf_eq, Nat.cast_mul]
    simp only [signedReal, Bool.false_eq_true, if_false, Nat.cast_ofNat]
    ring

/-- What VRSQ gives for a positive number. -/
theorem vrsqVal_of_fin (h : Ty.f32.fmt.decode z x.toNat = .fin false m e) (hm : m ≠ 0) :
    vrsqVal z x = approx false (Ty.f32.fmt.round (if Config.rsqUp x then .rup else .rdn) z false (rsqMant (evenMant m e))
      (-halfExp e - 64 - 1)) := by
  unfold vrsqVal
  simp only [h, if_neg hm]
  rfl

theorem vrsqVal_near (h : Ty.f32.fmt.decode z x.toNat = .fin false m e) (hm : m ≠ 0) (hu : IsUlpExp (√(realOf false m e))⁻¹ u) :
    ResultNear z (vrsqVal z x) (√(realOf false m e))⁻¹ (2 ^ u) true := by
  obtain ⟨hm24, he, -⟩ := decode_bounds h hm
  have hev := evenMant_ne_zero (e := e) hm
  have hev25 : evenMant m e < 2 ^ 25 := by
    unfold evenMant
    split <;> omega
  have hs := rsqScaled_mul hev (halfExp e)
  rw [evenMant_mul] at hs
  have hpos : 0 < realOf false m e := realOf_pos_iff.2 ⟨rfl, hm⟩
  have hlt : (√(realOf false m e))⁻¹ < 2 ^ (75 : ℤ) := by
    have hle : (2 : ℝ) ^ (-149 : ℤ) ≤ realOf false m e := by
      obtain ⟨j, hj0, hj⟩ := abs_real_multiple h hm
      rw [abs_of_pos hpos] at hj
      rw [hj]
      exact le_mul_of_one_le_left (two_zpow_pos _).le (by exact_mod_cast Nat.pos_of_ne_zero hj0)
    rw [inv_lt_comm₀ (Real.sqrt_pos.2 hpos) (two_zpow_pos 75), Real.lt_sqrt (by positivity)]
    refine lt_of_lt_of_le ?_ hle
    norm_num
  have hinv : 0 < (√(realOf false m e))⁻¹ := inv_pos.2 (Real.sqrt_pos.2 hpos)
  have hu51 : (2 : ℝ) ^ u ≤ 2 ^ (51 : ℤ) :=
    zpow_le_zpow_right₀ one_le_two (hu.le hinv.ne' (by rwa [abs_of_pos hinv]) (by norm_num))
  rw [vrsqVal_of_fin h hm, ← hs]
  refine approx_round_near (n := false) (standsFor_rsq hev) (rsqMant_ge hev hev25) (by rw [hs]; exact hu) ?_ _ z
  rw [hs]
  norm_num at hlt hu51 ⊢
  linarith

end Sys2Proof.Machine
end

section
/-!
The part's choices for VEXP2 and VLOG2 (R431): one within the bound is kept, and the nearest number, which stands for any other, is
within it too.
-/

namespace Sys2Proof.Machine

variable {z small : Bool} {e u : ℤ} {c : Lane} {t : ℝ} {y off bound : Dy}

/-! ## The nearest number -/

/-- Only the low 32 bits of a number are read. -/
theorem decode_mod (z : Bool) (k : Nat) : Ty.f32.fmt.decode z (k % 2 ^ 32) = Ty.f32.fmt.decode z k := by
  have h1 : k % 2 ^ 32 % 2 ^ 23 = k % 2 ^ 23 := by omega
  have h2 : k % 2 ^ 32 / 2 ^ 23 % 2 ^ 8 = k / 2 ^ 23 % 2 ^ 8 := by omega
  have h3 : k % 2 ^ 32 / 2 ^ 31 % 2 = k / 2 ^ 31 % 2 := by omega
  rw [decode_eq, decode_eq, h1, h2, h3]

theorem isReal_unique {v : FVal} {a b : ℝ} (ha : IsReal v a) (hb : IsReal v b) : a = b := by
  obtain ⟨n, m, e, rfl, rfl⟩ := ha
  exact (isReal_fin.1 hb).symm

theorem ulpExp_le (hy : y.1 ≠ 0) {k : ℤ} (hlt : |dyReal y| < 2 ^ k) (hk : -126 < k) : ulpExp y ≤ k - 24 :=
  IsUlpExp.le (ulpExp_eq hy) (dyReal_ne_zero_iff.2 hy) hlt hk

/-- A dyadic number by its sign and its magnitude. -/
theorem realOf_natAbs (y : Dy) : realOf (y.1 < 0) y.1.natAbs y.2 = dyReal y := by
  have h : signed (y.1 < 0) y.1.natAbs = y.1 := by
    unfold signed
    split
    · next hneg => have := of_decide_eq_true hneg; omega
    · next hneg => have := of_decide_eq_false (Bool.eq_false_iff.2 hneg); omega
  rw [realOf, h, dyReal]

theorem ulpExp_natAbs (y : Dy) : ulpExp ((y.1.natAbs : ℤ), y.2) = ulpExp y := rfl

/-- The nearest number to one in range lies within half an ulp of it. -/
theorem roundDy_near (hfit : |dyReal y| + 2 ^ (103 : ℤ) < 2 ^ (128 : ℤ)) :
    ∃ a, IsReal (Ty.f32.fmt.decode false (Ty.f32.fmt.roundDy .rne false false y).1) a ∧ |a - dyReal y| ≤ 2 ^ ulpExp y / 2 := by
  unfold FFmt.roundDy
  by_cases hy : y.1 = 0
  · have hdec : Ty.f32.fmt.decode false (Ty.f32.fmt.zeroBits false) = .fin false 0 (-149) := decode_pack_denormal (by positivity)
    rw [if_pos hy, hdec]
    refine ⟨0, isReal_fin.2 (realOf_zero _ _).symm, ?_⟩
    simp only [dyReal, hy, Int.cast_zero, zero_mul, sub_zero, abs_zero]
    exact (half_pos (two_zpow_pos _)).le
  · rw [if_neg hy]
    have hn : y.1.natAbs ≠ 0 := Int.natAbs_ne_zero.2 hy
    have habs : (y.1.natAbs : ℝ) * 2 ^ y.2 = |dyReal y| := by rw [← realOf_natAbs, abs_realOf]
    have hhalf : (2 : ℝ) ^ ulpExp y / 2 ≤ 2 ^ (103 : ℤ) := by
      have hlt : |dyReal y| < 2 ^ (128 : ℤ) := by linarith [two_zpow_pos 103]
      rw [div_eq_mul_inv, ← zpow_sub_one₀ two_ne_zero]
      exact zpow_le_zpow_right₀ one_le_two (by linarith [ulpExp_le hy hlt (by norm_num)])
    have herr : |(roundedMag .rne (y.1 < 0) y.1.natAbs y.2 : ℝ) * 2 ^ ulpExp y - y.1.natAbs * 2 ^ y.2| ≤ 2 ^ ulpExp y / 2 :=
      abs_roundTo_rne_sub_le _ _ _ _
    obtain ⟨⟨a, ha, hval⟩, -⟩ := round_delivers (r := .rne) (n := y.1 < 0) (z := false) (e := y.2) hn
      (by rw [ulpExp_natAbs]; linarith [(abs_le.1 herr).2])
    refine ⟨a, ha, ?_⟩
    rw [hval (.inl rfl), ← realOf_natAbs, realOf_eq, realOf_eq, abs_signedReal_sub]
    exact herr

/-! ## A choice within its bound -/

/-- What is kept or stands for the part's choice lies within the bound of every number from y to y + `off`. -/
theorem boundedBy_near (hlo : dyReal y ≤ t) (hhi : t ≤ dyReal y + dyReal off) (hfit : |dyReal y| + 2 ^ (103 : ℤ) < 2 ^ (128 : ℤ))
    (hb : 2 ^ ulpExp y / 2 + dyReal off ≤ dyReal bound) (c : Lane) :
    ∃ a, IsReal (Ty.f32.fmt.decode false (boundedBy y off bound c).toNat) a ∧ |a - t| ≤ dyReal bound := by
  unfold boundedBy
  by_cases hc : inBound y off bound c = true
  · rw [if_pos hc]
    obtain ⟨hc1, hc2⟩ := Bool.and_eq_true _ _ ▸ hc
    obtain ⟨a, ha, hay⟩ := near_of_nearBy hc1
    obtain ⟨a', ha', hay'⟩ := near_of_nearBy hc2
    obtain rfl := isReal_unique ha ha'
    refine ⟨a, ha, ?_⟩
    rw [dyReal_add] at hay'
    rw [abs_le] at *
    constructor <;> linarith
  · rw [if_neg hc, BitVec.toNat_ofNat, decode_mod]
    obtain ⟨a, ha, hay⟩ := roundDy_near hfit
    refine ⟨a, ha, ?_⟩
    rw [abs_le] at *
    constructor <;> linarith

/-- FTZ leaves a result as it is, or puts a zero in its place. -/
theorem tinyResult_delivers (h : IsReal (Ty.f32.fmt.decode false c.toNat) t) (small : Bool) : Delivers z (tinyResult z small c) t := by
  unfold tinyResult
  dsimp only
  split
  · next hc =>
    split
    · next hz =>
      have hexp : c.toNat / 2 ^ 23 % 256 = 0 := by simp at hc; omega
      refine ⟨0, ?_, fun h0 => by simp [hz] at h0⟩
      have hfrac : c.toNat / 2 ^ 31 * 2 ^ 31 % 2 ^ 23 = 0 := by omega
      rw [decode_eq, if_neg (by omega), if_pos (by omega), if_neg (by simp), isReal_fin, hfrac, realOf_zero]
    · exact ⟨t, h, fun _ => rfl⟩
  · exact ⟨t, h, fun _ => rfl⟩

theorem tinyResult_NX (z small : Bool) (c : Lane) : (tinyResult z small c).2 &&& flagNX = flagNX := by
  unfold tinyResult
  dsimp only
  split
  · exact or_NX_and_NX flagUF
  · exact (by decide : flagNX &&& flagNX = flagNX)

end Sys2Proof.Machine
end

section
/-!
VEXP2 (R431): the product of roots of two that a fraction selects, from which the model bounds 2^x.
-/

namespace Sys2Proof.Machine

/-! ## Products of roots of two, in units of 1/B, rounded down -/

section
variable {B root r acc : Nat} {w : ℝ}

theorem le_isqrt_mul (h : B ≤ root) : B ≤ isqrt (root * B) := by
  by_contra hlt
  have hsq : (isqrt (root * B) + 1) ^ 2 ≤ B ^ 2 := Nat.pow_le_pow_left (by omega) 2
  have hmul : B ^ 2 ≤ root * B := sq B ▸ Nat.mul_le_mul_right B h
  have := (isqrt_spec (root * B)).2
  omega

theorem isqrt_mul_le (hhi : (root : ℝ) ≤ B * 2 ^ w) : (isqrt (root * B) : ℝ) ≤ B * 2 ^ (w / 2) := by
  refine (isqrt_le_sqrt _).trans (Real.sqrt_le_iff.2 ⟨by positivity, ?_⟩)
  rw [mul_pow, ← Real.rpow_mul_natCast (by norm_num), Nat.cast_ofNat, div_mul_cancel₀ _ two_ne_zero, Nat.cast_mul]
  nlinarith [(Nat.cast_nonneg B : (0 : ℝ) ≤ B)]

/-- A root that is short by three units at most has a square root that is. -/
theorem le_isqrt_mul_add (hB : 4 ≤ B) (hw : 0 ≤ w) (hlo : B * 2 ^ w - 3 ≤ (root : ℝ)) :
    B * 2 ^ (w / 2) - 3 ≤ (isqrt (root * B) : ℝ) := by
  have hB' : (4 : ℝ) ≤ B := by exact_mod_cast hB
  have hone : (1 : ℝ) ≤ 2 ^ (w / 2) := Real.one_le_rpow one_le_two (by linarith)
  have hsq : (2 : ℝ) ^ w = 2 ^ (w / 2) * 2 ^ (w / 2) := by rw [← Real.rpow_add two_pos, add_halves]
  have hle : B * 2 ^ (w / 2) - 2 ≤ √((root * B : Nat) : ℝ) := by
    refine Real.le_sqrt_of_sq_le ?_
    rw [hsq] at hlo
    rw [Nat.cast_mul]
    generalize (2 : ℝ) ^ (w / 2) = a at *
    nlinarith
  linarith [sqrt_lt_isqrt (root * B)]

/-- A product with a root that is short by three units loses a 4/B of itself at most. -/
theorem mul_root_div (hB : 4 ≤ B) (hr : B ≤ r) (ha : B ≤ acc) (hw : 0 ≤ w) (hhi : (r : ℝ) ≤ B * 2 ^ w) (hlo : B * 2 ^ w - 3 ≤ (r : ℝ)) :
    B ≤ acc * r / B ∧ ((acc * r / B : Nat) : ℝ) ≤ acc * 2 ^ w ∧ (1 - 4 / (B : ℝ)) * (acc * 2 ^ w) ≤ ((acc * r / B : Nat) : ℝ) := by
  have hB0 : 0 < B := by omega
  have hBr : (0 : ℝ) < B := Nat.cast_pos.2 hB0
  have hone : (1 : ℝ) ≤ 2 ^ w := Real.one_le_rpow one_le_two hw
  have hacc : (B : ℝ) ≤ acc := by exact_mod_cast ha
  refine ⟨?_, ?_, ?_⟩
  · rw [Nat.le_div_iff_mul_le hB0]
    exact Nat.mul_le_mul ha hr
  · refine Nat.cast_div_le.trans ?_
    rw [div_le_iff₀ hBr, Nat.cast_mul]
    nlinarith
  · have hfloor : (acc * r : ℝ) / B < ((acc * r / B : Nat) : ℝ) + 1 := by
      exact_mod_cast (natCast_div_mem (acc * r) B).2
    have hmul : acc * (B * 2 ^ w - 3) / B ≤ (acc * r : ℝ) / B := by gcongr
    have heq : (acc : ℝ) * (B * 2 ^ w - 3) / B = acc * 2 ^ w - 3 * (acc / B) := by field_simp
    have heq' : (1 - 4 / (B : ℝ)) * (acc * 2 ^ w) = acc * 2 ^ w - 4 * (acc / B) * 2 ^ w := by ring
    have hq : 1 ≤ (acc : ℝ) / B := (one_le_div hBr).2 hacc
    rw [heq']
    nlinarith
end

/-- The power of two that the low n bits of a fraction select, where the root at hand is 2^w. -/
noncomputable def fracPow (n : Nat) (w : ℝ) (f : Nat) : ℝ := 2 ^ (w * ((f % 2 ^ n : Nat) : ℝ) / 2 ^ n)

theorem fracPow_zero (w : ℝ) (f : Nat) : fracPow 0 w f = 1 := by simp [fracPow, Nat.mod_one]

/-- The highest of the bits selects the root of the root. -/
theorem fracPow_succ (n : Nat) (w : ℝ) (f : Nat) :
    fracPow (n + 1) w f = (if f / 2 ^ n % 2 = 1 then 2 ^ (w / 2) else 1) * fracPow n (w / 2) f := by
  have hmod : ((f % 2 ^ (n + 1) : Nat) : ℝ) = ((f % 2 ^ n : Nat) : ℝ) + 2 ^ n * ((f / 2 ^ n % 2 : Nat) : ℝ) := by
    exact_mod_cast Nat.mod_pow_succ
  unfold fracPow
  rw [hmod]
  split
  · next h =>
    rw [h, ← Real.rpow_add two_pos, pow_succ]
    congr 1
    field_simp
    push_cast
    ring
  · next h =>
    rw [show f / 2 ^ n % 2 = 0 by omega, one_mul, pow_succ]
    congr 1
    field_simp
    push_cast
    ring

theorem fracPow_nonneg (n : Nat) (w : ℝ) (f : Nat) : 0 ≤ fracPow n w f := by
  unfold fracPow
  positivity

/-- The model's product is the power that the fraction selects, in units of 2^−256, rounded down once for each bit. -/
theorem pow2Frac_spec (n : Nat) (f : Nat) {root acc : Nat} {w : ℝ} (hw : 0 ≤ w) (hroot : 2 ^ 256 ≤ root)
    (hhi : (root : ℝ) ≤ (2 ^ 256 : Nat) * 2 ^ w) (hlo : (2 ^ 256 : Nat) * 2 ^ w - 3 ≤ (root : ℝ)) (hacc : 2 ^ 256 ≤ acc) :
    2 ^ 256 ≤ pow2Frac n root f acc ∧ (pow2Frac n root f acc : ℝ) ≤ acc * fracPow n w f ∧
      (1 - 4 / (2 ^ 256 : Nat)) ^ n * (acc * fracPow n w f) ≤ (pow2Frac n root f acc : ℝ) := by
  have hB : 4 ≤ 2 ^ 256 := by norm_num
  have hq0 : (0 : ℝ) ≤ 1 - 4 / (2 ^ 256 : Nat) := by norm_num
  have hq1 : (1 : ℝ) - 4 / (2 ^ 256 : Nat) ≤ 1 := by norm_num
  induction n generalizing root acc w with
  | zero => simpa [pow2Frac, fracPow_zero] using hacc
  | succ n ih =>
    rw [pow2Frac, fracPow_succ]
    have hw2 : 0 ≤ w / 2 := by linarith
    have hr := le_isqrt_mul hroot
    have hrhi := isqrt_mul_le hhi
    have hrlo := le_isqrt_mul_add hB hw hlo
    have hfr := fracPow_nonneg n (w / 2) f
    generalize isqrt (root * 2 ^ 256) = r at *
    generalize (2 ^ 256 : Nat) = B at *
    generalize hQ : (1 : ℝ) - 4 / (B : ℝ) = Q at *
    split
    · next hbit =>
      obtain ⟨ha, hahi, halo⟩ := mul_root_div hB hr hacc hw2 hrhi hrlo
      obtain ⟨h1, h2, h3⟩ := ih hw2 hr hrhi hrlo ha
      refine ⟨h1, h2.trans ?_, le_trans ?_ h3⟩
      · rw [← mul_assoc]
        exact mul_le_mul_of_nonneg_right hahi hfr
      · rw [pow_succ, mul_assoc, ← mul_assoc (acc : ℝ), ← mul_assoc Q]
        exact mul_le_mul_of_nonneg_left (mul_le_mul_of_nonneg_right (hQ ▸ halo) hfr) (pow_nonneg hq0 n)
    · obtain ⟨h1, h2, h3⟩ := ih hw2 hr hrhi hrlo hacc
      rw [one_mul]
      refine ⟨h1, h2, le_trans ?_ h3⟩
      exact mul_le_mul_of_nonneg_right (pow_le_pow_of_le_one hq0 hq1 n.le_succ) (mul_nonneg (Nat.cast_nonneg _) hfr)

variable {n z : Bool} {m : Nat} {e u i : ℤ} {x : Lane} {v t : ℝ} {y : Dy}

/-! ## The model's bounds of 2^x -/

/-- x in units of 2^−150. -/
def exp2Units (n : Bool) (m : Nat) (e : ℤ) : ℤ := signed n m * 2 ^ (e + 150).toNat

theorem exp2Units_cast (n : Bool) (m : Nat) (he : -149 ≤ e) : (exp2Units n m e : ℝ) = realOf n m e * 2 ^ 150 := by
  have h := realOf_scale n m (by omega : -150 ≤ e)
  rw [← h, show e - -150 = e + 150 by ring, mul_assoc]
  have h150 : (2 : ℝ) ^ (-150 : ℤ) * 2 ^ 150 = 1 := by norm_num
  rw [h150, mul_one, exp2Units]

/-- The fraction of x, in units of 2^−150. -/
def exp2Frac (n : Bool) (m : Nat) (e : ℤ) : Nat := (exp2Units n m e % 2 ^ 150).toNat

/-- The integer part of x. -/
def exp2Int (n : Bool) (m : Nat) (e : ℤ) : ℤ := exp2Units n m e / 2 ^ 150

theorem exp2Exact_eq (n : Bool) (m : Nat) (he : -149 ≤ e) : exp2Exact n m e =
    (((pow2Frac 150 (2 * 2 ^ 256) (exp2Frac n m e) (2 ^ 256) : Nat) : ℤ), exp2Int n m e - 256) := by
  have h0 : (-(e + 150)).toNat = 0 := by omega
  unfold exp2Exact exp2Frac exp2Int exp2Units
  rw [h0, pow_zero, Int.ediv_one]

theorem exp2Frac_lt (n : Bool) (m : Nat) (e : ℤ) : exp2Frac n m e < 2 ^ 150 := by
  have := Int.emod_lt_of_pos (exp2Units n m e) (by norm_num : (0 : ℤ) < 2 ^ 150)
  unfold exp2Frac
  omega

theorem realOf_eq_int_add_frac (n : Bool) (m : Nat) (he : -149 ≤ e) :
    realOf n m e = exp2Int n m e + (exp2Frac n m e : ℝ) / 2 ^ 150 := by
  have hdiv := Int.mul_ediv_add_emod (exp2Units n m e) (2 ^ 150)
  have hfrac : ((exp2Frac n m e : Nat) : ℤ) = exp2Units n m e % 2 ^ 150 :=
    Int.toNat_of_nonneg (Int.emod_nonneg _ (by norm_num))
  have hint : exp2Int n m e * 2 ^ 150 + exp2Frac n m e = exp2Units n m e := by
    rw [hfrac, mul_comm]
    exact hdiv
  have hreal : (exp2Int n m e : ℝ) * 2 ^ 150 + exp2Frac n m e = realOf n m e * 2 ^ 150 := by
    rw [← exp2Units_cast n m he, ← hint, Int.cast_add, Int.cast_mul, Int.cast_pow, Int.cast_ofNat, Int.cast_natCast]
  field_simp
  linarith

/-- 2^x is its integer power of two times the power that its fraction selects. -/
theorem rpow_realOf (n : Bool) (m : Nat) (he : -149 ≤ e) :
    (2 : ℝ) ^ realOf n m e = fracPow 150 1 (exp2Frac n m e) * 2 ^ exp2Int n m e := by
  rw [realOf_eq_int_add_frac n m he, add_comm, Real.rpow_add two_pos, Real.rpow_intCast, fracPow,
    Nat.mod_eq_of_lt (exp2Frac_lt n m e), one_mul]

theorem fracPow_mem (n : Bool) (m : Nat) (e : ℤ) :
    1 ≤ fracPow 150 1 (exp2Frac n m e) ∧ fracPow 150 1 (exp2Frac n m e) < 2 := by
  have hlt : ((exp2Frac n m e : Nat) : ℝ) < 2 ^ 150 := by exact_mod_cast exp2Frac_lt n m e
  unfold fracPow
  rw [Nat.mod_eq_of_lt (exp2Frac_lt n m e), one_mul]
  constructor
  · exact Real.one_le_rpow one_le_two (by positivity)
  · calc (2 : ℝ) ^ ((exp2Frac n m e : ℝ) / 2 ^ 150) < 2 ^ (1 : ℝ) :=
          Real.rpow_lt_rpow_of_exponent_lt one_lt_two ((div_lt_one (by positivity)).2 hlt)
      _ = 2 := Real.rpow_one 2

/-- What 150 products lose (Bernoulli). -/
theorem one_sub_le_pow_150 : (1 : ℝ) - 600 / 2 ^ 256 ≤ (1 - 4 / 2 ^ 256) ^ 150 := by
  have h := one_add_mul_le_pow (a := -((4 : ℝ) / 2 ^ 256)) (by norm_num) 150
  refine le_trans (le_of_eq ?_) (h.trans_eq ?_)
  · norm_num
  · rw [← sub_eq_add_neg]

/-- The model's power of two is rounded down by less than 2^−240 of itself. -/
theorem exp2Exact_spec (n : Bool) (m : Nat) (he : -149 ≤ e) :
    2 ^ exp2Int n m e ≤ dyReal (exp2Exact n m e) ∧ dyReal (exp2Exact n m e) ≤ 2 ^ realOf n m e ∧
      2 ^ realOf n m e ≤ dyReal (exp2Exact n m e) + dyReal (exp2Off (exp2Exact n m e)) := by
  have hspec := pow2Frac_spec 150 (exp2Frac n m e) (root := 2 * 2 ^ 256) (acc := 2 ^ 256) (w := 1) zero_le_one (by norm_num)
    (by norm_num) (by norm_num) le_rfl
  obtain ⟨hf1, hf2⟩ := fracPow_mem n m e
  rw [exp2Exact_eq n m he, exp2Off, dyReal_one, rpow_realOf n m he, dyReal]
  generalize fracPow 150 1 (exp2Frac n m e) = p at *
  generalize pow2Frac 150 (2 * 2 ^ 256) (exp2Frac n m e) (2 ^ 256) = P at *
  obtain ⟨h1, h2, h3⟩ := hspec
  have hB : ((2 ^ 256 : Nat) : ℝ) = 2 ^ 256 := by norm_num
  rw [hB] at h2 h3
  have hpow : (2 : ℝ) ^ exp2Int n m e = 2 ^ 256 * 2 ^ (exp2Int n m e - 256) := by
    rw [← zpow_natCast, ← zpow_add₀ two_ne_zero]
    congr 1
    ring
  have hoff : (2 : ℝ) ^ (exp2Int n m e - 256 + 16) = 2 ^ 16 * 2 ^ (exp2Int n m e - 256) := by
    rw [← zpow_natCast, ← zpow_add₀ two_ne_zero]
    congr 1
    ring
  have hs := two_zpow_pos (exp2Int n m e - 256)
  simp only [Int.cast_natCast]
  rw [hpow, hoff, ← mul_assoc, mul_comm p, ← add_mul]
  have hP : ((2 : ℝ) ^ 256) ≤ P := by exact_mod_cast h1
  have h3 : 2 ^ 256 * p ≤ P + 2 ^ 16 := by
    have hp0 : (0 : ℝ) ≤ 2 ^ 256 * p := by positivity
    have h := (mul_le_mul_of_nonneg_right one_sub_le_pow_150 hp0).trans h3
    have heq : ((1 : ℝ) - 600 / 2 ^ 256) * (2 ^ 256 * p) = 2 ^ 256 * p - 600 * p := by ring
    rw [heq] at h
    linarith
  exact ⟨mul_le_mul_of_nonneg_right hP hs.le, mul_le_mul_of_nonneg_right h2 hs.le, mul_le_mul_of_nonneg_right h3 hs.le⟩

/-! ## Results of VEXP2 -/

theorem realOf_128 : realOf false 128 0 = 128 := by simp [realOf, signed]
theorem realOf_neg_150 : realOf true 150 0 = -150 := by simp [realOf, signed]

theorem lt_128 (hv : realOf n m e < 128) : (FVal.fin n m e).lt (.fin false 128 0) = true := lt_fin_iff.2 (realOf_128 ▸ hv)

theorem not_lt_neg_150 (hv : -150 ≤ realOf n m e) : (FVal.fin n m e).lt (.fin true 150 0) = false :=
  Bool.eq_false_iff.2 fun hlt => hv.not_gt (realOf_neg_150 ▸ lt_fin_iff.1 hlt)

theorem vexp2Val_of_ge (h : Ty.f32.fmt.decode z x.toNat = .fin n m e) (hv : 128 ≤ realOf n m e) :
    vexp2Val z x = (0x7F800000, flagOF ||| flagNX) := by
  have hlt : (FVal.fin n m e).lt (.fin false 128 0) = false :=
    Bool.eq_false_iff.2 fun hlt => hv.not_gt (realOf_128 ▸ lt_fin_iff.1 hlt)
  simp only [vexp2Val, h, hlt, Bool.not_false, if_true]
  rfl

section
variable (h : Ty.f32.fmt.decode z x.toNat = .fin n m e) (hv : realOf n m e < 128)
include h hv

theorem vexp2Val_of_lt (hlow : realOf n m e < -150) : vexp2Val z x = (0, flagUF ||| flagNX) := by
  have hlt : (FVal.fin n m e).lt (.fin true 150 0) = true := lt_fin_iff.2 (realOf_neg_150 ▸ hlow)
  simp only [vexp2Val, h, lt_128 hv, hlt, Bool.not_true, Bool.false_eq_true, if_false, if_true]
  rfl

theorem vexp2Val_of_int (hi : realOf n m e = i) (hlow : -149 ≤ i) : vexp2Val z x = Ty.f32.fmt.round .rne z false 1 i := by
  have hmem : -150 ≤ realOf n m e := by
    have : (-149 : ℝ) ≤ i := by exact_mod_cast hlow
    linarith
  simp only [vexp2Val, h, lt_128 hv, not_lt_neg_150 hmem, fvalInt_eq_some_iff.2 hi, hlow, Bool.not_true, Bool.false_eq_true, if_false,
    if_true]

theorem vexp2Val_of_neg_150 (hi : realOf n m e = (-150 : ℤ)) : vexp2Val z x =
    tinyResult z true (boundedBy (1, -150) (0, -150) (1, ulpExp (1, -150) + 1) (Config.exp2 x)) := by
  have hmem : -150 ≤ realOf n m e := by
    rw [hi]
    norm_num
  have hlow : ¬ (-149 : ℤ) ≤ -150 := by decide
  simp only [vexp2Val, h, lt_128 hv, not_lt_neg_150 hmem, fvalInt_eq_some_iff.2 hi, hlow, Bool.not_true, Bool.false_eq_true, if_false]

theorem vexp2Val_of_frac (hlow : -150 ≤ realOf n m e) (hi : ∀ i : ℤ, realOf n m e ≠ i) : vexp2Val z x =
    tinyResult z true (boundedBy (exp2Exact n m e) (exp2Off (exp2Exact n m e)) (1, ulpExp (exp2Exact n m e) + 1) (Config.exp2 x)) := by
  have hnone : fvalInt? (.fin n m e) = none :=
    Option.eq_none_iff_forall_ne_some.2 fun i heq => hi i (fvalInt_eq_some_iff.1 heq)
  simp only [vexp2Val, h, lt_128 hv, not_lt_neg_150 hlow, hnone, Bool.not_true, Bool.false_eq_true, if_false]

end

/-! ## Powers of integers -/

theorem ulpExp_one_le (hlow : -149 ≤ i) : ulpExp ((1 : Nat), i) ≤ i := by
  rw [ulpExp_natCast, show bitLen 1 = 1 by decide]
  omega

/-- The power of two of an integer in the range of the format is delivered, with no flag where it is not flushed. -/
theorem round_two_pow (hlow : -149 ≤ i) (hhigh : i < 128) (z : Bool) :
    ResultNear z (Ty.f32.fmt.round .rne z false 1 i) (2 ^ i) 0 false ∧
      (-126 ≤ i ∨ z = false → (Ty.f32.fmt.round .rne z false 1 i).2 = 0) := by
  have hfit : ((1 : Nat) : ℝ) * 2 ^ i < 2 ^ (128 : ℤ) := by
    rw [Nat.cast_one, one_mul]
    exact zpow_lt_zpow_right₀ one_lt_two hhigh
  obtain ⟨hd, hfl⟩ := round_exact (r := .rne) (n := false) (z := z) one_ne_zero (ulpExp_one_le hlow) hfit
  refine ⟨hd.near (by simp [realOf, signed]), fun hz => hfl ?_⟩
  rcases hz with hi | hz
  · by_cases h149 : ulpExp ((1 : Nat), i) = -149
    · refine .inr (.inl ?_)
      have hi : i = -126 := by
        rw [ulpExp_natCast, show bitLen 1 = 1 by decide] at h149
        omega
      subst hi
      decide
    · exact .inl h149
  · exact .inr (.inr hz)

/-! ## Powers of fractions -/

/-- A number below 128 lies 2^−17 below it. -/
theorem le_of_lt_128 (hm : m < 2 ^ 24) (hv : realOf n m e < 128) : realOf n m e ≤ 128 - 2 ^ (-17 : ℤ) := by
  by_cases he : -17 ≤ e
  · have hs := realOf_scale n m he
    rw [← hs] at hv ⊢
    have h128 : (128 : ℝ) = (2 ^ 24 : ℤ) * 2 ^ (-17 : ℤ) := by norm_num
    rw [h128] at hv ⊢
    have hlt := Int.cast_lt.1 (lt_of_mul_lt_mul_right hv (two_zpow_pos (-17)).le)
    have hle : ((signed n m * 2 ^ (e - -17).toNat : ℤ) : ℝ) ≤ ((2 ^ 24 : ℤ) : ℝ) - 1 := by
      exact_mod_cast Int.le_sub_one_iff.2 hlt
    rw [← sub_one_mul]
    exact mul_le_mul_of_nonneg_right hle (two_zpow_pos (-17)).le
  · have habs : realOf n m e ≤ 2 ^ (24 : ℕ) * 2 ^ (-18 : ℤ) := by
      refine (le_abs_self _).trans ?_
      rw [abs_realOf]
      exact mul_le_mul (by exact_mod_cast hm.le) (zpow_le_zpow_right₀ one_le_two (by omega)) (two_zpow_pos e).le (by positivity)
    refine habs.trans ?_
    norm_num

/-- A power of two with an exponent 2^−17 below 128 rounds to no infinity. -/
theorem two_rpow_le (hv : v ≤ 128 - 2 ^ (-17 : ℤ)) : (2 : ℝ) ^ v ≤ 2 ^ (128 : ℤ) - 2 ^ (110 : ℤ) := by
  have hhalf : (2 : ℝ) ^ (-(2 : ℝ) ^ (-17 : ℤ)) ≤ 1 - 2 ^ (-18 : ℤ) := by
    have h := rpow_one_add_le_one_add_mul_self (s := -(1 / 2)) (p := 2 ^ (-17 : ℤ)) (by norm_num) (by positivity) (by norm_num)
    have h2 : (1 + -(1 / 2 : ℝ)) = 2⁻¹ := by norm_num
    rw [h2, Real.inv_rpow zero_le_two, ← Real.rpow_neg zero_le_two] at h
    refine h.trans_eq ?_
    norm_num
  calc (2 : ℝ) ^ v ≤ 2 ^ (128 - (2 : ℝ) ^ (-17 : ℤ)) := Real.rpow_le_rpow_of_exponent_le one_le_two hv
    _ = 2 ^ (128 : ℝ) * 2 ^ (-(2 : ℝ) ^ (-17 : ℤ)) := by rw [sub_eq_add_neg, Real.rpow_add two_pos]
    _ ≤ 2 ^ (128 : ℝ) * (1 - 2 ^ (-18 : ℤ)) := by gcongr
    _ = _ := by norm_num

/-- Two numbers with the same highest bit have the same ulp. -/
theorem IsUlpExp.eq_ulpExp (hu : IsUlpExp t u) (hy : y.1 ≠ 0) (hlog : Int.log 2 |dyReal y| = Int.log 2 |t|) : u = ulpExp y := by
  rw [hu, ulpExp_eq hy, hlog]

theorem two_rpow_lt (n : Bool) (m : Nat) (he : -149 ≤ e) : (2 : ℝ) ^ realOf n m e < 2 ^ (exp2Int n m e + 1) := by
  rw [rpow_realOf n m he, zpow_add_one₀ two_ne_zero, mul_comm]
  exact mul_lt_mul_of_pos_left (fracPow_mem n m e).2 (two_zpow_pos _)

/-- VEXP2's number for an input that is no integer lies within 2 ulp of the power. -/
theorem exp2_near (hm : m < 2 ^ 24) (he : -149 ≤ e) (hv : realOf n m e < 128) (hu : IsUlpExp ((2 : ℝ) ^ realOf n m e) u) (c : Lane) :
    ∃ a, IsReal (Ty.f32.fmt.decode false (boundedBy (exp2Exact n m e) (exp2Off (exp2Exact n m e))
      (1, ulpExp (exp2Exact n m e) + 1) c).toNat) a ∧ |a - 2 ^ realOf n m e| ≤ 2 ^ (u + 1) := by
  obtain ⟨hint, hlo, hhi⟩ := exp2Exact_spec n m he
  have htop := two_rpow_lt n m he
  have hpos : 0 < dyReal (exp2Exact n m e) := (two_zpow_pos _).trans_le hint
  have htpos : (0 : ℝ) < 2 ^ realOf n m e := hpos.trans_le hlo
  have hlogt : Int.log 2 ((2 : ℝ) ^ realOf n m e) = exp2Int n m e := intLog_eq (hint.trans hlo) htop
  have hlog : Int.log 2 |dyReal (exp2Exact n m e)| = Int.log 2 |(2 : ℝ) ^ realOf n m e| := by
    rw [abs_of_pos hpos, abs_of_pos htpos, hlogt, intLog_eq hint (hlo.trans_lt htop)]
  obtain rfl := hu.eq_ulpExp (dyReal_ne_zero_iff.1 hpos.ne') hlog
  have hoff : dyReal (exp2Off (exp2Exact n m e)) ≤ 2 ^ ulpExp (exp2Exact n m e) := by
    have hexp : (exp2Exact n m e).2 = exp2Int n m e - 256 := by rw [exp2Exact_eq n m he]
    rw [exp2Off, dyReal_one, hexp, hu, abs_of_pos htpos, hlogt]
    exact zpow_le_zpow_right₀ one_le_two (by omega)
  rw [← dyReal_one]
  refine boundedBy_near hlo hhi ?_ ?_ c
  · rw [abs_of_pos hpos]
    have h110 := hlo.trans (two_rpow_le (le_of_lt_128 hm hv))
    have hlt : (2 : ℝ) ^ (103 : ℤ) < 2 ^ (110 : ℤ) := by norm_num
    linarith
  · rw [dyReal_one, zpow_add_one₀ two_ne_zero]
    linarith [two_zpow_pos (ulpExp (exp2Exact n m e))]

/-- VEXP2's number for −150, whose power lies below the format, is within 2 ulp of it. -/
theorem exp2_neg_150_near (hu : IsUlpExp ((2 : ℝ) ^ (-150 : ℤ)) u) (c : Lane) :
    ∃ a, IsReal (Ty.f32.fmt.decode false (boundedBy (1, -150) (0, -150) (1, ulpExp (1, -150) + 1) c).toNat) a ∧
      |a - 2 ^ (-150 : ℤ)| ≤ 2 ^ (u + 1) := by
  have hulp : ulpExp ((1, -150) : Dy) = -149 := by decide
  obtain rfl := hu.eq_ulpExp (y := (1, -150)) one_ne_zero (by rw [dyReal_one])
  have hoff : dyReal (0, -150) = 0 := by simp [dyReal]
  rw [← dyReal_one, ← dyReal_one]
  refine boundedBy_near le_rfl (by rw [hoff, add_zero]) ?_ ?_ c
  · rw [dyReal_one, abs_of_pos (two_zpow_pos _)]
    norm_num
  · rw [hoff, hulp, dyReal_one]
    norm_num

end Sys2Proof.Machine
end

section
/-!
VLOG2 (R431): the binary logarithm place by place, from which the model bounds log2 x.
-/

namespace Sys2Proof.Machine

/-! ## The places of a logarithm -/

/-- The binary logarithm of a number in units of 2^−256. -/
noncomputable def scaledLog (m : Nat) : ℝ := Real.logb 2 ((m : ℝ) / 2 ^ 256)

section
variable {m q : Nat} {y : ℝ}

theorem scaledLog_mem (hlo : 2 ^ 256 ≤ m) (hhi : m < 2 ^ 257) : 0 ≤ scaledLog m ∧ scaledLog m < 1 := by
  have hlo : (2 : ℝ) ^ 256 ≤ m := by exact_mod_cast hlo
  have hhi : (m : ℝ) < 2 ^ 257 := by exact_mod_cast hhi
  have hone : 1 ≤ (m : ℝ) / 2 ^ 256 := (one_le_div (by positivity)).2 hlo
  refine ⟨Real.logb_nonneg one_lt_two hone, ?_⟩
  rw [scaledLog, Real.logb_lt_iff_lt_rpow one_lt_two (by linarith), Real.rpow_one, div_lt_iff₀ (by positivity), ← pow_succ']
  exact hhi

/-- A number that is rounded down to an integer of 257 bits loses 2^−255 of its logarithm at most. -/
theorem logb_floor (hq : 2 ^ 256 ≤ q) (hle : (q : ℝ) ≤ y) (hlt : y < q + 1) :
    scaledLog q ≤ Real.logb 2 (y / 2 ^ 256) ∧ Real.logb 2 (y / 2 ^ 256) ≤ scaledLog q + 2 / 2 ^ 256 := by
  have hq : (2 : ℝ) ^ 256 ≤ q := by exact_mod_cast hq
  have hpos : (0 : ℝ) < q := lt_of_lt_of_le (by positivity) hq
  have hln : 1 / 2 ≤ Real.log 2 := by linarith [Real.log_two_gt_d9]
  constructor
  · exact Real.logb_le_logb_of_le one_lt_two (by positivity) (by gcongr)
  · have hquot : y / 2 ^ 256 = q / 2 ^ 256 * (y / q) := by field_simp
    have hy : 0 < y := hpos.trans_le hle
    rw [hquot, Real.logb_mul (by positivity) (by positivity), scaledLog]
    have hlog : Real.logb 2 (y / q) ≤ 2 * (y / q - 1) := by
      rw [Real.logb, div_le_iff₀ (by linarith)]
      have h1 := Real.log_le_sub_one_of_pos (div_pos hy hpos)
      have h2 : 0 ≤ y / q - 1 := by linarith [(one_le_div hpos).2 hle]
      nlinarith
    have hfrac : y / q - 1 ≤ 1 / 2 ^ 256 := by
      rw [div_sub_one hpos.ne', div_le_div_iff₀ hpos (by positivity)]
      nlinarith
    linarith

theorem scaledLog_sq (hm : 0 < m) : Real.logb 2 (((m * m : Nat) : ℝ) / (2 ^ 256 : Nat) / 2 ^ 256) = 2 * scaledLog m := by
  have hm' : (0 : ℝ) < m := Nat.cast_pos.2 hm
  have hsq : ((m * m : Nat) : ℝ) / (2 ^ 256 : Nat) / 2 ^ 256 = ((m : ℝ) / 2 ^ 256) * (m / 2 ^ 256) := by
    rw [Nat.cast_mul, Nat.cast_pow, Nat.cast_ofNat]
    field_simp
  rw [hsq, Real.logb_mul (by positivity) (by positivity), scaledLog, two_mul]

theorem scaledLog_half (hy : 0 < y) : Real.logb 2 (y / 2 / 2 ^ 256) = Real.logb 2 (y / 2 ^ 256) - 1 := by
  rw [div_right_comm, Real.logb_div (by positivity) two_ne_zero, Real.logb_self_eq_one one_lt_two]

/-- The place that squaring brings before the point. -/
def logBit (m : Nat) : Nat := if 2 * 2 ^ 256 ≤ m * m / 2 ^ 256 then 1 else 0

/-- What squaring leaves behind the point. -/
def logRest (m : Nat) : Nat := if 2 * 2 ^ 256 ≤ m * m / 2 ^ 256 then m * m / 2 ^ 256 / 2 else m * m / 2 ^ 256

theorem logFrac_succ (n m acc : Nat) : logFrac (n + 1) m acc = logFrac n (logRest m) (2 * acc + logBit m) := by
  rw [logFrac, logRest, logBit]
  split <;> rfl

theorem logRest_mem (hlo : 2 ^ 256 ≤ m) (hhi : m < 2 ^ 257) : 2 ^ 256 ≤ logRest m ∧ logRest m < 2 ^ 257 := by
  have h1 : 2 ^ 256 ≤ m * m / 2 ^ 256 := (Nat.le_div_iff_mul_le (by positivity)).2 (Nat.mul_le_mul hlo hlo)
  have h2 : m * m / 2 ^ 256 < 2 ^ 258 := by
    rw [Nat.div_lt_iff_lt_mul (by positivity)]
    calc m * m < 2 ^ 257 * 2 ^ 257 := Nat.mul_lt_mul'' hhi hhi
      _ = 2 ^ 258 * 2 ^ 256 := by rw [← pow_add, ← pow_add]
  unfold logRest
  split <;> omega

/-- Squaring doubles the logarithm, but for what the rounding loses. -/
theorem two_mul_scaledLog (hlo : 2 ^ 256 ≤ m) (hhi : m < 2 ^ 257) : scaledLog (logRest m) + logBit m ≤ 2 * scaledLog m ∧
    2 * scaledLog m ≤ scaledLog (logRest m) + logBit m + 2 / 2 ^ 256 := by
  have hm : 0 < m := lt_of_lt_of_le (by positivity) hlo
  have hpos : (0 : ℝ) < ((m * m : Nat) : ℝ) / (2 ^ 256 : Nat) := by positivity
  have hmem := (logRest_mem hlo hhi).1
  rw [← scaledLog_sq hm]
  unfold logRest logBit at *
  split
  · next h =>
    rw [if_pos h] at hmem
    obtain ⟨hl, hu⟩ := natCast_div_mem (m * m) (2 ^ 256 * 2)
    rw [← Nat.div_div_eq_div_mul, Nat.cast_mul (2 ^ 256), ← div_div, Nat.cast_ofNat] at hl hu
    obtain ⟨h1, h2⟩ := logb_floor hmem hl hu
    rw [scaledLog_half hpos] at h1 h2
    rw [Nat.cast_one]
    constructor <;> linarith
  · next h =>
    rw [if_neg h] at hmem
    obtain ⟨hl, hu⟩ := natCast_div_mem (m * m) (2 ^ 256)
    obtain ⟨h1, h2⟩ := logb_floor hmem hl hu
    rw [Nat.cast_zero, add_zero]
    exact ⟨h1, h2⟩

/-- The places are the logarithm rounded down, but for the last and what the roundings lose. -/
theorem logFrac_spec (n : Nat) (acc : Nat) (hlo : 2 ^ 256 ≤ m) (hhi : m < 2 ^ 257) :
    (logFrac n m acc : ℝ) ≤ acc * 2 ^ n + 2 ^ n * scaledLog m ∧
      acc * 2 ^ n + 2 ^ n * scaledLog m ≤ logFrac n m acc + 1 + (2 ^ n - 1) * (2 / 2 ^ 256) := by
  induction n generalizing m acc with
  | zero =>
    obtain ⟨h0, h1⟩ := scaledLog_mem hlo hhi
    rw [logFrac]
    constructor <;> norm_num <;> linarith
  | succ n ih =>
    obtain ⟨hrlo, hrhi⟩ := logRest_mem hlo hhi
    obtain ⟨h1, h2⟩ := ih (2 * acc + logBit m) hrlo hrhi
    obtain ⟨hs1, hs2⟩ := two_mul_scaledLog hlo hhi
    have hpow : (0 : ℝ) < 2 ^ n := by positivity
    rw [logFrac_succ]
    rw [Nat.cast_add, Nat.cast_mul, Nat.cast_ofNat] at h1 h2
    rw [pow_succ]
    generalize scaledLog (logRest m) = a at *
    generalize (2 : ℝ) / 2 ^ 256 = d at *
    constructor <;> nlinarith
end

variable {n z : Bool} {m : Nat} {e u k : ℤ} {x : Lane}

/-! ## The model's bounds of log2 x -/

/-- The number that the highest bit of m makes a fraction of 256 places. -/
def log2Mant (m : Nat) : Nat := m * 2 ^ (257 - bitLen m)

theorem log2Mant_mem (hm : m ≠ 0) (hlt : m < 2 ^ 24) : 2 ^ 256 ≤ log2Mant m ∧ log2Mant m < 2 ^ 257 := by
  have hl := bitLen_le hlt
  have hpos := bitLen_pos hm
  constructor
  · calc 2 ^ 256 = 2 ^ (bitLen m - 1) * 2 ^ (257 - bitLen m) := by rw [← pow_add]; congr 1; omega
      _ ≤ _ := Nat.mul_le_mul_right _ (two_pow_bitLen_pred_le hm)
  · calc log2Mant m < 2 ^ bitLen m * 2 ^ (257 - bitLen m) := Nat.mul_lt_mul_of_pos_right (lt_two_pow_bitLen m) (by positivity)
      _ = 2 ^ 257 := by rw [← pow_add]; congr 1; omega

/-- The integer part of log2 x. -/
def log2Int (m : Nat) (e : ℤ) : ℤ := e + bitLen m - 1

/-- log2 x is its integer part and the logarithm of the mantissa. -/
theorem logb_realOf (hm : m ≠ 0) (hlt : m < 2 ^ 24) (e : ℤ) :
    Real.logb 2 (realOf false m e) = log2Int m e + scaledLog (log2Mant m) := by
  have hl := bitLen_le hlt
  have hpos : (0 : ℝ) < m := Nat.cast_pos.2 (Nat.pos_of_ne_zero hm)
  have hmant : (log2Mant m : ℝ) / 2 ^ 256 = m * 2 ^ (1 - bitLen m : ℤ) := by
    have hsplit : (2 : ℝ) ^ (257 - bitLen m) = 2 ^ (1 - bitLen m : ℤ) * 2 ^ 256 := by
      rw [← zpow_natCast, ← zpow_natCast (2 : ℝ) 256, ← zpow_add₀ two_ne_zero]
      congr 1
      omega
    rw [log2Mant, Nat.cast_mul, Nat.cast_pow, Nat.cast_ofNat, hsplit, ← mul_assoc, mul_div_cancel_right₀ _ (by positivity)]
  have hval : realOf false m e = 2 ^ log2Int m e * (log2Mant m / 2 ^ 256) := by
    have hreal : realOf false m e = m * 2 ^ e := realOf_eq false m e
    rw [hmant, hreal, mul_left_comm, ← zpow_add₀ two_ne_zero, log2Int]
    congr 2
    ring
  rw [hval, Real.logb_mul (two_zpow_pos _).ne' (by rw [hmant]; positivity), ← Real.rpow_intCast,
    Real.logb_rpow two_pos (by norm_num), scaledLog]

/-- The 152 places of the model's logarithm. -/
def log2Places (m : Nat) : Nat := logFrac 152 (log2Mant m) 0

theorem dyReal_log2Exact (m : Nat) (e : ℤ) : dyReal (log2Exact m e) = log2Int m e + (log2Places m : ℝ) / 2 ^ 152 := by
  have h152 : (2 : ℝ) ^ (-152 : ℤ) = (2 ^ 152)⁻¹ := by norm_num
  simp only [dyReal, log2Exact, Int.cast_add, Int.cast_mul, Int.cast_pow, Int.cast_ofNat, Int.cast_natCast, h152]
  rw [← div_eq_mul_inv, add_div, mul_div_cancel_right₀ _ (by positivity)]
  simp [log2Int, log2Places, log2Mant]

theorem log2Places_spec (hm : m ≠ 0) (hlt : m < 2 ^ 24) : (log2Places m : ℝ) / 2 ^ 152 ≤ scaledLog (log2Mant m) ∧
    scaledLog (log2Mant m) ≤ (log2Places m : ℝ) / 2 ^ 152 + 2 ^ (-150 : ℤ) := by
  obtain ⟨hlo, hhi⟩ := log2Mant_mem hm hlt
  obtain ⟨h1, h2⟩ := logFrac_spec 152 0 hlo hhi
  rw [Nat.cast_zero, zero_mul, zero_add] at h1 h2
  rw [← log2Places] at h1 h2
  constructor
  · rw [div_le_iff₀ (by positivity)]
    linarith
  · have hsmall : 1 + ((2 : ℝ) ^ 152 - 1) * (2 / 2 ^ 256) ≤ 2 ^ 152 * 2 ^ (-150 : ℤ) := by norm_num
    have hmul : (2 : ℝ) ^ 152 * scaledLog (log2Mant m) ≤ 2 ^ 152 * ((log2Places m : ℝ) / 2 ^ 152 + 2 ^ (-150 : ℤ)) := by
      rw [mul_add, mul_div_cancel₀ _ (by positivity)]
      exact h2.trans ((add_assoc _ _ _).trans_le (add_le_add le_rfl hsmall))
    exact le_of_mul_le_mul_left hmul (by positivity)

/-- The model's logarithm is rounded down by less than 2^−150. -/
theorem log2Exact_spec (hm : m ≠ 0) (hlt : m < 2 ^ 24) (e : ℤ) : dyReal (log2Exact m e) ≤ Real.logb 2 (realOf false m e) ∧
    Real.logb 2 (realOf false m e) ≤ dyReal (log2Exact m e) + dyReal (1, -150) := by
  obtain ⟨h1, h2⟩ := log2Places_spec hm hlt
  rw [dyReal_log2Exact, logb_realOf hm hlt, dyReal_one]
  constructor <;> linarith

/-- The mantissa of a number that is no power of two lies off 1, and so does its logarithm off 0. -/
theorem le_scaledLog (hm : m ≠ 0) (hlt : m < 2 ^ 24) (hpow : m ≠ 2 ^ (bitLen m - 1)) : 2 ^ (-23 : ℤ) ≤ scaledLog (log2Mant m) := by
  have hl := bitLen_le hlt
  have hpos := bitLen_pos hm
  have hmant : 2 ^ 256 + 2 ^ 233 ≤ log2Mant m := by
    have hle : 2 ^ (bitLen m - 1) + 1 ≤ m := lt_of_le_of_ne (two_pow_bitLen_pred_le hm) hpow.symm
    calc 2 ^ 256 + 2 ^ 233 ≤ 2 ^ 256 + 2 ^ (257 - bitLen m) := Nat.add_le_add_left (Nat.pow_le_pow_right two_pos (by omega)) _
      _ = (2 ^ (bitLen m - 1) + 1) * 2 ^ (257 - bitLen m) := by
          rw [add_mul, one_mul, ← pow_add]
          congr 2
          omega
      _ ≤ _ := Nat.mul_le_mul_right _ hle
  have hmant : (2 : ℝ) ^ 256 + 2 ^ 233 ≤ log2Mant m := by exact_mod_cast hmant
  have hbern : (2 : ℝ) ^ ((2 : ℝ) ^ (-23 : ℤ)) ≤ 1 + 2 ^ (-23 : ℤ) := by
    have h := rpow_one_add_le_one_add_mul_self (s := 1) (p := 2 ^ (-23 : ℤ)) (by norm_num) (by positivity) (by norm_num)
    rwa [one_add_one_eq_two, mul_one] at h
  rw [scaledLog, Real.le_logb_iff_rpow_le one_lt_two (by positivity)]
  refine hbern.trans ?_
  rw [le_div_iff₀ (by positivity)]
  refine le_trans (le_of_eq ?_) hmant
  norm_num

/-- Neither log2 x nor the model's number for it is an integer, unless x is a power of two. -/
theorem log2_mem (hm : m ≠ 0) (hlt : m < 2 ^ 24) (hpow : m ≠ 2 ^ (bitLen m - 1)) (e : ℤ) :
    (log2Int m e : ℝ) < dyReal (log2Exact m e) ∧ Real.logb 2 (realOf false m e) < log2Int m e + 1 := by
  obtain ⟨hlo, hhi⟩ := log2Mant_mem hm hlt
  have hlog := le_scaledLog hm hlt hpow
  have hsmall : (2 : ℝ) ^ (-150 : ℤ) < 2 ^ (-23 : ℤ) := by norm_num
  rw [dyReal_log2Exact, logb_realOf hm hlt]
  constructor
  · exact lt_add_of_pos_right _ (lt_add_iff_pos_left _ |>.1 (hsmall.trans_le (hlog.trans (log2Places_spec hm hlt).2)))
  · linarith [(scaledLog_mem hlo hhi).2]

/-- Between two natural numbers that follow each other the highest bit stays the same. -/
theorem intLog_eq_of_mem {a b : ℝ} {j : Nat} (hj : 1 ≤ j) (ha : (j : ℝ) ≤ a ∧ a < j + 1) (hb : (j : ℝ) ≤ b ∧ b < j + 1) :
    Int.log 2 a = Int.log 2 b := by
  have hj : (1 : ℝ) ≤ j := by exact_mod_cast hj
  rw [Int.log_of_one_le_right 2 (hj.trans ha.1), Int.log_of_one_le_right 2 (hj.trans hb.1),
    (Nat.floor_eq_iff (by linarith)).2 ha, (Nat.floor_eq_iff (by linarith)).2 hb]

/-- Between two integers that follow each other the highest bit stays the same, off −1 to 1. -/
theorem intLog_abs_eq {a b : ℝ} (ha : (k : ℝ) < a) (ha' : a < k + 1) (hb : (k : ℝ) < b) (hb' : b < k + 1) (hbig : 1 < |b|) :
    Int.log 2 |a| = Int.log 2 |b| := by
  rcases lt_abs.1 hbig with h | h
  · have hk : 0 < k := by
      have : (0 : ℝ) < k := by linarith
      exact_mod_cast this
    obtain ⟨j, rfl⟩ := Int.eq_ofNat_of_zero_le hk.le
    rw [Int.cast_natCast] at ha ha' hb hb'
    have hj : (0 : ℝ) ≤ j := Nat.cast_nonneg j
    rw [abs_of_pos (by linarith), abs_of_pos (by linarith)]
    exact intLog_eq_of_mem (by omega) ⟨ha.le, ha'⟩ ⟨hb.le, hb'⟩
  · have hk : k + 1 < 0 := by
      have : (k : ℝ) + 1 < 0 := by linarith
      exact_mod_cast this
    obtain ⟨j, rfl⟩ : ∃ j : Nat, k = -j - 1 := ⟨(-k - 1).toNat, by omega⟩
    push_cast at ha ha' hb hb'
    have hj : (0 : ℝ) ≤ j := Nat.cast_nonneg j
    rw [abs_of_neg (by linarith), abs_of_neg (by linarith)]
    exact intLog_eq_of_mem (j := j) (by omega) ⟨by linarith, by linarith⟩ ⟨by linarith, by linarith⟩

/-! ## Results of VLOG2 -/

/-- VLOG2 of a positive number goes by whether it is a power of two (R431). -/
theorem vlog2Val_of_fin (h : Ty.f32.fmt.decode z x.toNat = .fin false m e) (hm : m ≠ 0) : vlog2Val z x =
    if m = 2 ^ (bitLen m - 1) then Ty.f32.fmt.ofInt .rne false (log2Int m e)
    else tinyResult z false (boundedBy (log2Exact m e) (1, -150) (log2Bound (.fin false m e) (log2Exact m e)) (Config.log2 x)) := by
  unfold vlog2Val
  simp only [h, if_neg hm]
  rfl

theorem vlog2Val_of_neg (h : Ty.f32.fmt.decode z x.toNat = .fin true m e) (hm : m ≠ 0) : vlog2Val z x = (0x7FC00000, flagNV) := by
  unfold vlog2Val
  simp only [h, if_neg hm]
  rfl

theorem vrsqVal_of_neg (h : Ty.f32.fmt.decode z x.toNat = .fin true m e) (hm : m ≠ 0) : vrsqVal z x = (0x7FC00000, flagNV) := by
  unfold vrsqVal
  simp only [h, if_neg hm]
  rfl

/-- A positive number is a power of two where its mantissa is. -/
theorem realOf_eq_two_zpow_iff (hm : m ≠ 0) : realOf false m e = 2 ^ k ↔ m = 2 ^ (bitLen m - 1) ∧ k = log2Int m e := by
  have hreal : realOf false m e = m * 2 ^ e := realOf_eq false m e
  have hpos := bitLen_pos hm
  have hpow : ((2 ^ (bitLen m - 1) : Nat) : ℝ) * 2 ^ e = 2 ^ log2Int m e := by
    rw [Nat.cast_pow, Nat.cast_ofNat, ← zpow_natCast, ← zpow_add₀ two_ne_zero, log2Int]
    congr 1
    omega
  constructor
  · intro h
    have hk : k = log2Int m e := by
      rw [log2Int, ← intLog_mul_zpow hm, ← hreal, h]
      exact (intLog_eq le_rfl (zpow_lt_zpow_right₀ one_lt_two (lt_add_one k))).symm
    rw [hreal, hk, ← hpow] at h
    exact ⟨Nat.cast_injective (mul_right_cancel₀ (two_zpow_pos e).ne' h), hk⟩
  · rintro ⟨hmant, rfl⟩
    rw [hreal, ← hpow, ← hmant]

theorem log2Int_mem (h : Ty.f32.fmt.decode z x.toNat = .fin n m e) (hm : m ≠ 0) : -149 ≤ log2Int m e ∧ log2Int m e ≤ 127 := by
  obtain ⟨hlt, hlo, hhi⟩ := decode_bounds h hm
  have hl := bitLen_le hlt
  have hpos := bitLen_pos hm
  unfold log2Int
  omega

/-- The binary32 number of an integer of 24 bits is exact. -/
theorem ofInt_exact (hk : k.natAbs < 2 ^ 24) : ResultNear false (Ty.f32.fmt.ofInt .rne false k) k 0 false := by
  have hval : realOf (k < 0) k.natAbs 0 = k := by
    rw [realOf_natAbs (k, 0)]
    simp [dyReal]
  have hd : Delivers false (Ty.f32.fmt.ofInt .rne false k) k := by
    unfold FFmt.ofInt
    by_cases h0 : k.natAbs = 0
    · have hdec (b : Bool) : Ty.f32.fmt.decode false (Ty.f32.fmt.zeroBits b) = .fin b 0 (-149) := decode_pack_denormal (by positivity)
      rw [h0, round_zero]
      refine ⟨k, ?_, fun _ => rfl⟩
      rw [hdec, isReal_fin, realOf_zero, Int.natAbs_eq_zero.1 h0, Int.cast_zero]
    · have hexp : ulpExp ((k.natAbs : ℤ), 0) ≤ 0 := by
        have := bitLen_le hk
        rw [ulpExp_natCast]
        omega
      have hfit : (k.natAbs : ℝ) * 2 ^ (0 : ℤ) < 2 ^ (128 : ℤ) := by
        have : (k.natAbs : ℝ) < 2 ^ 24 := by exact_mod_cast hk
        norm_num at this ⊢
        linarith
      have := (round_exact (r := .rne) (n := k < 0) (z := false) h0 hexp hfit).1
      rwa [hval] at this
  exact hd.near (by simp)

theorem vlog2Val_of_pow (h : Ty.f32.fmt.decode z x.toNat = .fin false m e) (hm : m ≠ 0) (hk : realOf false m e = 2 ^ k) :
    vlog2Val z x = Ty.f32.fmt.ofInt .rne false k ∧ ResultNear false (vlog2Val z x) k 0 false := by
  obtain ⟨hmant, rfl⟩ := (realOf_eq_two_zpow_iff hm).1 hk
  obtain ⟨hlo, hhi⟩ := log2Int_mem h hm
  rw [vlog2Val_of_fin h hm, if_pos hmant]
  exact ⟨rfl, ofInt_exact (by omega)⟩

theorem vlog2Val_of_ne_pow (h : Ty.f32.fmt.decode z x.toNat = .fin false m e) (hm : m ≠ 0) (hpow : m ≠ 2 ^ (bitLen m - 1)) :
    vlog2Val z x =
      tinyResult z false (boundedBy (log2Exact m e) (1, -150) (log2Bound (.fin false m e) (log2Exact m e)) (Config.log2 x)) := by
  rw [vlog2Val_of_fin h hm, if_neg hpow]

/-! ## The bounds of VLOG2 -/

theorem realOf_half : realOf false 1 (-1) = 1 / 2 := by norm_num [realOf, signed]
theorem realOf_two : realOf false 2 0 = 2 := by norm_num [realOf, signed]

theorem log2Bound_inner (hlo : 1 / 2 ≤ realOf n m e) (hhi : realOf n m e ≤ 2) (y : Dy) : log2Bound (.fin n m e) y = (1, -21) := by
  have h1 : (FVal.fin n m e).lt (.fin false 1 (-1)) = false :=
    Bool.eq_false_iff.2 fun hlt => hlo.not_gt (realOf_half ▸ lt_fin_iff.1 hlt)
  have h2 : (FVal.fin false 2 0).lt (.fin n m e) = false :=
    Bool.eq_false_iff.2 fun hlt => hhi.not_gt (realOf_two ▸ lt_fin_iff.1 hlt)
  rw [log2Bound, h1, h2]
  rfl

theorem log2Bound_outer (hv : realOf n m e < 1 / 2 ∨ 2 < realOf n m e) (y : Dy) : log2Bound (.fin n m e) y = (1, ulpExp y + 1) := by
  refine if_neg ?_
  rcases hv with hv | hv
  · rw [lt_fin_iff.2 (realOf_half ▸ hv)]
    simp
  · have h2 : (FVal.fin false 2 0).lt (.fin n m e) = true := lt_fin_iff.2 (realOf_two ▸ hv)
    rw [h2]
    simp

section
variable (hm : m ≠ 0) (hlt : m < 2 ^ 24) (hpow : m ≠ 2 ^ (bitLen m - 1))
include hm hlt hpow

/-- The model's number for log2 x is no zero. -/
theorem log2Exact_ne_zero (e : ℤ) : (log2Exact m e).1 ≠ 0 := by
  obtain ⟨h1, h2⟩ := log2_mem hm hlt hpow e
  have h2 := (log2Exact_spec hm hlt e).1.trans_lt h2
  refine dyReal_ne_zero_iff.1 fun h0 => ?_
  rw [h0] at h1 h2
  have h1 : log2Int m e < 0 := by exact_mod_cast h1
  have h2 : (0 : ℤ) < log2Int m e + 1 := by exact_mod_cast h2
  omega

/-- VLOG2's number for an input in [0.5, 2] errs by at most 2^−21. -/
theorem log2_near_inner (hlo : 1 / 2 ≤ realOf false m e) (hhi : realOf false m e ≤ 2) (c : Lane) :
    ∃ a, IsReal (Ty.f32.fmt.decode false (boundedBy (log2Exact m e) (1, -150)
      (log2Bound (.fin false m e) (log2Exact m e)) c).toNat) a ∧ |a - Real.logb 2 (realOf false m e)| ≤ 2 ^ (-21 : ℤ) := by
  obtain ⟨h1, h2⟩ := log2Exact_spec hm hlt e
  have hpos : 0 < realOf false m e := realOf_pos_iff.2 ⟨rfl, hm⟩
  have hl : -1 ≤ Real.logb 2 (realOf false m e) := by
    rw [Real.le_logb_iff_rpow_le one_lt_two hpos, Real.rpow_neg_one]
    linarith
  have hu : Real.logb 2 (realOf false m e) ≤ 1 := by
    rwa [Real.logb_le_iff_le_rpow one_lt_two hpos, Real.rpow_one]
  have h150 : dyReal (1, -150) < 1 / 2 ^ 22 := by
    rw [dyReal_one]
    norm_num
  have h21 : dyReal (1, -21) = 2 / 2 ^ 22 := by
    rw [dyReal_one]
    norm_num
  have habs : |dyReal (log2Exact m e)| < 2 ^ (1 : ℤ) := by
    rw [abs_lt, zpow_one]
    constructor <;> linarith
  have hulp : (2 : ℝ) ^ ulpExp (log2Exact m e) ≤ 1 / 2 ^ 22 := by
    rw [one_div, ← zpow_natCast, ← zpow_neg]
    exact zpow_le_zpow_right₀ one_le_two (by have := ulpExp_le (log2Exact_ne_zero hm hlt hpow e) habs (by norm_num); omega)
  rw [log2Bound_inner hlo hhi, ← dyReal_one]
  refine boundedBy_near h1 h2 ?_ ?_ c
  · have hbig : (2 : ℝ) ^ (1 : ℤ) + 2 ^ (103 : ℤ) < 2 ^ (128 : ℤ) := by norm_num
    linarith
  · rw [h21]
    linarith [two_zpow_pos (ulpExp (log2Exact m e))]

/-- VLOG2's number for any other input errs by at most 2 ulp. -/
theorem log2_near_outer (hv : realOf false m e < 1 / 2 ∨ 2 < realOf false m e) (he : |Real.logb 2 (realOf false m e)| < 2 ^ (8 : ℤ))
    (hu : IsUlpExp (Real.logb 2 (realOf false m e)) u) (c : Lane) :
    ∃ a, IsReal (Ty.f32.fmt.decode false (boundedBy (log2Exact m e) (1, -150)
      (log2Bound (.fin false m e) (log2Exact m e)) c).toNat) a ∧ |a - Real.logb 2 (realOf false m e)| ≤ 2 ^ (u + 1) := by
  obtain ⟨h1, h2⟩ := log2Exact_spec hm hlt e
  obtain ⟨hint, htop⟩ := log2_mem hm hlt hpow e
  have hpos : 0 < realOf false m e := realOf_pos_iff.2 ⟨rfl, hm⟩
  have hbig : 1 < |Real.logb 2 (realOf false m e)| := by
    rw [lt_abs]
    rcases hv with hv | hv
    · right
      rw [lt_neg, Real.logb_lt_iff_lt_rpow one_lt_two hpos, Real.rpow_neg_one]
      linarith
    · left
      rwa [Real.lt_logb_iff_rpow_lt one_lt_two hpos, Real.rpow_one]
  obtain rfl := hu.eq_ulpExp (log2Exact_ne_zero hm hlt hpow e)
    (intLog_abs_eq hint (h1.trans_lt htop) (hint.trans_le h1) htop hbig)
  have h150 : dyReal (1, -150) ≤ 2 ^ ulpExp (log2Exact m e) := by
    rw [dyReal_one, ulpExp]
    exact zpow_le_zpow_right₀ one_le_two (by omega)
  rw [log2Bound_outer hv, ← dyReal_one]
  refine boundedBy_near h1 h2 ?_ ?_ c
  · have hsmall : dyReal (1, -150) < 1 := by rw [dyReal_one]; norm_num
    have habs : |dyReal (log2Exact m e)| < 2 ^ (9 : ℤ) := by
      rw [abs_lt] at *
      norm_num at he ⊢
      constructor <;> linarith
    have hfit : (2 : ℝ) ^ (9 : ℤ) + 2 ^ (103 : ℤ) < 2 ^ (128 : ℤ) := by norm_num
    linarith
  · rw [dyReal_one (ulpExp _ + 1), zpow_add_one₀ two_ne_zero]
    linarith [two_zpow_pos (ulpExp (log2Exact m e))]

end

/-- The logarithm of a binary32 number has 8 bits before the point. -/
theorem abs_logb_lt (h : Ty.f32.fmt.decode z x.toNat = .fin false m e) (hm : m ≠ 0) :
    |Real.logb 2 (realOf false m e)| < 2 ^ (8 : ℤ) := by
  obtain ⟨hlt, -, -⟩ := decode_bounds h hm
  obtain ⟨hlo, hhi⟩ := log2Int_mem h hm
  obtain ⟨hs0, hs1⟩ := (log2Mant_mem hm hlt).elim scaledLog_mem
  have hlo : (-149 : ℝ) ≤ log2Int m e := by exact_mod_cast hlo
  have hhi : (log2Int m e : ℝ) ≤ 127 := by exact_mod_cast hhi
  rw [logb_realOf hm hlt, abs_lt]
  norm_num
  constructor <;> linarith

end Sys2Proof.Machine
end

section
/-!
The bounds of VRCP, VRSQ, VEXP2 and VLOG2 (R431), for every input.
-/

namespace Sys2Proof.Machine

variable {n z s : Bool} {m : Nat} {e u k : ℤ} {x : Lane}

/-! ## Special inputs -/

theorem approximations_of_nan (h : Ty.f32.fmt.decode z x.toNat = .nan s) :
    ∀ f ∈ [vrcpVal, vrsqVal, vexp2Val, vlog2Val], f z x = (0x7FC00000, if s then flagNV else 0) := by
  intro f hf
  fin_cases hf
  all_goals
    simp only [vrcpVal, vrsqVal, vexp2Val, vlog2Val, h]
    rfl

theorem approximations_of_inf (h : Ty.f32.fmt.decode z x.toNat = .inf n) :
    vrcpVal z x = (if n then 0x80000000 else 0, 0) ∧ vexp2Val z x = (if n then 0 else 0x7F800000, 0) ∧
      vrsqVal z x = (if n then (0x7FC00000, flagNV) else (0, 0)) ∧
      vlog2Val z x = (if n then (0x7FC00000, flagNV) else (0x7F800000, 0)) := by
  simp only [vrcpVal, vrsqVal, vexp2Val, vlog2Val, h]
  cases n <;> exact ⟨rfl, rfl, rfl, rfl⟩

theorem infBits_eq (n : Bool) : Ty.f32.fmt.infBits n = if n then 0xFF800000 else 0x7F800000 := by cases n <;> rfl

theorem approximations_of_zero (h : Ty.f32.fmt.decode z x.toNat = .fin n 0 e) :
    vrcpVal z x = (if n then 0xFF800000 else 0x7F800000, flagDZ) ∧ vrsqVal z x = (if n then 0xFF800000 else 0x7F800000, flagDZ) ∧
      vlog2Val z x = (0xFF800000, flagDZ) := by
  simp only [vrcpVal, vrsqVal, vlog2Val, h, if_true, infBits_eq, and_self]

/-! ## Finite inputs -/

section
variable (h : Ty.f32.fmt.decode z x.toNat = .fin n m e)
include h

theorem vrsqVal_vlog2Val_of_neg (hv : realOf n m e < 0) :
    vrsqVal z x = (0x7FC00000, flagNV) ∧ vlog2Val z x = (0x7FC00000, flagNV) := by
  obtain ⟨rfl, hm⟩ := realOf_neg_iff.1 hv
  exact ⟨vrsqVal_of_neg h hm, vlog2Val_of_neg h hm⟩

theorem vrcpVal_bounds (hv : realOf n m e ≠ 0) : (vrcpVal z x).2 &&& flagNX = flagNX ∧
    (|(realOf n m e)⁻¹| < 2 ^ (128 : ℤ) → ∀ u, IsUlpExp (realOf n m e)⁻¹ u → ResultNear z (vrcpVal z x) (realOf n m e)⁻¹ (2 ^ u) true) ∧
    (2 ^ (128 : ℤ) ≤ |(realOf n m e)⁻¹| → vrcpVal z x = (if realOf n m e < 0 then 0xFF800000 else 0x7F800000, flagOF ||| flagNX)) := by
  have hm := realOf_ne_zero_iff.1 hv
  refine ⟨?_, fun hfit u hu => vrcpVal_near h hm hfit hu, fun hbig => ?_⟩
  · rw [vrcpVal_of_fin h hm]
    exact approx_NX _ _
  · rw [vrcpVal_overflow h hm hbig, infBits_eq]
    simp [realOf_neg_iff, hm]

theorem vrsqVal_bounds (hv : 0 < realOf n m e) : (vrsqVal z x).2 &&& flagNX = flagNX ∧
    ∀ u, IsUlpExp (√(realOf n m e))⁻¹ u → ResultNear z (vrsqVal z x) (√(realOf n m e))⁻¹ (2 ^ u) true := by
  obtain ⟨rfl, hm⟩ := realOf_pos_iff.1 hv
  refine ⟨?_, fun u hu => vrsqVal_near h hm hu⟩
  rw [vrsqVal_of_fin h hm]
  exact approx_NX _ _

theorem vexp2Val_int (hk : realOf n m e = k) (hlow : -149 ≤ k) (hhigh : k < 128) :
    ResultNear z (vexp2Val z x) (2 ^ k) 0 false ∧ (-126 ≤ k ∨ z = false → (vexp2Val z x).2 = 0) := by
  have hv : realOf n m e < 128 := by
    rw [hk]
    exact_mod_cast hhigh
  rw [vexp2Val_of_int h hv hk hlow]
  exact round_two_pow hlow hhigh z

theorem vexp2Val_bounds (hlow : -150 ≤ realOf n m e) (hv : realOf n m e < 128) (hk : ∀ k : ℤ, -149 ≤ k → realOf n m e ≠ k) :
    (vexp2Val z x).2 &&& flagNX = flagNX ∧
      ∀ u, IsUlpExp ((2 : ℝ) ^ realOf n m e) u → ResultNear z (vexp2Val z x) ((2 : ℝ) ^ realOf n m e) (2 ^ (u + 1)) false := by
  by_cases hint : ∃ k : ℤ, realOf n m e = k
  · obtain ⟨k, hval⟩ := hint
    obtain rfl : k = -150 := by
      have hle : -150 ≤ k := by
        rw [hval] at hlow
        exact_mod_cast hlow
      have hlt : ¬ -149 ≤ k := fun hk' => hk k hk' hval
      omega
    rw [vexp2Val_of_neg_150 h hv hval, hval, Real.rpow_intCast]
    refine ⟨tinyResult_NX _ _ _, fun u hu => ?_⟩
    obtain ⟨a, ha, hbound⟩ := exp2_neg_150_near hu (Config.exp2 x)
    exact (tinyResult_delivers ha true).near hbound
  · have hint := not_exists.1 hint
    have hm : m ≠ 0 := by
      rintro rfl
      exact hint 0 (by rw [realOf_zero, Int.cast_zero])
    obtain ⟨hlt, he, -⟩ := decode_bounds h hm
    rw [vexp2Val_of_frac h hv hlow hint]
    refine ⟨tinyResult_NX _ _ _, fun u hu => ?_⟩
    obtain ⟨a, ha, hbound⟩ := exp2_near hlt he hv hu (Config.exp2 x)
    exact (tinyResult_delivers ha true).near hbound

theorem vlog2Val_pow (hk : realOf n m e = 2 ^ k) :
    vlog2Val z x = Ty.f32.fmt.ofInt .rne false k ∧ ResultNear false (vlog2Val z x) k 0 false := by
  obtain ⟨rfl, hm⟩ := realOf_pos_iff.1 (hk ▸ two_zpow_pos k)
  exact vlog2Val_of_pow h hm hk

theorem vlog2Val_bounds (hv : 0 < realOf n m e) (hk : ∀ k : ℤ, realOf n m e ≠ 2 ^ k) : (vlog2Val z x).2 &&& flagNX = flagNX ∧
    (1 / 2 ≤ realOf n m e → realOf n m e ≤ 2 →
      ResultNear z (vlog2Val z x) (Real.logb 2 (realOf n m e)) (2 ^ (-21 : ℤ)) false) ∧
    (realOf n m e < 1 / 2 ∨ 2 < realOf n m e → ∀ u, IsUlpExp (Real.logb 2 (realOf n m e)) u →
      ResultNear z (vlog2Val z x) (Real.logb 2 (realOf n m e)) (2 ^ (u + 1)) false) := by
  obtain ⟨rfl, hm⟩ := realOf_pos_iff.1 hv
  obtain ⟨hlt, -, -⟩ := decode_bounds h hm
  have hpow : m ≠ 2 ^ (bitLen m - 1) := fun hmant => hk _ ((realOf_eq_two_zpow_iff hm).2 ⟨hmant, rfl⟩)
  rw [vlog2Val_of_ne_pow h hm hpow]
  refine ⟨tinyResult_NX _ _ _, fun hlo hhi => ?_, fun hout u hu => ?_⟩
  · obtain ⟨a, ha, hbound⟩ := log2_near_inner hm hlt hpow hlo hhi (Config.log2 x)
    exact (tinyResult_delivers ha false).near hbound
  · obtain ⟨a, ha, hbound⟩ := log2_near_outer hm hlt hpow hout (abs_logb_lt h hm) hu (Config.log2 x)
    exact (tinyResult_delivers ha false).near hbound

end

/-- Settles O60: VRCP and VRSQ round what stands for the exact number once; of VEXP2 and VLOG2 the model's number for the exact one is so
near it that a choice within the bound of the one is within the bound of the other. -/
theorem approximationBounds : Obligations.ApproximationBounds := by
  intro z x
  refine ⟨fun s => approximations_of_nan, fun n => approximations_of_inf, fun n e => approximations_of_zero, ?_⟩
  rintro v ⟨n, m, e, h, rfl⟩
  have hreal : (signed n m : ℝ) * 2 ^ e = realOf n m e := rfl
  rw [hreal]
  exact ⟨vrsqVal_vlog2Val_of_neg h, vrcpVal_bounds h, vrsqVal_bounds h, vexp2Val_of_ge h,
    fun hlow => vexp2Val_of_lt h (by linarith) hlow, fun k => vexp2Val_int h, vexp2Val_bounds h, fun k => vlog2Val_pow h,
    vlog2Val_bounds h⟩

end Sys2Proof.Machine
end

section
/-!
BIND, UNBIND and the sluices (R271, R277, R278, R352): the effect that each word ends in, and what the event that answers it leaves in the
slot, the handler table and the tile.
-/

namespace Sys2Proof.Machine

variable {s r : State} {w : Operands} {core slot addr tile d n : Nat}

/-! ## BIND and UNBIND -/

theorem effBind_asks (hd : r.deferredIn 0x280 w [0, 2] = none) (halign : (r.val w.a).toNat % 4 = 0) (hhigh : bits (r.val w.a) 56 8 = 0) :
    effBind w r = .halt (r.modMe (fun a => { a with asked := some (.bind ((r.val w.c).toNat % 4096) (some (r.val w.a))) })) := by
  unfold effBind
  simp only [hd, halign, hhigh, bne_self_eq_false, Bool.or_false, Bool.false_eq_true, if_false]

theorem effBind_misaligned (hd : r.deferredIn 0x280 w [0, 2] = none) (h : (r.val w.a).toNat % 4 ≠ 0 ∨ bits (r.val w.a) 56 8 ≠ 0) :
    effBind w r = .fault { code := 0x02, addr := r.val w.a } r := by
  have hbad : ((r.val w.a).toNat % 4 != 0 || bits (r.val w.a) 56 8 != 0) = true := by simpa using h
  unfold effBind
  simp only [hd, hbad, if_true]

theorem effUnbind_asks (hd : r.deferredIn 0x281 w [2] = none) :
    effUnbind w r = .halt (r.modMe (fun a => { a with asked := some (.bind ((r.val w.c).toNat % 4096) none) })) := by
  unfold effUnbind
  simp only [hd]

/-- The state after BIND_COMPLETE: the entry stands in the table of the slot's partition, and S goes on (R271). -/
def State.bound (s : State) (k t : Nat) (e : Option Word) : State :=
  (s.modPart (s.act k).part (fun p => { p with handlers := tset none t e p.handlers })).modAct k Act.answer

theorem execBindComplete_asked {t : Nat} {e : Option Word} (hask : (s.act (8 * core + slot)).asked = some (.bind t e)) :
    execBindComplete core slot s = .next (s.bound (8 * core + slot) t e) := by
  unfold execBindComplete
  simp only [hask]
  rfl

theorem act_bound (k t : Nat) (e : Option Word) : (s.bound k t e).act k = (s.act k).answer :=
  State.act_modAct _ _ _

/-- An entry of a handler table is read back, and the other entries stand (R271). -/
theorem handler_tset (p : Part) (t x : Nat) (e : Option Word) :
    ({ p with handlers := tset none t e p.handlers } : Part).handler x = if x = t then e else p.handler x := by
  unfold Part.handler
  split
  · next h => rw [h, tget_tset_same]
  · next h => rw [tget_tset_other _ h]

theorem handler_bound (k t x : Nat) (e : Option Word) : ((s.bound k t e).part (s.act k).part).handler x =
    if x = t then e else (s.part (s.act k).part).handler x := by
  have hpart : (s.bound k t e).part (s.act k).part =
      { s.part (s.act k).part with handlers := tset none t e (s.part (s.act k).part).handlers } :=
    State.part_modPart s _ (fun p => { p with handlers := tset none t e p.handlers })
  rw [hpart, handler_tset]

theorem bindCompletes : BindCompletes := by
  refine ⟨fun w s r hi hd => ⟨fun halign hhigh => issue_halt hi (effBind_asks hd halign hhigh),
    fun hbad => issue_fault hi (effBind_misaligned hd hbad)⟩, fun w s r hi hd => issue_halt hi (effUnbind_asks hd), ?_⟩
  intro s core slot t e hask
  refine ⟨_, execBindComplete_asked hask, ?_, fun x hx => ?_, ?_, ?_⟩
  · rw [handler_bound, if_pos rfl]
  · rw [handler_bound, if_neg hx]
  · rw [act_bound]
    rfl
  · rw [act_bound]
    rfl

/-! ## SLOPEN -/

theorem effSlopen_asks (hd : r.deferredIn 0x284 w [1] = none) (hclosed : (r.me.sluice (r.sluiceNum w)).isOpen = false)
    (hfree : r.me.oblFree.isSome = true) : effSlopen w r = .halt (r.modMe (fun a =>
      { a with asked := some (.slopen w (bits (r.val w.b) 4 25).toNat (bits (r.val w.b) 0 4).toNat none) })) := by
  have hroom : r.me.oblFree.isNone = false := by rw [← Option.not_isSome, hfree]; rfl
  unfold effSlopen
  simp only [hd, hclosed, hroom, Bool.or_false, Bool.false_eq_true, if_false]

theorem effSlopen_full (hd : r.deferredIn 0x284 w [1] = none)
    (h : (r.me.sluice (r.sluiceNum w)).isOpen = true ∨ r.me.oblFree = none) : effSlopen w r =
      .fault { code := 0x24, addr := closeOf (bits (r.val w.b) 4 25).toNat (bits (r.val w.b) 0 4).toNat } r := by
  have hbad : ((r.me.sluice (r.sluiceNum w)).isOpen || r.me.oblFree.isNone) = true := by simpa using h
  unfold effSlopen
  simp only [hd, hbad, if_true]

/-! ## The answer to a SLOPEN -/

/-- What travels between two cores changes neither a slot nor a core's tables. -/
theorem carryWay_keeps (s : State) (a b : Nat) : (s.carryWay a b).acts = s.acts ∧ (s.carryWay a b).cores = s.cores := by
  unfold State.carryWay
  split
  · exact List.foldlRecOn (motive := fun t : State => t.acts = s.acts ∧ t.cores = s.cores) _ _ ⟨rfl, rfl⟩ fun _ h _ _ => h
  · exact ⟨rfl, rfl⟩

theorem oblAcquire_pc {a b : Act} {k : OblKind} {h : Word} {rank : Rank} (e : a.oblAcquire k h rank n = some b) : b.pc = a.pc := by
  unfold Act.oblAcquire at e
  split at e
  · split at e
    · cases e
      rfl
    · cases e
  · split at e
    · split at e
      · cases e
        rfl
      · cases e
    · cases e

/-- Whether a tile may take a sluice from a core: its core is of the die and the partition and has not left, the tile is defined and
empty, and the way has a channel free (R278). -/
def State.takesSluice (s : State) (core part d tile : Nat) : Bool :=
  dieOf d == dieOf core && (s.core d).part == some part && !(s.core d).left && (s.tile d tile).size != 0 &&
    (s.tile d tile).state == .empty && s.channelFree core d

theorem takesSluice_iff {part : Nat} : s.takesSluice core part d tile = true ↔ dieOf d = dieOf core ∧ (s.core d).part = some part ∧
    (s.core d).left = false ∧ (s.tile d tile).size ≠ 0 ∧ (s.tile d tile).state = .empty ∧ s.channelFree core d = true := by
  simp [State.takesSluice, and_assoc]

/-- The state with a route granted (R278): the tile fills, and `a`, the activation with CLOSE acquired, has its sluice open. -/
def State.sluiceOpened (s : State) (core k d tile : Nat) (w : Operands) (a : Act) : State :=
  ((s.setTile d tile { s.tile d tile with state := .filling, by_ := .sluice }).setAct k
    (a.setSluice ((match w.c with | .imm v => v.toNat | _ => 0) % 4)
      { isOpen := true, src := core, core := d, tile := tile })).carryWay core d

theorem act_sluiceOpened (k : Nat) (a : Act) : ∃ i x, (s.sluiceOpened core k d tile w a).act k = a.setSluice i x :=
  ⟨_, _, (congrArg (tget ({} : Act) k) (carryWay_keeps _ core d).1).trans (State.act_setAct _ k _)⟩

theorem tile_sluiceOpened (k : Nat) (a : Act) :
    (s.sluiceOpened core k d tile w a).tile d tile = { s.tile d tile with state := .filling, by_ := .sluice } := by
  have hcore : (s.sluiceOpened core k d tile w a).core d = (s.setTile d tile _).core d :=
    congrArg (tget ({} : Core) d) (carryWay_keeps _ core d).2
  unfold State.tile
  rw [hcore]
  exact tile_setTile s d tile _

theorem opndNum_of_reg {f : File} {rot : Bool} {g : BitVec 6} (h : w.a = .reg f rot g) : opndNum w.a = g.toNat := by
  rw [h]
  rfl

/-- The question reaches the tile, and its bid stands from this cycle on (log entry 115). -/
theorem execSluiceAnswer_reaches (hask : (s.act (8 * core + slot)).asked = some (.slopen w addr tile none)) :
    execSluiceAnswer core slot false s =
      .next (s.modAct (8 * core + slot) (fun a => { a with asked := some (.slopen w addr tile (some s.cycle)) })) := by
  unfold execSluiceAnswer
  simp only [hask, Bool.false_eq_true, if_false]

/-! What a won bid leads to: the route is granted or refused. -/

section Answered
variable {c : Nat} (hask : (s.act (8 * core + slot)).asked = some (.slopen w addr tile (some c)))
  (hwin : s.bidWins core addr tile c = true)
include hask hwin

theorem execSluiceAnswer_grants {a : Act} (hd : coreOfAddr addr = some d)
    (htake : s.takesSluice core (s.act (8 * core + slot)).part d tile = true)
    (hacq : (s.act (8 * core + slot)).oblAcquire .close (closeOf addr tile) (s.tile d tile).rank 1 = some a) :
    execSluiceAnswer core slot true s = .next ((s.sluiceOpened core (8 * core + slot) d tile w a).modAct (8 * core + slot)
      (fun a => (a.gSet (opndNum w.a) .t).answer)) := by
  unfold State.takesSluice at htake
  unfold execSluiceAnswer
  simp only [hask, hwin, hd, Option.bind_some, htake, hacq, Bool.not_true, Bool.or_false, Bool.false_eq_true, if_true, if_false]
  rfl

theorem execSluiceAnswer_refuses (hno : ∀ d, coreOfAddr addr = some d →
      s.takesSluice core (s.act (8 * core + slot)).part d tile = true →
      (s.act (8 * core + slot)).oblAcquire .close (closeOf addr tile) (s.tile d tile).rank 1 = none) :
    execSluiceAnswer core slot true s = .next (s.modAct (8 * core + slot) (fun a => (a.gSet (opndNum w.a) .f).answer)) := by
  unfold State.takesSluice at hno
  unfold execSluiceAnswer
  simp only [hask, hwin, Bool.not_true, Bool.or_false, Bool.false_eq_true, if_false]
  cases hd : coreOfAddr addr with
  | none => rfl
  | some d =>
    simp only [Option.bind_some]
    split
    · rfl
    · next hgrant =>
      obtain ⟨htake, hsame⟩ := Option.ite_none_right_eq_some.1 hgrant
      cases hsame
      rw [hno d hd htake]
      rfl

/-- A granted route sets the guard in A and fills the tile, and S goes on after the SLOPEN (R277, R278). -/
theorem sluiceAnswer_granted {rot : Bool} {g : BitVec 6} (hguard : w.a = .reg .g rot g) (hg : g ≠ 0) (hd : coreOfAddr addr = some d)
    (htake : s.takesSluice core (s.act (8 * core + slot)).part d tile = true)
    (hroom : ((s.act (8 * core + slot)).oblAcquire .close (closeOf addr tile) (s.tile d tile).rank 1).isSome = true) :
    ∃ u : State, exec (.sluiceAnswer core slot true) s = .next u ∧ (u.act (8 * core + slot)).gGet g.toNat = .t ∧
      (u.tile d tile).state = .filling ∧ (u.act (8 * core + slot)).pc = (s.act (8 * core + slot)).pc + 12 := by
  obtain ⟨a, hacq⟩ := Option.isSome_iff_exists.1 hroom
  obtain ⟨i, x, hact⟩ := act_sluiceOpened (s := s) (core := core) (d := d) (tile := tile) (w := w) (8 * core + slot) a
  have hpos : g.toNat ≠ 0 := fun h => hg (BitVec.eq_of_toNat_eq h)
  refine ⟨_, execSluiceAnswer_grants hask hwin hd htake hacq, ?_, ?_, ?_⟩
  · rw [State.act_modAct, opndNum_of_reg hguard]
    exact Act.gGet_gSet _ hpos _
  · exact congrArg Tile.state (tile_sluiceOpened (8 * core + slot) a)
  · rw [State.act_modAct, hact, ← oblAcquire_pc hacq]
    exact congrArg (· + 12) (Act.gSet_pc _ _ _)

end Answered

/-! ## SLWR -/

/-- The bytes that an SLWR writes: the active lanes' of a vector, or those of a scalar (R277). -/
def State.slwrBytes (s : State) (w : Operands) : List Byte :=
  if w.head.stream == .V then (bytesOfVec (s.vecOf w.a)).take (4 * s.vl) else leBytes 8 (s.val w.a).toNat

/-- The address, in the LOC of the core of its tile, that an SLWR through sluice `x` writes at. -/
def State.slwrOff (s : State) (x : Sluice) : Nat := 64 * (s.tile x.core x.tile).base + x.off

/-- The state after an SLWR within its tile: the run written, and the sluice's offset moved past it. -/
def State.sluiceWritten (s : State) (w : Operands) (x : Sluice) : State :=
  (s.locPut (32768 * x.core + s.slwrOff x) (s.slwrBytes w)).modMe
    (fun a => a.setSluice (s.sluiceNum w) { x with off := x.off + (s.slwrBytes w).length })

theorem effSlwr_open (hd : (if w.head.stream == .V then r.firstDeferredV (vOf w.a) else r.deferredIn 0x285 w [0]) = none)
    (hopen : (r.me.sluice (r.sluiceNum w)).isOpen = true) : effSlwr w r =
      let x := r.me.sluice (r.sluiceNum w)
      if 64 * (r.tile x.core x.tile).size < x.off + (r.slwrBytes w).length
      then .fault { code := 0x08, space := 1, addr := BitVec.ofNat 64 (r.slwrOff x) } r
      else .done (r.sluiceWritten w x) := by
  unfold effSlwr
  dsimp only
  rw [hd]
  exact if_neg (by simp [hopen])

theorem sluiceWritten_mems (s : State) (w : Operands) (x : Sluice) : (s.sluiceWritten w x).mems =
    { s.mems with loc := mwrite (32768 * x.core + s.slwrOff x) (s.slwrBytes w) s.loc } := by
  obtain ⟨l, h⟩ := unpoison_eq s locGranule (32768 * x.core + s.slwrOff x) (s.slwrBytes w).length
  unfold State.sluiceWritten State.locPut
  rw [h]
  rfl

theorem sluice_setSluice (a : Act) (n : Nat) (x : Sluice) : (a.setSluice n x).sluice n = x := tget_tset_same _ _ _ _

/-- What an SLWR within its tile leaves once it has issued: LOC with its run written, the other memories as they were, and its sluice
further on. -/
theorem sluiceWritten_issued {opc : Nat} (x : Sluice) : ((r.sluiceWritten w x).issued opc w).mems =
      { r.mems with loc := mwrite (32768 * x.core + r.slwrOff x) (r.slwrBytes w) r.loc } ∧
    (((r.sluiceWritten w x).issued opc w).act r.cur).sluice (r.sluiceNum w) = { x with off := x.off + (r.slwrBytes w).length } := by
  have hgo := (GoesOn.refl (r.sluiceWritten w x)).issued opc w
  have hcur : (r.sluiceWritten w x).cur = r.cur := by
    obtain ⟨l, h⟩ := unpoison_eq r locGranule (32768 * x.core + r.slwrOff x) (r.slwrBytes w).length
    unfold State.sluiceWritten State.locPut
    rw [h]
    rfl
  refine ⟨hgo.mems.trans (sluiceWritten_mems r w x), ?_⟩
  have hmine := hgo.mine
  unfold Advanced at hmine
  rw [← hcur, hmine]
  exact (congrArg (fun a => Act.sluice a (r.sluiceNum w)) (State.me_modMe _ _)).trans (sluice_setSluice _ _ _)

/-- An SLWR within its tile writes its run to LOC and no other byte of any memory (R277). -/
theorem slwr_withinTile (hi : Issues 0x285 w false s r) {x : Sluice} (heff : effSlwr w r = .done (r.sluiceWritten w x)) :
    let at_ := 32768 * x.core + r.slwrOff x
    let bs := r.slwrBytes w
    ∃ u : State, exec (.slwr w) s = .next u ∧ (∀ j, (j < at_ ∨ at_ + bs.length ≤ j) → u.locByte j = s.locByte j) ∧
      (∀ i, i < bs.length → u.locByte (at_ + i) = bs.getD i 0) ∧ u.shm = s.shm ∧ u.glb = s.glb ∧ u.host = s.host ∧
      (u.act r.cur).sluice (r.sluiceNum w) = { x with off := x.off + bs.length } := by
  obtain ⟨hmems, hsluice⟩ := sluiceWritten_issued (r := r) (w := w) (opc := 0x285) x
  rw [hi.mems] at hmems
  have hbefore : r.loc = s.loc := congrArg Mems.loc hi.mems
  have hloc : ((r.sluiceWritten w x).issued 0x285 w).loc = _ := congrArg Mems.loc hmems
  refine ⟨_, issue_done hi heff, fun j hj => ?_, fun i hlt => ?_, congrArg Mems.shm hmems, congrArg Mems.glb hmems,
    congrArg Mems.host hmems, hsluice⟩
  · unfold State.locByte
    rw [hloc, hbefore]
    exact mget_mwrite_other _ _ hj
  · unfold State.locByte
    rw [hloc]
    exact mget_mwrite_same _ _ hlt

/-! ## SLCLOSE -/

theorem effSlclose_asks (hbehind : r.earlier.any (fun p => p.gv != some false && opcField p.word == 0x285) = false)
    (hopen : (r.me.sluice (r.sluiceNum w)).isOpen = true) (hrel : Ord_rel w.ord = true → r.releaseReady w.scope = true) :
    effSlclose w r = .halt (r.modMe (fun a => { a with asked := some (.slclose (r.sluiceNum w)) })) := by
  unfold effSlclose
  simp only [hbehind, hopen, release_ok hrel, Bool.not_true, Bool.false_eq_true, if_false]

theorem execSluiceCloseAck_asked (hask : (s.act (8 * core + slot)).asked = some (.slclose n)) :
    execSluiceCloseAck core slot s = .next (((s.modAct (8 * core + slot) (fun a =>
      ((a.oblDischarge .close (closeOf (coreAddr ((s.act (8 * core + slot)).sluice n).core)
        ((s.act (8 * core + slot)).sluice n).tile)).setSluice n {}).answer)).tileReady
      ((s.act (8 * core + slot)).sluice n).core ((s.act (8 * core + slot)).sluice n).tile false).carryWay core
      ((s.act (8 * core + slot)).sluice n).core) := by
  unfold execSluiceCloseAck
  simp only [hask]

/-! ## The sluices together -/

theorem sluicesComplete : SluicesComplete := by
  refine ⟨fun w s r hi hd => ⟨fun hclosed hfree => issue_halt hi (effSlopen_asks hd hclosed hfree),
      fun hfull => issue_fault hi (effSlopen_full hd hfull)⟩,
    fun s core slot addr tile w hask => execSluiceAnswer_reaches hask, ?_, ?_,
    fun w s r hi hbehind hopen hrel => issue_halt hi (effSlclose_asks hbehind hopen hrel),
    fun s core slot n hask => execSluiceCloseAck_asked hask⟩
  · intro s core slot addr tile c w rot g hask hguard hg hwin
    refine ⟨fun d hd hfits => ?_, fun hno => ?_⟩
    · obtain ⟨hdie, hpart, hstays, hsize, hempty, hfree, hroom⟩ := hfits
      exact sluiceAnswer_granted hask hwin hguard hg hd (takesSluice_iff.2 ⟨hdie, hpart, hstays, hsize, hempty, hfree⟩) hroom
    · rw [← opndNum_of_reg hguard]
      refine execSluiceAnswer_refuses hask hwin fun d hd htake => ?_
      obtain ⟨hdie, hpart, hstays, hsize, hempty, hfree⟩ := takesSluice_iff.1 htake
      exact Option.not_isSome_iff_eq_none.1 fun hroom => hno d hd ⟨hdie, hpart, hstays, hsize, hempty, hfree, hroom⟩
  · intro w s r hi hd
    refine ⟨fun hopen hpast => issue_fault hi ((effSlwr_open hd hopen).trans (if_pos hpast)), fun hopen hwithin => ?_⟩
    exact slwr_withinTile hi ((effSlwr_open hd hopen).trans (if_neg (Nat.not_lt.2 hwithin)))

/-- Settles O21: each word passes its checks and asks or writes, and the event that answers it is taken by what the slot has asked. -/
theorem bindAndSluices : Obligations.BindAndSluices := ⟨bindCompletes, sluicesComplete⟩

end Sys2Proof.Machine
end

section
/-!
Compares and moves (R196, R358, R369, R379, R389), guards and masks (R73, R75, R372, R385): what each of these words ends in, by its
sources and its destination.
-/

namespace Sys2Proof.Machine

variable {w : Operands} {s r s1 s2 : State} {x y : Word} {dx dy : Bool}

theorem raise_zero (s : State) : s.raise 0 = s := if_pos rfl

/-! ## Compares -/

theorem compare_done (f : (x y : Word) → Bool × Bool × Word) (hx : r.src w.b = some (x, false, s1))
    (hy : s1.srcC w = some (y, false, s2)) :
    compare w f r = .done ((s2.raise (f x y).2.2).wroteGG (opndNum w.a) (f x y).1 (f x y).2.1) := by
  simp only [compare, hx, hy, Bool.false_eq_true, if_false]
  rfl

/-- A deferred source faults, the one in B before the one in C (R196). -/
theorem compare_deferred (f : (x y : Word) → Bool × Bool × Word) (hx : r.src w.b = some (x, dx, s1))
    (hy : s1.srcC w = some (y, dy, s2)) (hd : (dx || dy) = true) :
    compare w f r = .fault (deferredUse false (if dx then opndNum w.b else opndNum w.c)) r := by
  simp only [compare, hx, hy]
  cases dx with
  | true => rfl
  | false => exact if_pos hd

/-- A word whose effect is a comparison completes with what it compares. -/
theorem compareWord_of_exec {mk : Operands → Instr} {opc : Nat} {f : State → Operands → (x y : Word) → Bool × Bool × Word}
    (h : ∀ w s, exec (mk w) s = issue opc w (compare w (f s w)) s) : CompareWord mk opc f := by
  intro w s r s1 s2 x y rot n hi ha hx hy
  rw [h, issue_done hi (compare_done _ hx hy), ha]
  rfl

theorem exec_compare {p : (Operands → Instr) × Nat} (hp : p ∈ [(Instr.cmp, 0x007), (Instr.fcmp, 0x082)]) (w : Operands) (s : State) :
    ∃ f, exec (p.1 w) s = issue p.2 w (compare w f) s := by
  fin_cases hp
  · exact ⟨_, rfl⟩
  · exact ⟨_, rfl⟩

theorem compareResults : CompareResults := by
  refine ⟨compareWord_of_exec fun _ _ => rfl, compareWord_of_exec fun _ _ => rfl, fun p hp w s r s1 s2 x y dy hi hx hy => ?_,
    fun p hp w s r s1 s2 x y hi hx hy => ?_⟩
  all_goals obtain ⟨f, hexec⟩ := exec_compare hp w s
  · rw [hexec, issue_fault hi (compare_deferred f hx hy (Bool.true_or dy))]
    rfl
  · rw [hexec, issue_fault hi (compare_deferred f hx hy rfl)]
    rfl

/-! ## Moves -/

theorem put_register (s s0 : State) (rot : Bool) (n : BitVec 6) (v : Word) :
    s.put s0 (.reg .s rot n) v 0 = .done (s.wroteS n.toNat v) := by
  rw [put_reg, raise_zero]
  rfl

theorem put_push {s0 : State} {pk : Bool} {n : BitVec 3} (hroom : (s.me.qGet n.toNat).length < 8) (v : Word) :
    s.put s0 (.queue pk n) v 0 = .done (s.pushed n.toNat v) := by
  rw [put_queue hroom, raise_zero]

/-- What MOV of S does is the body of layout AR with C as its result. -/
def copyC (w : Operands) : State → Res := arith w false (fun _ _ y => (y, 0))

theorem exec_mov_S (hS : w.head.stream = .S) (s : State) : exec (.mov w) s = issue 0x012 w (copyC w) s := by
  change issue 0x012 w (if w.head.stream == .S then _ else _) s = _
  rw [hS]
  rfl

theorem exec_mov_VE (hS : w.head.stream ≠ .S) (s : State) : exec (.mov w) s = issue 0x012 w (movVE w) s := by
  change issue 0x012 w (if w.head.stream == .S then _ else _) s = _
  rw [if_neg (by simpa using hS)]

section
variable (hx : r.src (opndB w) = some (x, dx, s1)) (hy : s1.srcC w = some (y, dy, s2))
include hx hy

theorem copyC_defined (hd : (dx || dy) = false) : copyC w r = s2.put r w.a y 0 := by
  obtain ⟨rfl, rfl⟩ := Bool.or_eq_false_iff.1 hd
  exact arith_done hx hy rfl

theorem copyC_deferred (hd : (dx || dy) = true) :
    copyC w r = s2.putDeferred r w.a (deferredUse false (if dx then opndNum (opndB w) else opndNum w.c)) :=
  arith_deferred (tied := false) hx hy (by simpa using hd) _

theorem copyC_register {rot : Bool} {n : BitVec 6} (ha : w.a = .reg .s rot n) :
    copyC w r = .done (if dx || dy then s2.deferredS n.toNat else s2.wroteS n.toNat y) := by
  cases hd : dx || dy with
  | true => rw [copyC_deferred hx hy hd, ha, putDeferred_reg, if_pos rfl]
  | false => rw [copyC_defined hx hy hd, ha, put_register, if_neg Bool.false_ne_true]

end

theorem effLih_register {rot : Bool} {n : BitVec 6} (ha : w.a = .reg .s rot n) (v : Word) (f : FaultReq) :
    (if r.dfr w.a then r.putDeferred r w.a f else r.put r w.a v 0) =
      .done (if r.dfr w.a then r.deferredS n.toNat else r.wroteS n.toNat v) := by
  cases hd : r.dfr w.a with
  | true => rw [if_pos rfl, if_pos rfl, ha, putDeferred_reg]
  | false => rw [if_neg Bool.false_ne_true, if_neg Bool.false_ne_true, ha, put_register]

theorem movVE_vector {p q : Bool} {n c : BitVec 6} (ha : w.a = .reg .v p n) (hc : w.c = .reg .v q c) :
    movVE w r = .done (if r.me.vDef c.toNat then r.modMe (fun a => a.vSet n.toNat Vec.zero true)
      else r.wroteV n.toNat (r.me.vGet c.toNat)) := by
  simp only [movVE, ha, hc]
  cases r.me.vDef c.toNat with
  | true => rfl
  | false => rfl

theorem movVE_mask {p q : Bool} {n c : BitVec 6} (ha : w.a = .reg .m p n) (hc : w.c = .reg .m q c) :
    movVE w r = .done (r.wroteM n.toNat (r.me.mGet c.toNat)) := by
  simp only [movVE, ha, hc]
  rfl

theorem movVE_queue {pk pc d : Bool} {n c : BitVec 3} (ha : w.a = .queue pk n) (hc : w.c = .queue pc c)
    (hx : r.src w.c = some (x, d, s1)) (hroom : (s1.me.qGet n.toNat).length < 8) : movVE w r = .done (s1.pushed n.toNat x) := by
  rw [hc] at hx
  simp only [movVE, ha, hc, hx]
  exact put_push hroom x

theorem moveResults : MoveResults := by
  refine ⟨fun w s r hi => ⟨fun rot n ha => issue_done hi ?_, fun pk n ha hroom => issue_done hi ?_⟩,
    fun w s r rot n hi ha => issue_done hi (effLih_register ha _ _), fun w s r s1 s2 x y dx dy hS hi hx hy => ?_,
    fun w s r p q n c hS hi ha hc => (exec_mov_VE hS s).trans (issue_done hi (movVE_vector ha hc)),
    fun w s r p q n c hS hi ha hc => (exec_mov_VE hS s).trans (issue_done hi (movVE_mask ha hc)),
    fun w s r s1 x d pk pc n c hS hi ha hc hx hroom =>
      (exec_mov_VE hS s).trans (issue_done hi (movVE_queue ha hc hx hroom))⟩
  · rw [ha, put_register]
  · rw [ha, put_push hroom]
  · rw [exec_mov_S hS]
    refine ⟨fun rot n ha => issue_done hi (copyC_register hx hy ha), fun pk n ha hd hroom => issue_done hi ?_,
      fun pk n ha hdx hdy => issue_fault hi ?_⟩
    · rw [copyC_defined hx hy hd, ha, put_push hroom]
    · subst hdx hdy
      rw [copyC_deferred hx hy rfl, ha, putDeferred_queue]
      rfl

/-- Settles O3: a compare's effect is `compare`, and a move's is a write of its destination with what its source holds. -/
theorem comparesAndMoves : Obligations.ComparesAndMoves := ⟨compareResults, moveResults⟩

/-! ## Guards and masks -/

theorem guardOperations : GuardOperations := by
  refine ⟨fun w s r b c hb hc => ⟨fun hi => issue_done hi ?_, fun hi => issue_done hi ?_⟩, fun w s r c hc hi => issue_done hi ?_⟩
  · simp only [hb, hc]
    rfl
  · simp only [hb, hc]
    rfl
  · simp only [hc]
    rfl

/-- The number of lanes that a mask names below the vector length (R385). -/
def State.maskCount (r : State) (w : Operands) : Nat := ones 16 (r.below (r.mask w.c)).toNat

/-- MPOP's effect (R385). -/
def effMpop (w : Operands) (r : State) : Res :=
  match w.a with
  | .queue _ _ => r.put r w.a (BitVec.ofNat 64 (r.maskCount w)) 0
  | a => .done (r.wroteV (opndNum a) (List.replicate 16 (BitVec.ofNat 32 (r.maskCount w))))

theorem exec_mpop (w : Operands) (s : State) : exec (.mpop w) s = issue 0x0A9 w (effMpop w) s := rfl

theorem effMpop_vector {rot : Bool} {n : BitVec 6} (ha : w.a = .reg .v rot n) :
    effMpop w r = .done (r.wroteV n.toNat (List.replicate 16 (BitVec.ofNat 32 (r.maskCount w)))) := by
  rw [effMpop, ha]
  rfl

theorem effMpop_queue {pk : Bool} {n : BitVec 3} (ha : w.a = .queue pk n) (hroom : (r.me.qGet n.toNat).length < 8) :
    effMpop w r = .done (r.pushed n.toNat (BitVec.ofNat 64 (r.maskCount w))) := by
  rw [effMpop, ha]
  exact put_push hroom _

theorem maskOperations : MaskOperations := fun w s _ =>
  ⟨fun hi => issue_done hi rfl, fun hi => issue_done hi rfl, fun hi => issue_done hi rfl, fun hi => issue_done hi rfl,
    fun hi => issue_done hi rfl, fun hi => issue_done hi rfl,
    fun hi _ _ ha => (exec_mpop w s).trans (issue_done hi (effMpop_vector ha)),
    fun hi _ _ ha hroom => (exec_mpop w s).trans (issue_done hi (effMpop_queue ha hroom))⟩

/-- Settles O5: each word's effect is one write of a guard, a mask, a register or a queue. -/
theorem guardsAndMasks : Obligations.GuardsAndMasks := ⟨guardOperations, maskOperations⟩

end Sys2Proof.Machine
end

section
/-!
Vectors beyond one lane (R427, R428, R430, R432 to R436): words that read several lanes, and the transfers between lanes, masks and
scalars.
-/

namespace Sys2Proof.Machine

variable {w : Operands} {s r s1 : State} {x : Word} {dx : Bool}

/-! ## Words that write lanes -/

theorem effVsplat_eq (hx : r.src w.c = some (x, dx, s1)) : effVsplat w r =
    .done (s1.afterLanes w dx (s1.active w.msk) (fun _ => (flushed w.ty r.ftz (laneExt w.ty x), 0))) := by
  unfold effVsplat
  rw [hx]
  exact lanes_afterLanes ..

/-! ## Blocks and trees -/

theorem effVqnt_eq (w : Operands) (r : State) :
    let q := sbQuantise w.ty ((upTo 16).map (fun i => if r.active w.msk i then ((r.vecOf w.c).lane i).toNat else 0))
    effVqnt w r = .done (if r.dfr w.c then r.putLanes w.a (fun _ => true) (fun _ => 0) true
      else (r.putLanes w.a (fun _ => true) (fun i => BitVec.ofNat 32 (q.1 / 2 ^ (32 * i)))).raise q.2) := by
  unfold effVqnt
  dsimp only
  split
  · rfl
  · rfl

/-- The root of VRED's tree (R235, R436). -/
def State.redRoot (r : State) (w : Operands) : Node :=
  (treeLevel r w (treeLevel r w (treeLevel r w (treeLevel r w ((upTo 16).map (fun i =>
    (if r.active w.msk i then some (laneIn w.ty ((r.vecOf w.b).lane i)) else none, (0 : Word)))))))).headD (none, 0)

theorem effVred_eq (w : Operands) (r : State) : effVred w r =
    .done (if r.dfr w.b then r.putLanes w.a (fun _ => true) (fun _ => 0) true
      else (r.putLanes w.a (fun _ => true) (fun _ => ((r.redRoot w).1.getD (identityVal w)).setWidth 32)).raise (r.redRoot w).2) := by
  unfold effVred
  dsimp only
  split
  · rfl
  · rfl

/-- A level over absent nodes gives half as many of them. -/
theorem treeLevel_absent (r : State) (w : Operands) (n : Nat) :
    treeLevel r w (List.replicate (2 * n) (none, 0)) = List.replicate n (none, 0) := by
  induction n with
  | zero => rfl
  | succ n ih =>
    change combineNode r w (none, 0) (none, 0) :: treeLevel r w (List.replicate (2 * n) (none, 0)) = _
    rw [ih]
    rfl

/-- With no lane active the root is absent, and no flag is raised. -/
theorem redRoot_absent (h : ∀ i, i < 16 → r.active w.msk i = false) : r.redRoot w = (none, 0) := by
  have hleaves : (upTo 16).map (fun i =>
      (if r.active w.msk i then some (laneIn w.ty ((r.vecOf w.b).lane i)) else none, (0 : Word))) = List.replicate (2 * 8) (none, 0) := by
    refine List.eq_replicate_iff.2 ⟨rfl, fun x hx => ?_⟩
    obtain ⟨i, hi, rfl⟩ := List.mem_map.1 hx
    rw [h i (mem_upTo.1 hi), if_neg Bool.false_ne_true]
  rw [State.redRoot, hleaves, treeLevel_absent, show (8 : Nat) = 2 * 4 from rfl, treeLevel_absent, show (4 : Nat) = 2 * 2 from rfl,
    treeLevel_absent, show (2 : Nat) = 2 * 1 from rfl, treeLevel_absent]
  rfl

theorem vectorCrossLaneResults : VectorCrossLaneResults := by
  refine ⟨fun w s r => ⟨fun hi => issue_done hi (lanes_afterLanes ..), fun hi => issue_done hi (lanes_afterLanes ..),
      fun hi => issue_done hi (lanes_afterLanes ..), fun hi => issue_done hi (lanes_afterLanes ..),
       fun hi => issue_done hi (lanes_afterLanes ..),
      fun hi => issue_done hi (effVqnt_eq w r), fun hi => ⟨issue_done hi (effVred_eq w r), redRoot_absent⟩⟩,
    fun w s r s1 x dx hi hx => issue_done hi (effVsplat_eq hx)⟩

/-! ## VCMP -/

/-- A number's bits are its digits of width 1. -/
theorem digits_testBit (l : List Bool) (i : Nat) :
    (digits 1 (l.map (fun b => if b then 1 else 0))).testBit i = l.getD i false := by
  induction l generalizing i with
  | nil => simp [digits]
  | cons b l ih =>
    have hstep : digits 1 ((b :: l).map (fun b => if b then 1 else 0)) = 2 * digits 1 (l.map (fun b => if b then 1 else 0)) + b.toNat := by
      cases b <;> simp [digits, Nat.add_comm]
    rw [hstep]
    cases i with
    | zero => cases b <;> simp
    | succ i =>
      have hlt : b.toNat < 2 := b.toNat_lt
      rw [Nat.testBit_succ, Nat.mul_add_div (by omega), Nat.div_eq_of_lt hlt, Nat.add_zero, ih]
      rfl

/-- A mask of the lanes that a test accepts. -/
def laneMask (p : Nat → Bool) : BitVec 16 := BitVec.ofNat 16 (digits 1 ((upTo 16).map (fun i => if p i then 1 else 0)))

theorem laneMask_getLsbD (p : Nat → Bool) {i : Nat} (hi : i < 16) : (laneMask p).getLsbD i = p i := by
  have hmap : (upTo 16).map (fun i => if p i then 1 else 0) = ((upTo 16).map p).map (fun b => if b then 1 else 0) := by
    rw [List.map_map]
    rfl
  rw [laneMask, hmap, BitVec.getLsbD_ofNat, decide_eq_true hi, Bool.true_and, digits_testBit, List.getD_eq_getElem?_getD,
    List.getElem?_map, upTo_eq_range, List.getElem?_range hi]
  rfl

/-- What VCMP finds of lane i: less, equal, and flags (R428). -/
def State.laneCompared (r : State) (w : Operands) (i : Nat) : Bool × Bool × Word :=
  let x := ((r.vecOf w.b).lane i).zeroExtend 64
  let y := r.laneC w.ty w.c i
  if w.ty.isFloat then fcmpVal w.ty r.ftz x y else (decide (ival w.ty x < ival w.ty y), ival w.ty x == ival w.ty y, 0)

/-- A mask with the active lanes' bits replaced. -/
def State.maskMerged (r : State) (w : Operands) (old : BitVec 16) (f : Nat → Bool) : BitVec 16 :=
  laneMask (fun i => if r.active w.msk i then f i else old.getLsbD i)

theorem maskMerged_active {i : Nat} (hi : i < 16) (ha : r.active w.msk i = true) (old : BitVec 16) (f : Nat → Bool) :
    (r.maskMerged w old f).getLsbD i = f i := by
  rw [State.maskMerged, laneMask_getLsbD _ hi, if_pos ha]

theorem maskMerged_inactive {i : Nat} (hi : i < 16) (ha : r.active w.msk i = false) (old : BitVec 16) (f : Nat → Bool) :
    (r.maskMerged w old f).getLsbD i = old.getLsbD i := by
  rw [State.maskMerged, laneMask_getLsbD _ hi, if_neg (by simp [ha])]

theorem effVcmp_defined (hv : r.firstDeferredV (vOf w.b ++ vOf w.c) = none) (hs : r.firstDeferred (sOf 0x103 2 w.c) = none) :
    effVcmp w r = .done ((r.modMe (fun a =>
      (a.mSet (opndNum w.a) (r.maskMerged w (r.me.mGet (opndNum w.a)) (fun i => (r.laneCompared w i).1))).mSet (opndNum w.a + 1)
        (r.maskMerged w (r.me.mGet (opndNum w.a + 1)) (fun i => (r.laneCompared w i).2.1)))).raise
      (laneFlags (r.active w.msk) (fun i => (r.laneCompared w i).2.2))) := by
  unfold effVcmp
  rw [hv, hs]
  exact congrArg (fun u : State => Res.done (u.raise _)) (r.modAct_congr rfl)

/-! ## VEXT, VINS and VLGET -/

/-- VEXT's effect (R432). -/
def effVext (w : Operands) (r : State) : Res :=
  match r.firstDeferredV (vOf w.b), r.firstDeferred (sOf 0x107 2 w.c) with
  | some f, _ => .fault f r
  | none, some f => .fault f r
  | none, none => r.put r w.a (laneExt w.ty (((r.vecOf w.b).lane (r.laneIndex w.c)).zeroExtend 64)) 0

theorem exec_vext (w : Operands) (s : State) : exec (.vext w) s = issue 0x107 w (effVext w) s := rfl

theorem effVext_defined (hv : r.firstDeferredV (vOf w.b) = none) (hs : r.firstDeferred (sOf 0x107 2 w.c) = none) :
    effVext w r = r.put r w.a (laneExt w.ty (((r.vecOf w.b).lane (r.laneIndex w.c)).zeroExtend 64)) 0 := by
  rw [effVext, hv, hs]

theorem effVins_eq (hx : r.src w.b = some (x, dx, s1)) :
    let d := dx || r.dfr w.c || r.dfr w.a
    effVins w r = .done (s1.putLanes w.a (fun i => i == (r.val w.c).toNat % 16)
      (fun _ => if d then 0 else (laneExt w.ty x).setWidth 32) d) := by
  unfold effVins
  rw [hx]
  dsimp only
  cases dx || r.dfr w.c || r.dfr w.a with
  | true => rfl
  | false => rfl

theorem effVlget_scalar {rot : Bool} {n : BitVec 6} (ha : w.a = .reg .s rot n) (hd : r.dfr w.c = false) (hS : w.head.stream = .S) :
    effVlget w r = .done (r.modMe (fun a => { (a.sSet n.toNat (BitVec.ofNat 64 (min (r.val w.c).toNat 16))) with
      vl := min (r.val w.c).toNat 16, vlGen := a.vlGen + 1 })) := by
  have hnot : ¬ (w.head.stream == .V) = true := by simp [hS]
  rw [effVlget_grants hd]
  refine congrArg Res.done (r.modAct_congr ?_)
  rw [State.vlGranted, if_neg hnot, ha]
  rfl

theorem effVlget_vector {rot : Bool} {n : BitVec 6} (ha : w.a = .reg .s rot n) (hd : r.dfr w.c = false) (hV : w.head.stream = .V) :
    effVlget w r = .done (r.modMe (fun a => { (a.sSet n.toNat (BitVec.ofNat 64 (min (r.val w.c).toNat 16))) with
      vl := if a.vlGen = r.vlGen then min (r.val w.c).toNat 16 else a.vl,
      pend := a.pend.map (fun p => if p.strm == .V && p.vlGen == r.vlGen then { p with vl := min (r.val w.c).toNat 16 } else p) })) := by
  rw [effVlget_grants hd]
  refine congrArg Res.done (r.modAct_congr ?_)
  rw [State.vlGranted, if_pos (beq_iff_eq.2 hV), ha]
  rfl

theorem vectorScalarTransfers : VectorScalarTransfers := by
  refine ⟨fun w s r hi hv hs => ⟨_, _, _, issue_done hi (effVcmp_defined hv hs), fun i hlt => ?_⟩,
    fun w s r hi hv hs => ⟨fun rot n ha => (exec_vext w s).trans (issue_done hi ?_),
      fun pk n ha hroom => (exec_vext w s).trans (issue_done hi ?_)⟩,
    fun w s r s1 x dx hi hx => issue_done hi (effVins_eq hx),
    fun w s r rot n hi ha hd hS => issue_done hi (effVlget_scalar ha hd hS),
    fun w s r rot n hi ha hd hV => issue_done hi (effVlget_vector ha hd hV)⟩
  · refine ⟨fun hoff => ⟨maskMerged_inactive hlt hoff _ _, maskMerged_inactive hlt hoff _ _⟩,
       fun hon hint => ?_, fun hon hfloat => ?_⟩
    · rw [maskMerged_active hlt hon, maskMerged_active hlt hon, State.laneCompared, if_neg (by simp [hint])]
      exact ⟨rfl, rfl⟩
    · rw [maskMerged_active hlt hon, maskMerged_active hlt hon, State.laneCompared, if_pos hfloat]
      exact ⟨rfl, rfl⟩
  · rw [effVext_defined hv hs, ha, put_register]
    rfl
  · rw [effVext_defined hv hs, ha, put_push hroom]
    rfl

/-- Settles O7: the words that write lanes end as the lane loop does, and each of the others has one case for its operands. -/
theorem vectorCrossings : Obligations.VectorCrossings := ⟨vectorCrossLaneResults, vectorScalarTransfers⟩

end Sys2Proof.Machine
end

section
/-!
Atomics, reductions and fences (R157, R163, R164, R346, R347, R356, R396): what each word's effect is once its checks have passed.
-/

namespace Sys2Proof.Machine

variable {opc sp : Nat} {w : Operands} {s r t : State} {p : Piece} {ps : List Piece}

/-! ## Atomics -/

theorem effAtomic_issues (hd : r.deferredIn opc w [1, 0, 2] = none) (hrange : rangeFault sp (r.val w.b) = none)
    (halign : aligned sp (r.val w.b) w.ty.bytes = none)
    (haccess : r.access sp .atomic (r.val w.b).toNat w.ty.bytes r.storeExtra = .ok t (p :: ps))
    (hrel : Ord_rel w.ord = true → t.releaseReady w.scope = true) (hclean : t.poisonFault (p :: ps) = none) (op : Option Nat)
    (v expect : Word) : effAtomic opc sp w op v expect r = .done (t.issueAtomic opc w p op v expect) := by
  unfold effAtomic
  simp only [hd, hrange, halign, orFault, haccess, hclean, release_ok hrel, Bool.false_eq_true, if_false]

/-- A word whose effect is an atomic issues with its operation, operand and expected value. -/
theorem atomicWord_of_exec {mk : Operands → Instr} {f : Operands → State → Option Nat × Word × Word}
    (h : ∀ w s, exec (mk w) s = issue opc w (fun r => effAtomic opc sp w (f w r).1 (f w r).2.1 (f w r).2.2 r) s) :
    AtomicWord mk opc sp f :=
  fun w s _ _ _ _ hi hd hrange halign haccess hrel hclean =>
    (h w s).trans (issue_done hi (effAtomic_issues hd hrange halign haccess hrel hclean _ _ _))

theorem atomicsComplete : AtomicsComplete :=
  ⟨atomicWord_of_exec fun _ _ => rfl, atomicWord_of_exec fun _ _ => rfl, atomicWord_of_exec fun _ _ => rfl,
    atomicWord_of_exec fun _ _ => rfl⟩

/-! ## Reductions -/

section
variable (hd : r.deferredIn opc w [0, 1, 2] = none) (hrange : rangeFault sp (r.eaOf opc w) = none)
  (halign : aligned sp (r.eaOf opc w) w.ty.bytes = none)
  (haccess : r.access sp .atomic (r.eaOf opc w).toNat w.ty.bytes packedFault = .ok t [p])
  (hrel : Ord_rel w.ord = true → t.releaseReady w.scope = true) (hclean : t.poisonFault [p] = none)
include hd hrange halign haccess hrel hclean

/-- A reduction of another TYPE than its weir's (R167, R396). -/
theorem effRed_mismatch {f : FaultReq} (hf : t.weirType w.ty [p] = some f) : effRed opc sp w r = .fault f t := by
  unfold effRed
  simp only [hd, hrange, halign, orFault, haccess, hclean, release_ok hrel, hf, Bool.false_eq_true, if_false]

/-- A reduction whose element lies in one stretch enters the outbox. -/
theorem effRed_issues (hsame : t.weirType w.ty [p] = none) :
    let weir := if sp = 4 then t.weirAt (r.eaOf opc w).toNat else none
    effRed opc sp w r = .done (t.issueRed t.cur (p.at_ == .shm) p.pkey w.scope p.page.dup weir p.key w.ty (t.val w.b)
      (isSpec w && sp = 4 && weir.isNone && w.ty.isFloat) (t.nearMode && weir.isNone)) := by
  unfold effRed
  simp only [hd, hrange, halign, orFault, haccess, hclean, release_ok hrel, hsame, Bool.false_eq_true, if_false, List.foldl_cons,
    List.foldl_nil]

end

/-- A word whose effect is a reduction completes. -/
theorem reductionWord_of_exec {mk : Operands → Instr} (h : ∀ w s, exec (mk w) s = issue opc w (effRed opc sp w) s) :
    ReductionWord mk opc sp :=
  fun w s _ _ _ hi hd hrange halign haccess hrel hclean =>
    ⟨fun _ hf => (h w s).trans (issue_fault hi (effRed_mismatch hd hrange halign haccess hrel hclean hf)),
      fun hsame => (h w s).trans (issue_done hi (effRed_issues hd hrange halign haccess hrel hclean hsame))⟩

theorem reductionsComplete : ReductionsComplete := ⟨reductionWord_of_exec fun _ _ => rfl, reductionWord_of_exec fun _ _ => rfl⟩

/-! ## Fences -/

theorem effFence_done (h : r.fenceDone w.ord w.scope none = true) : effFence w r = .done r := if_pos h

theorem effFence_waits (h : r.fenceDone w.ord w.scope none = false) : effFence w r = .stall r := if_neg (by simp [h])

/-- An S word at the front end whose effect stalls is taken again, with its registers home. -/
theorem issue_stall {eff : State → Res} (hi : Issues opc w false s r) (he : eff r = .stall t) (hfront : t.iss = .front)
    (hS : w.head.stream = .S) : issue opc w eff s = .next t := by
  obtain ⟨q, hq⟩ := issueWord_of_issues hi eff
  rw [issue, hq, he]
  simp [conclude, hfront, hS]

theorem effFencer_empty (hd : r.deferredIn 0x209 w [0, 2] = none) (hn : r.val w.c = 0) : effFencer w r = .done r := by
  unfold effFencer
  rw [hd]
  exact if_pos hn

theorem effFencer_done (hd : r.deferredIn 0x209 w [0, 2] = none) (hfirst : (r.val w.a).toNat < 2 ^ 56)
    (hlast : (r.val w.a + r.val w.c - 1).toNat < 2 ^ 56)
    (h : r.fenceDone w.ord w.scope (some ((r.val w.a).toNat, (r.val w.c).toNat)) = true) : effFencer w r = .done r := by
  unfold effFencer
  rw [hd]
  dsimp only
  have hin : ¬ (decide (2 ^ 56 ≤ (r.val w.a).toNat) || decide (2 ^ 56 ≤ (r.val w.a + r.val w.c - 1).toNat)) = true := by
    rw [Bool.or_eq_true, decide_eq_true_eq, decide_eq_true_eq, not_or]
    exact ⟨not_le.2 hfirst, not_le.2 hlast⟩
  rw [if_neg hin, if_pos h, ite_self]

theorem fencesComplete : FencesComplete := by
  refine ⟨fun w s r hi h => issue_done hi (effFence_done h),
    fun w s r hi _ hS h hfront => issue_stall hi (effFence_waits h) hfront hS, fun w s r hi hd h => issue_done hi ?_⟩
  rcases h with hn | ⟨hfirst, hlast, h⟩
  · exact effFencer_empty hd hn
  · exact effFencer_done hd hfirst hlast h

/-- Settles O13: an atomic or a reduction whose checks pass enters the outbox, and a fence goes by whether it is complete. -/
theorem atomicsAndFences : Obligations.AtomicsAndFences := ⟨atomicsComplete, reductionsComplete, fencesComplete⟩

end Sys2Proof.Machine
end

section
/-!
Local time (R293, R294, R303 to R310): each word in and outside local-time mode, LTLOOK by the controller's answer and LTWAIT by the
state of its core.
-/

namespace Sys2Proof.Machine

variable {w : Operands} {s r : State} {dst : Nat}

/-! ## Words with one case -/

/-- A word with one destination register whose effect is to write it completes. -/
theorem readWord_of_eff {mk : Operands → Instr} {opc : Nat} {fields : List Nat}
    {f : State → Operands → Word} {eff : Operands → State → Res}
    (hexec : ∀ w s, exec (mk w) s = issue opc w (eff w) s)
    (heff : ∀ w r, r.deferredIn opc w fields = none → eff w r = .done (r.wroteS (opndNum w.a) (f r w))) : ReadWord mk opc fields f :=
  fun w s r hi hd => (hexec w s).trans (issue_done hi (heff w r hd))

theorem effLtadv_defined (hd : r.deferredIn 0x288 w [2] = none) :
    effLtadv w r = .done (if r.myPart.lt then r.raiseLvt r.myCore (r.val w.c).toNat else r) := by
  rw [effLtadv, hd]

theorem effLtget_defined (w : Operands) (r : State) (hd : r.deferredIn 0x28A w [2] = none) :
    effLtget w r = .done (r.wroteS (opndNum w.a) (r.ltItem ((r.val w.c).toNat % 256))) := by
  rw [effLtget, hd]
  rfl

theorem effLtnull_defined (hd : r.deferredIn 0x28C w [0, 2] = none) : effLtnull w r =
    .done (if r.myPart.lt then
      (if (r.val w.a).getLsbD 63 then upTo (r.core r.myCore).outs.length else [(r.val w.a).toNat % 16]).foldl
        (fun t j => t.promise t.myCore j (r.val w.c).toNat) r else r) := by
  rw [effLtnull, hd]

theorem effLtset_defined (hd : r.deferredIn 0x28D w [2] = none) : effLtset w r =
    .done (if r.myPart.lt then
      r.modMe (fun a => { a with stamp := if a.stamp.toNat < (r.val w.c).toNat then r.val w.c else a.stamp }) else r) := by
  rw [effLtset, hd]

/-! ## LTLOOK -/

/-- The controller can make the link that LTLOOK asks for (R304). -/
def State.canLink (r : State) (dst : Nat) (eng : Bool) (look : Nat) : Prop :=
  r.myPart.lt = true ∧ (r.core dst).part = some r.me.part ∧ (r.core dst).left = false ∧
    r.linkTo r.myCore dst eng = none ∧ (r.core r.myCore).outs.length < 16 ∧ (r.core dst).ins.length < 16 ∧
    r.myPart.links.length < 4096 ∧ look < 2 ^ 32

/-- The test by which the model refuses a link. -/
def State.refusesLink (r : State) (dst : Nat) (eng : Bool) (look : Nat) : Bool :=
  !r.myPart.lt || (r.core dst).part != some r.me.part || (r.core dst).left || (r.linkTo r.myCore dst eng).isSome ||
    16 ≤ (r.core r.myCore).outs.length || 16 ≤ (r.core dst).ins.length || 4096 ≤ r.myPart.links.length || 2 ^ 32 ≤ look

theorem refusesLink_eq_false {eng : Bool} {look : Nat} : r.refusesLink dst eng look = false ↔ r.canLink dst eng look := by
  simp only [State.refusesLink, State.canLink, Bool.or_eq_false_iff, Bool.not_eq_false', bne_eq_false_iff_eq,
    Option.isSome_eq_false_iff, Option.isNone_iff_eq_none, decide_eq_false_iff_not, not_le, and_assoc]

/-- The link that LTLOOK asks for, inserted with the values of R290, and the word that names it. -/
def State.linked (r : State) (w : Operands) (dst : Nat) : State :=
  (r.insertLink r.me.part { src := r.myCore, dst := dst, eng := (r.val w.b).getLsbD 63, look := (r.val w.c).toNat }
    (max (satAdd (r.core r.myCore).lvt (r.val w.c).toNat) (r.core dst).lvt)).wroteS (opndNum w.a)
    (wordOf [(16, (r.core r.myCore).outs.length), (0, r.myPart.links.length)])

/-- The core that LTLOOK names. -/
def State.lookTarget (r : State) (w : Operands) : Option Nat := coreOfAddr (bits (r.val w.b) 0 25).toNat

section
variable (hd : r.deferredIn 0x28B w [1, 2] = none)
include hd

theorem effLtlook_eq : effLtlook w r =
    match r.lookTarget w with
    | none => .done (r.wroteS (opndNum w.a) (BitVec.ofNat 64 never))
    | some dst =>
      if r.refusesLink dst ((r.val w.b).getLsbD 63) (r.val w.c).toNat then .done (r.wroteS (opndNum w.a) (BitVec.ofNat 64 never))
      else match (if (r.val w.c).toNat = 0 then zeroCycle r.myPart.links r.myCore dst else none) with
        | some a => .fault { code := 0x33, addr := a } r
        | none => .done (r.linked w dst) := by
  rw [effLtlook, hd]
  rfl

theorem effLtlook_refuses (h : ∀ dst, r.lookTarget w = some dst → ¬ r.canLink dst ((r.val w.b).getLsbD 63) (r.val w.c).toNat) :
    effLtlook w r = .done (r.wroteS (opndNum w.a) (BitVec.ofNat 64 never)) := by
  rw [effLtlook_eq hd]
  cases hat : r.lookTarget w with
  | none => rfl
  | some dst => exact if_pos (Bool.of_not_eq_false (mt refusesLink_eq_false.1 (h dst hat)))

variable (hat : r.lookTarget w = some dst) (hcan : r.canLink dst ((r.val w.b).getLsbD 63) (r.val w.c).toNat)
include hat hcan

theorem effLtlook_reaches : effLtlook w r =
    match (if (r.val w.c).toNat = 0 then zeroCycle r.myPart.links r.myCore dst else none) with
    | some a => .fault { code := 0x33, addr := a } r
    | none => .done (r.linked w dst) := by
  rw [effLtlook_eq hd, hat]
  exact if_neg (ne_true_of_eq_false (refusesLink_eq_false.2 hcan))

theorem effLtlook_cycle {c : Word} (hzero : (r.val w.c).toNat = 0) (hc : zeroCycle r.myPart.links r.myCore dst = some c) :
    effLtlook w r = .fault { code := 0x33, addr := c } r := by
  rw [effLtlook_reaches hd hat hcan, if_pos hzero, hc]

theorem effLtlook_links (hopen : (r.val w.c).toNat = 0 → zeroCycle r.myPart.links r.myCore dst = none) :
    effLtlook w r = .done (r.linked w dst) := by
  have hnone : (if (r.val w.c).toNat = 0 then zeroCycle r.myPart.links r.myCore dst else none) = none := by
    split
    · next hzero => exact hopen hzero
    · rfl
  rw [effLtlook_reaches hd hat hcan, hnone]

end

theorem localTimeWords : LocalTimeWords :=
  ⟨fun _ _ _ hi hd => issue_done hi (effLtadv_defined hd), fun _ _ _ hi => issue_done hi rfl,
    readWord_of_eff (fun _ _ => rfl) effLtget_defined, fun _ _ _ hi hd => issue_done hi (effLtnull_defined hd),
    fun _ _ _ hi hd => issue_done hi (effLtset_defined hd),
    fun _ _ _ hi hd => ⟨fun hno => issue_done hi (effLtlook_refuses hd hno),
      fun _ _ hat hcan hzero hc => issue_fault hi (effLtlook_cycle hd hat hcan hzero hc),
      fun _ hat hcan hopen => issue_done hi (effLtlook_links hd hat hcan hopen)⟩⟩

/-! ## LTWAIT -/

theorem effLtwait_outside (hd : r.deferredIn 0x28E w [2] = none) (hlt : r.myPart.lt = false) : effLtwait w r = .done r := by
  simp only [effLtwait, hlt, hd, Bool.not_false, if_true]

/-- Whether an event's LTWAIT stands behind other events of its core (R293). -/
def State.behindEvents (r : State) (n : Nat) : Bool :=
  r.me.event && (((slotsOf r.myCore).any (fun k => k != r.cur && (r.act k).st != .free && (r.act k).runsEvent) ||
    (r.core r.myCore).savedEvents != 0) || (r.eventTargets r.myCore).any (· ≤ n))

section
variable (hd : r.deferredIn 0x28E w [2] = none) (hlt : r.myPart.lt = true)
include hd hlt

theorem effLtwait_held (ho : r.me.oblUsed ≠ []) : effLtwait w r = .fault r.timeWaitHeld r := by
  have hused : (!r.me.oblUsed.isEmpty) = true := by simpa using ho
  simp only [effLtwait, hlt, hd, hused, Bool.not_true, Bool.false_eq_true, if_false, if_true]

/-- LTWAIT of an activation without obligations goes on, or enters its wait. -/
theorem effLtwait_free (ho : r.me.oblUsed = []) (he : r.me.event = true → r.releaseReady .core = true) : effLtwait w r =
    if r.timeMet r.myCore (r.val w.c).toNat && !r.behindEvents (r.val w.c).toNat then .done (r.raiseLvt r.myCore (r.val w.c).toNat)
    else .halt ((r.enterWait (.time (r.val w.c)) 0).demandHeld r.myCore) := by
  have hused : (!r.me.oblUsed.isEmpty) = false := by simp [ho]
  simp only [effLtwait, hlt, hd, hused, release_ok he, Bool.not_true, Bool.false_eq_true, if_false]
  rfl

end

theorem localTimeWait : LocalTimeWait := by
  refine fun w s r hi hd => ⟨fun hlt => issueSerial_done hi (effLtwait_outside hd hlt),
    fun hlt ho => issueSerial_fault hi (effLtwait_held hd hlt ho), fun hlt ho he => ?_⟩
  have heff := effLtwait_free hd hlt ho he
  intro c n others behind
  split
  · next hgo => exact issueSerial_done hi (heff.trans (if_pos hgo))
  · next hgo => exact issueSerial_halt hi (heff.trans (if_neg hgo))

/-- Settles O19: each word by the mode of its partition, LTLOOK by whether the link can be made, and LTWAIT by whether it may go on. -/
theorem localTimeComplete : Obligations.LocalTimeComplete := ⟨localTimeWords, localTimeWait⟩

/-! ## Outside local-time mode -/

theorem ltItem_outside (hlt : r.myPart.lt = false) (sel : Nat) : r.ltItem sel = if sel = 0x40 then r.me.stamp else 0 := by
  simp only [State.ltItem, hlt, Bool.not_false, if_true]

theorem not_canLink_outside (hlt : r.myPart.lt = false) {eng : Bool} {look : Nat} : ¬ r.canLink dst eng look := by
  simp [State.canLink, hlt]

/-- Settles O54: each word of O19 in the case where its partition is not in local-time mode. -/
theorem outsideLocalTime : Obligations.OutsideLocalTime := by
  refine fun w s r hlt => ⟨fun hi hd => issue_done hi ?_, fun hi => issue_done hi ?_, fun hi hd => issue_done hi ?_,
    fun hi hd => issue_done hi ?_, fun hi hd => issueSerial_done hi (effLtwait_outside hd hlt),
    fun hi hd => issue_done hi (effLtlook_refuses hd fun _ _ => not_canLink_outside hlt), fun hi hd => issue_done hi ?_⟩
  · simp only [effLtadv_defined hd, hlt, Bool.false_eq_true, if_false]
  · simp only [effLtann, hlt, Bool.false_eq_true, if_false]
  · simp only [effLtnull_defined hd, hlt, Bool.false_eq_true, if_false]
  · simp only [effLtset_defined hd, hlt, Bool.false_eq_true, if_false]
  · rw [effLtget_defined w r hd, ltItem_outside hlt]

end Sys2Proof.Machine
end

section
/-!
System words (R223, R387, R393, R411, R420 to R422): what each ends in once its operands are there and nothing holds it back.
-/

namespace Sys2Proof.Machine

variable {w : Operands} {r : State}

/-! ## Control registers -/

theorem effMfc_ready (h : r.ctlNum w = 0x0B → r.flagsWait 0x0B = false) :
    effMfc w r = .done (r.wroteS (opndNum w.a) (r.ctlRead (r.ctlNum w))) := by
  refine if_neg ?_
  rw [Bool.and_eq_true, decide_eq_true_eq]
  rintro ⟨hn, hwait⟩
  exact absurd hwait (by simp [h hn])

theorem effMtc_ready (hd : r.deferredIn 0x382 w [0] = none) (hwait : r.flagsWait (r.ctlNum w) = false) : effMtc w r =
    if r.ctlNum w = 0x11 ∧ r.me.privileged = false then .fault { code := 0x03, addr := 0x11, info := r.val w.a } r
    else .done (r.ctlWrite (r.ctlNum w) (r.val w.a)) := by
  simp only [effMtc, hd, hwait, Bool.false_eq_true, if_false, Bool.and_eq_true, decide_eq_true_eq, Bool.not_eq_true']

/-! ## STAMP, TRACE and TRIG -/

theorem effStamp_defined (w : Operands) (r : State) (hd : r.deferredIn 0x385 w [2] = none) :
    effStamp w r = .done (r.wroteS (opndNum w.a) (if (r.val w.c).getLsbD 0 then r.me.stamp else r.time)) := by
  rw [effStamp, hd]
  rfl

theorem effTrace_defined (hd : r.deferredIn 0x386 w [0] = none) : effTrace w r =
    .done (if (r.core r.myCore).trcctl.getLsbD 0 then r.trace 0x05 r.cur r.me (r.val w.a)
      (wordOf [(32, (bits (r.core r.myCore).trcctl 32 8).toNat), (0, (bits (r.val w.c) 0 19).toNat)]) else r) := by
  rw [effTrace, hd]
  dsimp only
  split
  · rfl
  · rfl

theorem effTrig_ready (hrel : r.releaseReady .mod = true) (hended : r.endedDone r.myCore = true) :
    effTrig r = .done (r.modCore r.myCore (fun c => { c with triggered := true, ended := [] })) := by
  refine if_neg ?_
  simp [hrel, hended]

/-! ## PARK -/

/-- The operand is a v register. -/
def parksV (w : Operands) : Bool := match w.a with | .reg .v _ _ => true | _ => false

/-- The fallback address of a PARK is aligned, in LOC, and the activation's to write (R107, R393). -/
def State.fallGood (r : State) (w : Operands) : Prop :=
  (r.val w.c).toNat % parkBytes (parksV w) = 0 ∧ (r.val w.c).toNat < 2 ^ 15 ∧
    ∀ o ∈ from_ (r.val w.c).toNat (parkBytes (parksV w)), r.me.locWrite o = true

theorem not_fallGood : ¬ r.fallGood w ↔ (r.val w.c).toNat % parkBytes (parksV w) ≠ 0 ∨ 2 ^ 15 ≤ (r.val w.c).toNat ∨
    ∃ o ∈ from_ (r.val w.c).toNat (parkBytes (parksV w)), r.me.locWrite o = false := by
  simp only [State.fallGood, not_and_or, not_lt, not_forall, Bool.not_eq_true, exists_prop, ne_eq]

/-- The test by which the model finds a fallback address bad. -/
theorem fallBad_iff : ((r.val w.c).toNat % parkBytes (parksV w) != 0 || decide (2 ^ 15 ≤ (r.val w.c).toNat) ||
    !(from_ (r.val w.c).toNat (parkBytes (parksV w))).all r.me.locWrite) = true ↔ ¬ r.fallGood w := by
  rw [not_fallGood]
  simp only [Bool.or_eq_true, bne_iff_ne, decide_eq_true_eq, Bool.not_eq_true', List.all_eq_false, Bool.not_eq_true, or_assoc]

section
variable (hd : r.deferredIn 0x383 w [2] = none) (hfree : r.parkWaits (parksV w) (opndNum w.a) = false)
include hd hfree

theorem effPark_parked (hp : (r.me.spillOf (parksV w) (opndNum w.a)).place ≠ .none) : effPark w r = .done r := by
  unfold effPark
  rw [hd]
  exact (if_neg (ne_true_of_eq_false hfree)).trans (if_pos (bne_iff_ne.2 hp))

/-- PARK of a register that is not parked goes by its fallback address. -/
theorem effPark_home (hp : (r.me.spillOf (parksV w) (opndNum w.a)).place = .none) :
    (r.fallGood w → effPark w r = .done (r.parkAt r.cur (parksV w) (opndNum w.a) (r.val w.c).toNat)) ∧
    (¬ r.fallGood w → effPark w r = .fault { code := 0x08, space := 1, addr := r.val w.c } r) := by
  have heff : effPark w r =
      if (r.val w.c).toNat % parkBytes (parksV w) != 0 || decide (2 ^ 15 ≤ (r.val w.c).toNat) ||
        !(from_ (r.val w.c).toNat (parkBytes (parksV w))).all r.me.locWrite
      then .fault { code := 0x08, space := 1, addr := r.val w.c } r
      else .done (r.parkAt r.cur (parksV w) (opndNum w.a) (r.val w.c).toNat) := by
    unfold effPark
    rw [hd]
    exact (if_neg (ne_true_of_eq_false hfree)).trans (if_neg fun h => bne_iff_ne.1 h hp)
  exact ⟨fun h => heff.trans (if_neg (mt fallBad_iff.1 (not_not.2 h))), fun h => heff.trans (if_pos (fallBad_iff.2 h))⟩

end

/-- Settles O25: each word's effect in the one case that its conditions leave. -/
theorem systemWordsComplete : Obligations.SystemWordsComplete := by
  refine ⟨fun w s r hi h => issue_done hi (effMfc_ready h), fun w s r hi hd hwait => ?_,
    readWord_of_eff (fun _ _ => rfl) effStamp_defined, fun w s r hi hd => issue_done hi (effTrace_defined hd), ?_,
    fun w s r hi => issue_done hi rfl, fun w s r hi hrel hended => issue_done hi (effTrig_ready hrel hended)⟩
  · have heff := effMtc_ready hd hwait
    split
    · next h => exact issue_fault hi (heff.trans (if_pos h))
    · next h => exact issue_done hi (heff.trans (if_neg h))
  · rintro w s r isV n hi hd hV rfl hfree
    obtain rfl : isV = parksV w := hV
    refine ⟨fun hp => issue_done hi (effPark_parked hd hfree hp), fun hp halign hlt hown => issue_done hi ?_,
      fun hp hbad => issue_fault hi ?_⟩
    · exact (effPark_home hd hfree hp).1 ⟨halign, hlt, hown⟩
    · exact (effPark_home hd hfree hp).2 (not_fallGood.2 hbad)

end Sys2Proof.Machine
end

section
/-!
Vector accesses, LDZ, STZ and PREF (R115, R116, R195, R378, R394, R415, R437 to R440): an access by the checks that its lanes pass, and
the rows of an accumulator tile.
-/

namespace Sys2Proof.Machine

variable {m : VMem} {w : Operands} {s r t : State}

/-! ## Vector accesses -/

/-- The address of a vector access: its base where it is indexed. -/
def State.vecAddr (r : State) (m : VMem) (w : Operands) : Word := if m.idx then r.val (baseOf m.opc w) else r.eaOf m.opc w

/-- The page format by which a vector access decodes or encodes. -/
def State.vecFmt (r : State) (m : VMem) (w : Operands) : Option PageFmt :=
  if 2 ^ 56 ≤ (r.vecAddr m w).toNat then none else r.codeFmt m w (r.vecAddr m w)

/-- The indices of a gather or scatter: those kept where it goes on part-way (R212). -/
def State.vecIdx (r : State) (w : Operands) : Vec := r.me.progIdx.getD (r.vecOf w.c)

/-- The lanes of a vector access from one on. -/
def State.vecAccs (r : State) (m : VMem) (w : Operands) (from0 : Nat) : List LaneAcc :=
  r.laneAccs m w (r.vecAddr m w) (r.vecFmt m w) (r.vecIdx w) from0

/-- Every lane of a vector access is in range, and the access is aligned (R104, R122). -/
structure State.VecPlaced (r : State) (m : VMem) (w : Operands) : Prop where
  range   : (r.vecAccs m w r.me.prog).findSome? (laneFault m) = none
  aligned : m.idx = true ∨ r.vecAccs m w r.me.prog = [] ∨ r.vecAligned m w (r.vecAddr m w) (r.vecFmt m w) = true

/-- The checks of step 3 of R104 for the lanes of a vector access. -/
def State.vecChecks (r : State) (m : VMem) (w : Operands) : State × List (LaneAcc × List Piece) × LaneStop :=
  r.checkLanes m w (r.vecFmt m w) (r.spanFmt m (r.vecAccs m w 0)) (r.vecAccs m w r.me.prog)

/-- Some lane of a `.spec` load lies on a page on which such a load defers (R195). -/
def State.vecSlow (r : State) (m : VMem) (w : Operands) : Bool :=
  isSpec w && !m.store && decide (m.sp = 4) && (r.vecAccs m w r.me.prog).any (fun x => r.specPath x.addr.toNat x.n)

/-- What a vector access makes of the outcome of its lanes' checks (R157, R160, R195, R212, R437 to R440). -/
def State.vecAnswer (r : State) (m : VMem) (w : Operands) : State × List (LaneAcc × List Piece) × LaneStop → Res
  | (t, _, .stall) => .stall t
  | (t, l, .none) => if t.releaseHeld w then .stall t else .done (t.performLanes m w (r.vecFmt m w) l).noProgress
  | (t, l, .fault f) =>
    if m.sp != 4 then (if isSpec w && !m.store && specFault f.code then t.deferV m.opc w else .fault f t)
    else if isSpec w && !m.store && specFault f.code then t.deferV m.opc w
    else if t.releaseHeld w && !l.isEmpty then .stall t
    else .fault f ((if l.isEmpty then t else t.performLanes m w (r.vecFmt m w) l).modMe (fun a =>
      { a with prog := f.lane, progIdx := if m.idx then some (r.vecIdx w) else none }))

/-- A vector access whose registers are there and whose lanes are in place goes by its lanes' checks, unless a `.spec` load meets a page
on which it defers. -/
theorem effVec_placed (hd : r.vecDeferred m w = none) (hclean : isSpec w = true → m.store = false → r.poisonHit m.opc w = none)
    (hplaced : r.VecPlaced m w) : effVec m w r =
      if r.vecSlow m w then r.deferV m.opc w else r.vecAnswer m w (r.vecChecks m w) := by
  have hpoison : (isSpec w && !m.store && (r.poisonHit m.opc w).isSome) = false :=
    spec_and_eq_false fun hs hl => by rw [hclean hs hl, Option.isSome_none]
  have halign : (!m.idx && !(r.vecAccs m w r.me.prog).isEmpty && !r.vecAligned m w (r.vecAddr m w) (r.vecFmt m w)) = false := by
    rcases hplaced.aligned with h | h | h
    · simp [h]
    · simp [h]
    · simp [h]
  unfold effVec
  extract_lets spec
  split
  · next h => simp [hd] at h
  next _ a _ fmt ix accs misaligned early stopped upto _ _ =>
  refine (if_neg (ne_true_of_eq_false hpoison)).trans ?_
  have hstopped : stopped = none := by
    have hearly : early = none := hplaced.range
    have hmis : misaligned = false := halign
    simp only [stopped, hearly, hmis, orFault, Bool.false_eq_true, if_false]
  have hupto : upto = accs := by simp only [upto, hstopped]
  have hchecks : r.checkLanes m w fmt (r.spanFmt m (r.laneAccs m w a fmt ix 0)) accs = r.vecChecks m w := rfl
  rw [hstopped, hupto, Option.isNone_none, Bool.and_true, hchecks]
  refine congrArg (ite _ _) ?_
  obtain ⟨t, l, stop⟩ := r.vecChecks m w
  cases stop with
  | none => rfl
  | stall => rfl
  | fault f => rfl

/-- A `.spec` load that needs a deferred or poisoned register (R195). -/
theorem effVec_unclear (hspec : isSpec w = true) (hload : m.store = false)
    (h : r.vecDeferred m w ≠ none ∨ r.poisonHit m.opc w ≠ none) : effVec m w r = r.deferV m.opc w := by
  unfold effVec
  simp only [hspec, hload, Bool.not_false, Bool.and_self, Bool.true_and, if_true]
  cases hd : r.vecDeferred m w with
  | some f => rfl
  | none => exact if_pos (Option.isSome_iff_ne_none.2 (h.resolve_left (· hd)))

theorem vecSlow_eq_false (h : isSpec w = true → m.store = false → m.sp = 4 →
    ∀ x ∈ r.vecAccs m w r.me.prog, r.specPath x.addr.toNat x.n = false) : r.vecSlow m w = false := by
  unfold State.vecSlow
  rw [Bool.and_assoc]
  refine spec_and_eq_false fun hs hl => Bool.and_eq_false_imp.2 fun h4 => List.any_eq_false.2 fun x hx => ?_
  simp [h hs hl (of_decide_eq_true h4) x hx]

theorem vecSlow_of_mem {x : LaneAcc} (hspec : isSpec w = true) (hload : m.store = false) (hsp : m.sp = 4)
    (hx : x ∈ r.vecAccs m w r.me.prog) (hslow : r.specPath x.addr.toNat x.n = true) : r.vecSlow m w = true := by
  have hany : (r.vecAccs m w r.me.prog).any (fun x => r.specPath x.addr.toNat x.n) = true := List.any_eq_true.2 ⟨x, hx, hslow⟩
  simp only [State.vecSlow, hspec, hload, hsp, hany, Bool.not_false, Bool.and_self, decide_true]

theorem vecAnswer_performs {l : List (LaneAcc × List Piece)} (hrel : Ord_rel w.ord = true → t.releaseReady w.scope = true) :
    r.vecAnswer m w (t, l, .none) = .done (t.performLanes m w (r.vecFmt m w) l).noProgress :=
  if_neg (by simp [releaseHeld_of_ready hrel])

/-- A GLB access that faults at a lane performs those below it and keeps where it is to go on (R212). -/
theorem vecAnswer_faults {l : List (LaneAcc × List Piece)} {f : FaultReq} (hsp : m.sp = 4)
    (hfault : isSpec w = true → m.store = true ∨ specFault f.code = false)
    (hrel : Ord_rel w.ord = true → t.releaseReady w.scope = true) :
    r.vecAnswer m w (t, l, .fault f) = .fault f ((if l.isEmpty then t else t.performLanes m w (r.vecFmt m w) l).modMe (fun a =>
      { a with prog := f.lane, progIdx := if m.idx then some (r.vecIdx w) else none })) := by
  have hnot : (isSpec w && !m.store && specFault f.code) = false :=
    spec_and_eq_false fun hs hl => (hfault hs).resolve_left (by simp [hl])
  simp only [State.vecAnswer, hsp, hnot, releaseHeld_of_ready hrel, bne_self_eq_false, Bool.false_and, Bool.false_eq_true, if_false]

/-- A word whose effect is a vector access completes, or faults part-way. -/
theorem vecWord_of_exec {mk : Operands → Instr} (h : ∀ w s, exec (mk w) s = issue m.opc w (effVec m w) s) : VecWord mk m := by
  intro w s r t l a fmt ix accs hi hd hrange halign hspec hrel
  have heff := effVec_placed hd (fun hs hl => (hspec hs hl).1) ⟨hrange, halign⟩
  rw [vecSlow_eq_false fun hs hl => (hspec hs hl).2, if_neg Bool.false_ne_true] at heff
  refine ⟨fun hok => (h w s).trans (issue_done hi ?_), fun f hsp hfault hstop => (h w s).trans (issue_fault hi ?_)⟩
  · rw [heff, show r.vecChecks m w = _ from hok]
    exact vecAnswer_performs hrel
  · rw [heff, show r.vecChecks m w = _ from hstop]
    exact vecAnswer_faults hsp hfault hrel

/-- A word whose effect is a vector load defers where it is `.spec`. -/
theorem vecDefers_of_exec {mk : Operands → Instr} (hload : m.store = false)
    (h : ∀ w s, exec (mk w) s = issue m.opc w (effVec m w) s) : VecDefers mk m := by
  intro w s r hi hspec a fmt accs hcase
  refine (h w s).trans (issue_done hi ?_)
  change effVec m w r = r.deferV m.opc w
  by_cases hclear : r.vecDeferred m w ≠ none ∨ r.poisonHit m.opc w ≠ none
  · exact effVec_unclear hspec hload hclear
  · obtain ⟨hd, hp⟩ : r.vecDeferred m w = none ∧ r.poisonHit m.opc w = none := by simpa using hclear
    obtain ⟨hrange, halign, hsp, x, hx, hslow⟩ := (hcase.resolve_left (· hd)).resolve_left (· hp)
    rw [effVec_placed hd (fun _ _ => hp) ⟨hrange, halign⟩, vecSlow_of_mem hspec hload hsp hx hslow, if_pos rfl]

theorem vectorAccessesComplete : VectorAccessesComplete := by
  refine ⟨?_, ?_, ?_, ?_, ?_, ?_, ?_, ?_, ?_, ?_, ?_, ?_, ?_⟩ <;> exact vecWord_of_exec fun _ _ => rfl

theorem vectorLoadsDefer : VectorLoadsDefer := by
  refine ⟨?_, ?_, ?_, ?_, ?_, ?_⟩ <;> exact vecDefers_of_exec rfl fun _ _ => rfl

/-! ## Rows of an accumulator tile -/

theorem deferredIn_of_rowOf {opc z n : Nat} (h : r.rowOf opc w z = .ok n) : r.deferredIn opc w [2] = none := by
  unfold State.rowOf at h
  split at h
  · cases h
  · next hd => exact hd

theorem rowOf_past {opc z : Nat} (hd : r.deferredIn opc w [2] = none) (h : 15 < (r.val w.c).toNat) :
    r.rowOf opc w z = .error { code := 0x0C, space := 3, addr := r.val w.c, info := BitVec.ofNat 64 z } := by
  unfold State.rowOf
  rw [hd]
  exact if_pos h

theorem effLdz_past (hd : r.deferredIn 0x183 w [2] = none) (h : 15 < (r.val w.c).toNat) : effLdz w r =
    .fault { code := 0x0C, space := 3, addr := r.val w.c, info := BitVec.ofNat 64 (opndNum w.b) } r := by
  unfold effLdz
  simp only [rowOf_past hd h]

section
variable {n : Nat} (hrow : r.rowOf 0x183 w (opndNum w.b) = .ok n) (hidle : r.tileBusy (opndNum w.b) = false)
include hrow hidle

/-- LDZ of a FREE tile gives free values (R116). -/
theorem effLdz_free (hfree : r.heldTile r.myCore (opndNum w.b) = false) : effLdz w r =
    .done (({ r with fresh := r.fresh + 16 } : State).wroteV (opndNum w.a)
      (Vec.ofFn (fun i => (Config.freeValue (r.fresh + i)).setWidth 32))) := by
  unfold effLdz
  simp only [hrow, hidle, hfree, Bool.not_false, Bool.false_eq_true, if_true, if_false]
  rfl

theorem effLdz_held (hheld : r.heldTile r.myCore (opndNum w.b) = true)
    (hclean : ∀ i, i < 16 → Granule.acc r.myCore (accKey r.myCore (opndNum w.b) n i % 2048 / 2 * 2) ∉ r.poisoned) :
    effLdz w r = .done (r.wroteV (opndNum w.a) (Vec.ofFn (fun i => r.accGet (accKey r.myCore (opndNum w.b) n i)))) := by
  have hnone : (upTo 16).any (fun i =>
      r.poisoned.contains (.acc r.myCore (accKey r.myCore (opndNum w.b) n i % 2048 / 2 * 2))) = false :=
    List.any_eq_false.2 fun i hi => by simpa using hclean i (mem_upTo.1 hi)
  unfold effLdz
  simp only [hrow, hidle, hheld, hnone, Bool.not_true, Bool.false_eq_true, if_false]
  rfl

end

/-- STZ's row of a tile that is HELD: its elements written, and free of poison (R115, R215). -/
def State.rowStored (u : State) (w : Operands) (n : Nat) : State :=
  { u with
    acc := (upTo 16).foldl (fun m i => accSet (accKey u.myCore (opndNum w.a) n i) ((u.vecOf w.b).lane i) m) u.acc
    poisoned := u.poisoned.filter (fun g =>
      !((upTo 8).any (fun i => g == .acc u.myCore (accKey u.myCore (opndNum w.a) n (2 * i) % 2048)))) }

theorem effStz_row {n : Nat} (hrow : r.rowOf 0x187 w (opndNum w.a) = .ok n) (hv : r.firstDeferredV (vOf w.b) = none)
    (hidle : r.tileBusy (opndNum w.a) = false) : effStz w r = .done ((r.holdTile r.myCore (opndNum w.a)).rowStored w n) := by
  unfold effStz
  simp only [deferredIn_of_rowOf hrow, hv, hrow, hidle, Bool.false_eq_true, if_false]
  rfl

theorem heldTile_rowStored (u : State) (w : Operands) (n core tile : Nat) :
    (u.rowStored w n).heldTile core tile = u.heldTile core tile := by
  unfold State.heldTile State.core State.rowStored
  rfl

theorem accGet_rowStored (u : State) (w : Operands) (n : Nat) {i : Nat} (hi : i < 16) :
    (u.rowStored w n).accGet (accKey u.myCore (opndNum w.a) n i) = (u.vecOf w.b).lane i := by
  have hkey : ∀ i j, accKey u.myCore (opndNum w.a) n i = accKey u.myCore (opndNum w.a) n j → i = j := fun i j h => by
    simp only [accKey] at h
    omega
  have hcell := tget_foldl_tset none hkey (fun i => some ((u.vecOf w.b).lane i)) u.acc hi
  simp only [State.accGet, State.rowStored, accSet, hcell]

/-! ## A tile that becomes HELD -/

theorem toFall_cur (core : Nat) (isV : Bool) (fall : Nat) (v : Vec) (poison : BitVec 8) :
    (s.toFall core isV fall v poison).cur = s.cur := by
  have hclean (a n : Nat) : (s.unpoison locGranule a n).cur = s.cur := by
    unfold State.unpoison
    split
    · rfl
    · rfl
  unfold State.toFall
  dsimp only
  split
  · exact hclean _ _
  · exact hclean _ _

theorem evictReg_cur (k : Nat) (isV : Bool) (n : Nat) : (s.evictReg k isV n).cur = s.cur := by
  unfold State.evictReg
  dsimp only
  split
  · rfl
  · rfl
  · exact toFall_cur ..

theorem evictSlot_cur (k : Nat) (p : Spill → Bool) : (s.evictSlot k p).cur = s.cur := by
  refine List.foldlRecOn (motive := fun t : State => t.cur = s.cur) _ _ rfl fun t ht e _ => ?_
  split
  · exact (evictReg_cur ..).trans ht
  · exact ht

/-- The columns of a tile in which registers are parked moved to LOC (R118). -/
def State.tileEvicted (s : State) (core tile : Nat) : State :=
  (slotsOf core).foldl (fun s k => s.evictSlot k (fun e => e.place == .acc && e.index / 16 == tile)) s

/-- A tile in which nothing is parked made HELD, with free contents (R116). -/
def State.tileMarked (u : State) (core tile : Nat) : State :=
  let t := u.modCore core (fun c => { c with held := tset false tile true c.held })
  { t with
    acc := t.acc.filter (fun e => e.1 / 256 != 8 * core + tile)
    accSeed := tset 0 (8 * core + tile) t.fresh t.accSeed
    fresh := t.fresh + 1 }

theorem holdTile_eq (s : State) (core tile : Nat) :
    s.holdTile core tile = if s.heldTile core tile then s else (s.tileEvicted core tile).tileMarked core tile := rfl

theorem tileMarked_cur (u : State) (core tile : Nat) : (u.tileMarked core tile).cur = u.cur := rfl

theorem tileEvicted_cur (core tile : Nat) : (s.tileEvicted core tile).cur = s.cur :=
  List.foldlRecOn (motive := fun t : State => t.cur = s.cur) _ _ rfl fun _ ht k _ => (evictSlot_cur k _).trans ht

theorem heldTile_tileMarked (u : State) (core tile : Nat) : (u.tileMarked core tile).heldTile core tile = true := by
  have hcore : (u.tileMarked core tile).core core = { u.core core with held := tset false tile true (u.core core).held } :=
    u.core_modCore core (fun c => { c with held := tset false tile true c.held })
  rw [State.heldTile, hcore, tget_tset_same]

theorem holdTile_cur (core tile : Nat) : (s.holdTile core tile).cur = s.cur := by
  rw [holdTile_eq]
  split
  · rfl
  · rw [tileMarked_cur, tileEvicted_cur]

theorem heldTile_holdTile (core tile : Nat) : (s.holdTile core tile).heldTile core tile = true := by
  rw [holdTile_eq]
  split
  · next h => exact h
  · exact heldTile_tileMarked _ core tile

theorem tileRowsComplete : TileRowsComplete := by
  refine ⟨fun w s r n hi hrow hidle => ⟨fun hheld hclean => issue_done hi (effLdz_held hrow hidle hheld hclean),
      fun hfree => ⟨_, issue_done hi (effLdz_free hrow hidle hfree)⟩⟩,
    fun w s r hd hpast hi => issue_fault hi (effLdz_past hd hpast),
    fun w s r n hi hrow hv hidle => ⟨_, issue_done hi (effStz_row hrow hv hidle), ?_, fun i hlt _ _ => ?_⟩⟩
  · rw [heldTile_rowStored, heldTile_holdTile]
  · have hcore : (r.holdTile r.myCore (opndNum w.a)).myCore = r.myCore := congrArg coreOf (holdTile_cur _ _)
    rw [← accGet_rowStored _ w n hlt, hcore]

/-! ## PREF -/

/-- PREF takes no copy of the page, by its hint (R394). -/
def prefLone (w : Operands) : Bool := w.head.cache = 3 || w.head.cache = 4

/-- What PREF makes of the answer to its request (R394). -/
def State.prefAnswer (r : State) (w : Operands) : PRes → State
  | .ok t _ => if prefLone w then { r with dies := r.dies.map (fun e => (e.1, { e.2 with owners := (t.die e.1).owners })) } else t
  | .stall t => t
  | .fault _ _ => r

section
variable (hd : r.deferredIn 0x196 w [0, 2] = none)
include hd

theorem effPref_asks (hrange : glbRange (r.eaOf 0x196 w) 1 = none) (hpush : r.myPart.pushEdge (r.eaOf 0x196 w).toNat = none) :
    effPref w r =
      .done (r.prefAnswer w (r.usePage r.myDie prefKey r.myPart.asid (r.eaOf 0x196 w).toNat 1 .load)) := by
  unfold effPref
  simp only [hd, hrange, hpush, Option.isSome_none, Bool.or_self, Bool.false_eq_true, if_false]
  cases r.usePage r.myDie prefKey r.myPart.asid (r.eaOf 0x196 w).toNat 1 .load with
  | ok t p => rfl
  | stall t => rfl
  | fault f t => rfl

theorem effPref_elsewhere
    (h : ¬ (glbRange (r.eaOf 0x196 w) 1 = none ∧ r.myPart.pushEdge (r.eaOf 0x196 w).toNat = none)) : effPref w r = .done r := by
  unfold effPref
  rw [hd]
  refine if_pos ?_
  simpa [Option.isSome_iff_ne_none, or_iff_not_imp_left] using h

end

theorem prefCompletes : PrefCompletes := by
  intro w s r hi hd a ask there
  have hasks (h : there) : exec (.pref w) s = .next ((r.prefAnswer w ask).issued 0x196 w) :=
    issue_done hi (effPref_asks hd h.1 h.2)
  have hlone : prefLone w = true ↔ w.head.cache = 3 ∨ w.head.cache = 4 := by simp [prefLone]
  refine ⟨fun t p h hok h3 h4 => ?_, fun t p h hok hcache => ?_, fun t h hstall => ?_, fun f t h => ?_⟩
  · rw [hasks h, hok, State.prefAnswer, if_neg (mt hlone.1 (not_or.2 ⟨h3, h4⟩))]
  · rw [hasks h, hok, State.prefAnswer, if_pos (hlone.2 hcache)]
  · rw [hasks h, hstall, State.prefAnswer]
  · by_cases hthere : there
    · rw [hasks hthere, h.resolve_left (not_not.2 hthere), State.prefAnswer]
    · exact issue_done hi (effPref_elsewhere hd hthere)

/-- Settles O9: an access goes by its registers, its lanes' places and their checks, in that order; a stored row stands in its tile; and
PREF goes by the answer to its request. -/
theorem vectorAccesses : Obligations.VectorAccesses := ⟨vectorAccessesComplete, vectorLoadsDefer, tileRowsComplete, prefCompletes⟩

end Sys2Proof.Machine
end

section
/-!
The capture block (R312 to R320, R325): which matchers an event meets, what one that fires does, and precise stops.
-/

namespace Sys2Proof.Machine

variable {s : State}

/-! ## Matchers -/

/-- Matchers are met in ascending order (R312). -/
theorem matchersOf_pairwise (s : State) (kind sysCore : Nat) (value : Option Nat) :
    (s.matchersOf kind sysCore value).Pairwise (· < ·) := by
  unfold State.matchersOf
  rw [upTo_eq_range]
  exact List.pairwise_lt_range.filter _

/-- A matcher looks at an event by its kind, its system core and, where one counts, its value. -/
theorem mem_matchersOf {kind sysCore n : Nat} {value : Option Nat} : n ∈ s.matchersOf kind sysCore value ↔
    n < 8 ∧ matcherLive (s.matcher n) = true ∧ (bits (s.matcher n) 60 3).toNat = kind ∧
      ((s.matcher n).getLsbD 54 = true ∨ (bits (s.matcher n) 48 6).toNat = sysCore) ∧
      ∀ v, value = some v → (bits (s.matcher n) 0 32).toNat = v := by
  rw [State.matchersOf, List.mem_filter, mem_upTo, numMatchers]
  cases value with
  | none => simp [matcherHits, and_assoc]
  | some v => simp [matcherHits, and_assoc]

/-- What a system core's event is to the matchers: its kind, core and value (R312). -/
theorem matchersAt_eq {kind c v : Nat} {e : SysEvent} (h : (kind = 0 ∧ e = .contextSwitch c v) ∨ (kind = 1 ∧ e = .systemCall c v) ∨
    (kind = 2 ∧ e = .interrupt c v)) (s : State) : s.matchersAt e = s.matchersOf kind c (some v) := by
  rcases h with ⟨rfl, rfl⟩ | ⟨rfl, rfl⟩ | ⟨rfl, rfl⟩
  · rfl
  · rfl
  · rfl

theorem any_action {l : List Nat} {a : Nat} : l.any (fun n => actionOf (s.matcher n) == a) = true ↔
    ∃ n ∈ l, actionOf (s.matcher n) = a := by
  simp

/-- The event of an action's word fires every matcher that looks at it, where one of them has the action. -/
theorem meetEvent_eq (s : State) (e : SysEvent) (a : Nat) :
    ((∃ n ∈ s.matchersAt e, actionOf (s.matcher n) = a) → s.meetEvent e a = (s.matchersAt e).foldl State.fire s) ∧
    ((∀ n ∈ s.matchersAt e, actionOf (s.matcher n) ≠ a) → s.meetEvent e a = s) := by
  refine ⟨fun h => if_pos (any_action.2 h), fun h => if_neg fun hany => ?_⟩
  obtain ⟨n, hn, ha⟩ := any_action.1 hany
  exact h n hn ha

theorem exec_captureEvent {a : Nat} {mk : SysEvent → Instr} (h : (a = 0 ∧ mk = .captureStart) ∨ (a = 1 ∧ mk = .captureStop) ∨
    (a = 2 ∧ mk = .captureFreeze) ∨ (a = 3 ∧ mk = .selectFilter) ∨ (a = 4 ∧ mk = .preciseStop)) (e : SysEvent) (s : State) :
    exec (mk e) s = .next (s.meetEvent e a) := by
  rcases h with ⟨rfl, rfl⟩ | ⟨rfl, rfl⟩ | ⟨rfl, rfl⟩ | ⟨rfl, rfl⟩ | ⟨rfl, rfl⟩
  · rfl
  · rfl
  · rfl
  · rfl
  · rfl

/-- A panic has EVENT 3, and no value counts. -/
theorem mem_panicMatchers {c n : Nat} : n ∈ s.matchersOf 3 c none ↔ n < 8 ∧ matcherLive (s.matcher n) = true ∧
    bits (s.matcher n) 60 3 = 3 ∧ ((s.matcher n).getLsbD 54 = true ∨ (bits (s.matcher n) 48 6).toNat = c) := by
  have hkind : (bits (s.matcher n) 60 3).toNat = 3 ↔ bits (s.matcher n) 60 3 = 3 := BitVec.toNat_inj (y := 3)
  rw [mem_matchersOf, hkind]
  simp

/-! ## Precise stops -/

theorem preciseStopTimeout_saves {core slot : Nat} (hcov : (s.core core).covered = true)
    (h : (s.act (8 * core + slot)).st = .waiting ∨ (s.act (8 * core + slot)).st = .parked ∨ s.stopFrom + 65536 ≤ s.cycle) :
    execPreciseStopTimeout core slot s = .next (s.preemptSlot (8 * core + slot)) := by
  have hlong : s.stopFrom + 65536 ≤ s.cycle → 65536 ≤ s.cycle - s.stopFrom := by omega
  unfold execPreciseStopTimeout
  dsimp only
  rw [if_neg (by simp [hcov]), if_pos]
  rcases h with h | h | h
  · simp [h]
  · simp [h]
  · simp [hlong h]

theorem preciseStopTimeout_leaves {core slot : Nat} (hwait : (s.act (8 * core + slot)).st ≠ .waiting)
    (hpark : (s.act (8 * core + slot)).st ≠ .parked) (hshort : s.cycle < s.stopFrom + 65536) :
    execPreciseStopTimeout core slot s = .next s := by
  have hnot : ¬ 65536 ≤ s.cycle - s.stopFrom := by omega
  have hgoes : ((s.act (8 * core + slot)).st == .waiting || (s.act (8 * core + slot)).st == .parked ||
      decide (65536 ≤ s.cycle - s.stopFrom)) = false := by simp [hwait, hpark, hnot]
  unfold execPreciseStopTimeout
  simp only [hgoes, Bool.false_eq_true, if_false, ite_self]

theorem preciseStopLanding_writes {t : State} {core : Nat} {ws : List Word} (hcov : (s.core core).covered = true)
    (hland : (s.core core).landed = false) (hfree : ∀ k ∈ slotsOf core, (s.act k).st = .free)
    (hrec : s.bareWords 0x06 (BitVec.ofNat 64 (coreAddr core)) (BitVec.ofNat 64 (s.core core).dcount)
      ((s.core core).stopSaved.zeroExtend 64) = (ws, t)) :
    execPreciseStopLanding core s = .next ((if t.capFrozen then
      t.modDie (dieOf core) (fun x => { x with stopRecs := x.stopRecs ++ [ws] })
      else t.traceWrite (dieOf core) ws).modCore core (fun x => { x with landed := true })).settleStop := by
  have hall : (slotsOf core).all (fun k => (s.act k).st == .free) = true :=
    List.all_eq_true.2 fun k hk => beq_iff_eq.2 (hfree k hk)
  unfold execPreciseStopLanding
  simp only [hcov, hland, hall, Bool.not_true, Bool.or_self, Bool.false_eq_true, if_false, hrec]

/-! ## The profile table -/

theorem profileRead_writes {core addr p : Nat} (hpart : (s.core core).part = some p) (hended : s.endedDone core = true) :
    execProfileRead core addr s = .next
      (let t := (s.core core).profileBytes.zipIdx.foldl (fun t x => t.pokeVirt (t.part p).asid (addr + x.2) [x.1]) s
      { t with profReplies := t.profReplies ++ [(core, addr)] }) := by
  unfold execProfileRead
  simp only [hpart, hended, Bool.not_true, Bool.false_eq_true, if_false]

/-- Settles O41: the matchers that look at an event are a filter of the block's eight, and every other event has one case that its
conditions lead to. -/
theorem captureEvents : Obligations.CaptureEvents := by
  refine ⟨fun a mk h s e => ?_, fun s c => ⟨_, rfl, matchersOf_pairwise .., fun _ => mem_panicMatchers⟩,
    fun s kind c v n e h => ?_, fun s n => ?_,
    fun s core slot hcov => ⟨preciseStopTimeout_saves hcov, preciseStopTimeout_leaves⟩,
    fun s t core ws hcov hland hfree hrec => preciseStopLanding_writes hcov hland hfree hrec, fun s => ⟨rfl, rfl⟩,
    fun s core => rfl, fun s core addr p hpart hended => profileRead_writes hpart hended⟩
  · rw [exec_captureEvent h]
    exact ⟨fun hany => congrArg _ ((meetEvent_eq s e a).1 hany), fun hnone => congrArg _ ((meetEvent_eq s e a).2 hnone)⟩
  · rw [matchersAt_eq h, mem_matchersOf]
    exact ⟨matchersOf_pairwise .., by simp⟩
  · rfl

end Sys2Proof.Machine
end

section
/-!
The platform (R327 to R333, R339, R340): key slots, host reads and writes that fail, power and boot, and the registers of the system
dies.
-/

namespace Sys2Proof.Machine

variable {s u : State}

/-! ## Key slots -/

theorem beginKey_idle (h : s.ksBusy = false) (n : Nat) (load : Bool) :
    s.beginKey n load = { s with ksBusy := true, ksOp := some (n % 64, load) } := if_neg (ne_true_of_eq_false h)

theorem beginKey_busy (h : s.ksBusy = true) (n : Nat) (load : Bool) : s.beginKey n load = s := if_pos h

theorem ksctlWrite_busy (h : s.ksBusy = true) (v : Word) : s.ksctlWrite v = s := by
  unfold State.ksctlWrite
  split
  · exact beginKey_busy h _ _
  · exact beginKey_busy h _ _
  · rfl

/-- OP 1 of KSCTL loads, and OP 2 clears (R332). -/
theorem ksctlWrite_idle {v : Word} (hop : bits v 61 2 = 1 ∨ bits v 61 2 = 2) (h : s.ksBusy = false) :
    s.ksctlWrite v = { s with ksBusy := true, ksOp := some ((bits v 0 6).toNat % 64, bits v 61 2 == 1) } := by
  unfold State.ksctlWrite
  rcases hop with hop | hop
  · rw [hop]
    exact beginKey_idle h _ _
  · rw [hop]
    exact beginKey_idle h _ _

theorem execKeySlotDone_load {n : Nat} (h : s.ksOp = some (n, true)) :
    execKeySlotDone s = .next { s.loadKey n with ksBusy := false, ksOp := none } := by
  rw [execKeySlotDone, h]
  rfl

theorem execKeySlotDone_clear {n : Nat} (h : s.ksOp = some (n, false)) : execKeySlotDone s =
    .next { s with keys := tset {} n { s.key n with full := false } s.keys, ksBusy := false, ksOp := none } := by
  rw [execKeySlotDone, h]
  rfl

/-! ## Host accesses that fail -/

theorem failHostRead_eq (s : State) (key : Nat) (out : Bool) : (if out then s.failHostRead key else s) =
    if out = true ∧ (s.act key).hostFail = false then
      { s.countHostError with hlRerr := true }.modAct key (fun a => { a with hostFail := true }) else s := by
  unfold State.failHostRead
  cases out with
  | false => simp
  | true =>
    cases (s.act key).hostFail with
    | false => rfl
    | true => rfl

theorem hostReader_slot {core slot : Nat} (h : slot < 8) :
    s.hostReader core slot = (8 * core + slot, (s.act (8 * core + slot)).hostRead.isSome) := by
  unfold State.hostReader
  split
  · omega
  · omega
  · omega
  · rw [Nat.mod_eq_of_lt h]

/-- A core's engines are its readers 8, 9 and 10 (log entry 75). -/
theorem hostReader_engine (s : State) (core : Nat) (e : Eng) :
    s.hostReader core (match e with | .matrix => 8 | .copy => 9 | .col => 10) = (engKey core e, s.engReadsHost core e) := by
  cases e with
  | matrix => rfl
  | copy => rfl
  | col => rfl

theorem execHostReadFail_of_reader {core slot key : Nat} {out : Bool} (h : s.hostReader core slot = (key, out)) :
    execHostReadFail core slot s = .next (if out = true ∧ (s.act key).hostFail = false then
      { s.countHostError with hlRerr := true }.modAct key (fun a => { a with hostFail := true }) else s) := by
  rw [execHostReadFail, h, ← failHostRead_eq]

theorem execHostWriteFail_idle (h : s.posted = none) : execHostWriteFail s = .next s := by rw [execHostWriteFail, h]

/-- The posted write that fails is undone (R327, log entry 122). -/
theorem execHostWriteFail_posted {a : Nat} {old : List Byte} (h : s.posted = some (a, old)) : execHostWriteFail s =
    .next { s.countHostError with hlWerr := true, hlIrqs := s.hlIrqs + 1, host := mwrite a old s.host, posted := none } := by
  rw [execHostWriteFail, h]

/-! ## The link that goes down -/

theorem failHostRead_marks (s : State) (k : Nat) : ((s.failHostRead k).act k).hostFail = true := by
  unfold State.failHostRead
  split
  · next h => exact h
  · rw [State.act_modAct]

theorem failHostRead_other {k j : Nat} (h : j ≠ k) : (s.failHostRead k).act j = s.act j := by
  unfold State.failHostRead
  split
  · rfl
  · exact State.act_modAct_other _ h _

/-- A read that has failed has failed. -/
theorem failHostRead_keeps {k j : Nat} (h : (s.act j).hostFail = true) : ((s.failHostRead k).act j).hostFail = true := by
  by_cases hj : j = k
  · exact hj ▸ failHostRead_marks s j
  · rw [failHostRead_other hj, h]

theorem failHostReads_mem {k : Nat} (l : List Nat) : ∀ s : State, k ∈ l ∨ (s.act k).hostFail = true →
    ((l.foldl State.failHostRead s).act k).hostFail = true := by
  induction l with
  | nil => exact fun s h => h.resolve_left List.not_mem_nil
  | cons j l ih =>
    refine fun s h => ih (s.failHostRead j) ?_
    rcases h with h | h
    · rcases List.mem_cons.1 h with rfl | h
      · exact .inr (failHostRead_marks s k)
      · exact .inl h
    · exact .inr (failHostRead_keeps h)

theorem failHostReads_other {k : Nat} (l : List Nat) (hk : k ∉ l) (s : State) : (l.foldl State.failHostRead s).act k = s.act k :=
  List.foldlRecOn (motive := fun t : State => t.act k = s.act k) _ _ rfl fun _ ht _ hj =>
    (failHostRead_other (ne_of_mem_of_not_mem hj hk).symm).trans ht

/-- Failing reads change slots and HLERR alone. -/
theorem failHostReads_beside (l : List Nat) (s : State) :
    (l.foldl State.failHostRead s).hlDown = s.hlDown ∧ (l.foldl State.failHostRead s).glb = s.glb := by
  refine List.foldlRecOn (motive := fun t : State => t.hlDown = s.hlDown ∧ t.glb = s.glb) _ _ ⟨rfl, rfl⟩ fun t ht k _ => ?_
  unfold State.failHostRead
  split
  · exact ht
  · exact ht

/-- The slots and engines whose host reads are outstanding. -/
def State.hostReaders (s : State) : List Nat := (s.acts.filter (fun a => a.2.hostRead.isSome)).map (·.1)

theorem mem_hostReaders {k : Nat} (h : (s.act k).hostRead.isSome = true) : k ∈ s.hostReaders := by
  rcases tget_mem ({} : Act) k s.acts with hfree | hmem
  · rw [State.act, hfree] at h
    cases h
  · exact List.mem_map.2 ⟨_, List.mem_filter.2 ⟨hmem, h⟩, rfl⟩

theorem not_mem_hostReaders {k : Nat} (h : ∀ e ∈ s.acts, e.1 = k → e.2.hostRead = none) : k ∉ s.hostReaders := by
  intro hk
  obtain ⟨e, he, hkey⟩ := List.mem_map.1 hk
  obtain ⟨hmem, hread⟩ := List.mem_filter.1 he
  simp [h e hmem hkey] at hread

theorem execHostLinkDown_eq (s : State) : execHostLinkDown s = .next (s.hostReaders.foldl State.failHostRead { s with hlDown := true }) :=
  rfl

/-! ## Power and boot -/

/-- The machine that the boot ROM finds: key slot 0 is full (R330, R339). -/
def State.romReady (s : State) : State :=
  { s.powerUp with
    keys := tset {} 0 { full := true, data := (upTo 4).map Config.bootKey, tweak := (from_ 4 4).map Config.bootKey } s.powerUp.keys }

/-- What the boot ROM leaves: a copy that runs, or recovery. -/
def State.booted (u : State) : State :=
  if u.accepts (u.bootAt 0) then u.bootFrom 0
  else if u.accepts (u.bootAt copySpan) then u.bootFrom 1
  else { u with boot := .recovery }

/-- A raise of the rollback counter that has waited, carried out (R330). -/
def State.rollRaised (u : State) (v : Word) : State := { u with rollWait := none }.raiseRollback v

/-- What waits for boot is carried out where boot has completed. -/
def State.rollCarried (u : State) : State :=
  if u.boot = .running then (u.rollWait.map u.rollRaised).getD u else u

theorem execPowerGood_eq (s : State) : execPowerGood s = .next s.romReady.booted.rollCarried := by
  unfold execPowerGood
  extract_lets s1 s2 s3
  have h3 : s3 = s.romReady.booted := rfl
  rw [h3]
  unfold State.rollCarried
  generalize s.romReady.booted = u
  split
  · next hboot hwait =>
    rw [if_pos hboot, hwait]
    rfl
  · next hnot =>
    split
    · next hboot =>
      cases hwait : u.rollWait with
      | none => rfl
      | some v => exact absurd hwait (hnot v hboot)
    · rfl

theorem rollRaised_eq (u : State) (v : Word) : ∃ x, u.rollRaised v = { u with rollback := x, rollWait := none } := by
  unfold State.rollRaised State.raiseRollback
  split
  · exact ⟨v, rfl⟩
  · exact ⟨u.rollback, rfl⟩

/-- The counter never falls (R330). -/
theorem fused_rollRaised (u : State) (v : Word) : u.fused ≤ (u.rollRaised v).fused := by
  unfold State.rollRaised State.raiseRollback
  split
  · next h => exact h.le.trans (Nat.le_max_right _ _)
  · exact le_rfl

/-- What the boot ROM keeps and what it leaves at its reset value (R329, R330, R339). -/
structure PoweredUp (s u : State) : Prop where
  flash : u.flash = s.flash
  host  : u.host = s.host
  dies  : u.diesOut = false
  os    : u.osUp = false
  slots : u.acts = []
  keyed : (u.key 0).full = true
  fused : s.fused ≤ u.fused

theorem poweredUp_romReady (s : State) : PoweredUp s s.romReady := by
  have hkey (k : KeySlot) (l : Tab KeySlot) (hk : k.full = true) : (tget {} 0 (tset {} 0 k l)).full = true := by
    rw [tget_tset_same, hk]
  exact ⟨rfl, rfl, rfl, rfl, rfl, hkey _ _ rfl, le_rfl⟩

theorem PoweredUp.rollRaised (h : PoweredUp s u) (v : Word) : PoweredUp s (u.rollRaised v) := by
  have hfused := h.fused.trans (fused_rollRaised u v)
  obtain ⟨x, hx⟩ := rollRaised_eq u v
  rw [hx] at hfused ⊢
  exact ⟨h.flash, h.host, h.dies, h.os, h.slots, h.keyed, hfused⟩

/-- What waits for boot is carried out, or nothing is done. -/
theorem rollCarried_cases (u : State) : u.rollCarried = u ∨ ∃ v, u.rollCarried = u.rollRaised v := by
  unfold State.rollCarried
  cases u.rollWait with
  | none => exact .inl (ite_self _)
  | some v =>
    split
    · exact .inr ⟨v, rfl⟩
    · exact .inl rfl

theorem PoweredUp.rollCarried (h : PoweredUp s u) : PoweredUp s u.rollCarried := by
  rcases rollCarried_cases u with hu | ⟨v, hu⟩
  · exact hu.symm ▸ h
  · exact hu.symm ▸ h.rollRaised v

theorem PoweredUp.booted (h : PoweredUp s u) : PoweredUp s u.booted := by
  obtain ⟨hflash, hhost, hdies, hos, hslots, hkeyed, hfused⟩ := h
  unfold State.booted
  split
  · exact ⟨hflash, hhost, hdies, hos, hslots, hkeyed, hfused⟩
  split
  · exact ⟨hflash, hhost, hdies, hos, hslots, hkeyed, hfused⟩
  · exact ⟨hflash, hhost, hdies, hos, hslots, hkeyed, hfused⟩

/-- A raise of the counter leaves what the boot ROM has chosen. -/
theorem boot_rollCarried (u : State) :
    u.rollCarried.boot = u.boot ∧ u.rollCarried.bootCopy = u.bootCopy ∧ u.rollCarried.meas = u.meas := by
  rcases rollCarried_cases u with hu | ⟨v, hu⟩
  · rw [hu]
    exact ⟨rfl, rfl, rfl⟩
  · obtain ⟨x, hx⟩ := rollRaised_eq u v
    rw [hu, hx]
    exact ⟨rfl, rfl, rfl⟩

/-- The boot ROM judges the copies that were in the flash before. -/
theorem romReady_accepts (s : State) (c : BootCopy) : s.romReady.accepts c = s.accepts c := rfl

theorem romReady_bootAt (s : State) (a : Nat) : s.romReady.bootAt a = s.bootAt a := rfl

theorem booted_first (h : s.accepts (s.bootAt 0) = true) : s.romReady.booted = s.romReady.bootFrom 0 :=
  if_pos ((romReady_accepts s _).trans h)

theorem booted_second (h0 : s.accepts (s.bootAt 0) = false) (h1 : s.accepts (s.bootAt (2 ^ 30)) = true) :
    s.romReady.booted = s.romReady.bootFrom 1 :=
  (if_neg (ne_true_of_eq_false ((romReady_accepts s _).trans h0))).trans (if_pos ((romReady_accepts s _).trans h1))

theorem booted_recovery (h0 : s.accepts (s.bootAt 0) = false) (h1 : s.accepts (s.bootAt (2 ^ 30)) = false) :
    s.romReady.booted = { s.romReady with boot := .recovery } :=
  (if_neg (ne_true_of_eq_false ((romReady_accepts s _).trans h0))).trans
    (if_neg (ne_true_of_eq_false ((romReady_accepts s _).trans h1)))

/-- The boot ROM runs copy A or copy B where it accepts one, and records its digest; else it enters recovery (R329, R330). -/
theorem booted_chooses (s : State) :
    s.romReady.booted.boot =
      (if s.accepts (s.bootAt 0) = true ∨ s.accepts (s.bootAt (2 ^ 30)) = true then .running else .recovery) ∧
    (s.accepts (s.bootAt 0) = true →
      s.romReady.booted.bootCopy = 0 ∧ s.romReady.booted.meas = [BootCopy_digest (s.bootAt 0)]) ∧
    (s.accepts (s.bootAt 0) = false → s.accepts (s.bootAt (2 ^ 30)) = true →
      s.romReady.booted.bootCopy = 1 ∧ s.romReady.booted.meas = [BootCopy_digest (s.bootAt (2 ^ 30))]) := by
  refine ⟨?_, fun h0 => ?_, fun h0 h1 => ?_⟩
  · cases h0 : s.accepts (s.bootAt 0) with
    | true =>
      rw [booted_first h0, if_pos (.inl rfl)]
      rfl
    | false =>
      cases h1 : s.accepts (s.bootAt (2 ^ 30)) with
      | true =>
        rw [booted_second h0 h1, if_pos (.inr rfl)]
        rfl
      | false => rw [booted_recovery h0 h1, if_neg (by simp)]
  · rw [booted_first h0]
    exact ⟨rfl, rfl⟩
  · rw [booted_second h0 h1]
    exact ⟨rfl, rfl⟩

theorem computeDiesReleased (s : State) :
    (s.osUp = true → s.tooHot = false → execComputeDieResetRelease s = .next { s with diesOut := true }) ∧
    (s.osUp = false ∨ s.tooHot = true → execComputeDieResetRelease s = .next s) := by
  unfold execComputeDieResetRelease
  refine ⟨fun hos hcool => ?_, fun h => ?_⟩
  · rw [if_pos (by simp [hos, hcool])]
  · rw [if_neg (by simpa [or_iff_not_imp_left] using h)]

theorem recoveryCopyWritten (s : State) (n : Nat) (c : BootCopy) :
    (s.boot = .recovery → s.copyWritten = false → n < 2 → execRecoveryCopyWrite n c s =
      .next { s with flash := mwrite (2 ^ 30 * n) (BootCopy_bytes c) s.flash, copyWritten := true }) ∧
    (s.boot ≠ .recovery ∨ s.copyWritten = true → execRecoveryCopyWrite n c s = .next s) := by
  unfold execRecoveryCopyWrite
  refine ⟨fun hboot hnew hn => ?_, fun h => ?_⟩
  · rw [if_pos (by simp [hboot, hnew, hn])]
    rfl
  · rw [if_neg]
    rcases h with h | h
    · simp [h]
    · simp [h]

/-! ## Registers of the system dies -/

theorem hlerrWrite_eq (s : State) (v : Word) : s.hlerrWrite v = { s with
    hlRerr := s.hlRerr && !v.getLsbD 1
    hlWerr := s.hlWerr && !v.getLsbD 0
    hlCount := if v.getLsbD 0 || v.getLsbD 1 then 0 else s.hlCount } := by
  unfold State.hlerrWrite
  cases v.getLsbD 0 || v.getLsbD 1 with
  | true => rfl
  | false => rfl

theorem execRollbackRaise_eq (s : State) (v : Word) : execRollbackRaise v s = .next (match s.boot with
    | .running => if s.fused < v.toNat then { s with rollback := v } else s
    | .off => { s with rollWait := some (match s.rollWait with | some x => if x.toNat < v.toNat then v else x | none => v) }
    | .recovery => s) := by
  unfold execRollbackRaise State.raiseRollback
  cases s.boot with
  | running => rfl
  | off => rfl
  | recovery => rfl

/-- Settles O42: each event by the one case that its conditions lead to; the boot ROM by the copies that it accepts, and the link that
goes down by the reads that are outstanding. -/
theorem platformEvents : Obligations.PlatformEvents := by
  refine ⟨fun s n h => ⟨congrArg _ (beginKey_idle h n true), congrArg _ (beginKey_idle h n false)⟩,
    fun s n v h => ⟨congrArg _ (beginKey_busy h n true), congrArg _ (beginKey_busy h n false), congrArg _ (ksctlWrite_busy h v)⟩,
    fun s n => ⟨execKeySlotDone_load, execKeySlotDone_clear⟩,
    fun s core => ⟨fun slot h => execHostReadFail_of_reader (hostReader_slot h),
      fun e => execHostReadFail_of_reader (hostReader_engine s core e)⟩,
    fun s => ⟨execHostWriteFail_idle, fun _ _ => execHostWriteFail_posted, ?_, rfl, rfl, rfl, rfl⟩, fun s => ?_,
    computeDiesReleased, recoveryCopyWritten,
    execRollbackRaise_eq, fun s nonce => rfl, fun s v n d => ?_⟩
  · obtain ⟨hdown, hglb⟩ := failHostReads_beside s.hostReaders { s with hlDown := true }
    exact ⟨_, execHostLinkDown_eq s, hdown, hglb, fun k hk => failHostReads_mem _ _ (.inl (mem_hostReaders hk)),
      fun k hk => failHostReads_other _ (not_mem_hostReaders hk) _⟩
  · obtain ⟨hflash, hhost, hdies, hos, hslots, hkeyed, hfused⟩ := (poweredUp_romReady s).booted.rollCarried
    obtain ⟨hboot, hcopy, hmeas⟩ := boot_rollCarried s.romReady.booted
    refine ⟨_, execPowerGood_eq s, hflash, hhost, hdies, hos, hslots, hkeyed, hfused, ?_⟩
    rw [hboot, hcopy, hmeas]
    exact booted_chooses s
  · exact ⟨rfl, rfl, fun h => congrArg _ (if_pos h), fun h => congrArg _ (if_pos h), rfl, rfl,
      fun hop h => congrArg _ (ksctlWrite_idle hop h), fun h => congrArg _ (if_pos h), congrArg _ (hlerrWrite_eq s v),
      fun _ _ => rfl, fun _ => ⟨rfl, rfl⟩, rfl, rfl⟩

end Sys2Proof.Machine
end
